-- ==== Sys2Proof/Word.lean ====
section
/-!
DEFINITION. The words of the device: bytes, 32-bit registers (R3), byte strings, stamps (R8) and the sparse tables in
which State keeps everything that is indexed.
-/
namespace Sys2Proof

/-- One byte. -/
abbrev Byte := BitVec 8

/-- One 32-bit register word (R3). -/
abbrev Word := BitVec 32

/-- A byte string, first byte first. -/
abbrev Bytes := List Byte

/-- A Meridian stamp: an unsigned count of 1/256 ns (R8). -/
abbrev Stamp := Nat

/-- Sparse data by key, as a list of pairs; the operations of `Machine/Tbl.lean` keep the keys strictly rising. -/
structure Tbl (α : Type) where
  cells : List (Nat × α)
  deriving DecidableEq, Repr

/-- Who makes a register access (R412). -/
inductive Requester where
  /-- A host, through the BAR of a function. -/
  | host (f : Nat)
  /-- A control core. -/
  | core
  /-- The JTAG port, through the debug unit. -/
  | jtag
  deriving DecidableEq, Repr

/-- The location of a register access (R410, R412). -/
inductive Loc where
  /-- An offset in the device registers. -/
  | dev (off : Nat)
  /-- An offset in the function page of function `f`. -/
  | page (f off : Nat)
  /-- An offset in the MSI-X BAR of function `f` (R293). -/
  | msix (f off : Nat)
  deriving DecidableEq, Repr

/-- How a Vucel packet reached the firmware (R330). -/
inductive Transport where
  | admin | mailbox | smbus | mgmt
  deriving DecidableEq, Repr

/-- A Vucel command as its transport carries it (R330, R331, R333). -/
structure Cmd where
  via : Transport
  /-- The function that issued it; 0 for a command out of band (R337). -/
  issuer : Nat
  /-- What the carrier holds: the header, the parameters and any bytes beyond them. -/
  packet : Bytes
  /-- The parameters of an INDIRECT command as the firmware reads them, none when the read fails (R331). -/
  indirect : Option Bytes := none
  /-- The 32 bytes of an administration entry (R306). -/
  entry : Bytes := []
  deriving DecidableEq, Repr

/-- A read of host memory that ends in an error (R289). -/
inductive FailedRead where
  /-- A read of the DMA engine, by its burst. -/
  | burst (id : Nat)
  /-- The firmware's read of the next entry of a physical function's administration queue, or of the packet it names. -/
  | admin (pf : Nat)
  deriving DecidableEq, Repr

/-- Where a memory error is met (R15, R443). -/
inductive Ecc where
  /-- In the bytes of a frame. -/
  | frame (id : Nat)
  /-- In a bucket of the table partition. -/
  | bucket (b : Nat)
  /-- In the own state of an engine, by block number of R320. -/
  | engine (block : Nat)
  /-- One that is corrected, on die 0 logic, 1 I/O, 2 or 3 stacked SRAM. The table has no row of its own for it. -/
  | corrected (die : Nat)
  /-- In a word of the MRAM, by byte offset; and one that is corrected (R443), for which the table has no row of its own either. -/
  | mram (addr : Nat)
  | mramCorrected (addr : Nat)
  deriving DecidableEq, Repr

end Sys2Proof
end

