-- ==== Sys2Proof/Syntax.lean ====
section
/-!
DEFINITION. The commands and events that reach the device, with their operands.
-/
namespace Sys2Proof

/-- The commands and events of the device: one constructor per row of the table of operations and events. A command names
its operands; an event of the device names what it happens to. -/
inductive Instr where
  /-- FRAME_RECEIVE: A frame arrives at a port and is stamped and checked. The receive injector acts on it, MAC control frames are handled, MACsec frames are queued, and buffers are requested (R363) -/
  | frameReceive (port : Nat) (bytes : Bytes) (fcsOk : Bool)
  /-- FC_REFRESH: While held bytes stay at or above XON, the flow-control frame is sent again each half QUANTA (R369) -/
  | fcRefresh (port : Nat) (prio : Nat)
  /-- PAUSE_EXPIRY: The pause time of the transmitter runs out, and its queues become eligible again (R367) -/
  | pauseExpiry (port : Nat)
  /-- PFC_EXPIRY: The stop time of a PFC priority runs out, and its class resumes (R368) -/
  | pfcExpiry (port : Nat) (prio : Nat)
  /-- PAUSE_WDOG_EXPIRY: A stop has lasted LIMIT while a gate list is active; the watchdog ends it and starts the holdoff (R371) -/
  | pauseWdogExpiry (port : Nat) (prio : Nat)
  /-- WDOG_HOLDOFF_END: The holdoff ends, and the port obeys pause frames again (R371) -/
  | wdogHoldoffEnd (port : Nat) (prio : Nat)
  /-- LINK_UP: A port's link comes up; CHANGED is set and an EXCEPTION record is written (R361) -/
  | linkUp (port : Nat) (phyOk : Bool)
  /-- LINK_DOWN: A port's link fails; its queues become ineligible and any frame in transmission is aborted (R361) -/
  | linkDown (port : Nat)
  /-- PORT_ENABLE: ENABLE of PRT_PORT_CFG goes from 0 to 1, and the configured mode is applied (R360) -/
  | portEnable (req : Requester) (p : Nat) (w : Word)
  /-- PORT_DISABLE: ENABLE of PRT_PORT_CFG goes to 0, and the port stops (R383) -/
  | portDisable (req : Requester) (p : Nat) (w : Word)
  /-- STEPDOWN_INTERVAL: A 1 ms load interval ends; the port may step down or return (R375) -/
  | stepdownInterval (port : Nat)
  /-- STEPDOWN_ACCEPT_TIMEOUT: The partner has not accepted a lower mode within 50 ms; the port returns to MODE (R376) -/
  | stepdownAcceptTimeout (port : Nat)
  /-- REORDER_TIMEOUT: A frame held by a REORDER injector is released after 1 ms (R379) -/
  | reorderTimeout (func : Bool) (tx : Bool) (n : Nat)
  /-- LEGEND_MAKE: The ingress front end builds a legend: stamp, hash, function, generation, sheet charge, order-tracker slot, VLAN ingress check, and region choice (R466) -/
  | legendMake (frame : Nat)
  /-- DISPATCH: The dispatcher gives a head legend to an eligible thread, which is set up under R93 (R65) -/
  | dispatch (region : Nat)
  /-- REGION_MSG_DELIVER: An event signal for another cluster arrives through the region queue and sets REGION_MSG pending (R74) -/
  | regionMsgDeliver (region : Nat)
  /-- ADD: The ALU adds two registers (R96) -/
  | add (t : Nat) (d : BitVec 5) (a : BitVec 5) (b : BitVec 5) (sh : BitVec 5)
  /-- SUB: The ALU subtracts two registers (R96) -/
  | sub (t : Nat) (d : BitVec 5) (a : BitVec 5) (b : BitVec 5) (sh : BitVec 5)
  /-- AND: The ALU takes the bitwise AND (R96) -/
  | and (t : Nat) (d : BitVec 5) (a : BitVec 5) (b : BitVec 5) (sh : BitVec 5)
  /-- OR: The ALU takes the bitwise OR (R96) -/
  | or (t : Nat) (d : BitVec 5) (a : BitVec 5) (b : BitVec 5) (sh : BitVec 5)
  /-- XOR: The ALU takes the bitwise XOR (R96) -/
  | xor (t : Nat) (d : BitVec 5) (a : BitVec 5) (b : BitVec 5) (sh : BitVec 5)
  /-- SHL: The ALU shifts left (R96) -/
  | shl (t : Nat) (d : BitVec 5) (a : BitVec 5) (b : BitVec 5) (sh : BitVec 5)
  /-- SHR: The ALU shifts right logically (R96) -/
  | shr (t : Nat) (d : BitVec 5) (a : BitVec 5) (b : BitVec 5) (sh : BitVec 5)
  /-- SAR: The ALU shifts right arithmetically (R96) -/
  | sar (t : Nat) (d : BitVec 5) (a : BitVec 5) (b : BitVec 5) (sh : BitVec 5)
  /-- SLT: The ALU sets the result on a signed less-than (R96) -/
  | slt (t : Nat) (d : BitVec 5) (a : BitVec 5) (b : BitVec 5) (sh : BitVec 5)
  /-- SLTU: The ALU sets the result on an unsigned less-than (R96) -/
  | sltu (t : Nat) (d : BitVec 5) (a : BitVec 5) (b : BitVec 5) (sh : BitVec 5)
  /-- MUL: The ALU multiplies and keeps the low 32 bits (R96) -/
  | mul (t : Nat) (d : BitVec 5) (a : BitVec 5) (b : BitVec 5) (sh : BitVec 5)
  /-- MINU: The ALU takes the unsigned minimum (R96) -/
  | minu (t : Nat) (d : BitVec 5) (a : BitVec 5) (b : BitVec 5) (sh : BitVec 5)
  /-- MAXU: The ALU takes the unsigned maximum (R96) -/
  | maxu (t : Nat) (d : BitVec 5) (a : BitVec 5) (b : BitVec 5) (sh : BitVec 5)
  /-- EXT: The ALU extracts a bit field (R96) -/
  | ext (t : Nat) (d : BitVec 5) (a : BitVec 5) (b : BitVec 5) (sh : BitVec 5)
  /-- INS: The ALU inserts a bit field (R96) -/
  | ins (t : Nat) (d : BitVec 5) (a : BitVec 5) (b : BitVec 5) (sh : BitVec 5)
  /-- CRC: The ALU computes CRC32C over a register (R96) -/
  | crc (t : Nat) (d : BitVec 5) (a : BitVec 5) (b : BitVec 5) (sh : BitVec 5)
  /-- BSWAP: The ALU reverses the bytes of a register (R96) -/
  | bswap (t : Nat) (d : BitVec 5) (a : BitVec 5) (b : BitVec 5) (sh : BitVec 5)
  /-- ADDI: Adds a sign-extended immediate (R96) -/
  | addi (t : Nat) (d : BitVec 5) (a : BitVec 5) (imm : BitVec 16)
  /-- ANDI: ANDs with a zero-extended immediate (R96) -/
  | andi (t : Nat) (d : BitVec 5) (a : BitVec 5) (imm : BitVec 16)
  /-- ORI: ORs with a zero-extended immediate (R96) -/
  | ori (t : Nat) (d : BitVec 5) (a : BitVec 5) (imm : BitVec 16)
  /-- XORI: XORs with a zero-extended immediate (R96) -/
  | xori (t : Nat) (d : BitVec 5) (a : BitVec 5) (imm : BitVec 16)
  /-- LUI: Loads an immediate into the upper half (R96) -/
  | lui (t : Nat) (d : BitVec 5) (a : BitVec 5) (imm : BitVec 16)
  /-- SLTI: Sets on a signed comparison with an immediate (R96) -/
  | slti (t : Nat) (d : BitVec 5) (a : BitVec 5) (imm : BitVec 16)
  /-- BR: A conditional branch (R96) -/
  | br (t : Nat) (cnd : BitVec 3) (a : BitVec 5) (b : BitVec 5) (off : BitVec 13)
  /-- JMP: An unconditional jump (R96) -/
  | jmp (t : Nat) (rsv : BitVec 10) (target : BitVec 14)
  /-- CALL: A call that pushes the return stack (R96) -/
  | call (t : Nat) (rsv : BitVec 10) (target : BitVec 14)
  /-- RET: A return that pops the return stack and may change the mode (R96) -/
  | ret (t : Nat) (rsv : BitVec 10) (target : BitVec 14)
  /-- JCLASS: Control passes to the program bound to lg.CLASS (R92) -/
  | jclass (t : Nat) (rsv : BitVec 10) (target : BitVec 14)
  /-- JR: A jump to a register target, vendor mode only (R96) -/
  | jr (t : Nat) (a : BitVec 5) (rsv : BitVec 21)
  /-- LOOP: Runs the following body COUNT times (R96) -/
  | loop (t : Nat) (count : BitVec 8) (body : BitVec 10) (rsv : BitVec 8)
  /-- PW: Loads from or stores to the parse window (R96) -/
  | pw (t : Nat) (d : BitVec 5) (a : BitVec 5) (w : Bool) (sz : BitVec 2) (rsv : BitVec 5) (off : BitVec 8)
  /-- LG: Loads or stores a legend field (R98) -/
  | lg (t : Nat) (d : BitVec 5) (w : Bool) (word : BitVec 4) (lsb : BitVec 5) (wm1 : BitVec 5) (rsv : BitVec 6)
  /-- SC: Accesses scratch or the region store, including the atomic add (R94) -/
  | sc (t : Nat) (d : BitVec 5) (a : BitVec 5) (w : Bool) (sz : BitVec 2) (off : BitVec 13)
  /-- BUF: Reads or writes a frame byte beyond the window, as a DMA wait (R96) -/
  | buf (t : Nat) (d : BitVec 5) (a : BitVec 5) (w : Bool) (sz : BitVec 2) (off : BitVec 13)
  /-- LOOKUP_EXACT: Issues an exact-match table request into a lookup slot (R99) -/
  | lookupExact (t : Nat) (slot : BitVec 2) (table : BitVec 6) (keyq : BitVec 3) (pre : Bool) (rsv : BitVec 12)
  /-- LOOKUP_LPM4: Issues an IPv4 longest-prefix request in the function's VRF (R99) -/
  | lookupLpm4 (t : Nat) (slot : BitVec 2) (table : BitVec 6) (keyq : BitVec 3) (pre : Bool) (rsv : BitVec 12)
  /-- LOOKUP_LPM6: Issues an IPv6 longest-prefix request in the function's VRF (R99) -/
  | lookupLpm6 (t : Nat) (slot : BitVec 2) (table : BitVec 6) (keyq : BitVec 3) (pre : Bool) (rsv : BitVec 12)
  /-- CLASSIFY: Issues a classifier request against the pinned sheet (R99) -/
  | classify (t : Nat) (slot : BitVec 2) (table : BitVec 6) (keyq : BitVec 3) (pre : Bool) (rsv : BitVec 12)
  /-- LOOKUP_PREFETCH: A LOOKUP with PRE = 1 reads the buckets and changes nothing (R144) -/
  | lookupPrefetch (t : Nat) (slot : BitVec 2) (kind : BitVec 2) (table : BitVec 6) (keyq : BitVec 3) (rsv : BitVec 12)
  /-- LDRES: Reads a lookup slot's status or result, stalling if the reply is outstanding (R99) -/
  | ldres (t : Nat) (d : BitVec 5) (slot : BitVec 2) (part : BitVec 2) (rsv : BitVec 17)
  /-- RESERVE: A channel reserve takes a free slot or enters WAIT (R75) -/
  | reserve (t : Nat) (ch : BitVec 3) (d : BitVec 5) (rv : BitVec 2) (st : BitVec 5) (rsv : BitVec 9)
  /-- WRITE: A channel write fills a reserved slot (R75) -/
  | write (t : Nat) (ch : BitVec 3) (d : BitVec 5) (rv : BitVec 2) (st : BitVec 5) (rsv : BitVec 9)
  /-- COMMIT: A channel commit makes the slot visible and raises CH_DATA (R75) -/
  | commit (t : Nat) (ch : BitVec 3) (d : BitVec 5) (rv : BitVec 2) (st : BitVec 5) (rsv : BitVec 9)
  /-- READ: A channel read takes the oldest committed entry, frees its slot and raises CH_SPACE, or waits (R75) -/
  | read (t : Nat) (ch : BitVec 3) (d : BitVec 5) (rv : BitVec 2) (st : BitVec 5) (rsv : BitVec 9)
  /-- WAIT: An event wait completes on a pending masked event or enters WAIT (R73) -/
  | wait (t : Nat) (d : BitVec 5) (a : BitVec 5) (rsv : BitVec 14)
  /-- SIGNAL: Raises a SOFT event in the cluster or sends a message to another cluster (R72) -/
  | signal (t : Nat) (cluster : BitVec 2) (thread : BitVec 5) (ev : BitVec 5) (rsv : BitVec 12)
  /-- TIMER: Sets the thread timer's target stamp (R74) -/
  | timer (t : Nat) (a : BitVec 5) (rsv : BitVec 19)
  /-- TIME: Reads the distributed Meridian copy into three registers (R96) -/
  | time (t : Nat) (d : BitVec 5) (rsv : BitVec 21)
  /-- LIBCALL: Calls a vendor library entry (R109) -/
  | libcall (t : Nat) (entry : BitVec 8) (rsv : BitVec 18)
  /-- EMIT: END EMIT releases the frame, and exceptions, the slow path and emission are acted on (R118) -/
  | emit (t : Nat) (reason : BitVec 8) (rsv : BitVec 16)
  /-- DROP: END DROP drops the frame and counts it (R100) -/
  | drop (t : Nat) (reason : BitVec 8) (rsv : BitVec 16)
  /-- RECIRC: END RECIRC recirculates the frame under the traverse limit and R118 (R131) -/
  | recirc (t : Nat) (reason : BitVec 8) (rsv : BitVec 16)
  /-- SLOW: END SLOW hands the frame to the control cluster (R100) -/
  | slow (t : Nat) (reason : BitVec 8) (rsv : BitVec 16)
  /-- BRK: Halts the thread as a HALT write would (R96) -/
  | brk (t : Nat) (rsv : BitVec 26)
  /-- TABLE_LOOKUP: The table engine serves an exact-match or LPM request, replies and may send a refresh (R143) -/
  | tableLookup (r : Nat)
  /-- LOOKUP_REPLY: A table reply reaches the thread's slot, and a stalled reader resumes (R99) -/
  | lookupReply (r : Nat)
  /-- CLASSIFY_REPLY: A classifier reply writes the slot and CLASS, QUEUE and COLOUR, and applies the class map (R122) -/
  | classifyReply (r : Nat)
  /-- THREAD_TIMER_EXPIRY: The Meridian copy reaches the thread timer's target, and TIMER is raised (R74) -/
  | threadTimerExpiry (t : Nat)
  /-- CLOSED_WAIT_DETECT: The event unit detects a closed wait and sets WAIT_CLOSED in one thread (R79) -/
  | closedWaitDetect (core : Nat)
  /-- HALT: A HALT write stops a thread at its next instruction boundary (R80) -/
  | halt (req : Requester) (t : Nat)
  /-- RESUME: A RESUME write returns a halted thread to the state it would have reached (R80) -/
  | resume (req : Requester) (t : Nat)
  /-- STEP: A STEP write executes one instruction and halts again (R80) -/
  | step (req : Requester) (t : Nat)
  /-- ABANDON: An ABANDON write releases a halted thread's channel reservations (R81) -/
  | abandon (req : Requester) (t : Nat)
  /-- POKE: A POKE write raises DEBUG in the thread (R90) -/
  | poke (req : Requester) (t : Nat)
  /-- DBG_THREAD_GREG_WRITE: A write of a selected thread's register takes effect only while the thread is halted (R89) -/
  | dbgThreadGregWrite (req : Requester) (k : Nat) (w : Word)
  /-- DBG_THREAD_PC_WRITE: A write of a selected thread's PC takes effect only while the thread is halted (R89) -/
  | dbgThreadPcWrite (req : Requester) (w : Word)
  /-- HALT_FRAME_TIMEOUT: A frame held by a thread halted for 2^44 ns is dropped (R82) -/
  | haltFrameTimeout (t : Nat)
  /-- THREAD_ENABLE_WRITE: A write of the thread's ENABLE; with 0, the thread becomes DISABLED after its frame (R68) -/
  | threadEnableWrite (req : Requester) (t : Nat) (w : Word)
  /-- CHANNEL_DISABLE: A write of 0 to a channel's ENABLE discards its entries and reservations and releases blocked threads (R78) -/
  | channelDisable (req : Requester) (n : Nat) (w : Word)
  /-- INSET_LOAD: The loader checks a Tlamond object, then places it and commits it (R105) -/
  | insetLoad (c : Cmd) (obj : Option Bytes)
  /-- INSET_BIND: Sets class map and hook entries (R104) -/
  | insetBind (c : Cmd)
  /-- INSET_UNLOAD: Unloads the function's inset after a drain (R105) -/
  | insetUnload (c : Cmd)
  /-- INSET_COMMIT_APPLY: A region's dispatcher applies an inset commit between two dispatches (R105) -/
  | insetCommitApply (f : Nat) (region : Nat)
  /-- INSET_DRAIN_END: No thread still runs the old inset; it is freed and the command replies OK (R105) -/
  | insetDrainEnd (f : Nat)
  /-- SHEET_OPEN: Stages a sheet with a new number, optionally copying, or waits for a drain (R125) -/
  | sheetOpen (c : Cmd)
  /-- SHEET_OPEN_TIMEOUT: A SHEET_OPEN waiting under DRAIN_WAIT reaches its timeout and replies SHEET_BUSY (R341) -/
  | sheetOpenTimeout (f : Nat)
  /-- SHEET_PROFILE: Sets or disables a profile of the staged sheet (R125) -/
  | sheetProfile (c : Cmd)
  /-- SHEET_DEFAULT: Sets the staged sheet's default result (R125) -/
  | sheetDefault (c : Cmd)
  /-- RULE_ADD: Adds a batch of rule records to the staged sheet (R121) -/
  | ruleAdd (c : Cmd)
  /-- RULE_DEL: Removes rules from the staged sheet (R125) -/
  | ruleDel (c : Cmd)
  /-- SHEET_SWAP: Sets a commit stamp T = acceptance + 4,000 ns for the staged sheet (R126) -/
  | sheetSwap (c : Cmd)
  /-- SHEET_SWAP_COMMIT: At T, the staged bank becomes active, the old one drains, and the reply is posted (R126) -/
  | sheetSwapCommit (f : Nat)
  /-- SHEET_DISCARD: Empties the staged bank (R125) -/
  | sheetDiscard (c : Cmd)
  /-- SHEET_RELEASE: A draining bank with PINNED 0 past T + 2 ms is released and its rules freed (R128) -/
  | sheetRelease (f : Nat)
  /-- LEARN_APPLY: The engine applies a queued learn request: insert, refresh, move, flap or discard (R150) -/
  | learnApply
  /-- AGE_REFRESH: A refresh reaches its bucket and resets AGE, or finds no entry and is counted (R153) -/
  | ageRefresh
  /-- SCAN_PASS_START: A scanner pass starts every SCAN_PERIOD (R152) -/
  | scanPassStart
  /-- SCAN_VISIT: The scanner visits a bucket: ages entries, removes expired ones, and clears flags (R152) -/
  | scanVisit
  /-- TABLE_CREATE: Sets and enables a FLOW table descriptor and clears the table (R474) -/
  | tableCreate (c : Cmd)
  /-- TABLE_CLEAR_DONE: Clearing of a table ends and CLEARING falls to 0 (R474) -/
  | tableClearDone (table : Nat)
  /-- TABLE_ENABLE: A table's ENABLE goes from 0 to 1 and clearing starts (R474) -/
  | tableEnable (req : Requester) (table : Nat) (w : Word)
  /-- TABLE_DISABLE: A table's ENABLE goes to 0; its lookups miss and nothing is removed (R474) -/
  | tableDisable (req : Requester) (table : Nat) (w : Word)
  /-- TABLE_ENGINE_ENABLE: ENABLE of TBL_CTRL goes to 1 and a scanner pass starts from the first bucket (R152) -/
  | tableEngineEnable (req : Requester) (w : Word)
  /-- TABLE_ENGINE_DISABLE: ENABLE of TBL_CTRL goes to 0; lookups miss and learns and scans stop (R135) -/
  | tableEngineDisable (req : Requester) (w : Word)
  /-- TABLE_GRANT: Sets or clears a function's grant of a table (R136) -/
  | tableGrant (c : Cmd)
  /-- ENTRY_WRITE: Inserts or replaces a host-owned entry (R154) -/
  | entryWrite (c : Cmd)
  /-- ENTRY_DELETE: Removes the entry with the given match (R154) -/
  | entryDelete (c : Cmd)
  /-- ENTRY_READ: Returns the entry with the given match (R139) -/
  | entryRead (c : Cmd)
  /-- TABLE_FLUSH: Removes a table's entries, by function or FID (R469) -/
  | tableFlush (c : Cmd)
  /-- LPM_ADD: Adds or replaces a route (R145) -/
  | lpmAdd (c : Cmd)
  /-- LPM_DEL: Removes a route (R145) -/
  | lpmDel (c : Cmd)
  /-- LPM_FILTER: Writes a VRF's length filter (R146) -/
  | lpmFilter (c : Cmd)
  /-- ECC_UNCORRECTABLE: An uncorrectable SRAM error drops a frame, fails a bucket, or takes an engine into BLOCK reset (R15) -/
  | eccUncorrectable (at_ : Ecc)
  /-- SWITCH_FRAME: The virtual switch handles an emitted frame: isolation, copies, tagging, mirroring, tunnels and learning (R163) -/
  | switchFrame (frame : Nat)
  /-- VLAN_SET: Writes a VLAN entry and replies after earlier replications end (R169) -/
  | vlanSet (c : Cmd)
  /-- VLAN_DEL: Empties a VLAN entry (R163) -/
  | vlanDel (c : Cmd)
  /-- GROUP_SET: Writes a replication group (R168) -/
  | groupSet (c : Cmd)
  /-- GROUP_DEL: Removes a replication group (R168) -/
  | groupDel (c : Cmd)
  /-- TUNNEL_SET: Writes an endpoint record whole (R176) -/
  | tunnelSet (c : Cmd)
  /-- TUNNEL_DEL: Marks an endpoint invalid and replies after copies that read it are written (R176) -/
  | tunnelDel (c : Cmd)
  /-- SWITCH_DRAIN_REPLY: The replications or copies that a switch command waits for have ended, and it replies OK (R169) -/
  | switchDrainReply (cmd : Nat)
  /-- VRF_SET: Sets a function's router MAC (R341) -/
  | vrfSet (c : Cmd)
  /-- CIPHER_ADMIT: A free core takes the next operation, copying its key and record and taking a counter value (R185) -/
  | cipherAdmit (core : Nat)
  /-- CIPHER_OP_COMPLETE: A cipher operation completes, checking or producing its tag and updating replay state (R183) -/
  | cipherOpComplete (core : Nat)
  /-- MACSEC_RX_TIMEOUT: An RX frame not admitted in 500 µs is dropped (R185) -/
  | macsecRxTimeout (frame : Nat)
  /-- TLS_ZERO_READ_DONE: The read after zeroing returns, and the AUTH_FAIL completion is posted (R201) -/
  | tlsZeroReadDone (record : Nat) (ok : Bool)
  /-- CORE_RESEED: A cipher core's generator is reseeded from the TRNG every 2^20 blocks (R187) -/
  | coreReseed (core : Nat)
  /-- KEY_GRANT: Grants or withdraws a range of key slots (R189) -/
  | keyGrant (c : Cmd)
  /-- KEY_WRITE: Commits a key record to a slot at one stamp (R202) -/
  | keyWrite (c : Cmd)
  /-- KEY_ERASE: Makes a slot ERASING (R203) -/
  | keyErase (c : Cmd)
  /-- KEY_ERASE_DONE: Earlier operations have finished; the copies and the slot are zeroed, the slot becomes FREE, and the command replies (R203) -/
  | keyEraseDone (slot : Nat)
  /-- KEY_STATE: Returns a slot's state, NEXT and counts (R190) -/
  | keyState (c : Cmd)
  /-- MACSEC_PORT_SET: Writes a port's MACsec settings (R193) -/
  | macsecPortSet (c : Cmd)
  /-- MACSEC_RXSC_SET: Writes or removes a receive secure channel (R196) -/
  | macsecRxscSet (c : Cmd)
  /-- MACSEC_TX_SWITCH: Binds a port's transmit channel to another slot at a commit stamp (R194) -/
  | macsecTxSwitch (c : Cmd)
  /-- TM_FRAME_ADMIT: The traffic manager applies filter, meter and 802.1CB, and admits each copy to a queue or hands it to DMA (R210) -/
  | tmFrameAdmit (frame : Nat)
  /-- CB_RESET_TIMEOUT: No frame has passed for RESET_MS; TAKE_ANY becomes 1 (R221) -/
  | cbResetTimeout (stream : Nat)
  /-- SCHEDULER_SELECT: When t_free ≤ now + lead, the scheduler selects and releases a head frame with a planned start (R212) -/
  | schedulerSelect (port : Nat)
  /-- RESEQ_TIMEOUT: A held frame reaches MAX_WAIT and is released (R52) -/
  | reseqTimeout (port : Nat)
  /-- FRAME_LAUNCH: The MAC starts a frame at its planned start or on arrival, with one-step PTP, stamping, completion and resequencer release (R214) -/
  | frameLaunch (port : Nat)
  /-- RESIDENCY_DISCARD: A traffic manager visit discards a frame aged ≥ 2^47 ns (R22) -/
  | residencyDiscard (copy : Nat)
  /-- GATE_ENTRY_CHANGE: A gate entry's interval ends and the next entry's gate states apply, with hold or release (R222) -/
  | gateEntryChange (port : Nat)
  /-- GATE_LIST_START: At T, a pending gate list becomes operational, possibly extending or cutting the old cycle (R224) -/
  | gateListStart (port : Nat)
  /-- GATE_SET: Schedules a new gate list at T, or ends the list when ENABLE is 0 (R223) -/
  | gateSet (c : Cmd)
  /-- FILTER_SET: Writes a stream filter record (R218) -/
  | filterSet (c : Cmd)
  /-- FILTER_STATS: Returns and optionally clears filter counts (R217) -/
  | filterStats (c : Cmd)
  /-- METER_SET: Replaces a meter record and fills its buckets (R219) -/
  | meterSet (c : Cmd)
  /-- CB_SET: Writes an 802.1CB stream record and resets its state (R221) -/
  | cbSet (c : Cmd)
  /-- CB_STATS: Returns and optionally clears 802.1CB counts (R221) -/
  | cbStats (c : Cmd)
  /-- SHAPER_ENABLE: A shaper's ENABLE goes from 0 to 1 and its credit is initialised (R216) -/
  | shaperEnable (req : Requester) (n : Nat) (w : Word)
  /-- SHAPER_DISABLE: A shaper's ENABLE goes to 0, and it holds back nothing (R216) -/
  | shaperDisable (req : Requester) (n : Nat) (w : Word)
  /-- TMG_GATE_STAT_READ: A read of word +0x0 latches the four words and clears STEP_SKIP (R233) -/
  | tmgGateStatRead (req : Requester) (p : Nat)
  /-- BUFFER_REQUEST: A party's buffer request is granted, moved up, refused or queued for stamp order (R240) -/
  | bufferRequest (r : Nat)
  /-- BUFFER_STAMP_DECIDE: The Meridian passes a waiting request's stamp + 64 ns, and it is decided in stamp order (R241) -/
  | bufferStampDecide (pool : Nat)
  /-- BUFFER_FREE: The owner frees a chain or share, or a denied free is counted (R243) -/
  | bufferFree (party : Nat) (handle : Nat)
  /-- DESCRIPTOR_FETCH: The engine fetches a ring entry and its descriptor when valid and room allows, refusing bad ones (R300) -/
  | descriptorFetch (qp : Nat) (rx : Bool) (entry : Option Bytes) (desc : Option Bytes)
  /-- DMA_BURST_ISSUE: The engine chooses and issues one burst per direction after the generation check (R245) -/
  | dmaBurstIssue (write : Bool)
  /-- DMA_READ_COMPLETION: Read data returns and is written to the packet buffer, with legend and completion when whole (R248) -/
  | dmaReadCompletion (burst : Nat) (data : Bytes)
  /-- HOST_READ_ERROR: A read ends in an error or timeout; the item ends with HOST_ERR and AER reports it (R289) -/
  | hostReadError (what : FailedRead)
  /-- LG_READ_TIME: At t_read, a late-gather context takes its descriptor, requests a buffer and issues reads (R252) -/
  | lgReadTime (ctx : Nat)
  /-- LG_DEADLINE: At D with no on-time frame, reads are cancelled, the descriptor completes, and SKIP or REPEAT applies (R254) -/
  | lgDeadline (ctx : Nat)
  /-- LG_EVLOG_TIMEOUT: At D + 100 µs, the event-log entry is written if the lateness is still unknown (R255) -/
  | lgEvlogTimeout (ctx : Nat)
  /-- RX_COPY_PLACE: A copy to a function is offered to storage, then placed in a chosen queue pair or dropped (R304) -/
  | rxCopyPlace (copy : Nat)
  /-- IRQ_HOLDOFF_END: A holdoff ends and a deferred MSI-X message is sent (R305) -/
  | irqHoldoffEnd (qp : Nat) (rx : Bool)
  /-- MSIX_VECTOR_UNMASK: Unmasking a vector sends its pending message (R305) -/
  | msixVectorUnmask (f : Nat) (vec : Nat) (w : Word)
  /-- DMA_WINDOW_SET: Registers or removes a prefetchable window (R258) -/
  | dmaWindowSet (c : Cmd)
  /-- TX_DOORBELL: A write of HIF_TX_TAIL advances the transmit ring tail or is dropped (R299) -/
  | txDoorbell (req : Requester) (f : Nat) (n : Nat) (w : Word)
  /-- RX_DOORBELL: A write of HIF_RX_TAIL advances the receive ring tail or is dropped (R299) -/
  | rxDoorbell (req : Requester) (f : Nat) (n : Nat) (w : Word)
  /-- TXC_HEAD_WRITE: A write of HIF_TXC_HEAD consumes transmit completions (R299) -/
  | txcHeadWrite (req : Requester) (f : Nat) (n : Nat) (w : Word)
  /-- RXC_HEAD_WRITE: A write of HIF_RXC_HEAD consumes receive completions (R299) -/
  | rxcHeadWrite (req : Requester) (f : Nat) (n : Nat) (w : Word)
  /-- AQ_DOORBELL: A write of HIF_AQ_TAIL makes admin entries valid (R306) -/
  | aqDoorbell (req : Requester) (f : Nat) (w : Word)
  /-- AQC_HEAD_WRITE: A write of HIF_AQC_HEAD consumes admin completions (R306) -/
  | aqcHeadWrite (req : Requester) (f : Nat) (w : Word)
  /-- QP_ENABLE: Writing ENABLE = 1 restarts a queue pair and clears its counts and write-back (R297) -/
  | qpEnable (req : Requester) (f : Nat) (n : Nat) (w : Word)
  /-- QP_DISABLE: Writing ENABLE = 0 stops new fetches; ACTIVE falls when the last descriptor completes (R297) -/
  | qpDisable (req : Requester) (f : Nat) (n : Nat) (w : Word)
  /-- AQ_ENABLE: A write of the admin queue's ENABLE starts or stops it (R306) -/
  | aqEnable (req : Requester) (f : Nat) (w : Word)
  /-- QP_ASSIGN: Reassigns a function's queue pair range and rewrites HIF_RSS (R295) -/
  | qpAssign (c : Cmd)
  /-- FUNC_PRIV_SET: Sets a virtual function's privileges (R307) -/
  | funcPrivSet (c : Cmd)
  /-- FLR: A function-level reset causes a FUNCTION reset of the functions concerned (R292) -/
  | flr (f : Nat)
  /-- VF_ENABLE_SET: Setting VF Enable makes the first NumVFs virtual functions exist (R292) -/
  | vfEnableSet (pf : Nat)
  /-- VF_ENABLE_CLEAR: Clearing VF Enable resets every VF of the physical function (R292) -/
  | vfEnableClear (pf : Nat)
  /-- NUMVFS_WRITE: A NumVFs write is ignored while VF Enable is 1 (R292) -/
  | numvfsWrite (pf : Nat) (n : Nat)
  /-- PCIE_LINK_DOWN: A link down or hot reset resets every function of the link (R292) -/
  | pcieLinkDown (link : Nat)
  /-- PERST1_N: PERST_N of link 1 in DUAL mode resets link 1 and its functions (R285) -/
  | perst1N
  /-- PERST0_N: PERST_N of link 0 causes a CHIP reset (R285) -/
  | perst0N
  /-- D3HOT_ENTER: A function enters D3hot and stops its fetches and bursts (R290) -/
  | d3hotEnter (f : Nat)
  /-- D0_ENTER: A function returns to D0 with its settings kept, and held posts are delivered (R290) -/
  | d0Enter (f : Nat)
  /-- ATS_INVALIDATION: An invalidation request arrives for cached translations (R288) -/
  | atsInvalidation (f : Nat) (tag : Nat) (page : Nat)
  /-- ATS_INVAL_COMPLETE: Writes and reads using invalidated translations have finished, and the Invalidation Completion is sent (R288) -/
  | atsInvalComplete (f : Nat) (tag : Nat)
  /-- STO_CONN_OFFLOAD: Takes over a TCP connection from a connection record (R268) -/
  | stoConnOffload (c : Cmd)
  /-- STO_CONN_RETURN: Returns a connection to the host, waiting or forcing (R281) -/
  | stoConnReturn (c : Cmd)
  /-- STO_RETURN_TIMEOUT: A non-forced return times out and replies BAD_STATE (R281) -/
  | stoReturnTimeout (conn : Nat)
  /-- STO_CONN_RESUME: A PAUSED connection returns to ACTIVE, optionally with a new RX_SLOT (R278) -/
  | stoConnResume (c : Cmd)
  /-- STO_CONN_REKEY: Sends a KeyUpdate record and changes TX_SLOT (R278) -/
  | stoConnRekey (c : Cmd)
  /-- STO_CONN_STATE: Returns connection state and counts (R282) -/
  | stoConnState (c : Cmd)
  /-- STO_CMD_FETCH: A command entry takes a context and a CapsuleCmd is built (R273) -/
  | stoCmdFetch (qp : Nat) (entry : Option Bytes) (desc : Option Bytes)
  /-- STO_SEGMENT_RX: A TCP segment of a connection is accepted or discarded and acknowledged (R272) -/
  | stoSegmentRx (copy : Nat)
  /-- STO_SEGMENT_TX: The engine sends a segment within the send limits (R271) -/
  | stoSegmentTx (conn : Nat)
  /-- PDU_CAPSULE_RESP: A CapsuleResp completes its command (R279) -/
  | pduCapsuleResp (conn : Nat)
  /-- PDU_C2H_DATA: C2HData is placed and may complete its command (R275) -/
  | pduC2hData (conn : Nat)
  /-- PDU_R2T: An R2T starts an H2CData transfer (R274) -/
  | pduR2t (conn : Nat)
  /-- PDU_C2H_TERM_REQ: A C2HTermReq loses the connection (R266) -/
  | pduC2hTermReq (conn : Nat)
  /-- STO_RTO_EXPIRY: The retransmission timeout expires and data is retransmitted, or the connection is lost (R271) -/
  | stoRtoExpiry (conn : Nat)
  /-- STO_ACK_TIMER: Data not yet acknowledged is acknowledged within 40 µs (R272) -/
  | stoAckTimer (conn : Nat)
  /-- STO_BUFFER_RETRY: A buffer request that ended in POOL_EMPTY is retried 1 µs later (R271) -/
  | stoBufferRetry (conn : Nat)
  /-- FUNC_RESET: A generation change with reason 4 starts a FUNCTION reset (R317) -/
  | funcReset (c : Cmd)
  /-- FUNC_RESET_DRAIN_END: Every engine has drained; RESET_DONE is set, replies and the event are sent, and the FLR completes (R318) -/
  | funcResetDrainEnd (f : Nat)
  /-- FUNC_FREEZE: Makes a function FREEZING and stops its fetches (R323) -/
  | funcFreeze (c : Cmd)
  /-- FREEZE_DRAIN_END: Nothing of the function remains in DMA; it becomes FROZEN and the command replies (R323) -/
  | freezeDrainEnd (f : Nat)
  /-- FUNC_SAVE: Writes the frozen function's state image (R324) -/
  | funcSave (c : Cmd)
  /-- FUNC_RESTORE: Checks and installs an image into a target VF, with a generation change (R326) -/
  | funcRestore (c : Cmd) (image : Option Bytes)
  /-- FUNC_THAW: Returns a frozen function to ACTIVE, exhausting transmit slots after a save (R325) -/
  | funcThaw (c : Cmd)
  /-- MIG_DOMAIN_SET: Stores or removes a migration domain key (R328) -/
  | migDomainSet (c : Cmd)
  /-- NOP: Does nothing and replies (R341) -/
  | nop (c : Cmd)
  /-- DEV_INFO: Returns device information (R341) -/
  | devInfo (c : Cmd)
  /-- FW_STAGE: Writes a piece of an image into the idle slot, verifying on LAST (R352) -/
  | fwStage (c : Cmd) (piece : Option Bytes)
  /-- FW_ACTIVATE: Checks the staged image, writes BOOT_SLOT and starts the switch (R353) -/
  | fwActivate (c : Cmd)
  /-- FW_SWITCH_TIMEOUT: At S + 10 ms, remaining commands reply RESTARTED and slow-path frames are dropped (R353) -/
  | fwSwitchTimeout
  /-- FW_SWITCH_COMPLETE: The new image accepts commands, replies to FW_ACTIVATE and sends FW_SWITCHED (R353) -/
  | fwSwitchComplete
  /-- FW_STATE: Returns firmware image state (R341) -/
  | fwState (c : Cmd)
  /-- DEV_RESET: Causes a CHIP reset (R404) -/
  | devReset (c : Cmd)
  /-- TIME_RATE: Sets the base rate adjustment A (R32) -/
  | timeRate (c : Cmd)
  /-- TIME_SLEW: Starts, replaces or stops a slew (R33) -/
  | timeSlew (c : Cmd)
  /-- SLEW_END: A slew has added its whole offset; SLEW_DONE is set (R33) -/
  | slewEnd
  /-- TIME_STEP: Steps the Meridian forward at once, or starts a backward step (R34) -/
  | timeStep (c : Cmd)
  /-- STEP_END: A backward step has been fully absorbed; STEP_DONE is set (R34) -/
  | stepEnd
  /-- TIME_LOAD: Arms a load of the counter while disabled (R36) -/
  | timeLoad (c : Cmd)
  /-- MER_LOAD_WRITE: A write of MER_LOAD while disabled arms the load (R36) -/
  | merLoadWrite (req : Requester) (n : Nat) (w : Word)
  /-- MERIDIAN_ENABLE: ENABLE goes from 0 to 1; the counter loads the armed value or resumes (R36) -/
  | meridianEnable (req : Requester) (w : Word)
  /-- MERIDIAN_DISABLE: ENABLE goes from 1 to 0; the counter freezes and slews and steps are discarded (R36) -/
  | meridianDisable (req : Requester) (w : Word)
  /-- MER_NOW_READ: A read of word +0x0 latches the 72-bit value (R30) -/
  | merNowRead (req : Requester)
  /-- MER_RATE_ADJ_READ: A read of word +0x0 latches word +0x4 (R32) -/
  | merRateAdjRead (req : Requester)
  /-- MER_TIO_STAMP_READ: A read of word +0x0 latches and pops the oldest input stamp (R43) -/
  | merTioStampRead (req : Requester) (pin : Nat)
  /-- REF_LOST: The reference clock fails; REF_LOST is set and logged (R31) -/
  | refLost
  /-- TIME_IO_EDGE: An input edge is stamped into the pin FIFO, or lost on overflow (R43) -/
  | timeIoEdge (pin : Nat) (rising : Bool)
  /-- TIO_OUTPUT_EDGE: A pulse-per-second, periodic or strobe output edge is produced at its stamp (R41) -/
  | tioOutputEdge (pin : Nat)
  /-- TIO_PULSE_END: An output pulse ends after its width (R42) -/
  | tioPulseEnd (pin : Nat)
  /-- LOGBOOK_ENABLE: ENABLE of DBG_LOG_CTRL goes to 1, clearing STOPPED (R59) -/
  | logbookEnable (req : Requester) (w : Word)
  /-- FNC_GEN_REC_READ: A read of word +0x0 latches the slot (R329) -/
  | fncGenRecRead (req : Requester) (f : Nat)
  /-- SLOW_VERDICT: Drops, reinjects or delivers a slow-path frame (R345) -/
  | slowVerdict (c : Cmd)
  /-- SLOW_HOLD_EXPIRY: A frame without a verdict after SLOW_HOLD is dropped (R345) -/
  | slowHoldExpiry (handle : Nat)
  /-- MBX_SEND: A read of MBX_SEND sends the prepared message and returns its status (R347) -/
  | mbxSend (req : Requester) (f : Nat)
  /-- MBX_POST: A write of MBX_POST delivers a message or holds it in the store (R348) -/
  | mbxPost (req : Requester) (f : Nat) (w : Word)
  /-- POST_DELIVER: A held post is delivered when its receiver is on and has room (R348) -/
  | postDeliver (sender : Nat) (receiver : Nat)
  /-- MBX_RING: A write of MBX_RING ORs doorbell bits into the receiver (R350) -/
  | mbxRing (req : Requester) (f : Nat) (w : Word)
  /-- MBX_RX_POP: A write of MBX_RX_POP discards the head message (R355) -/
  | mbxRxPop (req : Requester) (f : Nat) (w : Word)
  /-- MBX_RX_STAMP_READ: A read of word +0x0 latches the head message's stamp (R420) -/
  | mbxRxStampRead (req : Requester) (f : Nat)
  /-- SMB_BLOCK_WRITE: An SMBus Block Write carries a command packet, or is discarded on PEC failure (R334) -/
  | smbBlockWrite (bytes : Bytes) (pecOk : Bool)
  /-- SMB_BLOCK_READ: An SMBus Block Read returns the reply (R334) -/
  | smbBlockRead
  /-- MGMT_FRAME_RX: A management VLAN frame is diverted, authenticated and accepted as a command, or dropped (R335) -/
  | mgmtFrameRx (frame : Nat)
  /-- PORT_SET: Writes port mode, flow control and MAX_LEN (R381) -/
  | portSet (c : Cmd)
  /-- PORT_STATE: Returns port state (R381) -/
  | portState (c : Cmd)
  /-- FAULT_SET: Configures a fault injector (R377) -/
  | faultSet (c : Cmd)
  /-- STEPDOWN_SET: Configures speed step-down (R374) -/
  | stepdownSet (c : Cmd)
  /-- PAUSE_WDOG_SET: Writes the pause watchdog LIMIT and HOLDOFF (R371) -/
  | pauseWdogSet (c : Cmd)
  /-- CONTOUR_SET: Sets an island's mode, floor and ceiling, optionally kept (R407) -/
  | contourSet (c : Cmd)
  /-- CONTOUR_LEAD_SET: Writes a port's lead record (R397) -/
  | contourLeadSet (c : Cmd)
  /-- PWR_STATE_SET: Selects ACTIVE, TRIM, DOZE or STANDBY (R402) -/
  | pwrStateSet (c : Cmd)
  /-- ISLAND_POWER: Powers an island off or on, cycles it, or resets it (R400) -/
  | islandPower (c : Cmd)
  /-- PWR_STATUS: Returns power status (R407) -/
  | pwrStatus (c : Cmd)
  /-- CONTOUR_RAISE: At t_open − LEAD, a planned window demand raises the islands (R397) -/
  | contourRaise (port : Nat)
  /-- CONTOUR_RELEASE: At t_close + TAIL, the window demand is released (R397) -/
  | contourRelease (port : Nat)
  /-- CONTOUR_CONFIRM: The pace sensors confirm a new level; a CONTOUR record is written and waiting replies go out (R394) -/
  | contourConfirm (b : Nat)
  /-- LOAD_DEMAND_UP: The busy fraction over 10 µs reaches UP_PCT and load demand rises a level (R396) -/
  | loadDemandUp (b : Nat) (pct : Nat)
  /-- LOAD_DEMAND_DOWN: The busy fraction over 1 ms falls to DOWN_PCT and load demand falls a level (R396) -/
  | loadDemandDown (b : Nat) (pct : Nat)
  /-- PACE_LOW: PACE below 1,000 for 10 µs raises pace demand, or sets PACE_FAIL at L4 (R395) -/
  | paceLow (b : Nat) (pace : Nat)
  /-- REGION_RELOAD_END: A powered-up region's library and inset reload ends and it takes legends (R403) -/
  | regionReloadEnd (region : Nat)
  /-- RAIL_WARN: A rail enters warning; MRAM writes and signing are suspended and islands go to L0 (R390) -/
  | railWarn (rail : Nat) (mv : Nat)
  /-- RAIL_WARN_CLEAR: A rail leaves warning, and normal levels and writes resume when the last rail clears (R390) -/
  | railWarnClear (rail : Nat) (mv : Nat)
  /-- RAIL_RESET: A rail below its reset level for 1 µs causes a POWER_ON reset (R389) -/
  | railReset (rail : Nat) (mv : Nat)
  /-- DIE_HOT: A die at THERM_HOT for 1 ms becomes hot and load demand is ignored (R391) -/
  | dieHot (die : Nat) (temp : Int)
  /-- DIE_HOT_CLEAR: A hot die below THERM_HOT − 5 °C for 1 ms stops being hot (R391) -/
  | dieHotClear (die : Nat) (temp : Int)
  /-- THERMAL_TRIP: At 125 °C, THERMTRIP_N is asserted and the device is held in POWER_ON reset (R391) -/
  | thermalTrip (die : Nat) (temp : Int)
  /-- RESET_N_ASSERT: RESET_N low causes a POWER_ON reset (R404) -/
  | resetNAssert
  /-- RESET_N_RISE: The power-on sequence runs and POR_DONE is set (R388) -/
  | resetNRise
  /-- BOOT: The boot ROM verifies and starts a firmware image, or enters RECOVERY (R430) -/
  | boot
  /-- DEBUG_RESET: A GO write to DBG_RESET_CTRL orders a BLOCK or REGION reset, or resets the debug unit (R425) -/
  | debugReset (req : Requester) (w : Word)
  /-- DEBUG_RESET_DONE: A reset ordered through DBG_RESET_CTRL ends and BUSY clears (R425) -/
  | debugResetDone
  /-- ATTEST: Commits a signing index, signs a report and returns or writes it (R437) -/
  | attest (c : Cmd) (writeOk : Bool)
  /-- KEYGEN_DONE: Background generation of the next attestation key ends and it is certified (R438) -/
  | keygenDone
  /-- SIGN_READY: The authentication path is rebuilt after reset and SIGN_READY rises (R438) -/
  | signReady
  /-- TOKEN_REFILL: A package or function attestation bucket gains a token (R441) -/
  | tokenRefill (fn : Option Nat)
  /-- CARTOUCHE_WRITE: Writes or reads the package cartouche (R444) -/
  | cartoucheWrite (c : Cmd)
  /-- FCARTOUCHE_WRITE: Writes a function cartouche (R444) -/
  | fcartoucheWrite (c : Cmd)
  /-- OWNER_KEY_SET: Installs, changes or removes the owner record (R432) -/
  | ownerKeySet (c : Cmd)
  /-- MGMT_KEY_SET: Installs or removes a management key (R433) -/
  | mgmtKeySet (c : Cmd)
  /-- TRNG_READ: Returns random bytes from the DRBG (R445) -/
  | trngRead (c : Cmd)
  /-- DRBG_RESEED: The DRBG is reseeded every 1 ms (R445) -/
  | drbgReseed
  /-- TRNG_HEALTH_FAIL: A health test fails and TRNG_FAIL is set (R445) -/
  | trngHealthFail
  /-- TRNG_RETEST: While failed, the start-up tests repeat each second and may clear TRNG_FAIL (R445) -/
  | trngRetest (pass : Bool)
  /-- REGISTER_WRITE: A write to a register without its own row: applied under its access code, RWD kept, bus error or unavailable target, and recorded (R417) -/
  | registerWrite (req : Requester) (loc : Loc) (size : Nat) (v : BitVec 64)
  /-- REFERENCE_CLOCK_RETURN: The reference clock comes back and MER_STATUS.REF_LOST, which reports its absence, returns to 0 (R38) -/
  | referenceClockReturn
  /-- THERMAL_TRIP_END: Every die has fallen below 115 °C, so the device releases the POWER_ON reset it held and THERMTRIP_N (R391) -/
  | thermalTripEnd
  /-- PCIE_LINK_UP: A PCIe link finishes training and HIF_LINK_STAT[n] reports UP, rate and width (R285) -/
  | pcieLinkUp (link : Nat) (rate : Nat) (width : Nat)
  /-- ATS_TRANSLATION_COMPLETION: A Translation Request completes, and the bursts that waited on the miss proceed or end in HOST_ERR (R288) -/
  | atsTranslationCompletion (f : Nat) (page : Nat) (granted : Option Nat)
  /-- REGION_STORE_DONE: A region store access completes and its thread leaves STALL (R70) -/
  | regionStoreDone (t : Nat)
  /-- BUFFER_REPLY: The reply to a BUF access or another DMA or buffer-pool request of a thread arrives and the thread leaves STALL, or faults on TARGET_RESET (R70) -/
  | bufferReply (t : Nat)
  /-- REGISTER_READ: A read of an RC register or field clears the bits it latched, a read of an unavailable target is captured in DBG_DOMAIN_ERR, and a JTAG read sets JTAG_SEEN (R419) -/
  | registerRead (req : Requester) (loc : Loc) (size : Nat)
  /-- FRAME_TX_END: A frame's last FCS bit leaves the port, so a pending pause takes effect, the line is free and the frame's in-flight holds end (R367) -/
  | frameTxEnd (port : Nat)
  /-- PREEMPTABLE_HOLD: At e − HOLD_ADVANCE before a SET_AND_HOLD entry, preemptable traffic is held and any preemptable frame on the line is preempted (R229) -/
  | preemptableHold (port : Nat)
  /-- BLOCK_RESET_END: A BLOCK reset ordered by ISLAND_POWER or by an uncorrectable ECC error ends, and the block is available again (R415) -/
  | blockResetEnd (b : Nat)
  deriving DecidableEq, Repr

end Sys2Proof
end

