-- ==== Sys2Proof/Decode.lean ====
section
/-!
DEFINITION. The command that a word spells by the bits of the table of operations and events. The table gives no row any bits
(its rows are commands and events with operands, and the encodings of R96 are fields of the operands), so no word spells one.
-/
namespace Sys2Proof

/-- No row of the table has bits: no word spells a command (log entry 40). -/
def decodeTableWord (_nbits _w : Nat) : Option Instr := none

end Sys2Proof
end

