-- ==== Sys2Proof/Config.lean ====
section
/-!
DEFINITION. What an implementation fixes and the manual leaves open: free values and unmodelled functions. Every
constant here is opaque: no statement can rest on a value of it.
-/
namespace Sys2Proof.Config

/-- A value the manual leaves undefined, fresh for each use: applied to `State`'s counter `fresh` (log entry 2). -/
opaque freeWord : Nat → Word

/-- A number the manual leaves open, fresh for each use (log entry 2). -/
opaque freeNat : Nat → Nat

/-- Bytes the manual leaves open: `freeBytes k n` has the bytes of draw `k`, as many as asked (log entry 2). -/
opaque freeByte : Nat → Nat → Byte

/-- FRAME_DROP DATA0 codes that no rule gives, by the model's name of the place of the drop (R55; log entry 3). -/
opaque dropReason : Nat → Word

/-- Byte order in which the CRC instruction takes the bytes of gA (R96 is silent): most significant first (log entry 4). -/
opaque crcMsbFirst : Bool

/-- Whether the CRC instruction complements its result (R96 is silent; log entry 4). -/
opaque crcComplement : Bool

/-- Instruction addresses of the vendor parse program and of the default action program (R91, R92; log entry 5). -/
opaque vendorParsePc : Nat
opaque vendorActionPc : Nat

/-- Instructions a library entry issues on one call, before the bound of R109 is applied (log entry 5). -/
opaque libCost : Nat → Nat → Nat

/-- Version of the vendor library in the running image, against which imports are checked (R108; log entry 5). -/
opaque libVersion : Nat

/-- The vendor's signature over
DEVICE_ID and ID_PUB, made at manufacture (R435; log entry 6). -/
opaque vendorSig : Bytes

/-- DATA1 of a TIME_IO record, rising or falling (R55 gives no code; log entry 3). -/
opaque timeIoEdge : Bool → Word

/-- DATA2 of a GATE record by the model's name of the event (R55 gives no code; log entry 3). -/
opaque gateFlags : Nat → Word

/-- DATA1 of a LATE_GATHER record by outcome code is the outcome; this is DATA0 and DATA2 of a DMA_COMPL record of a queue pair
with no code in R55 (log entry 3). -/
opaque eventCode : Nat → Word

/-- What the generator of a PROB injector draws for its `n`-th frame from a seed (R378 names no generator; log entry 38). -/
opaque injectorDraw : Nat → Nat → Nat

/-- The Link Capabilities register of a link: R290 gives no L1 entry or exit latency (log entry 52). -/
opaque linkCapabilities : Nat → Word

/-- The fuses (R427; log entry 6): DEVICE_ID, DEVICE_SECRET and VENDOR_REVOKE. -/
opaque deviceId : Nat
opaque deviceSecret : Bytes
opaque vendorRevoke : Bool

/-- The vendor public keys of the boot ROM, primary and spare (R429; log entry 6). -/
opaque vendorKey : Bool → Bytes

/-- What the SPI NOR slots held when the board was made (R428; log entry 12). -/
opaque norImage : Nat → Bytes

/-- What a word of the MRAM's control area reads as whose three copies have failed (R443; log entry 12). -/
opaque lostWord : Nat → Nat

/-- The integrity tag of a management key's counter commits: KEY_ID, accepted and reply counter (R434 names no algorithm; log entry
12). -/
opaque counterTag : Nat → Nat → Nat → Bytes

end Sys2Proof.Config
end

