-- ==== Sys2Proof/Machine/Bits.lean ====
section
/-!
DEFINITION. Bit fields of register words, byte order, sign extension and CRC32C.
-/
namespace Sys2Proof

/-- The mask of bits `hi` down to `lo`. -/
def fieldMask (hi lo : Nat) : Word := BitVec.ofNat 32 ((2 ^ (hi + 1 - lo) - 1) * 2 ^ lo)

/-- The value of bits [hi:lo]. -/
def bitsOf (w : Word) (hi lo : Nat) : Nat := ((w &&& fieldMask hi lo) >>> lo).toNat

/-- `w` with bits [hi:lo] replaced by `v`, truncated to the field. -/
def setBits (w : Word) (hi lo v : Nat) : Word :=
  (w &&& ~~~ fieldMask hi lo) ||| ((BitVec.ofNat 32 v <<< lo) &&& fieldMask hi lo)

/-- Bit `n` of a number. -/
def bitN (v n : Nat) : Bool := v.testBit n

/-- Bits [hi:lo] of a number. -/
def natBits (v hi lo : Nat) : Nat := v / 2 ^ lo % 2 ^ (hi + 1 - lo)

/-- One as a bit, for packing. -/
def b2n (b : Bool) : Nat := if b then 1 else 0

/-- The low `n` bits of `v` read as a signed number. -/
def signedOf (n v : Nat) : Int :=
  let m := v % 2 ^ n
  if m < 2 ^ (n - 1) then (m : Int) else (m : Int) - 2 ^ n

/-- The low `n` bits of a signed number. -/
def unsignedOf (n : Nat) (v : Int) : Nat := (v % (2 ^ n : Int)).toNat

/-- `n` bytes of `v`, least significant first. -/
def bytesLE : Nat → Nat → Bytes
  | 0, _ => []
  | n + 1, v => BitVec.ofNat 8 v :: bytesLE n (v / 256)

/-- `n` bytes of `v`, most significant first (network order). -/
def bytesBE (n v : Nat) : Bytes := (bytesLE n v).reverse

/-- The number a byte string spells, least significant byte first. -/
def natLE : Bytes → Nat
  | [] => 0
  | b :: rest => b.toNat + 256 * natLE rest

/-- The number a byte string spells, most significant byte first. -/
def natBE (bs : Bytes) : Nat := bs.foldl (fun a b => a * 256 + b.toNat) 0

/-- Byte `i`, 0 past the end. -/
def byteAt (bs : Bytes) (i : Nat) : Byte := bs.getD i 0

/-- `n` bytes from offset `i`; bytes past the end read 0. -/
def slice (bs : Bytes) (i n : Nat) : Bytes := (List.range n).map fun k => bs.getD (i + k) 0

/-- The big-endian number in `n` bytes at `i`. -/
def be (bs : Bytes) (i n : Nat) : Nat := natBE (slice bs i n)

/-- The little-endian number in `n` bytes at `i`. -/
def le (bs : Bytes) (i n : Nat) : Nat := natLE (slice bs i n)

/-- The 32-bit little-endian word at byte offset `i` (R330: all values are little-endian). -/
def le32 (bs : Bytes) (i : Nat) : Word := BitVec.ofNat 32 (le bs i 4)

/-- `bs` with `new` written from offset `i`; nothing is written past the end. -/
def overwrite (bs : Bytes) (i : Nat) (new : Bytes) : Bytes :=
  bs.take i ++ new.take (bs.length - i) ++ bs.drop (i + new.length)

/-- `bs` with `n` bytes from offset `i` removed. -/
def cut (bs : Bytes) (i n : Nat) : Bytes := bs.take i ++ bs.drop (i + n)

/-- `bs` with `new` inserted at offset `i`. -/
def insertAt (bs : Bytes) (i : Nat) (new : Bytes) : Bytes := bs.take i ++ new ++ bs.drop i

/-- Pads with zeros to at least `n` bytes. -/
def padTo (bs : Bytes) (n : Nat) : Bytes := bs ++ List.replicate (n - bs.length) 0

/-- A byte string of exactly `n` bytes. -/
def sized (n : Nat) (bs : Bytes) : Bytes := (padTo bs n).take n

/-- Words as bytes, each least significant byte first. -/
def wordBytes (ws : List Word) : Bytes := ws.flatMap fun w => bytesLE 4 w.toNat

/-- The first `n` little-endian words of a byte string. -/
def wordsOf (bs : Bytes) (n : Nat) : List Word := (List.range n).map fun k => le32 bs (4 * k)

/-- One bit of the reflected CRC32C step (polynomial 0x82F6_3B78 reflected). -/
def crcBit (c : Word) : Word := if c.getLsbD 0 then (c >>> 1) ^^^ 0x82F63B78#32 else c >>> 1

/-- One byte of CRC32C. -/
def crcByte (c : Word) (b : Byte) : Word :=
  let x := c ^^^ b.setWidth 32
  crcBit (crcBit (crcBit (crcBit (crcBit (crcBit (crcBit (crcBit x)))))))

/-- CRC32C register after `bs`, from `seed`, without the final complement. -/
def crcRaw (seed : Word) (bs : Bytes) : Word := bs.foldl crcByte seed

/-- CRC32C as RFC 3720 states it: from 0xFFFF_FFFF, with the final complement. -/
def crc32c (bs : Bytes) : Word := ~~~ crcRaw 0xFFFFFFFF#32 bs

/-- One bit of the reflected CRC of the Ethernet FCS (IEEE 802.3). -/
def fcsBit (c : Word) : Word := if c.getLsbD 0 then (c >>> 1) ^^^ 0xEDB88320#32 else c >>> 1

/-- One byte of it. -/
def fcsByte (c : Word) (b : Byte) : Word :=
  let x := c ^^^ b.setWidth 32
  fcsBit (fcsBit (fcsBit (fcsBit (fcsBit (fcsBit (fcsBit (fcsBit x)))))))

/-- The FCS of a frame's bytes (R364). -/
def fcsOf (bs : Bytes) : Word := ~~~ bs.foldl fcsByte 0xFFFFFFFF#32

/-- The three words of a stamp (R8). -/
def stampWords (t : Stamp) : List Word :=
  [BitVec.ofNat 32 t, BitVec.ofNat 32 (t / 2 ^ 32), BitVec.ofNat 32 (t / 2 ^ 64 % 2 ^ 8)]

/-- The stamp that three words spell (R8); the reserved bits of the third are ignored. -/
def stampOf (w0 w1 w2 : Word) : Stamp := w0.toNat + 2 ^ 32 * w1.toNat + 2 ^ 64 * (w2.toNat % 2 ^ 8)

/-- The nanosecond count of a stamp, bits [71:8] (R8). -/
def nsOf (t : Stamp) : Nat := t / 256

/-- Division rounding up, for durations under R2. -/
def ceilDiv (a b : Nat) : Nat := (a + b - 1) / b

/-- `v` held between two limits. -/
def clampTo (lo hi v : Nat) : Nat := if v < lo then lo else if v > hi then hi else v

/-- An element replaced in a list; nothing past the end. -/
def setAt {α : Type} (l : List α) (i : Nat) (v : α) : List α := l.set i v

/-- The first index from `from` on, wrapping once around `n`, that satisfies `p` (round robin). -/
def roundRobin (n start : Nat) (p : Nat → Bool) : Option Nat :=
  ((List.range n).map fun k => (start + k) % n).find? p

end Sys2Proof
end

