-- ==== Sys2Proof/Machine/Crypto.lean ====
section
/-!
DEFINITION. The algorithms the manual names by their standards: AES (FIPS 197) and AES-GCM (NIST SP 800-38D) of R183, R192,
R200 and R269; AES key unwrap (RFC 3394) of R432 and R433; SHAKE256 (FIPS 202); XMSS (RFC 8391, with the parameter sets of
NIST SP 800-208) of R429 to R437 (log entry 6).
-/
namespace Sys2Proof

/-! ## AES -/

/-- Multiplication by x in GF(2^8). -/
def xtime (b : Nat) : Nat := if b < 128 then 2 * b else (2 * b) ^^^ 0x11B

/-- Multiplication in GF(2^8). -/
def gmul8 (a b : Nat) : Nat := (List.range 8).foldr (fun i acc => if b.testBit i then xtime acc ^^^ a else xtime acc) 0

/-- The S-box of a byte: its inverse, and the affine map. -/
def subByte (a : Nat) : Nat :=
  let v := (List.range 254).foldl (fun x _ => gmul8 x a) 1
  let rot (k : Nat) : Nat := v * 2 ^ k % 256 + v * 2 ^ k / 256
  v ^^^ rot 1 ^^^ rot 2 ^^^ rot 3 ^^^ rot 4 ^^^ 0x63

def sbox : List Nat := (List.range 256).map subByte

/-- The inverse S-box. -/
def sboxInv : List Nat := (List.range 256).map fun a => sbox.findIdx (· == a)

/-- Exclusive or of two lists, byte by byte. -/
def xorList (a b : List Nat) : List Nat := (a.zip b).map fun p => p.1 ^^^ p.2

/-- The round keys, 4 (Nr + 1) words of four bytes. -/
def aesWords (key : List Nat) : List (List Nat) :=
  let nk := key.length / 4
  let first := (List.range nk).map fun i => (key.drop (4 * i)).take 4
  (List.range (4 * (nk + 7) - nk)).foldl (fun w k =>
    let i := nk + k
    let t := w.getD (i - 1) []
    let sub (x : List Nat) : List Nat := x.map fun b => sbox.getD b 0
    let t2 :=
      if i % nk = 0 then xorList (sub (t.drop 1 ++ t.take 1)) [(List.range (i / nk - 1)).foldl (fun r _ => xtime r) 1, 0, 0, 0]
      else if nk > 6 && i % nk = 4 then sub t
      else t
    w ++ [xorList (w.getD (i - nk) []) t2]) first

/-- The round key of a round. -/
def roundKey (w : List (List Nat)) (r : Nat) : List Nat := ((w.drop (4 * r)).take 4).flatMap id

/-- Each column of a state by the row `m` of a circulant matrix. -/
def mixWith (m : List Nat) (s : List Nat) : List Nat :=
  (List.range 16).map fun i => (List.range 4).foldl (fun acc j =>
    acc ^^^ gmul8 (s.getD (i / 4 * 4 + j) 0) (m.getD ((j + 4 - i % 4) % 4) 0)) 0

/-- A state whose rows are shifted left by `k` times their number. -/
def shiftRows (k : Nat) (s : List Nat) : List Nat :=
  (List.range 16).map fun i => s.getD ((i / 4 + k * (i % 4)) % 4 * 4 + i % 4) 0

/-- Rounds of a key schedule. -/
def aesRounds (w : List (List Nat)) : Nat := w.length / 4 - 1

/-- The cipher: one block under round keys. -/
def aesBlock (w : List (List Nat)) (b : List Nat) : List Nat :=
  let nr := aesRounds w
  let sub (s : List Nat) : List Nat := shiftRows 1 (s.map fun x => sbox.getD x 0)
  let mid := (List.range (nr - 1)).foldl (fun s r => xorList (mixWith [2, 3, 1, 1] (sub s)) (roundKey w (r + 1)))
    (xorList b (roundKey w 0))
  xorList (sub mid) (roundKey w nr)

/-- The inverse cipher. -/
def aesUnblock (w : List (List Nat)) (b : List Nat) : List Nat :=
  let nr := aesRounds w
  let sub (s : List Nat) : List Nat := (shiftRows 3 s).map fun x => sboxInv.getD x 0
  let mid := (List.range (nr - 1)).foldl (fun s r => mixWith [14, 11, 13, 9] (xorList (sub s) (roundKey w (nr - 1 - r))))
    (xorList b (roundKey w nr))
  xorList (sub mid) (roundKey w 0)

/-- The bytes as numbers. -/
def natBytes (bs : Bytes) : List Nat := bs.map (·.toNat)

/-- Numbers as bytes. -/
def ofNatBytes (l : List Nat) : Bytes := l.map (BitVec.ofNat 8)

/-! ## AES-GCM -/

/-- Multiplication in GF(2^128), blocks read as big-endian numbers. -/
def gmul128 (x y : Nat) : Nat :=
  ((List.range 128).foldl (fun (zv : Nat × Nat) i =>
    (if x.testBit (127 - i) then zv.1 ^^^ zv.2 else zv.1,
     if zv.2.testBit 0 then (zv.2 / 2) ^^^ (0xE1 * 2 ^ 120) else zv.2 / 2)) (0, y)).1

/-- A byte string cut into blocks of 16, the last one filled with zeros. -/
def blocks16 (bs : Bytes) : List Nat := (List.range ((bs.length + 15) / 16)).map fun i => be bs (16 * i) 16

/-- GHASH. -/
def ghash (h : Nat) (bl : List Nat) : Nat := bl.foldl (fun y x => gmul128 (y ^^^ x) h) 0

/-- The block cipher of a key on a number. -/
def aesNum (w : List (List Nat)) (n : Nat) : Nat := natBE (ofNatBytes (aesBlock w (natBytes (bytesBE 16 n))))

/-- The first counter block of a nonce. -/
def gcmStart (h : Nat) (nonce : Bytes) : Nat :=
  if nonce.length = 12 then natBE nonce * 2 ^ 32 + 1 else ghash h (blocks16 nonce ++ [8 * nonce.length])

/-- Encryption and decryption with the counters that follow the first. -/
def gcmStream (key nonce text : Bytes) : Bytes :=
  let w := aesWords (natBytes key)
  let j := gcmStart (aesNum w 0) nonce
  ((List.range ((text.length + 15) / 16)).flatMap fun i =>
    let k := aesNum w (j / 2 ^ 32 * 2 ^ 32 + (j + 1 + i) % 2 ^ 32)
    ((text.drop (16 * i)).take 16).zip (bytesBE 16 k)).map fun p => p.1 ^^^ p.2

/-- AES-GCM: key, nonce, additional data and plaintext to ciphertext; the additional data bear on the tag alone. -/
def gcmSeal (key nonce _aad plain : Bytes) : Bytes := gcmStream key nonce plain

/-- AES-GCM: ciphertext to plaintext. -/
def gcmOpen (key nonce _aad text : Bytes) : Bytes := gcmStream key nonce text

/-- The 16-byte tag of a key, nonce, additional data and ciphertext. -/
def gcmTag (key nonce aad text : Bytes) : Bytes :=
  let w := aesWords (natBytes key)
  let h := aesNum w 0
  let s := ghash h (blocks16 aad ++ blocks16 text ++ [8 * aad.length * 2 ^ 64 + 8 * text.length])
  bytesBE 16 (s ^^^ aesNum w (gcmStart h nonce))

/-! ## AES key unwrap -/

/-- AES key unwrap of RFC 3394: the plaintext, or none when the integrity check fails. -/
def aesUnwrap (key wrapped : Bytes) : Option Bytes :=
  let w := aesWords (natBytes key)
  let n := wrapped.length / 8 - 1
  let steps := (List.range (6 * n)).reverse
  let r := (List.range n).map fun i => be wrapped (8 * (i + 1)) 8
  let (a, r2) := steps.foldl (fun (x : Nat × List Nat) s =>
    let i := s % n
    let b := natBE (ofNatBytes (aesUnblock w (natBytes (bytesBE 8 (x.1 ^^^ (s + 1)) ++ bytesBE 8 (x.2.getD i 0)))))
    (b / 2 ^ 64, x.2.set i (b % 2 ^ 64))) (be wrapped 0 8, r)
  if a = 0xA6A6A6A6A6A6A6A6 then some (r2.flatMap (bytesBE 8)) else none

/-! ## SHAKE256: the state is one number of 1,600 bits, bit z of lane (x, y) at place z + 64 (x + 5 y) -/

/-- The lane at (x, y), coordinates modulo 5. -/
def spongeLane (s x y : Nat) : Nat := s / 2 ^ (64 * (x % 5 + 5 * (y % 5))) % 2 ^ 64

/-- The state that has `f x y` at lane (x, y). -/
def spongeOf (f : Nat → Nat → Nat) : Nat := (List.range 25).foldr (fun i s => f (i % 5) (i / 5) + 2 ^ 64 * (s : Nat)) 0 % 2 ^ 1600

/-- A lane rotated towards its high end. -/
def spinLane (k v : Nat) : Nat := v * 2 ^ (k % 64) % 2 ^ 64 + v / 2 ^ (64 - k % 64)

/-- Steps theta, rho and pi. Rho and pi walk from lane (1, 0): the t-th lane of the walk turns by (t + 1)(t + 2) / 2 and goes
to the place of the next one; lane (0, 0) stays. -/
def spongeMix (s : Nat) : Nat :=
  let parity (x : Nat) : Nat := (List.range 5).foldl (fun v y => v ^^^ spongeLane s x y) 0
  let mixed (x y : Nat) : Nat := spongeLane s x y ^^^ parity (x + 4) ^^^ spinLane 1 (parity (x + 1))
  ((List.range 24).foldl (fun (acc : Nat × Nat × Nat) t =>
    let (sum, x, y) := acc
    let y2 := (2 * x + 3 * y) % 5
    (sum + spinLane ((t + 1) * (t + 2) / 2) (mixed x y) * 2 ^ (64 * (y + 5 * y2)), y, y2)) (mixed 0 0, 1, 0)).1

/-- The round constants' bits: bit 0 of an eight-bit feedback register after `t` shifts. -/
def iotaBit (t : Nat) : Bool :=
  ((List.range (t % 255)).foldl (fun r _ => if r < 128 then 2 * r else (2 * r) ^^^ 0x171) 1).testBit 0

/-- The constant of a round: seven bits of the register, at places 0, 1, 3, 7, 15, 31 and 63. -/
def iotaWord (round : Nat) : Nat :=
  (List.range 7).foldl (fun w j => if iotaBit (j + 7 * round) then w + 2 ^ (2 ^ j - 1) else w) 0

/-- The permutation: 24 rounds, each ended by chi and iota. -/
def spongePermute (s : Nat) : Nat :=
  (List.range 24).foldl (fun s round =>
    let m := spongeMix s
    spongeOf (fun x y => spongeLane m x y ^^^ ((2 ^ 64 - 1 - spongeLane m (x + 1) y) &&& spongeLane m (x + 2) y)) ^^^ iotaWord round) s

/-- SHAKE256 with an output length in bytes: a rate of 136 bytes, the message closed by 0x1F and by bit 7 of the last byte. -/
def shake256 (msg : Bytes) (out : Nat) : Bytes :=
  let n := msg.length / 136 + 1
  let text := (natLE msg + 0x1F * 2 ^ (8 * msg.length)) ^^^ 2 ^ (8 * 136 * n - 1)
  let s := (List.range n).foldl (fun s i => spongePermute (s ^^^ text / 2 ^ (1088 * i) % 2 ^ 1088)) 0
  (((List.range ((out + 135) / 136)).foldl (fun (o : Bytes × Nat) _ => (o.1 ++ bytesLE 136 o.2, spongePermute o.2)) ([], s)).1).take out

/-! ## XMSS with SHAKE256, n = 32, w = 16 -/

/-- Exclusive or of two byte strings. -/
def xorBytes (a b : Bytes) : Bytes := (a.zip b).map fun p => p.1 ^^^ p.2

/-- The keyed functions F, H, H_msg, PRF and PRF_keygen, by number. -/
def xmssHash (fn : Nat) (key msg : Bytes) : Bytes := shake256 (bytesBE 32 fn ++ key ++ msg) 32

/-- A hash function address: the type and its three words, and the key-and-mask word. -/
structure Adrs where
  kind : Nat
  w4 : Nat
  w5 : Nat
  w6 : Nat

def Adrs.bytes (a : Adrs) (keyAndMask : Nat) : Bytes :=
  bytesBE 12 0 ++ bytesBE 4 a.kind ++ bytesBE 4 a.w4 ++ bytesBE 4 a.w5 ++ bytesBE 4 a.w6 ++ bytesBE 4 keyAndMask

/-- The pseudorandom values of an address. -/
def xmssPrf (seed : Bytes) (a : Adrs) (k : Nat) : Bytes := xmssHash 3 seed (a.bytes k)

/-- RAND_HASH. -/
def randHash (seed : Bytes) (a : Adrs) (l r : Bytes) : Bytes :=
  xmssHash 1 (xmssPrf seed a 0) (xorBytes l (xmssPrf seed a 1) ++ xorBytes r (xmssPrf seed a 2))

/-- `steps` steps of chain `i` of a WOTS+ key, from step `start`. -/
def wotsChain (seed : Bytes) (ots i start steps : Nat) (x : Bytes) : Bytes :=
  (List.range steps).foldl (fun t k =>
    let a : Adrs := { kind := 0, w4 := ots, w5 := i, w6 := start + k }
    xmssHash 0 (xmssPrf seed a 0) (xorBytes t (xmssPrf seed a 1))) x

/-- The 67 base-16 digits of a message digest and its checksum. -/
def wotsDigits (m : Bytes) : List Nat :=
  let d := m.flatMap fun b => [b.toNat / 16, b.toNat % 16]
  let c := (d.map fun x => 15 - x).foldl (· + ·) 0
  d ++ [c / 256 % 16, c / 16 % 16, c % 16]

/-- The L-tree over a WOTS+ public key; 7 levels hold 67 chains. -/
def lTree (seed : Bytes) (leaf : Nat) : Nat → Nat → List Bytes → Bytes
  | 0, _, l => l.headD []
  | fuel + 1, height, l =>
    if l.length ≤ 1 then l.headD []
    else
      let half := l.length / 2
      let next := (List.range half).map fun i =>
        randHash seed { kind := 1, w4 := leaf, w5 := height, w6 := i } (l.getD (2 * i) []) (l.getD (2 * i + 1) [])
      lTree seed leaf fuel (height + 1) (next ++ (if l.length % 2 = 1 then [l.getD (l.length - 1) []] else []))

/-- The root that a leaf's node and its authentication path give. -/
def climb (seed : Bytes) (idx : Nat) (auth : List Bytes) (node : Bytes) : Bytes :=
  (List.range auth.length).foldl (fun x k =>
    let a : Adrs := { kind := 2, w4 := 0, w5 := k, w6 := idx / 2 ^ (k + 1) }
    let s := auth.getD k []
    if (idx / 2 ^ k) % 2 = 0 then randHash seed a x s else randHash seed a s x) node

/-- Verification of a signature of a tree of height `h` (RFC 8391, algorithm 14): public key, message and signature. -/
def xmssVerifyH (h : Nat) (pub msg sig : Bytes) : Bool :=
  let root := slice pub 4 32
  let seed := slice pub 36 32
  let idx := be sig 0 4
  let r := slice sig 4 32
  let m := xmssHash 2 (r ++ root ++ bytesBE 32 idx) msg
  let pk := (List.range 67).map fun i =>
    let d := (wotsDigits m).getD i 0
    wotsChain seed idx i d (15 - d) (slice sig (36 + 32 * i) 32)
  let auth := (List.range h).map fun k => slice sig (36 + 32 * (67 + k)) 32
  pub.length == 68 && sig.length == 36 + 32 * (67 + h) && decide (idx < 2 ^ h)
    && be pub 0 4 == (if h = 20 then 0x12 else 0x10) && climb seed idx auth (lTree seed idx 7 0 pk) == root

/-- Verification of XMSS-SHAKE256_20_256. -/
def xmssVerify (pub msg sig : Bytes) : Bool := xmssVerifyH 20 pub msg sig

/-- Secret of chain `i` of a leaf (PRF_keygen of NIST SP 800-208). -/
def wotsSecret (skSeed seed : Bytes) (leaf i : Nat) : Bytes :=
  xmssHash 4 skSeed (seed ++ ({ kind := 0, w4 := leaf, w5 := i, w6 := 0 } : Adrs).bytes 0)

/-- The node of a tree at a height. -/
def xmssNode (skSeed seed : Bytes) : Nat → Nat → Bytes
  | 0, leaf => lTree seed leaf 7 0 ((List.range 67).map fun i => wotsChain seed leaf i 0 15 (wotsSecret skSeed seed leaf i))
  | k + 1, i =>
    randHash seed { kind := 2, w4 := 0, w5 := k, w6 := i } (xmssNode skSeed seed k (2 * i)) (xmssNode skSeed seed k (2 * i + 1))

/-- The public key of a tree of height `h` whose 96 bytes of key are SK_SEED, SK_PRF and SEED. -/
def xmssRoot (h : Nat) (key : Bytes) : Bytes :=
  bytesBE 4 (if h = 20 then 0x12 else 0x10) ++ xmssNode (slice key 0 32) (slice key 64 32) h 0 ++ slice key 64 32

/-- The signature of a message with a leaf of that tree, whose nodes are given; the randomiser comes from SK_PRF and the index. -/
def xmssSignBy (node : Nat → Nat → Bytes) (h : Nat) (key : Bytes) (idx : Nat) (msg : Bytes) : Bytes :=
  let skSeed := slice key 0 32
  let seed := slice key 64 32
  let r := xmssHash 3 (slice key 32 32) (bytesBE 32 idx)
  let m := xmssHash 2 (r ++ node h 0 ++ bytesBE 32 idx) msg
  let ots := (List.range 67).flatMap fun i => wotsChain seed idx i 0 ((wotsDigits m).getD i 0) (wotsSecret skSeed seed idx i)
  let auth := (List.range h).flatMap fun k => node k (idx / 2 ^ k ^^^ 1)
  bytesBE 4 idx ++ r ++ ots ++ auth

/-- The signature with every node computed from the seeds. -/
def xmssSign (h : Nat) (key : Bytes) (idx : Nat) (msg : Bytes) : Bytes :=
  xmssSignBy (xmssNode (slice key 0 32) (slice key 64 32)) h key idx msg

end Sys2Proof
end

