-- ==== Sys2Proof/Machine/DeviceKeys.lean ====
section
/-!
DEFINITION. The device keys that the trust unit derives from DEVICE_SECRET (R427), and what the MRAM holds of them when the part
leaves manufacture: the vendor certificate (R435) and the node cache of the first attestation key (R438).
-/
namespace Sys2Proof

/-- A device key: SHAKE256 of DEVICE_SECRET, label and index, as many bytes as the key needs (R427). -/
def deviceKey (label : Bytes) (k out : Nat) : Bytes := shake256 (Config.deviceSecret ++ label ++ bytesLE 4 k) out

/-- The labels "MRAM", "IDK" and "ATT". -/
def mramLabel : Bytes := [0x4D, 0x52, 0x41, 0x4D]
def idLabel : Bytes := [0x49, 0x44, 0x4B]
def attLabel : Bytes := [0x41, 0x54, 0x54]

/-- The AES-256 key of the secrets in the MRAM (R434); its index is 0, as there is one. -/
def mramKey : Bytes := deviceKey mramLabel 0 32

/-- SK_SEED, SK_PRF and SEED of an XMSS key. -/
def keySeed (label : Bytes) (k : Nat) : Bytes := deviceKey label k 96

/-- Public keys, and the identity signature that certifies attestation key `k` (R435). -/
def attPub (k : Nat) : Bytes := sized 68 (xmssRoot 20 (keySeed attLabel k))
def idPub : Bytes := sized 68 (xmssRoot 10 (keySeed idLabel 0))
def idSig (k : Nat) : Bytes := sized 2500 (xmssSign 10 (keySeed idLabel 0) k (bytesLE 4 k ++ attPub k))

/-- The vendor certificate: ID_PUB and the vendor's signature over DEVICE_ID and it. -/
def vendorCert : Bytes := idPub ++ sized 2820 Config.vendorSig

/-- The node of an attestation key's tree, from the key's seeds. -/
def attNode (k level i : Nat) : Bytes := xmssNode (slice (keySeed attLabel k) 0 32) (slice (keySeed attLabel k) 64 32) level i

/-- The node cache of an attestation key: levels 10 to 20, 2,047 nodes, level by level (R438). -/
def nodeCache (k : Nat) : List Bytes :=
  (List.range 11).flatMap fun j => (List.range (2 ^ (10 - j))).map fun i => attNode k (10 + j) i

/-- The place of a node in a cache. -/
def cachePlace (level i : Nat) : Nat := 2048 - 2 ^ (21 - level) + i

end Sys2Proof
end

