-- ==== Sys2Proof/Machine/Tbl.lean ====
section
/-!
DEFINITION. The operations on sparse tables. A key that is not listed reads as the default the reader names; `putD`
removes a key that is given its default, so that equal contents are equal data.
-/
namespace Sys2Proof

/-- The table with nothing listed. -/
def Tbl.empty {α : Type} : Tbl α := ⟨[]⟩

/-- The value of the first cell with key `k`. -/
def Tbl.lookCells {α : Type} (k : Nat) : List (Nat × α) → Option α
  | [] => none
  | (k', v) :: rest => if k' = k then some v else Tbl.lookCells k rest

/-- What is listed under `k`. -/
def Tbl.look? {α : Type} (t : Tbl α) (k : Nat) : Option α := Tbl.lookCells k t.cells

/-- What is listed under `k`, or the default `d`. -/
def Tbl.getD {α : Type} (t : Tbl α) (k : Nat) (d : α) : α := (t.look? k).getD d

/-- Insertion at the place that keeps rising keys rising; replaces a cell of the same key. -/
def Tbl.putCells {α : Type} (k : Nat) (v : α) : List (Nat × α) → List (Nat × α)
  | [] => [(k, v)]
  | (k', v') :: rest =>
    if k < k' then (k, v) :: (k', v') :: rest
    else if k' = k then (k, v) :: rest
    else (k', v') :: Tbl.putCells k v rest

/-- `t` with `v` listed under `k`. -/
def Tbl.put {α : Type} (t : Tbl α) (k : Nat) (v : α) : Tbl α := ⟨Tbl.putCells k v t.cells⟩

/-- `t` with nothing listed under `k`. -/
def Tbl.erase {α : Type} (t : Tbl α) (k : Nat) : Tbl α := ⟨t.cells.filter fun c => !(c.1 == k)⟩

/-- Writes `v` under `k`; the value every unlisted key reads as (`d`) is not listed. -/
def Tbl.putD {α : Type} [DecidableEq α] (t : Tbl α) (d : α) (k : Nat) (v : α) : Tbl α :=
  if v = d then t.erase k else t.put k v

/-- Applies `f` to what is listed under `k`; nothing listed, nothing changed. -/
def Tbl.modify {α : Type} (t : Tbl α) (k : Nat) (f : α → α) : Tbl α :=
  match t.look? k with
  | some v => t.put k (f v)
  | none => t

/-- Keeps the cells whose key and value satisfy `p`. -/
def Tbl.keep {α : Type} (t : Tbl α) (p : Nat → α → Bool) : Tbl α := ⟨t.cells.filter fun c => p c.1 c.2⟩

/-- Changes every listed value, leaving the keys. -/
def Tbl.mapVals {α β : Type} (t : Tbl α) (f : Nat → α → β) : Tbl β := ⟨t.cells.map fun c => (c.1, f c.1 c.2)⟩

/-- The listed values in key order. -/
def Tbl.vals {α : Type} (t : Tbl α) : List α := t.cells.map (·.2)

/-- The listed keys in order. -/
def Tbl.keys {α : Type} (t : Tbl α) : List Nat := t.cells.map (·.1)

/-- A key above every listed one. -/
def Tbl.nextKey {α : Type} (t : Tbl α) : Nat := t.cells.foldl (fun m c => max m (c.1 + 1)) 0

/-- How many cells are listed. -/
def Tbl.size {α : Type} (t : Tbl α) : Nat := t.cells.length

/-- The first cell whose key and value satisfy `p`. -/
def Tbl.first? {α : Type} (t : Tbl α) (p : Nat → α → Bool) : Option (Nat × α) := t.cells.find? fun c => p c.1 c.2

/-- How many cells satisfy `p`. -/
def Tbl.countP {α : Type} (t : Tbl α) (p : Nat → α → Bool) : Nat := (t.cells.filter fun c => p c.1 c.2).length

/-- Keys strictly rising. -/
def Tbl.rising {α : Type} : List (Nat × α) → Bool
  | [] => true
  | [_] => true
  | c :: c' :: rest => decide (c.1 < c'.1) && Tbl.rising (c' :: rest)

/-- The canonical form: keys strictly rising and no cell that lists the default. -/
def Tbl.wf {α : Type} [DecidableEq α] (t : Tbl α) (d : α) : Bool :=
  Tbl.rising t.cells && t.cells.all fun c => decide (c.2 ≠ d)

end Sys2Proof
end

