-- ==== Sys2Proof/Machine/RegMap.lean ====
section
/-!
DEFINITION. The register map: every register of the device windows (R410) and of the function page (R294, R355),
with its place, its size, the access code of each of its fields (R4) and its value after the reset of its block (R411).
Offsets are in the 26-bit address space of R410; a function page register's offset is counted from the page.
-/
namespace Sys2Proof.Machine

/-- The registers of the device by the manual's names (window tables of the chapters, R410; function page, R294 and R355). -/
inductive Reg where
  | MER_CTRL
  | MER_STATUS
  | MER_NOW
  | MER_LOAD
  | MER_RATE_ADJ
  | MER_SLEW_RATE
  | MER_SLEW_REMAIN
  | MER_TIO_CTRL
  | MER_TIO_PERIOD
  | MER_TIO_PHASE
  | MER_TIO_FIFO_STAT
  | MER_TIO_STAMP
  | MER_TIO_TARGET
  | MER_PHY_DELAY
  | MER_PTP_CTRL
  | MER_ONESTEP_DOWNGRADE
  | PCA_STATUS
  | PCA_IGNORED_ADDR
  | PCA_HOST_REGION
  | PCA_PORT_REGION
  | PCA_REGION_DROP
  | PCA_RQ_FULL_DROP
  | PCA_DISPATCH_DROP
  | PCA_RQ_LEVEL
  | PCA_WAIT_CLOSED
  | PCA_CHAN_ABANDON
  | PCA_CORE_CFG
  | PCA_THREAD_CTRL
  | PCA_THREAD_STAT
  | PCA_EVT_SRC
  | PCA_CHAN_CFG
  | PCA_CHAN_WRITERS
  | PCA_CHAN_READERS
  | PCA_CHAN_STAT
  | PCA_FUNC_GROUP
  | DBG_THREAD_CTRL
  | DBG_THREAD_SEL
  | DBG_THREAD_GREG
  | DBG_THREAD_PC
  | FNC_THREAD_FAULT
  | FNC_MC_DROP
  | FNC_INSET_STAT
  | CLS_STATUS
  | CLS_IGNORED_ADDR
  | CLS_EXC_COUNT
  | CLS_FUNC_CFG
  | CLS_EXC_DISP
  | CLS_EXC_DROP
  | CLS_SHEET_NUM
  | CLS_SHEET_STAT
  | TBL_CTRL
  | TBL_STATUS
  | TBL_IGNORED_ADDR
  | TBL_PARTITION
  | TBL_AGE_CFG
  | TBL_LEARN_CFG
  | TBL_LEARN_PORTS
  | TBL_OVF_LEVEL
  | TBL_LEARN_STALE
  | TBL_LEARN_FROZEN
  | TBL_LEARN_STATIC
  | TBL_LEARN_DROP
  | TBL_FLAP_COUNT
  | TBL_REFRESH_MISS
  | TBL_ECC_FAIL
  | TBL_DESC_BASE
  | TBL_DESC_CFG
  | TBL_DESC_SEED
  | TBL_DESC_USED
  | TBL_FUNC_QUOTA
  | TBL_FUNC_USED
  | TBL_LEARN_FULL
  | TBL_LPM4_FILTER
  | TBL_LPM6_FILTER
  | TBL_FUNC_GRANT
  | VSW_STATUS
  | VSW_IGNORED_ADDR
  | VSW_NO_DEST
  | VSW_TUN_MISMATCH
  | VSW_TUN_MTU_DROP
  | VSW_REPL_DROP
  | VSW_MIRROR_DROP
  | VSW_HAIRPIN_DROP
  | VSW_PORT_CFG
  | VSW_PORT_VLAN_DROP
  | VSW_PORT_MIRROR
  | VSW_FUNC_CFG
  | VSW_FUNC_VLAN_DROP
  | VSW_MIRROR_CFG
  | CIP_CTRL
  | CIP_STATUS
  | CIP_IGNORED_ADDR
  | CIP_CM_CFG
  | CIP_SCHED_CFG
  | CIP_ADMIT_DROP
  | CIP_SLOT_DROP
  | CIP_ESP_DROP
  | CIP_TLS_AUTH_FAIL
  | CIP_CORE_BUSY
  | CIP_PORT_MACSEC
  | CIP_MACSEC_RX_DROP
  | CIP_MACSEC_TX_DROP
  | CIP_FUNC_LIMIT
  | CIP_KEY_SLOT
  | TMG_CTRL
  | TMG_STATUS
  | TMG_IGNORED_ADDR
  | TMG_RESEQ_UNTRACKED
  | TMG_PORT_CFG
  | TMG_RESEQ_CTRL
  | TMG_RESEQ_LATE
  | TMG_RESEQ_TIMEOUT
  | TMG_RESEQ_FULL
  | TMG_RESIDENCY_DROP
  | TMG_QUEUE_REMAP
  | TMG_LATE_LAUNCH
  | TMG_GATE_CTRL
  | TMG_PREEMPT_CFG
  | TMG_PREEMPT_COUNT
  | TMG_DEFQ_DROP
  | TMG_GATE_STAT
  | TMG_GROUP_CFG
  | TMG_QUEUE_CFG
  | TMG_QUEUE_SCHED
  | TMG_QUEUE_LIMIT
  | TMG_QUEUE_DEPTH
  | TMG_QUEUE_DELAY_MAX
  | TMG_QUEUE_DROP
  | TMG_SHAPER_CTRL
  | TMG_SHAPER_RATE
  | TMG_SHAPER_HI
  | TMG_SHAPER_CREDIT
  | BPM_CTRL
  | BPM_STATUS
  | BPM_IGNORED_ADDR
  | BPM_FREE_DENIED
  | BPM_POOL_CFG
  | BPM_POOL_BASE
  | BPM_POOL_FREE
  | BPM_POOL_EMPTY_CNT
  | BPM_PARTY_CFG
  | BPM_PARTY_USED
  | BPM_PARTY_DROP
  | DMA_CTRL
  | DMA_STATUS
  | DMA_IGNORED_ADDR
  | DMA_SPEC_DENIED
  | DMA_CHAN_CFG
  | DMA_CHAN_BURSTS
  | DMA_QP_CFG
  | DMA_LG_CTX
  | DMA_PF_WIN
  | STO_CTRL
  | STO_STATUS
  | STO_IGNORED_ADDR
  | STO_CMD_FREE
  | STO_RX_DISCARD
  | STO_RETRANSMIT
  | STO_HDGST_ERR
  | STO_DDGST_ERR
  | STO_TERM_SENT
  | STO_CONN_LOST_CNT
  | STO_FUNC_QUOTA
  | STO_CONN_STAT
  | HIF_TX_TAIL
  | HIF_RX_TAIL
  | HIF_TXC_HEAD
  | HIF_RXC_HEAD
  | HIF_AQ_TAIL
  | HIF_AQC_HEAD
  | HIF_QP_CTX
  | HIF_RSS
  | HIF_FUNC_INFO
  | HIF_FUNC_GEN
  | HIF_FUNC_PRIV
  | HIF_CARTOUCHE
  | HIF_AQ_CFG
  | HIF_STATUS
  | HIF_IGNORED_ADDR
  | HIF_LINK_CFG
  | HIF_LINK_STAT
  | HIF_BUS_ERR
  | HIF_BUS_ERR_ADDR
  | HIF_BUS_ERR_COUNT
  | HIF_HOST_ERR
  | HIF_ATS_INVAL
  | FNC_ISOLATION_DROP
  | FNC_PRIV
  | FNC_QP_MAP
  | FNC_FUNC_STATE
  | FNC_BLOCK_GEN
  | FNC_FROZEN_DROP
  | FNC_GEN_REC
  | MBX_TX_BUF
  | MBX_TX_CTRL
  | MBX_SEND
  | MBX_POST
  | MBX_RING
  | MBX_TX_STAT
  | MBX_RX_STAT
  | MBX_RX_FROM
  | MBX_RX_GEN
  | MBX_RX_STAMP
  | MBX_RX_POP
  | MBX_DOORBELL
  | MBX_CFG
  | MBX_EVT_LOST
  | MBX_RX_BUF
  | VCL_STATUS
  | VCL_IGNORED_ADDR
  | VCL_FW_STATE
  | VCL_CMD_COUNT
  | VCL_SLOW_LEVEL
  | VCL_MGMT_CFG
  | VCL_MGMT_MAC_HI
  | VCL_MGMT_MAC_LO
  | VCL_MGMT_DROP
  | VCL_MGMT_AUTH_FAIL
  | VCL_SMB_STAT
  | VCL_SMB_PEC_ERR
  | VCL_SLOW_CFG
  | VCL_SLOW_DROP
  | PRT_STATUS
  | PRT_IGNORED_ADDR
  | PRT_PORT_CFG
  | PRT_LINK_STAT
  | PRT_MAX_LEN
  | PRT_FC_CFG
  | PRT_FC_THRESH
  | PRT_PAUSE_WDOG
  | PRT_DEF_FUNC
  | PRT_RX_NOFUNC
  | PRT_RX_FRAMES
  | PRT_RX_FCS_ERR
  | PRT_RX_OVERSIZE
  | PRT_RX_RUNT
  | PRT_RX_MAC_CTRL
  | PRT_RX_CTRL_DROP
  | PRT_TX_FRAMES
  | PRT_TX_OVERSIZE
  | PRT_TX_UNDERRUN
  | PRT_TX_PAUSE
  | PRT_PAUSE_WDOG_CNT
  | PRT_FEC_CORR
  | PRT_FEC_UNCORR
  | PRT_TX_ABORT
  | PRT_STEPDOWN
  | PRT_FAULT_PORT
  | PRT_FAULT_PORT_HITS
  | PRT_FAULT_FUNC
  | PRT_FAULT_FUNC_HITS
  | PWR_STAT
  | PWR_RESET_CAUSE
  | PWR_WARN_COUNT
  | PWR_THERM_CFG
  | PWR_RAIL_STAT
  | PWR_TEMP
  | PWR_ISLAND_STAT
  | PWR_PACE
  | PWR_LEAD_CFG
  | PWR_CONTOUR_LATE
  | DBG_LOG_CTRL
  | DBG_LOG_FUNC_FILTER
  | DBG_LOG_DROP
  | DBG_LOG_WPTR
  | DBG_LOG_RPTR
  | DBG_LOG_HOST_BASE
  | DBG_LOG_HOST_SIZE
  | DBG_LOG_CLASS_EN
  | DBG_WRITE_IGNORED
  | DBG_WRITE_IGNORED_ADDR
  | DBG_DOMAIN_ERR
  | DBG_DOMAIN_ERR_ADDR
  | DBG_DOMAIN_ERR_COUNT
  | DBG_RESET_CTRL
  | MBX_POST_DROP
  | MBX_HOLD_LEVEL
  | MBX_HOLD_WAKES
  | SEC_STAT
  | SEC_DEVICE_ID
  | SEC_SIGN_INDEX
  | SEC_SIGN_CFG
  | SEC_SIGN_COUNT
  | SEC_MIN_SVN
  | SEC_OWNER_SEQ
  | SEC_MRAM_CORR
  | SEC_MRAM_UNCORR
  | SEC_TRNG_FAIL_CNT
  | SEC_CARTOUCHE
  deriving DecidableEq, Repr

/-- Where a register lies and how many words it has. -/
structure RegInfo where
  /-- Window of R410, 0 to 17. -/
  window : Nat
  /-- True for a register of the function page (R294). -/
  page : Bool
  /-- Offset of item 0 from the window base or the page base. -/
  off : Nat
  /-- Number of indexed items (per function page for page registers). -/
  count : Nat
  /-- Words of one item. -/
  words : Nat
  /-- The index runs over functions: 1 item per function, or `sub` items per function (R421), 0 when it does not. -/
  sub : Nat
  deriving DecidableEq, Repr

/-- The map itself, one row per register, in the order of the chapters' tables. -/
def Reg.info : Reg → RegInfo
  | .MER_CTRL => ⟨3, false, 0x0, 1, 1, 0⟩
  | .MER_STATUS => ⟨3, false, 0x4, 1, 1, 0⟩
  | .MER_NOW => ⟨3, false, 0x10, 1, 3, 0⟩
  | .MER_LOAD => ⟨3, false, 0x20, 1, 3, 0⟩
  | .MER_RATE_ADJ => ⟨3, false, 0x30, 1, 2, 0⟩
  | .MER_SLEW_RATE => ⟨3, false, 0x38, 1, 1, 0⟩
  | .MER_SLEW_REMAIN => ⟨3, false, 0x3C, 1, 1, 0⟩
  | .MER_TIO_CTRL => ⟨3, false, 0x40, 4, 1, 0⟩
  | .MER_TIO_PERIOD => ⟨3, false, 0x50, 4, 1, 0⟩
  | .MER_TIO_PHASE => ⟨3, false, 0x60, 4, 1, 0⟩
  | .MER_TIO_FIFO_STAT => ⟨3, false, 0x70, 4, 1, 0⟩
  | .MER_TIO_STAMP => ⟨3, false, 0x80, 4, 4, 0⟩
  | .MER_TIO_TARGET => ⟨3, false, 0xC0, 4, 4, 0⟩
  | .MER_PHY_DELAY => ⟨3, false, 0x100, 18, 1, 0⟩
  | .MER_PTP_CTRL => ⟨3, false, 0x180, 18, 1, 0⟩
  | .MER_ONESTEP_DOWNGRADE => ⟨3, false, 0x200, 18, 1, 0⟩
  | .PCA_STATUS => ⟨4, false, 0x0, 1, 1, 0⟩
  | .PCA_IGNORED_ADDR => ⟨4, false, 0x4, 1, 1, 0⟩
  | .PCA_HOST_REGION => ⟨4, false, 0x10, 1, 1, 0⟩
  | .PCA_PORT_REGION => ⟨4, false, 0x40, 18, 1, 0⟩
  | .PCA_REGION_DROP => ⟨4, false, 0x100, 4, 1, 0⟩
  | .PCA_RQ_FULL_DROP => ⟨4, false, 0x110, 4, 1, 0⟩
  | .PCA_DISPATCH_DROP => ⟨4, false, 0x120, 4, 1, 0⟩
  | .PCA_RQ_LEVEL => ⟨4, false, 0x130, 4, 1, 0⟩
  | .PCA_WAIT_CLOSED => ⟨4, false, 0x140, 16, 1, 0⟩
  | .PCA_CHAN_ABANDON => ⟨4, false, 0x180, 16, 1, 0⟩
  | .PCA_CORE_CFG => ⟨4, false, 0x200, 128, 1, 0⟩
  | .PCA_THREAD_CTRL => ⟨4, false, 0x1000, 512, 1, 0⟩
  | .PCA_THREAD_STAT => ⟨4, false, 0x1800, 512, 1, 0⟩
  | .PCA_EVT_SRC => ⟨4, false, 0x2000, 512, 1, 0⟩
  | .PCA_CHAN_CFG => ⟨4, false, 0x2800, 128, 1, 0⟩
  | .PCA_CHAN_WRITERS => ⟨4, false, 0x2A00, 128, 1, 0⟩
  | .PCA_CHAN_READERS => ⟨4, false, 0x2C00, 128, 1, 0⟩
  | .PCA_CHAN_STAT => ⟨4, false, 0x2E00, 128, 1, 0⟩
  | .PCA_FUNC_GROUP => ⟨4, false, 0x4000, 1024, 1, 1⟩
  | .DBG_THREAD_CTRL => ⟨17, false, 0x4000, 512, 1, 0⟩
  | .DBG_THREAD_SEL => ⟨17, false, 0x4800, 1, 1, 0⟩
  | .DBG_THREAD_GREG => ⟨17, false, 0x4880, 32, 1, 0⟩
  | .DBG_THREAD_PC => ⟨17, false, 0x4900, 1, 1, 0⟩
  | .FNC_THREAD_FAULT => ⟨1, false, 0x6000, 1024, 1, 1⟩
  | .FNC_MC_DROP => ⟨1, false, 0x7000, 1024, 1, 1⟩
  | .FNC_INSET_STAT => ⟨1, false, 0x8000, 1024, 1, 1⟩
  | .CLS_STATUS => ⟨5, false, 0x0, 1, 1, 0⟩
  | .CLS_IGNORED_ADDR => ⟨5, false, 0x4, 1, 1, 0⟩
  | .CLS_EXC_COUNT => ⟨5, false, 0x100, 32, 1, 0⟩
  | .CLS_FUNC_CFG => ⟨5, false, 0x1000, 1024, 1, 1⟩
  | .CLS_EXC_DISP => ⟨5, false, 0x2000, 1024, 1, 1⟩
  | .CLS_EXC_DROP => ⟨5, false, 0x3000, 1024, 1, 1⟩
  | .CLS_SHEET_NUM => ⟨5, false, 0x4000, 1024, 1, 1⟩
  | .CLS_SHEET_STAT => ⟨5, false, 0x5000, 1024, 1, 1⟩
  | .TBL_CTRL => ⟨6, false, 0x0, 1, 1, 0⟩
  | .TBL_STATUS => ⟨6, false, 0x4, 1, 1, 0⟩
  | .TBL_IGNORED_ADDR => ⟨6, false, 0x8, 1, 1, 0⟩
  | .TBL_PARTITION => ⟨6, false, 0xC, 1, 1, 0⟩
  | .TBL_AGE_CFG => ⟨6, false, 0x10, 1, 1, 0⟩
  | .TBL_LEARN_CFG => ⟨6, false, 0x14, 1, 1, 0⟩
  | .TBL_LEARN_PORTS => ⟨6, false, 0x18, 1, 1, 0⟩
  | .TBL_OVF_LEVEL => ⟨6, false, 0x1C, 1, 1, 0⟩
  | .TBL_LEARN_STALE => ⟨6, false, 0x20, 1, 1, 0⟩
  | .TBL_LEARN_FROZEN => ⟨6, false, 0x24, 1, 1, 0⟩
  | .TBL_LEARN_STATIC => ⟨6, false, 0x28, 1, 1, 0⟩
  | .TBL_LEARN_DROP => ⟨6, false, 0x2C, 1, 1, 0⟩
  | .TBL_FLAP_COUNT => ⟨6, false, 0x30, 1, 1, 0⟩
  | .TBL_REFRESH_MISS => ⟨6, false, 0x34, 1, 1, 0⟩
  | .TBL_ECC_FAIL => ⟨6, false, 0x38, 1, 1, 0⟩
  | .TBL_DESC_BASE => ⟨6, false, 0x100, 64, 1, 0⟩
  | .TBL_DESC_CFG => ⟨6, false, 0x200, 64, 1, 0⟩
  | .TBL_DESC_SEED => ⟨6, false, 0x300, 64, 1, 0⟩
  | .TBL_DESC_USED => ⟨6, false, 0x400, 64, 1, 0⟩
  | .TBL_FUNC_QUOTA => ⟨6, false, 0x1000, 1024, 1, 1⟩
  | .TBL_FUNC_USED => ⟨6, false, 0x2000, 1024, 1, 1⟩
  | .TBL_LEARN_FULL => ⟨6, false, 0x3000, 1024, 1, 1⟩
  | .TBL_LPM4_FILTER => ⟨6, false, 0x4000, 1024, 1, 1⟩
  | .TBL_LPM6_FILTER => ⟨6, false, 0x5000, 4096, 1, 4⟩
  | .TBL_FUNC_GRANT => ⟨6, false, 0x9000, 2048, 1, 2⟩
  | .VSW_STATUS => ⟨7, false, 0x0, 1, 1, 0⟩
  | .VSW_IGNORED_ADDR => ⟨7, false, 0x4, 1, 1, 0⟩
  | .VSW_NO_DEST => ⟨7, false, 0x10, 1, 1, 0⟩
  | .VSW_TUN_MISMATCH => ⟨7, false, 0x14, 1, 1, 0⟩
  | .VSW_TUN_MTU_DROP => ⟨7, false, 0x18, 1, 1, 0⟩
  | .VSW_REPL_DROP => ⟨7, false, 0x1C, 1, 1, 0⟩
  | .VSW_MIRROR_DROP => ⟨7, false, 0x20, 1, 1, 0⟩
  | .VSW_HAIRPIN_DROP => ⟨7, false, 0x24, 1, 1, 0⟩
  | .VSW_PORT_CFG => ⟨7, false, 0x100, 18, 1, 0⟩
  | .VSW_PORT_VLAN_DROP => ⟨7, false, 0x180, 18, 1, 0⟩
  | .VSW_PORT_MIRROR => ⟨7, false, 0x200, 18, 1, 0⟩
  | .VSW_FUNC_CFG => ⟨7, false, 0x1000, 1024, 1, 1⟩
  | .VSW_FUNC_VLAN_DROP => ⟨7, false, 0x2000, 1024, 1, 1⟩
  | .VSW_MIRROR_CFG => ⟨7, false, 0x3000, 1024, 1, 1⟩
  | .CIP_CTRL => ⟨8, false, 0x0, 1, 1, 0⟩
  | .CIP_STATUS => ⟨8, false, 0x4, 1, 1, 0⟩
  | .CIP_IGNORED_ADDR => ⟨8, false, 0x8, 1, 1, 0⟩
  | .CIP_CM_CFG => ⟨8, false, 0xC, 1, 1, 0⟩
  | .CIP_SCHED_CFG => ⟨8, false, 0x10, 1, 1, 0⟩
  | .CIP_ADMIT_DROP => ⟨8, false, 0x20, 1, 1, 0⟩
  | .CIP_SLOT_DROP => ⟨8, false, 0x24, 1, 1, 0⟩
  | .CIP_ESP_DROP => ⟨8, false, 0x28, 1, 1, 0⟩
  | .CIP_TLS_AUTH_FAIL => ⟨8, false, 0x2C, 1, 1, 0⟩
  | .CIP_CORE_BUSY => ⟨8, false, 0x30, 1, 1, 0⟩
  | .CIP_PORT_MACSEC => ⟨8, false, 0x100, 18, 1, 0⟩
  | .CIP_MACSEC_RX_DROP => ⟨8, false, 0x180, 18, 1, 0⟩
  | .CIP_MACSEC_TX_DROP => ⟨8, false, 0x200, 18, 1, 0⟩
  | .CIP_FUNC_LIMIT => ⟨8, false, 0x1000, 1024, 1, 1⟩
  | .CIP_KEY_SLOT => ⟨8, false, 0x10000, 16384, 1, 0⟩
  | .TMG_CTRL => ⟨9, false, 0x0, 1, 1, 0⟩
  | .TMG_STATUS => ⟨9, false, 0x4, 1, 1, 0⟩
  | .TMG_IGNORED_ADDR => ⟨9, false, 0x8, 1, 1, 0⟩
  | .TMG_RESEQ_UNTRACKED => ⟨9, false, 0x10, 1, 1, 0⟩
  | .TMG_PORT_CFG => ⟨9, false, 0x100, 18, 1, 0⟩
  | .TMG_RESEQ_CTRL => ⟨9, false, 0x180, 18, 1, 0⟩
  | .TMG_RESEQ_LATE => ⟨9, false, 0x200, 18, 1, 0⟩
  | .TMG_RESEQ_TIMEOUT => ⟨9, false, 0x280, 18, 1, 0⟩
  | .TMG_RESEQ_FULL => ⟨9, false, 0x300, 18, 1, 0⟩
  | .TMG_RESIDENCY_DROP => ⟨9, false, 0x380, 18, 1, 0⟩
  | .TMG_QUEUE_REMAP => ⟨9, false, 0x400, 18, 1, 0⟩
  | .TMG_LATE_LAUNCH => ⟨9, false, 0x480, 18, 1, 0⟩
  | .TMG_GATE_CTRL => ⟨9, false, 0x500, 18, 1, 0⟩
  | .TMG_PREEMPT_CFG => ⟨9, false, 0x580, 16, 1, 0⟩
  | .TMG_PREEMPT_COUNT => ⟨9, false, 0x600, 16, 1, 0⟩
  | .TMG_DEFQ_DROP => ⟨9, false, 0x680, 18, 1, 0⟩
  | .TMG_GATE_STAT => ⟨9, false, 0x800, 18, 4, 0⟩
  | .TMG_GROUP_CFG => ⟨9, false, 0x10000, 2048, 1, 0⟩
  | .TMG_QUEUE_CFG => ⟨9, false, 0x20000, 16384, 1, 0⟩
  | .TMG_QUEUE_SCHED => ⟨9, false, 0x30000, 16384, 1, 0⟩
  | .TMG_QUEUE_LIMIT => ⟨9, false, 0x40000, 16384, 1, 0⟩
  | .TMG_QUEUE_DEPTH => ⟨9, false, 0x50000, 16384, 1, 0⟩
  | .TMG_QUEUE_DELAY_MAX => ⟨9, false, 0x60000, 16384, 1, 0⟩
  | .TMG_QUEUE_DROP => ⟨9, false, 0x70000, 16384, 1, 0⟩
  | .TMG_SHAPER_CTRL => ⟨9, false, 0x80000, 8192, 1, 0⟩
  | .TMG_SHAPER_RATE => ⟨9, false, 0x88000, 8192, 1, 0⟩
  | .TMG_SHAPER_HI => ⟨9, false, 0x90000, 8192, 1, 0⟩
  | .TMG_SHAPER_CREDIT => ⟨9, false, 0x98000, 8192, 1, 0⟩
  | .BPM_CTRL => ⟨10, false, 0x0, 1, 1, 0⟩
  | .BPM_STATUS => ⟨10, false, 0x4, 1, 1, 0⟩
  | .BPM_IGNORED_ADDR => ⟨10, false, 0x8, 1, 1, 0⟩
  | .BPM_FREE_DENIED => ⟨10, false, 0x10, 1, 1, 0⟩
  | .BPM_POOL_CFG => ⟨10, false, 0x100, 4, 1, 0⟩
  | .BPM_POOL_BASE => ⟨10, false, 0x110, 4, 1, 0⟩
  | .BPM_POOL_FREE => ⟨10, false, 0x120, 4, 1, 0⟩
  | .BPM_POOL_EMPTY_CNT => ⟨10, false, 0x130, 4, 1, 0⟩
  | .BPM_PARTY_CFG => ⟨10, false, 0x1000, 512, 1, 0⟩
  | .BPM_PARTY_USED => ⟨10, false, 0x1800, 512, 1, 0⟩
  | .BPM_PARTY_DROP => ⟨10, false, 0x2000, 512, 1, 0⟩
  | .DMA_CTRL => ⟨11, false, 0x0, 1, 1, 0⟩
  | .DMA_STATUS => ⟨11, false, 0x4, 1, 1, 0⟩
  | .DMA_IGNORED_ADDR => ⟨11, false, 0x8, 1, 1, 0⟩
  | .DMA_SPEC_DENIED => ⟨11, false, 0x10, 1, 1, 0⟩
  | .DMA_CHAN_CFG => ⟨11, false, 0x100, 64, 1, 0⟩
  | .DMA_CHAN_BURSTS => ⟨11, false, 0x200, 64, 1, 0⟩
  | .DMA_QP_CFG => ⟨11, false, 0x10000, 16384, 1, 0⟩
  | .DMA_LG_CTX => ⟨11, false, 0x20000, 1024, 8, 0⟩
  | .DMA_PF_WIN => ⟨11, false, 0x40000, 8192, 4, 8⟩
  | .STO_CTRL => ⟨12, false, 0x0, 1, 1, 0⟩
  | .STO_STATUS => ⟨12, false, 0x4, 1, 1, 0⟩
  | .STO_IGNORED_ADDR => ⟨12, false, 0x8, 1, 1, 0⟩
  | .STO_CMD_FREE => ⟨12, false, 0x10, 1, 1, 0⟩
  | .STO_RX_DISCARD => ⟨12, false, 0x14, 1, 1, 0⟩
  | .STO_RETRANSMIT => ⟨12, false, 0x18, 1, 1, 0⟩
  | .STO_HDGST_ERR => ⟨12, false, 0x1C, 1, 1, 0⟩
  | .STO_DDGST_ERR => ⟨12, false, 0x20, 1, 1, 0⟩
  | .STO_TERM_SENT => ⟨12, false, 0x24, 1, 1, 0⟩
  | .STO_CONN_LOST_CNT => ⟨12, false, 0x28, 1, 1, 0⟩
  | .STO_FUNC_QUOTA => ⟨12, false, 0x1000, 1024, 1, 1⟩
  | .STO_CONN_STAT => ⟨12, false, 0x10000, 16384, 1, 0⟩
  | .HIF_TX_TAIL => ⟨0, true, 0x0, 64, 1, 0⟩
  | .HIF_RX_TAIL => ⟨0, true, 0x100, 64, 1, 0⟩
  | .HIF_TXC_HEAD => ⟨0, true, 0x200, 64, 1, 0⟩
  | .HIF_RXC_HEAD => ⟨0, true, 0x300, 64, 1, 0⟩
  | .HIF_AQ_TAIL => ⟨0, true, 0x400, 1, 1, 0⟩
  | .HIF_AQC_HEAD => ⟨0, true, 0x404, 1, 1, 0⟩
  | .HIF_QP_CTX => ⟨0, true, 0x1000, 64, 16, 0⟩
  | .HIF_RSS => ⟨0, true, 0x2000, 64, 1, 0⟩
  | .HIF_FUNC_INFO => ⟨0, true, 0x2100, 1, 1, 0⟩
  | .HIF_FUNC_GEN => ⟨0, true, 0x2104, 1, 1, 0⟩
  | .HIF_FUNC_PRIV => ⟨0, true, 0x2108, 1, 1, 0⟩
  | .HIF_CARTOUCHE => ⟨0, true, 0x2140, 16, 1, 0⟩
  | .HIF_AQ_CFG => ⟨0, true, 0x2200, 1, 8, 0⟩
  | .HIF_STATUS => ⟨0, false, 0x0, 1, 1, 0⟩
  | .HIF_IGNORED_ADDR => ⟨0, false, 0x4, 1, 1, 0⟩
  | .HIF_LINK_CFG => ⟨0, false, 0x10, 1, 1, 0⟩
  | .HIF_LINK_STAT => ⟨0, false, 0x20, 2, 1, 0⟩
  | .HIF_BUS_ERR => ⟨0, false, 0x30, 1, 1, 0⟩
  | .HIF_BUS_ERR_ADDR => ⟨0, false, 0x34, 1, 1, 0⟩
  | .HIF_BUS_ERR_COUNT => ⟨0, false, 0x38, 1, 1, 0⟩
  | .HIF_HOST_ERR => ⟨0, false, 0x40, 1, 1, 0⟩
  | .HIF_ATS_INVAL => ⟨0, false, 0x44, 1, 1, 0⟩
  | .FNC_ISOLATION_DROP => ⟨1, false, 0x9000, 1024, 1, 1⟩
  | .FNC_PRIV => ⟨1, false, 0xA000, 1024, 1, 1⟩
  | .FNC_QP_MAP => ⟨1, false, 0xB000, 1024, 1, 1⟩
  | .FNC_FUNC_STATE => ⟨1, false, 0xC000, 1024, 1, 1⟩
  | .FNC_BLOCK_GEN => ⟨1, false, 0xD000, 25, 1, 0⟩
  | .FNC_FROZEN_DROP => ⟨1, false, 0xE000, 1024, 1, 1⟩
  | .FNC_GEN_REC => ⟨1, false, 0x10000, 1024, 4, 1⟩
  | .MBX_TX_BUF => ⟨14, true, 0x3000, 64, 1, 0⟩
  | .MBX_TX_CTRL => ⟨14, true, 0x3100, 1, 1, 0⟩
  | .MBX_SEND => ⟨14, true, 0x3104, 1, 1, 0⟩
  | .MBX_POST => ⟨14, true, 0x3108, 1, 1, 0⟩
  | .MBX_RING => ⟨14, true, 0x310C, 1, 1, 0⟩
  | .MBX_TX_STAT => ⟨14, true, 0x3110, 1, 1, 0⟩
  | .MBX_RX_STAT => ⟨14, true, 0x3200, 1, 1, 0⟩
  | .MBX_RX_FROM => ⟨14, true, 0x3204, 1, 1, 0⟩
  | .MBX_RX_GEN => ⟨14, true, 0x3208, 1, 1, 0⟩
  | .MBX_RX_STAMP => ⟨14, true, 0x3210, 1, 3, 0⟩
  | .MBX_RX_POP => ⟨14, true, 0x321C, 1, 1, 0⟩
  | .MBX_DOORBELL => ⟨14, true, 0x3220, 1, 1, 0⟩
  | .MBX_CFG => ⟨14, true, 0x3224, 1, 1, 0⟩
  | .MBX_EVT_LOST => ⟨14, true, 0x3228, 1, 1, 0⟩
  | .MBX_RX_BUF => ⟨14, true, 0x3300, 64, 1, 0⟩
  | .VCL_STATUS => ⟨13, false, 0x0, 1, 1, 0⟩
  | .VCL_IGNORED_ADDR => ⟨13, false, 0x4, 1, 1, 0⟩
  | .VCL_FW_STATE => ⟨13, false, 0x10, 1, 1, 0⟩
  | .VCL_CMD_COUNT => ⟨13, false, 0x14, 1, 1, 0⟩
  | .VCL_SLOW_LEVEL => ⟨13, false, 0x18, 1, 1, 0⟩
  | .VCL_MGMT_CFG => ⟨13, false, 0x20, 1, 1, 0⟩
  | .VCL_MGMT_MAC_HI => ⟨13, false, 0x24, 1, 1, 0⟩
  | .VCL_MGMT_MAC_LO => ⟨13, false, 0x28, 1, 1, 0⟩
  | .VCL_MGMT_DROP => ⟨13, false, 0x2C, 1, 1, 0⟩
  | .VCL_MGMT_AUTH_FAIL => ⟨13, false, 0x30, 1, 1, 0⟩
  | .VCL_SMB_STAT => ⟨13, false, 0x34, 1, 1, 0⟩
  | .VCL_SMB_PEC_ERR => ⟨13, false, 0x38, 1, 1, 0⟩
  | .VCL_SLOW_CFG => ⟨13, false, 0x1000, 1024, 1, 1⟩
  | .VCL_SLOW_DROP => ⟨13, false, 0x2000, 1024, 1, 1⟩
  | .PRT_STATUS => ⟨2, false, 0x0, 1, 1, 0⟩
  | .PRT_IGNORED_ADDR => ⟨2, false, 0x4, 1, 1, 0⟩
  | .PRT_PORT_CFG => ⟨2, false, 0x100, 18, 1, 0⟩
  | .PRT_LINK_STAT => ⟨2, false, 0x180, 18, 1, 0⟩
  | .PRT_MAX_LEN => ⟨2, false, 0x200, 18, 1, 0⟩
  | .PRT_FC_CFG => ⟨2, false, 0x280, 18, 1, 0⟩
  | .PRT_FC_THRESH => ⟨2, false, 0x300, 18, 1, 0⟩
  | .PRT_PAUSE_WDOG => ⟨2, false, 0x380, 18, 1, 0⟩
  | .PRT_DEF_FUNC => ⟨2, false, 0x400, 18, 1, 0⟩
  | .PRT_RX_NOFUNC => ⟨2, false, 0x480, 18, 1, 0⟩
  | .PRT_RX_FRAMES => ⟨2, false, 0x800, 18, 1, 0⟩
  | .PRT_RX_FCS_ERR => ⟨2, false, 0x880, 18, 1, 0⟩
  | .PRT_RX_OVERSIZE => ⟨2, false, 0x900, 18, 1, 0⟩
  | .PRT_RX_RUNT => ⟨2, false, 0x980, 18, 1, 0⟩
  | .PRT_RX_MAC_CTRL => ⟨2, false, 0xA00, 18, 1, 0⟩
  | .PRT_RX_CTRL_DROP => ⟨2, false, 0xA80, 18, 1, 0⟩
  | .PRT_TX_FRAMES => ⟨2, false, 0xB00, 18, 1, 0⟩
  | .PRT_TX_OVERSIZE => ⟨2, false, 0xB80, 18, 1, 0⟩
  | .PRT_TX_UNDERRUN => ⟨2, false, 0xC00, 18, 1, 0⟩
  | .PRT_TX_PAUSE => ⟨2, false, 0xC80, 18, 1, 0⟩
  | .PRT_PAUSE_WDOG_CNT => ⟨2, false, 0xD00, 18, 1, 0⟩
  | .PRT_FEC_CORR => ⟨2, false, 0xD80, 18, 1, 0⟩
  | .PRT_FEC_UNCORR => ⟨2, false, 0xE00, 18, 1, 0⟩
  | .PRT_TX_ABORT => ⟨2, false, 0xE80, 18, 1, 0⟩
  | .PRT_STEPDOWN => ⟨2, false, 0x1000, 18, 4, 0⟩
  | .PRT_FAULT_PORT => ⟨2, false, 0x2000, 36, 4, 0⟩
  | .PRT_FAULT_PORT_HITS => ⟨2, false, 0x2400, 36, 1, 0⟩
  | .PRT_FAULT_FUNC => ⟨2, false, 0x10000, 1024, 4, 1⟩
  | .PRT_FAULT_FUNC_HITS => ⟨2, false, 0x14000, 1024, 1, 1⟩
  | .PWR_STAT => ⟨15, false, 0x0, 1, 1, 0⟩
  | .PWR_RESET_CAUSE => ⟨15, false, 0x4, 1, 1, 0⟩
  | .PWR_WARN_COUNT => ⟨15, false, 0x8, 1, 1, 0⟩
  | .PWR_THERM_CFG => ⟨15, false, 0xC, 1, 1, 0⟩
  | .PWR_RAIL_STAT => ⟨15, false, 0x10, 7, 1, 0⟩
  | .PWR_TEMP => ⟨15, false, 0x40, 4, 1, 0⟩
  | .PWR_ISLAND_STAT => ⟨15, false, 0x100, 24, 1, 0⟩
  | .PWR_PACE => ⟨15, false, 0x200, 24, 1, 0⟩
  | .PWR_LEAD_CFG => ⟨15, false, 0x300, 18, 2, 0⟩
  | .PWR_CONTOUR_LATE => ⟨15, false, 0x400, 18, 1, 0⟩
  | .DBG_LOG_CTRL => ⟨17, false, 0x10, 1, 1, 0⟩
  | .DBG_LOG_FUNC_FILTER => ⟨17, false, 0x14, 1, 1, 0⟩
  | .DBG_LOG_DROP => ⟨17, false, 0x18, 1, 1, 0⟩
  | .DBG_LOG_WPTR => ⟨17, false, 0x1C, 1, 1, 0⟩
  | .DBG_LOG_RPTR => ⟨17, false, 0x20, 1, 1, 0⟩
  | .DBG_LOG_HOST_BASE => ⟨17, false, 0x28, 1, 2, 0⟩
  | .DBG_LOG_HOST_SIZE => ⟨17, false, 0x30, 1, 1, 0⟩
  | .DBG_LOG_CLASS_EN => ⟨17, false, 0x40, 8, 1, 0⟩
  | .DBG_WRITE_IGNORED => ⟨17, false, 0x100, 1, 1, 0⟩
  | .DBG_WRITE_IGNORED_ADDR => ⟨17, false, 0x104, 1, 1, 0⟩
  | .DBG_DOMAIN_ERR => ⟨17, false, 0x110, 1, 1, 0⟩
  | .DBG_DOMAIN_ERR_ADDR => ⟨17, false, 0x114, 1, 1, 0⟩
  | .DBG_DOMAIN_ERR_COUNT => ⟨17, false, 0x118, 1, 1, 0⟩
  | .DBG_RESET_CTRL => ⟨17, false, 0x200, 1, 1, 0⟩
  | .MBX_POST_DROP => ⟨14, false, 0x10, 1, 1, 0⟩
  | .MBX_HOLD_LEVEL => ⟨14, false, 0x14, 1, 1, 0⟩
  | .MBX_HOLD_WAKES => ⟨14, false, 0x18, 1, 1, 0⟩
  | .SEC_STAT => ⟨16, false, 0x0, 1, 1, 0⟩
  | .SEC_DEVICE_ID => ⟨16, false, 0x10, 4, 1, 0⟩
  | .SEC_SIGN_INDEX => ⟨16, false, 0x20, 1, 1, 0⟩
  | .SEC_SIGN_CFG => ⟨16, false, 0x24, 1, 1, 0⟩
  | .SEC_SIGN_COUNT => ⟨16, false, 0x28, 1, 1, 0⟩
  | .SEC_MIN_SVN => ⟨16, false, 0x2C, 1, 1, 0⟩
  | .SEC_OWNER_SEQ => ⟨16, false, 0x30, 1, 1, 0⟩
  | .SEC_MRAM_CORR => ⟨16, false, 0x34, 1, 1, 0⟩
  | .SEC_MRAM_UNCORR => ⟨16, false, 0x38, 1, 1, 0⟩
  | .SEC_TRNG_FAIL_CNT => ⟨16, false, 0x3C, 1, 1, 0⟩
  | .SEC_CARTOUCHE => ⟨16, false, 0x400, 256, 1, 0⟩

/-- Every register, in map order. -/
def Reg.allA : List Reg :=
  [.MER_CTRL, .MER_STATUS, .MER_NOW, .MER_LOAD, .MER_RATE_ADJ, .MER_SLEW_RATE, .MER_SLEW_REMAIN, .MER_TIO_CTRL, .MER_TIO_PERIOD, .MER_TIO_PHASE, .MER_TIO_FIFO_STAT, .MER_TIO_STAMP, .MER_TIO_TARGET, .MER_PHY_DELAY, .MER_PTP_CTRL, .MER_ONESTEP_DOWNGRADE, .PCA_STATUS, .PCA_IGNORED_ADDR, .PCA_HOST_REGION, .PCA_PORT_REGION, .PCA_REGION_DROP, .PCA_RQ_FULL_DROP, .PCA_DISPATCH_DROP, .PCA_RQ_LEVEL, .PCA_WAIT_CLOSED, .PCA_CHAN_ABANDON, .PCA_CORE_CFG, .PCA_THREAD_CTRL, .PCA_THREAD_STAT, .PCA_EVT_SRC, .PCA_CHAN_CFG, .PCA_CHAN_WRITERS, .PCA_CHAN_READERS, .PCA_CHAN_STAT, .PCA_FUNC_GROUP, .DBG_THREAD_CTRL, .DBG_THREAD_SEL, .DBG_THREAD_GREG, .DBG_THREAD_PC, .FNC_THREAD_FAULT, .FNC_MC_DROP, .FNC_INSET_STAT, .CLS_STATUS, .CLS_IGNORED_ADDR, .CLS_EXC_COUNT, .CLS_FUNC_CFG, .CLS_EXC_DISP, .CLS_EXC_DROP, .CLS_SHEET_NUM]
def Reg.allB : List Reg :=
  [.CLS_SHEET_STAT, .TBL_CTRL, .TBL_STATUS, .TBL_IGNORED_ADDR, .TBL_PARTITION, .TBL_AGE_CFG, .TBL_LEARN_CFG, .TBL_LEARN_PORTS, .TBL_OVF_LEVEL, .TBL_LEARN_STALE, .TBL_LEARN_FROZEN, .TBL_LEARN_STATIC, .TBL_LEARN_DROP, .TBL_FLAP_COUNT, .TBL_REFRESH_MISS, .TBL_ECC_FAIL, .TBL_DESC_BASE, .TBL_DESC_CFG, .TBL_DESC_SEED, .TBL_DESC_USED, .TBL_FUNC_QUOTA, .TBL_FUNC_USED, .TBL_LEARN_FULL, .TBL_LPM4_FILTER, .TBL_LPM6_FILTER, .TBL_FUNC_GRANT, .VSW_STATUS, .VSW_IGNORED_ADDR, .VSW_NO_DEST, .VSW_TUN_MISMATCH, .VSW_TUN_MTU_DROP, .VSW_REPL_DROP, .VSW_MIRROR_DROP, .VSW_HAIRPIN_DROP, .VSW_PORT_CFG, .VSW_PORT_VLAN_DROP, .VSW_PORT_MIRROR, .VSW_FUNC_CFG, .VSW_FUNC_VLAN_DROP, .VSW_MIRROR_CFG, .CIP_CTRL, .CIP_STATUS, .CIP_IGNORED_ADDR, .CIP_CM_CFG, .CIP_SCHED_CFG, .CIP_ADMIT_DROP, .CIP_SLOT_DROP, .CIP_ESP_DROP, .CIP_TLS_AUTH_FAIL]
def Reg.allC : List Reg :=
  [.CIP_CORE_BUSY, .CIP_PORT_MACSEC, .CIP_MACSEC_RX_DROP, .CIP_MACSEC_TX_DROP, .CIP_FUNC_LIMIT, .CIP_KEY_SLOT, .TMG_CTRL, .TMG_STATUS, .TMG_IGNORED_ADDR, .TMG_RESEQ_UNTRACKED, .TMG_PORT_CFG, .TMG_RESEQ_CTRL, .TMG_RESEQ_LATE, .TMG_RESEQ_TIMEOUT, .TMG_RESEQ_FULL, .TMG_RESIDENCY_DROP, .TMG_QUEUE_REMAP, .TMG_LATE_LAUNCH, .TMG_GATE_CTRL, .TMG_PREEMPT_CFG, .TMG_PREEMPT_COUNT, .TMG_DEFQ_DROP, .TMG_GATE_STAT, .TMG_GROUP_CFG, .TMG_QUEUE_CFG, .TMG_QUEUE_SCHED, .TMG_QUEUE_LIMIT, .TMG_QUEUE_DEPTH, .TMG_QUEUE_DELAY_MAX, .TMG_QUEUE_DROP, .TMG_SHAPER_CTRL, .TMG_SHAPER_RATE, .TMG_SHAPER_HI, .TMG_SHAPER_CREDIT, .BPM_CTRL, .BPM_STATUS, .BPM_IGNORED_ADDR, .BPM_FREE_DENIED, .BPM_POOL_CFG, .BPM_POOL_BASE, .BPM_POOL_FREE, .BPM_POOL_EMPTY_CNT, .BPM_PARTY_CFG, .BPM_PARTY_USED, .BPM_PARTY_DROP, .DMA_CTRL, .DMA_STATUS, .DMA_IGNORED_ADDR, .DMA_SPEC_DENIED]
def Reg.allD : List Reg :=
  [.DMA_CHAN_CFG, .DMA_CHAN_BURSTS, .DMA_QP_CFG, .DMA_LG_CTX, .DMA_PF_WIN, .STO_CTRL, .STO_STATUS, .STO_IGNORED_ADDR, .STO_CMD_FREE, .STO_RX_DISCARD, .STO_RETRANSMIT, .STO_HDGST_ERR, .STO_DDGST_ERR, .STO_TERM_SENT, .STO_CONN_LOST_CNT, .STO_FUNC_QUOTA, .STO_CONN_STAT, .HIF_TX_TAIL, .HIF_RX_TAIL, .HIF_TXC_HEAD, .HIF_RXC_HEAD, .HIF_AQ_TAIL, .HIF_AQC_HEAD, .HIF_QP_CTX, .HIF_RSS, .HIF_FUNC_INFO, .HIF_FUNC_GEN, .HIF_FUNC_PRIV, .HIF_CARTOUCHE, .HIF_AQ_CFG, .HIF_STATUS, .HIF_IGNORED_ADDR, .HIF_LINK_CFG, .HIF_LINK_STAT, .HIF_BUS_ERR, .HIF_BUS_ERR_ADDR, .HIF_BUS_ERR_COUNT, .HIF_HOST_ERR, .HIF_ATS_INVAL, .FNC_ISOLATION_DROP, .FNC_PRIV, .FNC_QP_MAP, .FNC_FUNC_STATE, .FNC_BLOCK_GEN, .FNC_FROZEN_DROP, .FNC_GEN_REC, .MBX_TX_BUF, .MBX_TX_CTRL, .MBX_SEND]
def Reg.allE : List Reg :=
  [.MBX_POST, .MBX_RING, .MBX_TX_STAT, .MBX_RX_STAT, .MBX_RX_FROM, .MBX_RX_GEN, .MBX_RX_STAMP, .MBX_RX_POP, .MBX_DOORBELL, .MBX_CFG, .MBX_EVT_LOST, .MBX_RX_BUF, .VCL_STATUS, .VCL_IGNORED_ADDR, .VCL_FW_STATE, .VCL_CMD_COUNT, .VCL_SLOW_LEVEL, .VCL_MGMT_CFG, .VCL_MGMT_MAC_HI, .VCL_MGMT_MAC_LO, .VCL_MGMT_DROP, .VCL_MGMT_AUTH_FAIL, .VCL_SMB_STAT, .VCL_SMB_PEC_ERR, .VCL_SLOW_CFG, .VCL_SLOW_DROP, .PRT_STATUS, .PRT_IGNORED_ADDR, .PRT_PORT_CFG, .PRT_LINK_STAT, .PRT_MAX_LEN, .PRT_FC_CFG, .PRT_FC_THRESH, .PRT_PAUSE_WDOG, .PRT_DEF_FUNC, .PRT_RX_NOFUNC, .PRT_RX_FRAMES, .PRT_RX_FCS_ERR, .PRT_RX_OVERSIZE, .PRT_RX_RUNT, .PRT_RX_MAC_CTRL, .PRT_RX_CTRL_DROP, .PRT_TX_FRAMES, .PRT_TX_OVERSIZE, .PRT_TX_UNDERRUN, .PRT_TX_PAUSE, .PRT_PAUSE_WDOG_CNT, .PRT_FEC_CORR, .PRT_FEC_UNCORR]
def Reg.allF : List Reg :=
  [.PRT_TX_ABORT, .PRT_STEPDOWN, .PRT_FAULT_PORT, .PRT_FAULT_PORT_HITS, .PRT_FAULT_FUNC, .PRT_FAULT_FUNC_HITS, .PWR_STAT, .PWR_RESET_CAUSE, .PWR_WARN_COUNT, .PWR_THERM_CFG, .PWR_RAIL_STAT, .PWR_TEMP, .PWR_ISLAND_STAT, .PWR_PACE, .PWR_LEAD_CFG, .PWR_CONTOUR_LATE, .DBG_LOG_CTRL, .DBG_LOG_FUNC_FILTER, .DBG_LOG_DROP, .DBG_LOG_WPTR, .DBG_LOG_RPTR, .DBG_LOG_HOST_BASE, .DBG_LOG_HOST_SIZE, .DBG_LOG_CLASS_EN, .DBG_WRITE_IGNORED, .DBG_WRITE_IGNORED_ADDR, .DBG_DOMAIN_ERR, .DBG_DOMAIN_ERR_ADDR, .DBG_DOMAIN_ERR_COUNT, .DBG_RESET_CTRL, .MBX_POST_DROP, .MBX_HOLD_LEVEL, .MBX_HOLD_WAKES, .SEC_STAT, .SEC_DEVICE_ID, .SEC_SIGN_INDEX, .SEC_SIGN_CFG, .SEC_SIGN_COUNT, .SEC_MIN_SVN, .SEC_OWNER_SEQ, .SEC_MRAM_CORR, .SEC_MRAM_UNCORR, .SEC_TRNG_FAIL_CNT, .SEC_CARTOUCHE]
def Reg.all : List Reg := Reg.allA ++ Reg.allB ++ Reg.allC ++ Reg.allD ++ Reg.allE ++ Reg.allF

/-- The bits of one register word under each access code of R4; a bit in none of them is read-only or reserved. -/
structure Access where
  rw : Word := 0
  rwd : Word := 0
  rc : Word := 0
  wo : Word := 0
  w1p : Word := 0
  deriving DecidableEq, Repr

/-- Access codes of word `w` of a register (the Access columns of the register and field tables). -/
def Reg.access : Reg → Nat → Access
  | .MER_CTRL, _ => { rw := 0x00000001 }
  | .MER_STATUS, _ => { rc := 0x0000000B }
  | .MER_LOAD, 0 => { rwd := 0xFFFFFFFF }
  | .MER_LOAD, 1 => { rwd := 0xFFFFFFFF }
  | .MER_LOAD, 2 => { rwd := 0x000000FF }
  | .MER_TIO_CTRL, _ => { rw := 0x80000000, rwd := 0x00FFFF37 }
  | .MER_TIO_PERIOD, _ => { rwd := 0xFFFFFFFF }
  | .MER_TIO_PHASE, _ => { rwd := 0xFFFFFFFF }
  | .MER_TIO_FIFO_STAT, _ => { rc := 0xFFFF0000 }
  | .MER_TIO_TARGET, 0 => { rwd := 0xFFFFFFFF }
  | .MER_TIO_TARGET, 1 => { rwd := 0xFFFFFFFF }
  | .MER_TIO_TARGET, 2 => { rwd := 0x000000FF }
  | .MER_PHY_DELAY, _ => { rw := 0xFFFFFFFF }
  | .MER_PTP_CTRL, _ => { rw := 0x00000003 }
  | .MER_ONESTEP_DOWNGRADE, _ => { rc := 0xFFFFFFFF }
  | .PCA_STATUS, _ => { rc := 0x00000001 }
  | .PCA_HOST_REGION, _ => { rw := 0x80000003 }
  | .PCA_PORT_REGION, _ => { rw := 0x80000003 }
  | .PCA_REGION_DROP, _ => { rc := 0xFFFFFFFF }
  | .PCA_RQ_FULL_DROP, _ => { rc := 0xFFFFFFFF }
  | .PCA_DISPATCH_DROP, _ => { rc := 0xFFFFFFFF }
  | .PCA_WAIT_CLOSED, _ => { rc := 0xFFFFFFFF }
  | .PCA_CHAN_ABANDON, _ => { rc := 0xFFFFFFFF }
  | .PCA_CORE_CFG, _ => { rwd := 0x0000001F }
  | .PCA_THREAD_CTRL, _ => { rw := 0x80000000, rwd := 0x4000FFFF }
  | .PCA_EVT_SRC, _ => { rw := 0xFFFFFFFF }
  | .PCA_CHAN_CFG, _ => { rw := 0x80000000, rwd := 0x000000FF }
  | .PCA_CHAN_WRITERS, _ => { rwd := 0xFFFFFFFF }
  | .PCA_CHAN_READERS, _ => { rwd := 0xFFFFFFFF }
  | .PCA_FUNC_GROUP, _ => { rw := 0x0000000F }
  | .DBG_THREAD_CTRL, _ => { w1p := 0x0000001F }
  | .DBG_THREAD_SEL, _ => { rw := 0x000001FF }
  | .DBG_THREAD_GREG, _ => { rw := 0xFFFFFFFF }
  | .DBG_THREAD_PC, _ => { rw := 0x00003FFF }
  | .FNC_THREAD_FAULT, _ => { rc := 0xFFFFFFFF }
  | .FNC_MC_DROP, _ => { rc := 0xFFFFFFFF }
  | .CLS_STATUS, _ => { rc := 0x00000001 }
  | .CLS_EXC_COUNT, _ => { rc := 0xFFFFFFFF }
  | .CLS_FUNC_CFG, _ => { rw := 0x000000CF }
  | .CLS_EXC_DISP, _ => { rw := 0xFFFFFFFE }
  | .CLS_EXC_DROP, _ => { rc := 0xFFFFFFFF }
  | .TBL_CTRL, _ => { rw := 0xC0000000, rwd := 0x0000FFFF }
  | .TBL_STATUS, _ => { rc := 0x00000001 }
  | .TBL_PARTITION, _ => { rwd := 0x0000001F }
  | .TBL_AGE_CFG, _ => { rw := 0xFFFFFFFF }
  | .TBL_LEARN_CFG, _ => { rw := 0x000FFFFF }
  | .TBL_LEARN_PORTS, _ => { rw := 0x0007FFFF }
  | .TBL_LEARN_STALE, _ => { rc := 0xFFFFFFFF }
  | .TBL_LEARN_FROZEN, _ => { rc := 0xFFFFFFFF }
  | .TBL_LEARN_STATIC, _ => { rc := 0xFFFFFFFF }
  | .TBL_LEARN_DROP, _ => { rc := 0xFFFFFFFF }
  | .TBL_FLAP_COUNT, _ => { rc := 0xFFFFFFFF }
  | .TBL_REFRESH_MISS, _ => { rc := 0xFFFFFFFF }
  | .TBL_ECC_FAIL, _ => { rc := 0xFFFFFFFF }
  | .TBL_DESC_BASE, _ => { rwd := 0x001FFFFF }
  | .TBL_DESC_CFG, _ => { rw := 0x80000000, rwd := 0x0000001F }
  | .TBL_DESC_SEED, _ => { rwd := 0xFFFFFFFF }
  | .TBL_FUNC_QUOTA, _ => { rw := 0xFFFFFFFF }
  | .TBL_LEARN_FULL, _ => { rc := 0xFFFFFFFF }
  | .TBL_LPM4_FILTER, _ => { rw := 0xFFFFFFFF }
  | .TBL_LPM6_FILTER, _ => { rw := 0xFFFFFFFF }
  | .TBL_FUNC_GRANT, _ => { rw := 0xFFFFFFFF }
  | .VSW_STATUS, _ => { rc := 0x00000001 }
  | .VSW_NO_DEST, _ => { rc := 0xFFFFFFFF }
  | .VSW_TUN_MISMATCH, _ => { rc := 0xFFFFFFFF }
  | .VSW_TUN_MTU_DROP, _ => { rc := 0xFFFFFFFF }
  | .VSW_REPL_DROP, _ => { rc := 0xFFFFFFFF }
  | .VSW_MIRROR_DROP, _ => { rc := 0xFFFFFFFF }
  | .VSW_HAIRPIN_DROP, _ => { rc := 0xFFFFFFFF }
  | .VSW_PORT_CFG, _ => { rw := 0xE000EFFF }
  | .VSW_PORT_VLAN_DROP, _ => { rc := 0xFFFFFFFF }
  | .VSW_PORT_MIRROR, _ => { rw := 0xC3FFFFFF }
  | .VSW_FUNC_CFG, _ => { rw := 0xE000EFFF }
  | .VSW_FUNC_VLAN_DROP, _ => { rc := 0xFFFFFFFF }
  | .VSW_MIRROR_CFG, _ => { rw := 0x83FFFFFF }
  | .CIP_CTRL, _ => { rw := 0x80000000 }
  | .CIP_STATUS, _ => { rc := 0x00000001 }
  | .CIP_CM_CFG, _ => { rwd := 0x80000007 }
  | .CIP_SCHED_CFG, _ => { rwd := 0x000F0F0F }
  | .CIP_ADMIT_DROP, _ => { rc := 0xFFFFFFFF }
  | .CIP_SLOT_DROP, _ => { rc := 0xFFFFFFFF }
  | .CIP_ESP_DROP, _ => { rc := 0xFFFFFFFF }
  | .CIP_TLS_AUTH_FAIL, _ => { rc := 0xFFFFFFFF }
  | .CIP_MACSEC_RX_DROP, _ => { rc := 0xFFFFFFFF }
  | .CIP_MACSEC_TX_DROP, _ => { rc := 0xFFFFFFFF }
  | .CIP_FUNC_LIMIT, _ => { rw := 0x0000000F }
  | .TMG_CTRL, _ => { rw := 0x80000000 }
  | .TMG_STATUS, _ => { rc := 0x00000001 }
  | .TMG_RESEQ_UNTRACKED, _ => { rc := 0xFFFFFFFF }
  | .TMG_PORT_CFG, _ => { rw := 0x3FFF00FF }
  | .TMG_RESEQ_CTRL, _ => { rw := 0x80007FFF }
  | .TMG_RESEQ_LATE, _ => { rc := 0xFFFFFFFF }
  | .TMG_RESEQ_TIMEOUT, _ => { rc := 0xFFFFFFFF }
  | .TMG_RESEQ_FULL, _ => { rc := 0xFFFFFFFF }
  | .TMG_RESIDENCY_DROP, _ => { rc := 0xFFFFFFFF }
  | .TMG_QUEUE_REMAP, _ => { rc := 0xFFFFFFFF }
  | .TMG_LATE_LAUNCH, _ => { rc := 0xFFFFFFFF }
  | .TMG_GATE_CTRL, _ => { rw := 0x000000FF }
  | .TMG_PREEMPT_CFG, _ => { rw := 0x80000000, rwd := 0x00FF3FFF }
  | .TMG_PREEMPT_COUNT, _ => { rc := 0xFFFFFFFF }
  | .TMG_DEFQ_DROP, _ => { rc := 0xFFFFFFFF }
  | .TMG_GATE_STAT, 0 => { rc := 0x10000000 }
  | .TMG_GROUP_CFG, _ => { rwd := 0xFFFFE0FF }
  | .TMG_QUEUE_CFG, _ => { rw := 0x80000000, rwd := 0x7FFFFBFF }
  | .TMG_QUEUE_SCHED, _ => { rw := 0x00038000, rwd := 0xFFFC00FF }
  | .TMG_QUEUE_LIMIT, _ => { rwd := 0xFFFFFFFF }
  | .TMG_QUEUE_DELAY_MAX, _ => { rc := 0xFFFFFFFF }
  | .TMG_QUEUE_DROP, _ => { rc := 0xFFFFFFFF }
  | .TMG_SHAPER_CTRL, _ => { rw := 0x80000000, rwd := 0x40000000 }
  | .TMG_SHAPER_RATE, _ => { rwd := 0x000FFFFF }
  | .TMG_SHAPER_HI, _ => { rwd := 0x0000FFFF }
  | .BPM_CTRL, _ => { rw := 0x80000000 }
  | .BPM_STATUS, _ => { rc := 0x00000001 }
  | .BPM_FREE_DENIED, _ => { rc := 0xFFFFFFFF }
  | .BPM_POOL_CFG, _ => { rwd := 0xCFFFFFFF }
  | .BPM_POOL_BASE, _ => { rwd := 0x00000FFF }
  | .BPM_POOL_EMPTY_CNT, _ => { rc := 0xFFFFFFFF }
  | .BPM_PARTY_CFG, _ => { rwd := 0xFFFFFFFF }
  | .BPM_PARTY_DROP, _ => { rc := 0xFFFFFFFF }
  | .DMA_CTRL, _ => { rw := 0x80000000 }
  | .DMA_STATUS, _ => { rc := 0x00000001 }
  | .DMA_SPEC_DENIED, _ => { rc := 0xFFFFFFFF }
  | .DMA_CHAN_CFG, _ => { rw := 0x80000000, rwd := 0x00000007 }
  | .DMA_CHAN_BURSTS, _ => { rc := 0xFFFFFFFF }
  | .DMA_QP_CFG, _ => { rw := 0xE0003F3F }
  | .DMA_LG_CTX, 0 => { rw := 0x80000000, rwd := 0x7FFE3FFF }
  | .DMA_LG_CTX, 1 => { rwd := 0xFFFFFFFF }
  | .DMA_LG_CTX, 2 => { rwd := 0xFFFFF00F }
  | .DMA_LG_CTX, 3 => { rwd := 0xFFFFFFFF }
  | .DMA_LG_CTX, 5 => { rc := 0xFFFFFFFF }
  | .DMA_LG_CTX, 6 => { rc := 0xFFFFFFFF }
  | .DMA_LG_CTX, 7 => { rc := 0xFFFFFFFF }
  | .STO_CTRL, _ => { rw := 0x80000000 }
  | .STO_STATUS, _ => { rc := 0x00000001 }
  | .STO_RX_DISCARD, _ => { rc := 0xFFFFFFFF }
  | .STO_RETRANSMIT, _ => { rc := 0xFFFFFFFF }
  | .STO_HDGST_ERR, _ => { rc := 0xFFFFFFFF }
  | .STO_DDGST_ERR, _ => { rc := 0xFFFFFFFF }
  | .STO_TERM_SENT, _ => { rc := 0xFFFFFFFF }
  | .STO_CONN_LOST_CNT, _ => { rc := 0xFFFFFFFF }
  | .STO_FUNC_QUOTA, _ => { rw := 0x3FFFFFFF }
  | .HIF_TX_TAIL, _ => { wo := 0xFFFFFFFF }
  | .HIF_RX_TAIL, _ => { wo := 0xFFFFFFFF }
  | .HIF_TXC_HEAD, _ => { wo := 0xFFFFFFFF }
  | .HIF_RXC_HEAD, _ => { wo := 0xFFFFFFFF }
  | .HIF_AQ_TAIL, _ => { wo := 0xFFFFFFFF }
  | .HIF_AQC_HEAD, _ => { wo := 0xFFFFFFFF }
  | .HIF_QP_CTX, 0 => { rw := 0x90000000, rwd := 0x2FF00000 }
  | .HIF_QP_CTX, 1 => { rwd := 0x07FF07FF }
  | .HIF_QP_CTX, 2 => { rw := 0x0000FFFF }
  | .HIF_QP_CTX, 4 => { rwd := 0xFFFFFFC0 }
  | .HIF_QP_CTX, 5 => { rwd := 0xFFFFFFFF }
  | .HIF_QP_CTX, 6 => { rwd := 0xFFFFFFC0 }
  | .HIF_QP_CTX, 7 => { rwd := 0xFFFFFFFF }
  | .HIF_QP_CTX, 8 => { rwd := 0xFFFFFFC0 }
  | .HIF_QP_CTX, 9 => { rwd := 0xFFFFFFFF }
  | .HIF_QP_CTX, 10 => { rwd := 0xFFFFFFC0 }
  | .HIF_QP_CTX, 11 => { rwd := 0xFFFFFFFF }
  | .HIF_QP_CTX, 12 => { rwd := 0xFFFFFFF8 }
  | .HIF_QP_CTX, 13 => { rwd := 0xFFFFFFFF }
  | .HIF_QP_CTX, 14 => { rc := 0xFFFFFFFF }
  | .HIF_QP_CTX, 15 => { rc := 0xFFFFFFFF }
  | .HIF_RSS, _ => { rw := 0x0000003F }
  | .HIF_AQ_CFG, 0 => { rw := 0x80000000, rwd := 0x0F0007FF }
  | .HIF_AQ_CFG, 2 => { rwd := 0xFFFFFFC0 }
  | .HIF_AQ_CFG, 3 => { rwd := 0xFFFFFFFF }
  | .HIF_AQ_CFG, 4 => { rwd := 0xFFFFFFC0 }
  | .HIF_AQ_CFG, 5 => { rwd := 0xFFFFFFFF }
  | .HIF_AQ_CFG, 6 => { rwd := 0xFFFFFFF8 }
  | .HIF_AQ_CFG, 7 => { rwd := 0xFFFFFFFF }
  | .HIF_STATUS, _ => { rc := 0x00000001 }
  | .HIF_BUS_ERR, _ => { rc := 0xFBFF0000 }
  | .HIF_BUS_ERR_COUNT, _ => { rc := 0xFFFFFFFF }
  | .HIF_HOST_ERR, _ => { rc := 0xFFFFFFFF }
  | .HIF_ATS_INVAL, _ => { rc := 0xFFFFFFFF }
  | .FNC_ISOLATION_DROP, _ => { rc := 0xFFFFFFFF }
  | .FNC_FUNC_STATE, _ => { rc := 0x20000000 }
  | .FNC_FROZEN_DROP, _ => { rc := 0xFFFFFFFF }
  | .MBX_TX_BUF, _ => { rw := 0xFFFFFFFF }
  | .MBX_TX_CTRL, _ => { rw := 0xC7FF01FF }
  | .MBX_POST, _ => { wo := 0xFFFFFFFF }
  | .MBX_RING, _ => { wo := 0xFFFFFFFF }
  | .MBX_TX_STAT, _ => { rc := 0x40000000 }
  | .MBX_RX_POP, _ => { w1p := 0x00000001 }
  | .MBX_DOORBELL, _ => { rc := 0xFFFFFFFF }
  | .MBX_CFG, _ => { rw := 0xC00007FF }
  | .MBX_EVT_LOST, _ => { rc := 0xFFFFFFFF }
  | .VCL_STATUS, _ => { rc := 0x00000001 }
  | .VCL_CMD_COUNT, _ => { rc := 0xFFFFFFFF }
  | .VCL_MGMT_CFG, _ => { rw := 0x80000000, rwd := 0x3FFFFFFF }
  | .VCL_MGMT_MAC_HI, _ => { rw := 0xFFFFFFFF }
  | .VCL_MGMT_MAC_LO, _ => { rw := 0xFFFF0000 }
  | .VCL_MGMT_DROP, _ => { rc := 0xFFFFFFFF }
  | .VCL_MGMT_AUTH_FAIL, _ => { rc := 0xFFFFFFFF }
  | .VCL_SMB_PEC_ERR, _ => { rc := 0xFFFFFFFF }
  | .VCL_SLOW_CFG, _ => { rw := 0xFFFF3FFF }
  | .VCL_SLOW_DROP, _ => { rc := 0xFFFFFFFF }
  | .PRT_STATUS, _ => { rc := 0x00000001 }
  | .PRT_PORT_CFG, _ => { rw := 0x80000000, rwd := 0x000003FF }
  | .PRT_LINK_STAT, _ => { rc := 0x40000000 }
  | .PRT_MAX_LEN, _ => { rwd := 0x00003FFF }
  | .PRT_FC_CFG, _ => { rwd := 0xF0FFFFFF }
  | .PRT_FC_THRESH, _ => { rw := 0xFFFFFFFF }
  | .PRT_DEF_FUNC, _ => { rwd := 0x000003FF }
  | .PRT_RX_NOFUNC, _ => { rc := 0xFFFFFFFF }
  | .PRT_RX_FRAMES, _ => { rc := 0xFFFFFFFF }
  | .PRT_RX_FCS_ERR, _ => { rc := 0xFFFFFFFF }
  | .PRT_RX_OVERSIZE, _ => { rc := 0xFFFFFFFF }
  | .PRT_RX_RUNT, _ => { rc := 0xFFFFFFFF }
  | .PRT_RX_MAC_CTRL, _ => { rc := 0xFFFFFFFF }
  | .PRT_RX_CTRL_DROP, _ => { rc := 0xFFFFFFFF }
  | .PRT_TX_FRAMES, _ => { rc := 0xFFFFFFFF }
  | .PRT_TX_OVERSIZE, _ => { rc := 0xFFFFFFFF }
  | .PRT_TX_UNDERRUN, _ => { rc := 0xFFFFFFFF }
  | .PRT_TX_PAUSE, _ => { rc := 0xFFFFFFFF }
  | .PRT_PAUSE_WDOG_CNT, _ => { rc := 0xFFFFFFFF }
  | .PRT_FEC_CORR, _ => { rc := 0xFFFFFFFF }
  | .PRT_FEC_UNCORR, _ => { rc := 0xFFFFFFFF }
  | .PRT_TX_ABORT, _ => { rc := 0xFFFFFFFF }
  | .PRT_FAULT_PORT_HITS, _ => { rc := 0xFFFFFFFF }
  | .PRT_FAULT_FUNC_HITS, _ => { rc := 0xFFFFFFFF }
  | .PWR_STAT, _ => { rc := 0x04000000 }
  | .PWR_WARN_COUNT, _ => { rc := 0xFFFFFFFF }
  | .PWR_THERM_CFG, _ => { rw := 0x000000FF }
  | .PWR_RAIL_STAT, _ => { rc := 0x40000000 }
  | .PWR_PACE, _ => { rc := 0x80000000 }
  | .PWR_CONTOUR_LATE, _ => { rc := 0xFFFFFFFF }
  | .DBG_LOG_CTRL, _ => { rw := 0x80000000, rwd := 0x6001FF00 }
  | .DBG_LOG_FUNC_FILTER, _ => { rwd := 0x800003FF }
  | .DBG_LOG_DROP, _ => { rc := 0xFFFFFFFF }
  | .DBG_LOG_RPTR, _ => { rw := 0xFFFFFFFF }
  | .DBG_LOG_HOST_BASE, 0 => { rwd := 0xFFFFF000 }
  | .DBG_LOG_HOST_BASE, 1 => { rwd := 0xFFFFFFFF }
  | .DBG_LOG_HOST_SIZE, _ => { rwd := 0x0000001F }
  | .DBG_LOG_CLASS_EN, _ => { rwd := 0xFFFFFFFF }
  | .DBG_WRITE_IGNORED, _ => { rc := 0xFFFFFFFF }
  | .DBG_DOMAIN_ERR, _ => { rc := 0xF83E03FF }
  | .DBG_DOMAIN_ERR_COUNT, _ => { rc := 0xFFFFFFFF }
  | .DBG_RESET_CTRL, _ => { rw := 0x0000011F, w1p := 0x80000000 }
  | .MBX_POST_DROP, _ => { rc := 0xFFFFFFFF }
  | .MBX_HOLD_WAKES, _ => { rc := 0xFFFFFFFF }
  | .SEC_SIGN_CFG, _ => { rw := 0xFFFFFF00 }
  | .SEC_SIGN_COUNT, _ => { rc := 0xFFFFFFFF }
  | .SEC_MRAM_CORR, _ => { rc := 0xFFFFFFFF }
  | .SEC_MRAM_UNCORR, _ => { rc := 0xFFFFFFFF }
  | .SEC_TRNG_FAIL_CNT, _ => { rc := 0xFFFFFFFF }
  | _, _ => {}

/-- Value of word `w` of item `i` after the reset of the register's block (Reset columns; R411). Where the table gives none: log entry 12. -/
def Reg.reset : Reg → Nat → Nat → Word
  | .MER_CTRL, _, _ => 0x00000001
  | .MER_TIO_CTRL, _, _ => 0x00186A00
  | .MER_TIO_PERIOD, _, _ => 0x3B9ACA00
  | .PCA_HOST_REGION, _, _ => 0x80000000
  | .PCA_PORT_REGION, i, _ => if i < 16 then BitVec.ofNat 32 (i / 4) else 0x80000000#32
  | .PCA_CORE_CFG, _, _ => 0x00000008
  | .PCA_THREAD_CTRL, _, _ => 0x8000FFFF
  | .PCA_THREAD_STAT, _, _ => 0x20000000
  | .PCA_EVT_SRC, _, _ => 0xFFFFFFFF
  | .PCA_CHAN_CFG, _, _ => 0x00000010
  | .CLS_FUNC_CFG, _, _ => 0x00000004
  | .CLS_EXC_DISP, _, _ => 0xFFFFFFFE
  | .TBL_CTRL, _, _ => 0xC000F003
  | .TBL_PARTITION, _, _ => 0x00000006
  | .TBL_AGE_CFG, _, _ => 0x0124F804
  | .TBL_LEARN_CFG, _, _ => 0x00002710
  | .TBL_LEARN_PORTS, _, _ => 0x0007FFFF
  | .TBL_DESC_BASE, i, _ => BitVec.ofNat 32 ([0, 262144, 393216, 917504, 1048576].getD i 0)
  | .TBL_DESC_CFG, i, _ => BitVec.ofNat 32 ((if i ≤ 4 then 2 ^ 31 else 0) + ([1, 3, 4, 5].getD i 2) * 2 ^ 28 + [18, 17, 19, 17, 18].getD i 0)
  | .TBL_FUNC_QUOTA, _, _ => 0x04002000
  | .VSW_PORT_CFG, _, _ => 0x00000001
  | .VSW_FUNC_CFG, _, _ => 0x00000001
  | .CIP_CTRL, _, _ => 0x80000000
  | .CIP_CM_CFG, _, _ => 0x80000002
  | .CIP_SCHED_CFG, _, _ => 0x00020404
  | .CIP_FUNC_LIMIT, _, _ => 0x00000004
  | .TMG_CTRL, _, _ => 0x80000000
  | .TMG_PORT_CFG, i, _ => BitVec.ofNat 32 (8 * i * 2 ^ 16)
  | .TMG_RESEQ_CTRL, _, _ => 0x800040C8
  | .TMG_PREEMPT_CFG, _, _ => 0x00FF0000
  | .TMG_GROUP_CFG, i, _ => BitVec.ofNat 32 (if i < 18 then i * 2 ^ 13 + 1 else 1)
  | .TMG_QUEUE_CFG, i, _ => BitVec.ofNat 32 (if i < 144 then 2 ^ 31 + 2 ^ 30 + (i / 8) * 2 ^ 25 + (i % 8) * 2 ^ 22 + (i / 8) * 2 ^ 11 else 0)
  | .TMG_QUEUE_SCHED, _, _ => 0x00000001
  | .TMG_QUEUE_LIMIT, _, _ => 0x04000200
  | .TMG_SHAPER_RATE, _, _ => 0x00000001
  | .BPM_CTRL, _, _ => 0x80000000
  | .BPM_POOL_CFG, i, _ => BitVec.ofNat 32 ([0x01010000, 0x41004000, 0x41000800, 0x010001C0].getD i 0)
  | .BPM_POOL_BASE, i, _ => BitVec.ofNat 32 ([0, 256, 768, 1088].getD i 0)
  | .BPM_POOL_FREE, i, _ => BitVec.ofNat 32 ([65536, 16384, 2048, 448].getD i 0)
  | .DMA_CTRL, _, _ => 0x80000000
  | .DMA_CHAN_CFG, i, _ => BitVec.ofNat 32 (2 ^ 31 + i / 8)
  | .DMA_QP_CFG, i, _ => BitVec.ofNat 32 ((i % 64) * 2 ^ 8 + i % 64)
  | .STO_CTRL, _, _ => 0x80000000
  | .STO_CMD_FREE, _, _ => 0x00010000
  | .STO_FUNC_QUOTA, _, _ => 0x00400400
  | .HIF_RSS, i, _ => BitVec.ofNat 32 ((i % 64) % 16)
  | .FNC_PRIV, i, _ => if i < 4 then 3 else 0
  | .FNC_QP_MAP, i, _ => BitVec.ofNat 32 (0x10000000 + 16 * i)
  | .MBX_TX_CTRL, _, _ => 0x04000000
  | .VCL_SMB_STAT, _, _ => 0x00000064
  | .VCL_SLOW_CFG, _, _ => 0x00640040
  | .PRT_MAX_LEN, _, _ => 0x000005F2
  | .PRT_FC_CFG, _, _ => 0x10FFFFFF
  | .PRT_FC_THRESH, _, _ => 0x00400020
  | .PRT_PAUSE_WDOG, _, _ => 0x00140064
  | .PWR_STAT, _, _ => 0x80000000
  | .PWR_THERM_CFG, _, _ => 0x0000006E
  | .PWR_ISLAND_STAT, _, _ => 0x83340000
  | .DBG_LOG_CTRL, _, _ => 0x20000000
  | .DBG_LOG_HOST_SIZE, _, _ => 0x00000010
  | .SEC_STAT, _, _ => 0x00000001
  | .SEC_SIGN_CFG, _, _ => 0x03E83C00
  | _, _, _ => 0

/-- A named field of a register: bits `hi` down to `lo` of word `word`. -/
structure Field where
  reg : Reg
  word : Nat
  hi : Nat
  lo : Nat
  deriving DecidableEq, Repr

namespace Fld
def MER_CTRL_ENABLE : Field := ⟨.MER_CTRL, 0, 0, 0⟩
def MER_STATUS_REF_LOST : Field := ⟨.MER_STATUS, 0, 4, 4⟩
def MER_STATUS_TIO_OVF : Field := ⟨.MER_STATUS, 0, 3, 3⟩
def MER_STATUS_SLEW_ACTIVE : Field := ⟨.MER_STATUS, 0, 2, 2⟩
def MER_STATUS_SLEW_DONE : Field := ⟨.MER_STATUS, 0, 1, 1⟩
def MER_STATUS_STEP_DONE : Field := ⟨.MER_STATUS, 0, 0, 0⟩
def MER_TIO_CTRL_ENABLE : Field := ⟨.MER_TIO_CTRL, 0, 31, 31⟩
def MER_TIO_CTRL_WIDTH : Field := ⟨.MER_TIO_CTRL, 0, 23, 8⟩
def MER_TIO_CTRL_EDGE : Field := ⟨.MER_TIO_CTRL, 0, 5, 4⟩
def MER_TIO_CTRL_MODE : Field := ⟨.MER_TIO_CTRL, 0, 2, 0⟩
def MER_TIO_FIFO_STAT_OVERFLOWS : Field := ⟨.MER_TIO_FIFO_STAT, 0, 31, 16⟩
def MER_TIO_FIFO_STAT_LEVEL : Field := ⟨.MER_TIO_FIFO_STAT, 0, 4, 0⟩
def MER_PHY_DELAY_TX_DELAY : Field := ⟨.MER_PHY_DELAY, 0, 31, 16⟩
def MER_PHY_DELAY_RX_DELAY : Field := ⟨.MER_PHY_DELAY, 0, 15, 0⟩
def MER_PTP_CTRL_TC_EN : Field := ⟨.MER_PTP_CTRL, 0, 1, 1⟩
def MER_PTP_CTRL_ONE_STEP_EN : Field := ⟨.MER_PTP_CTRL, 0, 0, 0⟩
def PCA_STATUS_WRITE_IGNORED : Field := ⟨.PCA_STATUS, 0, 0, 0⟩
def PCA_HOST_REGION_SPREAD : Field := ⟨.PCA_HOST_REGION, 0, 31, 31⟩
def PCA_HOST_REGION_REGION : Field := ⟨.PCA_HOST_REGION, 0, 1, 0⟩
def PCA_PORT_REGION_SPREAD : Field := ⟨.PCA_PORT_REGION, 0, 31, 31⟩
def PCA_PORT_REGION_REGION : Field := ⟨.PCA_PORT_REGION, 0, 1, 0⟩
def PCA_CORE_CFG_SLOT_N : Field := ⟨.PCA_CORE_CFG, 0, 4, 0⟩
def PCA_THREAD_CTRL_ENABLE : Field := ⟨.PCA_THREAD_CTRL, 0, 31, 31⟩
def PCA_THREAD_CTRL_PRIO : Field := ⟨.PCA_THREAD_CTRL, 0, 30, 30⟩
def PCA_THREAD_CTRL_GROUP_MASK : Field := ⟨.PCA_THREAD_CTRL, 0, 15, 0⟩
def PCA_THREAD_STAT_STATE : Field := ⟨.PCA_THREAD_STAT, 0, 31, 29⟩
def PCA_THREAD_STAT_CURRENT : Field := ⟨.PCA_THREAD_STAT, 0, 28, 28⟩
def PCA_THREAD_STAT_RES_COUNT : Field := ⟨.PCA_THREAD_STAT, 0, 27, 26⟩
def PCA_THREAD_STAT_FUNCTION : Field := ⟨.PCA_THREAD_STAT, 0, 25, 16⟩
def PCA_THREAD_STAT_FRAME : Field := ⟨.PCA_THREAD_STAT, 0, 15, 15⟩
def PCA_THREAD_STAT_PC : Field := ⟨.PCA_THREAD_STAT, 0, 13, 0⟩
def PCA_CHAN_CFG_ENABLE : Field := ⟨.PCA_CHAN_CFG, 0, 31, 31⟩
def PCA_CHAN_CFG_DEPTH : Field := ⟨.PCA_CHAN_CFG, 0, 7, 0⟩
def PCA_CHAN_STAT_RESERVED : Field := ⟨.PCA_CHAN_STAT, 0, 23, 16⟩
def PCA_CHAN_STAT_COMMITTED : Field := ⟨.PCA_CHAN_STAT, 0, 7, 0⟩
def PCA_FUNC_GROUP_GROUP : Field := ⟨.PCA_FUNC_GROUP, 0, 3, 0⟩
def DBG_THREAD_CTRL_HALTED : Field := ⟨.DBG_THREAD_CTRL, 0, 31, 31⟩
def DBG_THREAD_CTRL_POKE : Field := ⟨.DBG_THREAD_CTRL, 0, 4, 4⟩
def DBG_THREAD_CTRL_ABANDON : Field := ⟨.DBG_THREAD_CTRL, 0, 3, 3⟩
def DBG_THREAD_CTRL_STEP : Field := ⟨.DBG_THREAD_CTRL, 0, 2, 2⟩
def DBG_THREAD_CTRL_RESUME : Field := ⟨.DBG_THREAD_CTRL, 0, 1, 1⟩
def DBG_THREAD_CTRL_HALT : Field := ⟨.DBG_THREAD_CTRL, 0, 0, 0⟩
def DBG_THREAD_SEL_THREAD : Field := ⟨.DBG_THREAD_SEL, 0, 8, 0⟩
def DBG_THREAD_PC_PC : Field := ⟨.DBG_THREAD_PC, 0, 13, 0⟩
def FNC_INSET_STAT_LOADED : Field := ⟨.FNC_INSET_STAT, 0, 31, 31⟩
def FNC_INSET_STAT_DRAINING : Field := ⟨.FNC_INSET_STAT, 0, 30, 30⟩
def FNC_INSET_STAT_BOUND : Field := ⟨.FNC_INSET_STAT, 0, 25, 16⟩
def FNC_INSET_STAT_LOAD_SEQ : Field := ⟨.FNC_INSET_STAT, 0, 15, 0⟩
def CLS_STATUS_WRITE_IGNORED : Field := ⟨.CLS_STATUS, 0, 0, 0⟩
def CLS_FUNC_CFG_INNER_KEY : Field := ⟨.CLS_FUNC_CFG, 0, 7, 7⟩
def CLS_FUNC_CFG_FLOW_MISS_EXC : Field := ⟨.CLS_FUNC_CFG, 0, 6, 6⟩
def CLS_FUNC_CFG_TRAVERSE_MAX : Field := ⟨.CLS_FUNC_CFG, 0, 3, 0⟩
def CLS_EXC_DISP_DISP : Field := ⟨.CLS_EXC_DISP, 0, 31, 1⟩
def CLS_SHEET_NUM_ACTIVE : Field := ⟨.CLS_SHEET_NUM, 0, 31, 16⟩
def CLS_SHEET_NUM_OTHER : Field := ⟨.CLS_SHEET_NUM, 0, 15, 0⟩
def CLS_SHEET_STAT_OTHER_STATE : Field := ⟨.CLS_SHEET_STAT, 0, 31, 30⟩
def CLS_SHEET_STAT_ACTIVE_VALID : Field := ⟨.CLS_SHEET_STAT, 0, 29, 29⟩
def CLS_SHEET_STAT_PINNED : Field := ⟨.CLS_SHEET_STAT, 0, 23, 0⟩
def TBL_CTRL_ENABLE : Field := ⟨.TBL_CTRL, 0, 31, 31⟩
def TBL_CTRL_LEARN_EN : Field := ⟨.TBL_CTRL, 0, 30, 30⟩
def TBL_CTRL_OVF_LEARN_LIMIT : Field := ⟨.TBL_CTRL, 0, 15, 2⟩
def TBL_CTRL_LPM_PAR : Field := ⟨.TBL_CTRL, 0, 1, 0⟩
def TBL_STATUS_WRITE_IGNORED : Field := ⟨.TBL_STATUS, 0, 0, 0⟩
def TBL_PARTITION_PB_UNITS : Field := ⟨.TBL_PARTITION, 0, 4, 0⟩
def TBL_AGE_CFG_SCAN_PERIOD : Field := ⟨.TBL_AGE_CFG, 0, 31, 8⟩
def TBL_AGE_CFG_AGE_LIMIT : Field := ⟨.TBL_AGE_CFG, 0, 7, 0⟩
def TBL_LEARN_CFG_FLAP_WINDOW : Field := ⟨.TBL_LEARN_CFG, 0, 19, 0⟩
def TBL_LEARN_PORTS_PORTS : Field := ⟨.TBL_LEARN_PORTS, 0, 18, 0⟩
def TBL_DESC_BASE_BASE : Field := ⟨.TBL_DESC_BASE, 0, 20, 0⟩
def TBL_DESC_CFG_ENABLE : Field := ⟨.TBL_DESC_CFG, 0, 31, 31⟩
def TBL_DESC_CFG_KIND : Field := ⟨.TBL_DESC_CFG, 0, 30, 28⟩
def TBL_DESC_CFG_CLEARING : Field := ⟨.TBL_DESC_CFG, 0, 27, 27⟩
def TBL_DESC_CFG_LOG2_BUCKETS : Field := ⟨.TBL_DESC_CFG, 0, 4, 0⟩
def TBL_FUNC_QUOTA_OVF_MAX : Field := ⟨.TBL_FUNC_QUOTA, 0, 31, 24⟩
def TBL_FUNC_QUOTA_ENTRIES : Field := ⟨.TBL_FUNC_QUOTA, 0, 23, 0⟩
def VSW_STATUS_WRITE_IGNORED : Field := ⟨.VSW_STATUS, 0, 0, 0⟩
def VSW_PORT_CFG_MODE : Field := ⟨.VSW_PORT_CFG, 0, 31, 30⟩
def VSW_PORT_CFG_NATIVE_EN : Field := ⟨.VSW_PORT_CFG, 0, 29, 29⟩
def VSW_PORT_CFG_DEF_PCP : Field := ⟨.VSW_PORT_CFG, 0, 15, 13⟩
def VSW_PORT_CFG_PVID : Field := ⟨.VSW_PORT_CFG, 0, 11, 0⟩
def VSW_PORT_MIRROR_RX_EN : Field := ⟨.VSW_PORT_MIRROR, 0, 31, 31⟩
def VSW_PORT_MIRROR_TX_EN : Field := ⟨.VSW_PORT_MIRROR, 0, 30, 30⟩
def VSW_PORT_MIRROR_TRUNC : Field := ⟨.VSW_PORT_MIRROR, 0, 25, 16⟩
def VSW_PORT_MIRROR_MIR_DEST : Field := ⟨.VSW_PORT_MIRROR, 0, 15, 0⟩
def VSW_FUNC_CFG_MODE : Field := ⟨.VSW_FUNC_CFG, 0, 31, 30⟩
def VSW_FUNC_CFG_NATIVE_EN : Field := ⟨.VSW_FUNC_CFG, 0, 29, 29⟩
def VSW_FUNC_CFG_DEF_PCP : Field := ⟨.VSW_FUNC_CFG, 0, 15, 13⟩
def VSW_FUNC_CFG_PVID : Field := ⟨.VSW_FUNC_CFG, 0, 11, 0⟩
def VSW_MIRROR_CFG_EN : Field := ⟨.VSW_MIRROR_CFG, 0, 31, 31⟩
def VSW_MIRROR_CFG_TRUNC : Field := ⟨.VSW_MIRROR_CFG, 0, 25, 16⟩
def VSW_MIRROR_CFG_MIR_DEST : Field := ⟨.VSW_MIRROR_CFG, 0, 15, 0⟩
def CIP_CTRL_ENABLE : Field := ⟨.CIP_CTRL, 0, 31, 31⟩
def CIP_STATUS_WRITE_IGNORED : Field := ⟨.CIP_STATUS, 0, 0, 0⟩
def CIP_CM_CFG_SHUFFLE : Field := ⟨.CIP_CM_CFG, 0, 31, 31⟩
def CIP_CM_CFG_DUMMY_ROUNDS : Field := ⟨.CIP_CM_CFG, 0, 2, 0⟩
def CIP_SCHED_CFG_RESERVE_TX : Field := ⟨.CIP_SCHED_CFG, 0, 19, 16⟩
def CIP_SCHED_CFG_WEIGHT_ESP : Field := ⟨.CIP_SCHED_CFG, 0, 11, 8⟩
def CIP_SCHED_CFG_WEIGHT_TLS : Field := ⟨.CIP_SCHED_CFG, 0, 3, 0⟩
def CIP_PORT_MACSEC_TX_EN : Field := ⟨.CIP_PORT_MACSEC, 0, 31, 31⟩
def CIP_PORT_MACSEC_RX_EN : Field := ⟨.CIP_PORT_MACSEC, 0, 30, 30⟩
def CIP_PORT_MACSEC_STRICT : Field := ⟨.CIP_PORT_MACSEC, 0, 29, 29⟩
def CIP_PORT_MACSEC_EXEMPT_EAPOL : Field := ⟨.CIP_PORT_MACSEC, 0, 28, 28⟩
def CIP_PORT_MACSEC_TX_SLOT : Field := ⟨.CIP_PORT_MACSEC, 0, 13, 0⟩
def CIP_FUNC_LIMIT_MAX_INFLIGHT : Field := ⟨.CIP_FUNC_LIMIT, 0, 3, 0⟩
def CIP_KEY_SLOT_STATE : Field := ⟨.CIP_KEY_SLOT, 0, 31, 29⟩
def CIP_KEY_SLOT_TYPE : Field := ⟨.CIP_KEY_SLOT, 0, 28, 25⟩
def CIP_KEY_SLOT_THRESHOLD_HIT : Field := ⟨.CIP_KEY_SLOT, 0, 24, 24⟩
def CIP_KEY_SLOT_OWNER : Field := ⟨.CIP_KEY_SLOT, 0, 9, 0⟩
def TMG_CTRL_ENABLE : Field := ⟨.TMG_CTRL, 0, 31, 31⟩
def TMG_STATUS_WRITE_IGNORED : Field := ⟨.TMG_STATUS, 0, 0, 0⟩
def TMG_PORT_CFG_DEF_QUEUE : Field := ⟨.TMG_PORT_CFG, 0, 29, 16⟩
def TMG_PORT_CFG_TX_LEAD : Field := ⟨.TMG_PORT_CFG, 0, 7, 0⟩
def TMG_RESEQ_CTRL_ENABLE : Field := ⟨.TMG_RESEQ_CTRL, 0, 31, 31⟩
def TMG_RESEQ_CTRL_MAX_FRAMES : Field := ⟨.TMG_RESEQ_CTRL, 0, 14, 8⟩
def TMG_RESEQ_CTRL_MAX_WAIT : Field := ⟨.TMG_RESEQ_CTRL, 0, 7, 0⟩
def TMG_GATE_CTRL_ACTIVE : Field := ⟨.TMG_GATE_CTRL, 0, 31, 31⟩
def TMG_GATE_CTRL_CONTOUR_WATCH : Field := ⟨.TMG_GATE_CTRL, 0, 7, 0⟩
def TMG_PREEMPT_CFG_EN : Field := ⟨.TMG_PREEMPT_CFG, 0, 31, 31⟩
def TMG_PREEMPT_CFG_EXPRESS : Field := ⟨.TMG_PREEMPT_CFG, 0, 23, 16⟩
def TMG_PREEMPT_CFG_ADD_FRAG : Field := ⟨.TMG_PREEMPT_CFG, 0, 13, 12⟩
def TMG_PREEMPT_CFG_HOLD_ADVANCE : Field := ⟨.TMG_PREEMPT_CFG, 0, 11, 0⟩
def TMG_GATE_STAT_BASE_ADVANCED : Field := ⟨.TMG_GATE_STAT, 0, 31, 31⟩
def TMG_GATE_STAT_PENDING : Field := ⟨.TMG_GATE_STAT, 0, 30, 30⟩
def TMG_GATE_STAT_OPER_VALID : Field := ⟨.TMG_GATE_STAT, 0, 29, 29⟩
def TMG_GATE_STAT_STEP_SKIP : Field := ⟨.TMG_GATE_STAT, 0, 28, 28⟩
def TMG_GATE_STAT_EXTENDED : Field := ⟨.TMG_GATE_STAT, 0, 27, 27⟩
def TMG_GATE_STAT_OPER_GATES : Field := ⟨.TMG_GATE_STAT, 0, 23, 16⟩
def TMG_GATE_STAT_ENTRY : Field := ⟨.TMG_GATE_STAT, 0, 9, 0⟩
def TMG_GATE_STAT_N_LO : Field := ⟨.TMG_GATE_STAT, 1, 31, 0⟩
def TMG_GATE_STAT_N_HI : Field := ⟨.TMG_GATE_STAT, 2, 31, 0⟩
def TMG_GATE_STAT_CYCLES : Field := ⟨.TMG_GATE_STAT, 3, 31, 0⟩
def TMG_GROUP_CFG_SHAPED : Field := ⟨.TMG_GROUP_CFG, 0, 31, 31⟩
def TMG_GROUP_CFG_SHAPER : Field := ⟨.TMG_GROUP_CFG, 0, 30, 18⟩
def TMG_GROUP_CFG_PORT : Field := ⟨.TMG_GROUP_CFG, 0, 17, 13⟩
def TMG_GROUP_CFG_WEIGHT : Field := ⟨.TMG_GROUP_CFG, 0, 7, 0⟩
def TMG_QUEUE_CFG_ENABLE : Field := ⟨.TMG_QUEUE_CFG, 0, 31, 31⟩
def TMG_QUEUE_CFG_SHARED : Field := ⟨.TMG_QUEUE_CFG, 0, 30, 30⟩
def TMG_QUEUE_CFG_PORT : Field := ⟨.TMG_QUEUE_CFG, 0, 29, 25⟩
def TMG_QUEUE_CFG_TC : Field := ⟨.TMG_QUEUE_CFG, 0, 24, 22⟩
def TMG_QUEUE_CFG_GROUP : Field := ⟨.TMG_QUEUE_CFG, 0, 21, 11⟩
def TMG_QUEUE_CFG_OWNER : Field := ⟨.TMG_QUEUE_CFG, 0, 9, 0⟩
def TMG_QUEUE_SCHED_SHAPED : Field := ⟨.TMG_QUEUE_SCHED, 0, 31, 31⟩
def TMG_QUEUE_SCHED_SHAPER : Field := ⟨.TMG_QUEUE_SCHED, 0, 30, 18⟩
def TMG_QUEUE_SCHED_CT_STEP : Field := ⟨.TMG_QUEUE_SCHED, 0, 17, 15⟩
def TMG_QUEUE_SCHED_WEIGHT : Field := ⟨.TMG_QUEUE_SCHED, 0, 7, 0⟩
def TMG_QUEUE_LIMIT_LIMIT : Field := ⟨.TMG_QUEUE_LIMIT, 0, 31, 16⟩
def TMG_QUEUE_LIMIT_YELLOW_LIMIT : Field := ⟨.TMG_QUEUE_LIMIT, 0, 15, 0⟩
def TMG_QUEUE_DEPTH_FRAMES : Field := ⟨.TMG_QUEUE_DEPTH, 0, 31, 20⟩
def TMG_QUEUE_DEPTH_DEPTH : Field := ⟨.TMG_QUEUE_DEPTH, 0, 19, 0⟩
def TMG_SHAPER_CTRL_ENABLE : Field := ⟨.TMG_SHAPER_CTRL, 0, 31, 31⟩
def TMG_SHAPER_CTRL_CREDIT_INIT : Field := ⟨.TMG_SHAPER_CTRL, 0, 30, 30⟩
def TMG_SHAPER_RATE_IDLE_RATE : Field := ⟨.TMG_SHAPER_RATE, 0, 19, 0⟩
def TMG_SHAPER_HI_HI_LIMIT : Field := ⟨.TMG_SHAPER_HI, 0, 15, 0⟩
def BPM_CTRL_ENABLE : Field := ⟨.BPM_CTRL, 0, 31, 31⟩
def BPM_STATUS_WRITE_IGNORED : Field := ⟨.BPM_STATUS, 0, 0, 0⟩
def BPM_POOL_CFG_MODE : Field := ⟨.BPM_POOL_CFG, 0, 31, 31⟩
def BPM_POOL_CFG_OVERFLOW_UP : Field := ⟨.BPM_POOL_CFG, 0, 30, 30⟩
def BPM_POOL_CFG_LOW_WATER : Field := ⟨.BPM_POOL_CFG, 0, 27, 20⟩
def BPM_POOL_CFG_COUNT : Field := ⟨.BPM_POOL_CFG, 0, 19, 0⟩
def BPM_POOL_BASE_BASE : Field := ⟨.BPM_POOL_BASE, 0, 11, 0⟩
def BPM_PARTY_CFG_MAX : Field := ⟨.BPM_PARTY_CFG, 0, 31, 16⟩
def BPM_PARTY_CFG_RESERVE : Field := ⟨.BPM_PARTY_CFG, 0, 15, 0⟩
def DMA_CTRL_ENABLE : Field := ⟨.DMA_CTRL, 0, 31, 31⟩
def DMA_STATUS_WRITE_IGNORED : Field := ⟨.DMA_STATUS, 0, 0, 0⟩
def DMA_CHAN_CFG_ENABLE : Field := ⟨.DMA_CHAN_CFG, 0, 31, 31⟩
def DMA_CHAN_CFG_PRIO : Field := ⟨.DMA_CHAN_CFG, 0, 2, 0⟩
def DMA_QP_CFG_ROUND64 : Field := ⟨.DMA_QP_CFG, 0, 31, 31⟩
def DMA_QP_CFG_RO_EN : Field := ⟨.DMA_QP_CFG, 0, 30, 30⟩
def DMA_QP_CFG_PREFETCH_EN : Field := ⟨.DMA_QP_CFG, 0, 29, 29⟩
def DMA_QP_CFG_TX_CHAN : Field := ⟨.DMA_QP_CFG, 0, 13, 8⟩
def DMA_QP_CFG_RX_CHAN : Field := ⟨.DMA_QP_CFG, 0, 5, 0⟩
def DMA_LG_CTX_ENABLE : Field := ⟨.DMA_LG_CTX, 0, 31, 31⟩
def DMA_LG_CTX_POLICY : Field := ⟨.DMA_LG_CTX, 0, 30, 30⟩
def DMA_LG_CTX_EVLOG_EN : Field := ⟨.DMA_LG_CTX, 0, 29, 29⟩
def DMA_LG_CTX_PORT : Field := ⟨.DMA_LG_CTX, 0, 28, 24⟩
def DMA_LG_CTX_TC : Field := ⟨.DMA_LG_CTX, 0, 23, 21⟩
def DMA_LG_CTX_REPEAT_LIMIT : Field := ⟨.DMA_LG_CTX, 0, 20, 17⟩
def DMA_LG_CTX_QP : Field := ⟨.DMA_LG_CTX, 0, 13, 0⟩
def DMA_LG_CTX_PROC_BUDGET : Field := ⟨.DMA_LG_CTX, 1, 31, 16⟩
def DMA_LG_CTX_LEAD : Field := ⟨.DMA_LG_CTX, 1, 15, 0⟩
def DMA_LG_CTX_EVLOG_BASE_LO : Field := ⟨.DMA_LG_CTX, 2, 31, 12⟩
def DMA_LG_CTX_EVLOG_SIZE : Field := ⟨.DMA_LG_CTX, 2, 3, 0⟩
def DMA_LG_CTX_EVLOG_BASE_HI : Field := ⟨.DMA_LG_CTX, 3, 31, 0⟩
def DMA_LG_CTX_EVLOG_WPTR : Field := ⟨.DMA_LG_CTX, 4, 31, 0⟩
def DMA_LG_CTX_ON_TIME : Field := ⟨.DMA_LG_CTX, 5, 31, 0⟩
def DMA_LG_CTX_LATE : Field := ⟨.DMA_LG_CTX, 6, 31, 0⟩
def DMA_LG_CTX_EMPTY : Field := ⟨.DMA_LG_CTX, 7, 31, 0⟩
def DMA_PF_WIN_BASE_LO : Field := ⟨.DMA_PF_WIN, 0, 31, 12⟩
def DMA_PF_WIN_BASE_HI : Field := ⟨.DMA_PF_WIN, 1, 31, 0⟩
def DMA_PF_WIN_VALID : Field := ⟨.DMA_PF_WIN, 2, 31, 31⟩
def DMA_PF_WIN_PAGES : Field := ⟨.DMA_PF_WIN, 2, 19, 0⟩
def STO_CTRL_ENABLE : Field := ⟨.STO_CTRL, 0, 31, 31⟩
def STO_STATUS_WRITE_IGNORED : Field := ⟨.STO_STATUS, 0, 0, 0⟩
def STO_FUNC_QUOTA_CONN_LIMIT : Field := ⟨.STO_FUNC_QUOTA, 0, 29, 16⟩
def STO_FUNC_QUOTA_CMD_LIMIT : Field := ⟨.STO_FUNC_QUOTA, 0, 15, 0⟩
def STO_CONN_STAT_STATE : Field := ⟨.STO_CONN_STAT, 0, 31, 30⟩
def STO_CONN_STAT_FUNCTION : Field := ⟨.STO_CONN_STAT, 0, 29, 20⟩
def STO_CONN_STAT_OUTSTANDING : Field := ⟨.STO_CONN_STAT, 0, 12, 0⟩
def HIF_QP_CTX_ENABLE : Field := ⟨.HIF_QP_CTX, 0, 31, 31⟩
def HIF_QP_CTX_ACTIVE : Field := ⟨.HIF_QP_CTX, 0, 30, 30⟩
def HIF_QP_CTX_MODE : Field := ⟨.HIF_QP_CTX, 0, 29, 29⟩
def HIF_QP_CTX_IRQ_EN : Field := ⟨.HIF_QP_CTX, 0, 28, 28⟩
def HIF_QP_CTX_TX_LOG2 : Field := ⟨.HIF_QP_CTX, 0, 27, 24⟩
def HIF_QP_CTX_RX_LOG2 : Field := ⟨.HIF_QP_CTX, 0, 23, 20⟩
def HIF_QP_CTX_RX_VEC : Field := ⟨.HIF_QP_CTX, 1, 26, 16⟩
def HIF_QP_CTX_TX_VEC : Field := ⟨.HIF_QP_CTX, 1, 10, 0⟩
def HIF_QP_CTX_HOLDOFF : Field := ⟨.HIF_QP_CTX, 2, 15, 0⟩
def HIF_QP_CTX_TX_RING_LO : Field := ⟨.HIF_QP_CTX, 4, 31, 6⟩
def HIF_QP_CTX_TX_RING_HI : Field := ⟨.HIF_QP_CTX, 5, 31, 0⟩
def HIF_QP_CTX_TXC_RING_LO : Field := ⟨.HIF_QP_CTX, 6, 31, 6⟩
def HIF_QP_CTX_TXC_RING_HI : Field := ⟨.HIF_QP_CTX, 7, 31, 0⟩
def HIF_QP_CTX_RX_RING_LO : Field := ⟨.HIF_QP_CTX, 8, 31, 6⟩
def HIF_QP_CTX_RX_RING_HI : Field := ⟨.HIF_QP_CTX, 9, 31, 0⟩
def HIF_QP_CTX_RXC_RING_LO : Field := ⟨.HIF_QP_CTX, 10, 31, 6⟩
def HIF_QP_CTX_RXC_RING_HI : Field := ⟨.HIF_QP_CTX, 11, 31, 0⟩
def HIF_QP_CTX_WB_ADDR_LO : Field := ⟨.HIF_QP_CTX, 12, 31, 3⟩
def HIF_QP_CTX_WB_ADDR_HI : Field := ⟨.HIF_QP_CTX, 13, 31, 0⟩
def HIF_QP_CTX_RX_NODESC : Field := ⟨.HIF_QP_CTX, 14, 31, 0⟩
def HIF_QP_CTX_RX_OVERSIZE : Field := ⟨.HIF_QP_CTX, 15, 31, 0⟩
def HIF_RSS_QP : Field := ⟨.HIF_RSS, 0, 5, 0⟩
def HIF_FUNC_INFO_FUNCTION : Field := ⟨.HIF_FUNC_INFO, 0, 31, 22⟩
def HIF_FUNC_INFO_LINK : Field := ⟨.HIF_FUNC_INFO, 0, 21, 21⟩
def HIF_FUNC_INFO_COUNT : Field := ⟨.HIF_FUNC_INFO, 0, 20, 14⟩
def HIF_FUNC_INFO_BASE : Field := ⟨.HIF_FUNC_INFO, 0, 13, 0⟩
def HIF_AQ_CFG_ENABLE : Field := ⟨.HIF_AQ_CFG, 0, 31, 31⟩
def HIF_AQ_CFG_ACTIVE : Field := ⟨.HIF_AQ_CFG, 0, 30, 30⟩
def HIF_AQ_CFG_LOG2 : Field := ⟨.HIF_AQ_CFG, 0, 27, 24⟩
def HIF_AQ_CFG_VEC : Field := ⟨.HIF_AQ_CFG, 0, 10, 0⟩
def HIF_AQ_CFG_AQ_BASE_LO : Field := ⟨.HIF_AQ_CFG, 2, 31, 6⟩
def HIF_AQ_CFG_AQ_BASE_HI : Field := ⟨.HIF_AQ_CFG, 3, 31, 0⟩
def HIF_AQ_CFG_AQC_BASE_LO : Field := ⟨.HIF_AQ_CFG, 4, 31, 6⟩
def HIF_AQ_CFG_AQC_BASE_HI : Field := ⟨.HIF_AQ_CFG, 5, 31, 0⟩
def HIF_AQ_CFG_AQ_WB_LO : Field := ⟨.HIF_AQ_CFG, 6, 31, 3⟩
def HIF_AQ_CFG_AQ_WB_HI : Field := ⟨.HIF_AQ_CFG, 7, 31, 0⟩
def HIF_STATUS_WRITE_IGNORED : Field := ⟨.HIF_STATUS, 0, 0, 0⟩
def HIF_LINK_CFG_DUAL : Field := ⟨.HIF_LINK_CFG, 0, 0, 0⟩
def HIF_LINK_STAT_UP : Field := ⟨.HIF_LINK_STAT, 0, 31, 31⟩
def HIF_LINK_STAT_RATE : Field := ⟨.HIF_LINK_STAT, 0, 19, 16⟩
def HIF_LINK_STAT_WIDTH : Field := ⟨.HIF_LINK_STAT, 0, 5, 0⟩
def HIF_BUS_ERR_VALID : Field := ⟨.HIF_BUS_ERR, 0, 31, 31⟩
def HIF_BUS_ERR_MULTI : Field := ⟨.HIF_BUS_ERR, 0, 30, 30⟩
def HIF_BUS_ERR_CAUSE : Field := ⟨.HIF_BUS_ERR, 0, 29, 28⟩
def HIF_BUS_ERR_BAR : Field := ⟨.HIF_BUS_ERR, 0, 27, 27⟩
def HIF_BUS_ERR_FUNCTION : Field := ⟨.HIF_BUS_ERR, 0, 25, 16⟩
def FNC_QP_MAP_COUNT : Field := ⟨.FNC_QP_MAP, 0, 31, 24⟩
def FNC_QP_MAP_BASE : Field := ⟨.FNC_QP_MAP, 0, 13, 0⟩
def FNC_FUNC_STATE_STATE : Field := ⟨.FNC_FUNC_STATE, 0, 31, 30⟩
def FNC_FUNC_STATE_RESET_DONE : Field := ⟨.FNC_FUNC_STATE, 0, 29, 29⟩
def FNC_FUNC_STATE_SAVED : Field := ⟨.FNC_FUNC_STATE, 0, 28, 28⟩
def FNC_FUNC_STATE_GENERATION : Field := ⟨.FNC_FUNC_STATE, 0, 15, 0⟩
def MBX_TX_CTRL_KIND : Field := ⟨.MBX_TX_CTRL, 0, 31, 30⟩
def MBX_TX_CTRL_DEST : Field := ⟨.MBX_TX_CTRL, 0, 26, 16⟩
def MBX_TX_CTRL_LEN : Field := ⟨.MBX_TX_CTRL, 0, 8, 0⟩
def MBX_TX_STAT_HELD : Field := ⟨.MBX_TX_STAT, 0, 31, 31⟩
def MBX_TX_STAT_POST_DROP : Field := ⟨.MBX_TX_STAT, 0, 30, 30⟩
def MBX_RX_STAT_VALID : Field := ⟨.MBX_RX_STAT, 0, 31, 31⟩
def MBX_RX_STAT_STALE : Field := ⟨.MBX_RX_STAT, 0, 30, 30⟩
def MBX_RX_STAT_COUNT : Field := ⟨.MBX_RX_STAT, 0, 28, 24⟩
def MBX_RX_FROM_KIND : Field := ⟨.MBX_RX_FROM, 0, 31, 30⟩
def MBX_RX_FROM_SENDER : Field := ⟨.MBX_RX_FROM, 0, 26, 16⟩
def MBX_RX_FROM_LEN : Field := ⟨.MBX_RX_FROM, 0, 8, 0⟩
def MBX_RX_POP_POP : Field := ⟨.MBX_RX_POP, 0, 0, 0⟩
def MBX_CFG_MSG_IRQ_EN : Field := ⟨.MBX_CFG, 0, 31, 31⟩
def MBX_CFG_DB_IRQ_EN : Field := ⟨.MBX_CFG, 0, 30, 30⟩
def MBX_CFG_VEC : Field := ⟨.MBX_CFG, 0, 10, 0⟩
def VCL_STATUS_WRITE_IGNORED : Field := ⟨.VCL_STATUS, 0, 0, 0⟩
def VCL_FW_STATE_IMAGE : Field := ⟨.VCL_FW_STATE, 0, 31, 31⟩
def VCL_FW_STATE_STAGED : Field := ⟨.VCL_FW_STATE, 0, 30, 30⟩
def VCL_SLOW_LEVEL_LEVEL : Field := ⟨.VCL_SLOW_LEVEL, 0, 13, 0⟩
def VCL_MGMT_CFG_ENABLE : Field := ⟨.VCL_MGMT_CFG, 0, 31, 31⟩
def VCL_MGMT_CFG_VID : Field := ⟨.VCL_MGMT_CFG, 0, 29, 18⟩
def VCL_MGMT_CFG_PORTS : Field := ⟨.VCL_MGMT_CFG, 0, 17, 0⟩
def VCL_MGMT_MAC_LO_MAC : Field := ⟨.VCL_MGMT_MAC_LO, 0, 31, 16⟩
def VCL_SMB_STAT_ADDR : Field := ⟨.VCL_SMB_STAT, 0, 6, 0⟩
def VCL_SLOW_CFG_SLOW_HOLD : Field := ⟨.VCL_SLOW_CFG, 0, 31, 16⟩
def VCL_SLOW_CFG_SLOW_LIMIT : Field := ⟨.VCL_SLOW_CFG, 0, 13, 0⟩
def PRT_STATUS_WRITE_IGNORED : Field := ⟨.PRT_STATUS, 0, 0, 0⟩
def PRT_PORT_CFG_ENABLE : Field := ⟨.PRT_PORT_CFG, 0, 31, 31⟩
def PRT_PORT_CFG_AN : Field := ⟨.PRT_PORT_CFG, 0, 9, 9⟩
def PRT_PORT_CFG_TRAIN : Field := ⟨.PRT_PORT_CFG, 0, 8, 8⟩
def PRT_PORT_CFG_FEC : Field := ⟨.PRT_PORT_CFG, 0, 7, 6⟩
def PRT_PORT_CFG_PHY : Field := ⟨.PRT_PORT_CFG, 0, 5, 4⟩
def PRT_PORT_CFG_MODE : Field := ⟨.PRT_PORT_CFG, 0, 3, 0⟩
def PRT_LINK_STAT_UP : Field := ⟨.PRT_LINK_STAT, 0, 31, 31⟩
def PRT_LINK_STAT_CHANGED : Field := ⟨.PRT_LINK_STAT, 0, 30, 30⟩
def PRT_LINK_STAT_STEPPED : Field := ⟨.PRT_LINK_STAT, 0, 29, 29⟩
def PRT_LINK_STAT_PAUSED : Field := ⟨.PRT_LINK_STAT, 0, 28, 28⟩
def PRT_LINK_STAT_WDOG_ACTIVE : Field := ⟨.PRT_LINK_STAT, 0, 27, 27⟩
def PRT_LINK_STAT_PFC_PAUSED : Field := ⟨.PRT_LINK_STAT, 0, 23, 16⟩
def PRT_LINK_STAT_CUR_MODE : Field := ⟨.PRT_LINK_STAT, 0, 3, 0⟩
def PRT_MAX_LEN_MAX_LEN : Field := ⟨.PRT_MAX_LEN, 0, 13, 0⟩
def PRT_FC_CFG_FC_MODE : Field := ⟨.PRT_FC_CFG, 0, 31, 30⟩
def PRT_FC_CFG_TX_GEN : Field := ⟨.PRT_FC_CFG, 0, 29, 29⟩
def PRT_FC_CFG_RX_OBEY : Field := ⟨.PRT_FC_CFG, 0, 28, 28⟩
def PRT_FC_CFG_PFC_EN : Field := ⟨.PRT_FC_CFG, 0, 23, 16⟩
def PRT_FC_CFG_QUANTA : Field := ⟨.PRT_FC_CFG, 0, 15, 0⟩
def PRT_FC_THRESH_XOFF : Field := ⟨.PRT_FC_THRESH, 0, 31, 16⟩
def PRT_FC_THRESH_XON : Field := ⟨.PRT_FC_THRESH, 0, 15, 0⟩
def PRT_PAUSE_WDOG_LIMIT : Field := ⟨.PRT_PAUSE_WDOG, 0, 31, 16⟩
def PRT_PAUSE_WDOG_HOLDOFF : Field := ⟨.PRT_PAUSE_WDOG, 0, 15, 0⟩
def PRT_DEF_FUNC_FUNCTION : Field := ⟨.PRT_DEF_FUNC, 0, 9, 0⟩
def PWR_STAT_POR_DONE : Field := ⟨.PWR_STAT, 0, 31, 31⟩
def PWR_STAT_WARN : Field := ⟨.PWR_STAT, 0, 30, 30⟩
def PWR_STAT_STATE : Field := ⟨.PWR_STAT, 0, 29, 28⟩
def PWR_STAT_THERM_HOT : Field := ⟨.PWR_STAT, 0, 27, 27⟩
def PWR_STAT_PACE_FAIL : Field := ⟨.PWR_STAT, 0, 26, 26⟩
def PWR_STAT_WARN_RAILS : Field := ⟨.PWR_STAT, 0, 6, 0⟩
def PWR_RESET_CAUSE_KIND : Field := ⟨.PWR_RESET_CAUSE, 0, 31, 29⟩
def PWR_RESET_CAUSE_RAILS : Field := ⟨.PWR_RESET_CAUSE, 0, 6, 0⟩
def PWR_THERM_CFG_THERM_HOT : Field := ⟨.PWR_THERM_CFG, 0, 7, 0⟩
def PWR_RAIL_STAT_WARN : Field := ⟨.PWR_RAIL_STAT, 0, 31, 31⟩
def PWR_RAIL_STAT_WARN_SEEN : Field := ⟨.PWR_RAIL_STAT, 0, 30, 30⟩
def PWR_RAIL_STAT_MILLIVOLTS : Field := ⟨.PWR_RAIL_STAT, 0, 15, 0⟩
def PWR_ISLAND_STAT_ON : Field := ⟨.PWR_ISLAND_STAT, 0, 31, 31⟩
def PWR_ISLAND_STAT_CHANGING : Field := ⟨.PWR_ISLAND_STAT, 0, 30, 30⟩
def PWR_ISLAND_STAT_KEEP : Field := ⟨.PWR_ISLAND_STAT, 0, 29, 29⟩
def PWR_ISLAND_STAT_PACE_RAISED : Field := ⟨.PWR_ISLAND_STAT, 0, 28, 28⟩
def PWR_ISLAND_STAT_LEVEL : Field := ⟨.PWR_ISLAND_STAT, 0, 26, 24⟩
def PWR_ISLAND_STAT_FLOOR : Field := ⟨.PWR_ISLAND_STAT, 0, 22, 20⟩
def PWR_ISLAND_STAT_CEIL : Field := ⟨.PWR_ISLAND_STAT, 0, 18, 16⟩
def PWR_ISLAND_STAT_MODE : Field := ⟨.PWR_ISLAND_STAT, 0, 13, 12⟩
def PWR_ISLAND_STAT_SCHED : Field := ⟨.PWR_ISLAND_STAT, 0, 10, 8⟩
def PWR_PACE_PACE_LOW : Field := ⟨.PWR_PACE, 0, 31, 31⟩
def PWR_PACE_PACE : Field := ⟨.PWR_PACE, 0, 15, 0⟩
def DBG_LOG_CTRL_ENABLE : Field := ⟨.DBG_LOG_CTRL, 0, 31, 31⟩
def DBG_LOG_CTRL_TO_HOST : Field := ⟨.DBG_LOG_CTRL, 0, 30, 30⟩
def DBG_LOG_CTRL_WRAP : Field := ⟨.DBG_LOG_CTRL, 0, 29, 29⟩
def DBG_LOG_CTRL_STOPPED : Field := ⟨.DBG_LOG_CTRL, 0, 28, 28⟩
def DBG_LOG_CTRL_STOP_EN : Field := ⟨.DBG_LOG_CTRL, 0, 16, 16⟩
def DBG_LOG_CTRL_STOP_CLASS : Field := ⟨.DBG_LOG_CTRL, 0, 15, 8⟩
def DBG_LOG_FUNC_FILTER_EN : Field := ⟨.DBG_LOG_FUNC_FILTER, 0, 31, 31⟩
def DBG_LOG_FUNC_FILTER_FUNCTION : Field := ⟨.DBG_LOG_FUNC_FILTER, 0, 9, 0⟩
def DBG_LOG_HOST_BASE_LO : Field := ⟨.DBG_LOG_HOST_BASE, 0, 31, 12⟩
def DBG_LOG_HOST_BASE_HI : Field := ⟨.DBG_LOG_HOST_BASE, 1, 31, 0⟩
def DBG_LOG_HOST_SIZE_LOG2_SIZE : Field := ⟨.DBG_LOG_HOST_SIZE, 0, 4, 0⟩
def DBG_DOMAIN_ERR_VALID : Field := ⟨.DBG_DOMAIN_ERR, 0, 31, 31⟩
def DBG_DOMAIN_ERR_MULTI : Field := ⟨.DBG_DOMAIN_ERR, 0, 30, 30⟩
def DBG_DOMAIN_ERR_SOURCE : Field := ⟨.DBG_DOMAIN_ERR, 0, 29, 28⟩
def DBG_DOMAIN_ERR_WRITE : Field := ⟨.DBG_DOMAIN_ERR, 0, 27, 27⟩
def DBG_DOMAIN_ERR_BLOCK : Field := ⟨.DBG_DOMAIN_ERR, 0, 21, 17⟩
def DBG_DOMAIN_ERR_FUNCTION : Field := ⟨.DBG_DOMAIN_ERR, 0, 9, 0⟩
def DBG_RESET_CTRL_GO : Field := ⟨.DBG_RESET_CTRL, 0, 31, 31⟩
def DBG_RESET_CTRL_BUSY : Field := ⟨.DBG_RESET_CTRL, 0, 30, 30⟩
def DBG_RESET_CTRL_CYCLE : Field := ⟨.DBG_RESET_CTRL, 0, 8, 8⟩
def DBG_RESET_CTRL_TARGET : Field := ⟨.DBG_RESET_CTRL, 0, 4, 0⟩
def SEC_STAT_RECOVERY : Field := ⟨.SEC_STAT, 0, 31, 31⟩
def SEC_STAT_BOOT_FALLBACK : Field := ⟨.SEC_STAT, 0, 30, 30⟩
def SEC_STAT_IMAGE : Field := ⟨.SEC_STAT, 0, 29, 29⟩
def SEC_STAT_OWNED : Field := ⟨.SEC_STAT, 0, 28, 28⟩
def SEC_STAT_TRNG_FAIL : Field := ⟨.SEC_STAT, 0, 27, 27⟩
def SEC_STAT_JTAG_SEEN : Field := ⟨.SEC_STAT, 0, 26, 26⟩
def SEC_STAT_SIGN_SUSPENDED : Field := ⟨.SEC_STAT, 0, 25, 25⟩
def SEC_STAT_KEYGEN_BUSY : Field := ⟨.SEC_STAT, 0, 24, 24⟩
def SEC_STAT_SIGN_READY : Field := ⟨.SEC_STAT, 0, 23, 23⟩
def SEC_STAT_MRAM_FAIL : Field := ⟨.SEC_STAT, 0, 22, 22⟩
def SEC_STAT_LIFECYCLE : Field := ⟨.SEC_STAT, 0, 1, 0⟩
def SEC_SIGN_CFG_PKG_INTERVAL : Field := ⟨.SEC_SIGN_CFG, 0, 31, 16⟩
def SEC_SIGN_CFG_FUNC_INTERVAL : Field := ⟨.SEC_SIGN_CFG, 0, 15, 8⟩
end Fld

end Sys2Proof.Machine
end

