-- ==== Sys2Proof/Machine/Blocks.lean ====
section
/-!
DEFINITION. The parts of State, one structure per block of the device, as plain data. Registers that are no more than
their stored bits lie in `regs`; what an engine works with lies in a structure of that engine, and a register that
reports it is computed when it is read.
-/
namespace Sys2Proof.Machine

/-- Status words (R340). -/
inductive Status where
  | ok | badOpcode | badLength | badParam | badState | denied | notFound | tableFull | sheetBusy | insetBusy | insetReject
  | authFail | poolEmpty | targetReset | domainOff | restarted | late | hostErr | digestErr | connLost | busy | verifyFail
  deriving DecidableEq, Repr

/-! ## Meridian (R29 to R43) -/

/-- One time pin (R41 to R43). -/
structure TioPin where
  /-- Input stamps, oldest first, at most 16. -/
  fifo : List Stamp := []
  /-- The output level. -/
  high : Bool := false
  /-- Reference time at which a running output pulse ends, ns. -/
  pulseEnd : Nat := 0
  /-- First stamp whose edge has not yet been dealt with. -/
  edgeFrom : Stamp := 0
  deriving DecidableEq, Repr

/-- The Meridian. Counter values are counted in units of 2^-48 / 16,000,000 ns, in which every amount of R29, R33 and
R34 is whole, so the accumulation is exact. -/
structure Mer where
  /-- The counter. -/
  acc : Nat := 0
  /-- A of R32, in units of 2^-48. -/
  rateA : Int := 0
  /-- S of R33 in ppm; 0 when no slew runs. -/
  slewPpm : Int := 0
  /-- Slew offset not yet added, in counter units. -/
  slewLeft : Int := 0
  /-- Backward step not yet absorbed, in counter units. -/
  stepLeft : Nat := 0
  /-- A backward step is in progress. -/
  stepping : Bool := false
  /-- A load is armed (R36). -/
  armed : Bool := false
  /-- Cycles of the reference clock since the power-on sequence ended, on which timers run. -/
  refCycles : Nat := 0
  pins : Tbl TioPin := ⟨[]⟩
  deriving DecidableEq, Repr

/-! ## Logbook (R54 to R59) -/

/-- The logbook's working state beside its registers. -/
structure Logbook where
  /-- SEQ of each SOURCE (R468). -/
  seq : Tbl Nat := ⟨[]⟩
  /-- The on-die trace, record index to eight words. -/
  trace : Tbl (List Word) := ⟨[]⟩
  /-- Records in the trace since it was last started, up to 32,768. -/
  filled : Nat := 0
  /-- Records dropped since the last GAP record (R56). -/
  dropped : Nat := 0
  deriving DecidableEq, Repr

/-! ## Packet cores and threads (R61 to R103) -/

/-- What a parse has found at one level, outer or inner (R113, R119). -/
structure ParseLv where
  /-- PCP and VID of the first VLAN tag. -/
  tag : Option (Nat × Nat) := none
  /-- EtherType that follows the last L2 header parsed. -/
  etherType : Option Nat := none
  /-- 1 IPv4, 2 IPv6, 0 none parsed. -/
  l3 : Nat := 0
  proto : Nat := 0
  src : Nat := 0
  dst : Nat := 0
  sport : Nat := 0
  dport : Nat := 0
  deriving DecidableEq, Repr

/-- A header that a parse has before it (R113). -/
inductive Hdr where
  | payload | eth | tag | ip4 | ip6 | ext | frag | udp | tcp | vxlan | geneve
  /-- A hook's header, by hook number (R110). -/
  | hook (n : Nat)
  deriving DecidableEq, Repr

/-- A parse under way (R113 to R116). -/
structure ParseSt where
  /-- Offset of the next header, and what it is. -/
  pos : Nat := 0
  next : Hdr := .eth
  headers : Nat := 0
  l3 : Nat := 0
  l4 : Nat := 0
  innerOff : Nat := 0
  /-- Tags after the present Ethernet header. -/
  tags : Nat := 0
  fragment : Bool := false
  exc : Nat := 0
  /-- Offset at which the enclosing IP payload ends; 0 while no IP header encloses. -/
  ipEnd : Nat := 0
  /-- Length field of the outer UDP header. -/
  udpLen : Nat := 0
  /-- Inside a tunnel: where the inner frame starts and its length L_in, none behind a hook's header, and whether its network
  header has been met. -/
  inner : Option (Nat × Option Nat) := none
  innerIp : Bool := false
  outerLv : ParseLv := {}
  innerLv : ParseLv := {}
  /-- PAYLOAD_OFF, once the parse has ended. -/
  payload : Option Nat := none
  deriving DecidableEq, Repr

/-- A return-stack entry: where to go, in which mode, and the library parse a hook returns into. -/
structure RetRec where
  pc : Nat
  inset : Bool
  parse : Option ParseSt := none
  deriving DecidableEq, Repr

/-- A loop-stack entry (R96 LOOP). -/
structure LoopRec where
  start : Nat
  body : Nat
  left : Nat
  depth : Nat
  deriving DecidableEq, Repr

/-- A lookup slot (R99). -/
inductive LSlot where
  | empty
  | waiting (req : Nat)
  | ready (status : Word) (lo hi : Word)
  deriving DecidableEq, Repr

/-- A reservation register: a slot of a channel, or one whose slot was discarded or abandoned (R78, R81). -/
structure Resv where
  chan : Nat
  live : Bool
  data : List Word
  deriving DecidableEq, Repr

/-- A table or classifier request (R70, R99). -/
structure LookReq where
  thread : Nat
  /-- Lookup slot 0 to 3; 4 for the library's own request (LIB_CLASSIFY). -/
  slot : Nat
  /-- 0 exact match, 1 LPM IPv4, 2 LPM IPv6, 3 CLASSIFY. -/
  kind : Nat
  table : Nat
  /-- The 128-bit key. -/
  key : Nat
  prefetch : Bool
  /-- Made through a handle of an inset (R99, R136). -/
  inset : Bool := false
  /-- lg.FUNCTION at the request, its generation, and the generation of the target block (R18, R315). -/
  function : Nat
  fnGen : Nat
  blockGen : Nat
  frame : Nat
  /-- Stamp of the request. -/
  stamp : Stamp
  /-- Outcome, prefix length and result, once the engine has answered. -/
  answer : Option (Nat × Nat × Nat)
  deriving DecidableEq, Repr

/-- What a stalled or waiting thread is blocked on (R70, R73, R75). -/
inductive Pend where
  | none
  /-- LDRES of a slot whose reply is outstanding. -/
  | ldres (slot part d : Nat)
  /-- LOOKUP into a slot whose earlier request is outstanding, or a request beyond four; the new request waits. -/
  | relook (r : LookReq)
  /-- Region store access: write, size code, address, register. -/
  | region (w : Bool) (sz addr d : Nat)
  /-- Buffer access beyond the window: write, size code, offset, register, and the generations of the DMA engine and the buffer
  pool manager when it was issued (R18). -/
  | buf (w : Bool) (sz off d gen7 gen13 : Nat)
  /-- LIB_CLASSIFY waits for its reply. -/
  | libClassify (req : Nat)
  /-- EVT WAIT: mask and register. -/
  | evt (mask d : Nat)
  /-- CHAN RESERVE: channel, reservation register, status register. -/
  | reserve (ch rv st : Nat)
  /-- CHAN READ: channel, first register, status register. -/
  | read (ch d st : Nat)
  deriving DecidableEq, Repr

/-- One hardware thread. -/
structure Thread where
  /-- g1 to g31; an unlisted register holds 0. -/
  g : Tbl Word := ⟨[]⟩
  pc : Nat := 0
  insetMode : Bool := false
  /-- The inset whose programs this dispatch runs. -/
  inset : Option Nat := none
  frame : Option Nat := none
  pend : Pend := .none
  /-- A reply has answered a short-lived block; the value kept while halted is already in its register. -/
  halted : Bool := false
  /-- Reference time of the halt, ns. -/
  haltAt : Nat := 0
  /-- A STEP is in progress: the thread halts again after one instruction. -/
  stepping : Bool := false
  /-- Slot count of its core at which a short stall has ended (R69). -/
  stallTo : Nat := 0
  pw : Bytes := []
  ls : Tbl LSlot := ⟨[]⟩
  rets : List RetRec := []
  loops : List LoopRec := []
  rv : Tbl Resv := ⟨[]⟩
  budget : Nat := 0
  limit : Nat := 1024
  /-- The 64-bit pending register of the event unit. -/
  events : Nat := 0
  timer : Option Stamp := none
  /-- What the last vendor parse of this dispatch found, in the library's private area (R94, R119). -/
  parsed : Option ParseSt := none
  /-- INSET_BINDs accepted before this dispatch (R341: bindings apply to legends dispatched after the reply). -/
  born : Nat := 0
  deriving DecidableEq, Repr

/-- Issue state of a core (R69). -/
structure CoreSt where
  slotCount : Nat := 0
  /-- Thread of the core, 0 to 3; none before the first switch and while no thread is READY. -/
  current : Option Nat := none
  hiCurrent : Nat := 0
  deriving DecidableEq, Repr

/-- An inset's text and resources as loaded (R104 to R108). -/
structure Inset where
  function : Nat
  text : List Word
  /-- Base of the text per cluster in which it is placed. -/
  base : Tbl Nat
  /-- Base of the region window per region, an offset from 0x8_0000. -/
  rgnBase : Tbl Nat
  priv : Nat
  rgn : Nat
  /-- Entries: (KIND, ENTRY_ID, OFFSET). -/
  entries : List (Nat × Nat × Nat)
  /-- Table of each handle, in handle order. -/
  handles : List Nat
  handleKinds : List Nat
  chanMask : Nat
  softMask : Nat
  /-- Clusters in which the channels and SOFT events are granted (R106). -/
  granted : List Nat
  bound : Nat
  deriving DecidableEq, Repr

/-- An entry of a function's class map (R92, R122; INSET_BIND in R341). -/
structure ClassBind where
  /-- ACTION entry of the inset, none for the vendor default. -/
  entry : Option Nat
  stream : Nat
  toSlow : Bool
  deriving DecidableEq, Repr

/-- A parse hook of a function (R110). -/
structure Hook where
  udp : Bool
  key : Nat
  entry : Nat
  deriving DecidableEq, Repr

/-- A change of a function's inset under way (R105). -/
structure InsetChange where
  /-- The inset to come into force, none for an unload. -/
  new : Option Nat
  /-- Regions whose dispatcher has still to apply the commit. -/
  regions : List Nat
  /-- Index of the command that replies at the end of the drain. -/
  cmd : Option Nat
  deriving DecidableEq, Repr

/-- The packet core array. -/
structure Pca where
  threads : Tbl Thread := ⟨[]⟩
  cores : Tbl CoreSt := ⟨[]⟩
  /-- Local scratch, keyed 0x4000 · core + address; never-written bytes read 0 (log entry 19). -/
  scratch : Tbl Byte := ⟨[]⟩
  /-- Region store, keyed 0x8_0000 · region + offset. -/
  rstore : Tbl Byte := ⟨[]⟩
  /-- Committed channel entries, oldest first, by channel index 8 · cluster + channel. -/
  chans : Tbl (List (List Word)) := ⟨[]⟩
  /-- Region sub-queues, keyed 16 · region + group, frame numbers in order. -/
  rq : Tbl (List Nat) := ⟨[]⟩
  /-- Sub-queue served last, per region. -/
  rqLast : Tbl Nat := ⟨[]⟩
  /-- Cluster that received the previous legend, keyed 16 · region + group. -/
  rqCluster : Tbl Nat := ⟨[]⟩
  /-- Outstanding table and classifier requests. -/
  reqs : Tbl LookReq := ⟨[]⟩
  /-- REGION_MSG signals in the region queues: (target thread, sender's cluster within the region). -/
  msgs : Tbl (List (Nat × Nat)) := ⟨[]⟩
  insets : Tbl Inset := ⟨[]⟩
  /-- Inset in force per region, keyed 4 · function + region. -/
  insetAt : Tbl Nat := ⟨[]⟩
  changes : Tbl InsetChange := ⟨[]⟩
  /-- INSET_BINDs accepted since reset. -/
  binds : Nat := 0
  /-- Class maps, keyed 4096 · function + class: bindings with the count of INSET_BINDs that made them, latest first. -/
  classMap : Tbl (List (Nat × ClassBind)) := ⟨[]⟩
  /-- Hooks, keyed 4 · function + hook number, none where disabled, in the same form. -/
  hooks : Tbl (List (Nat × Option Hook)) := ⟨[]⟩
  deriving DecidableEq, Repr

/-! ## Classifier (R120 to R130) -/

/-- A sheet: number, default result, enabled profiles (mask by profile number). Its rules lie in table 1. -/
structure Sheet where
  num : Nat
  dflt : Word := 0
  profiles : Tbl Nat := ⟨[]⟩
  /-- Commit stamp T of the swap that made it active (R126). -/
  since : Stamp := 0
  deriving DecidableEq, Repr

/-- State of the bank that is not active (R134). -/
inductive OtherBank where
  | empty
  | staged (sh : Sheet)
  | draining (sh : Sheet)
  deriving DecidableEq, Repr

/-- The two sheet banks of a function (R124). -/
structure Banks where
  active : Option Sheet := none
  other : OtherBank := .empty
  /-- Number assigned last, 0 for none since reset. -/
  lastNum : Nat := 0
  /-- Commit stamp of the swap under way, at which the staged bank becomes active, and its command. -/
  swapAt : Option (Stamp × Nat) := none
  /-- Stamp after which a draining bank may be released: T + 2,000,000 ns. -/
  drainAfter : Stamp := 0
  /-- A SHEET_OPEN waiting for the drain: reference-time limit in ns, COPY, command. -/
  openWait : Option (Nat × Bool × Nat) := none
  deriving DecidableEq, Repr

/-- A cached result: function, sheet, unmasked key, and the rule's RESULT or none for a miss (R123). -/
structure CacheEnt where
  fn : Nat
  sheet : Nat
  key : Nat
  result : Option Nat
  deriving DecidableEq, Repr

/-- The classifier beside its registers. -/
structure Cls where
  banks : Tbl Banks := ⟨[]⟩
  /-- The cache of each region, at most 8,192 results. -/
  cache : Tbl (List CacheEnt) := ⟨[]⟩
  deriving DecidableEq, Repr

/-! ## Table engine (R135 to R155) -/

/-- A table entry (R138). VALID is being listed. -/
structure Entry where
  key : Nat
  result : Nat
  static : Bool
  ageEn : Bool
  frozen : Bool := false
  moved : Bool := false
  stampOld : Bool := false
  table : Nat
  fn : Nat
  age : Nat := 0
  qual : Nat := 0
  deriving DecidableEq, Repr

/-- A learn request (R148). -/
structure LearnReq where
  fid : Nat
  mac : Nat
  inPort : Nat
  fn : Nat
  gen : Nat
  stamp : Stamp
  /-- Endpoint that terminated the frame (R175). -/
  tunnel : Option Nat
  deriving DecidableEq, Repr

/-- The table engine. -/
structure TblEng where
  /-- Entries, keyed 4 · bucket + slot within the table partition. -/
  slots : Tbl Entry := ⟨[]⟩
  /-- The overflow store, 16,384 places. -/
  ovf : Tbl Entry := ⟨[]⟩
  /-- SPILL_B in bit 0 and SPILL_OVF in bit 1 of slot 0, by bucket. -/
  spill : Tbl Nat := ⟨[]⟩
  /-- Buckets that fail their ECC check (R143). -/
  failed : Tbl Unit := ⟨[]⟩
  /-- Default routes, keyed 2 · VRF + family (R145). -/
  dflt : Tbl Nat := ⟨[]⟩
  learnQ : List LearnReq := []
  /-- Age refreshes under way: table, key, function, qualifier. -/
  refreshQ : List (Nat × Nat × Nat × Nat) := []
  /-- Reference time of the present pass's start, ns, and the next bucket to visit; none between passes. -/
  scan : Option (Nat × Nat) := none
  /-- Reference time of the last pass start. -/
  lastPass : Option Nat := none
  /-- TBL_AGE_CFG as the present pass took it. -/
  passCfg : Word := 0
  deriving DecidableEq, Repr

/-! ## Virtual switch (R162 to R176) -/

/-- A VLAN entry. -/
structure Vlan where
  fid : Nat
  floodUc : Bool
  floodMc : Bool
  ports : Nat
  untagPorts : Nat
  funcs : Nat
  untagFuncs : Nat
  tunnels : List Nat
  deriving DecidableEq, Repr

/-- A replication group. -/
structure Group where
  vid : Nat
  dests : List Nat
  deriving DecidableEq, Repr

/-- The virtual switch's tables. -/
structure Vsw where
  vlans : Tbl Vlan := ⟨[]⟩
  groups : Tbl Group := ⟨[]⟩
  /-- Endpoint records, 32 words (R172). -/
  tunnels : Tbl (List Word) := ⟨[]⟩
  /-- Router MAC of each function (VRF_SET). -/
  routerMac : Tbl Nat := ⟨[]⟩
  deriving DecidableEq, Repr

/-! ## Cipher engine (R181 to R204) -/

/-- A key slot's record and state (R188, R190). STATE codes are those of R190. -/
structure KeySlot where
  state : Nat := 0
  /-- The 32 words of the record; NEXT in force is `next`. -/
  record : List Word := []
  next : Nat := 0
  thresholdHit : Bool := false
  ops : Nat := 0
  tagFails : Nat := 0
  replayDrops : Nat := 0
  /-- ESP replay window, bit i for the highest value received minus i (RFC 4303). -/
  window : Nat := 0
  /-- Which writing of a record into a slot put this one there; 0 for none (R202). -/
  epoch : Nat := 0
  /-- Stamp at which the last operation on the slot started (R60). -/
  lastStart : Option Stamp := none
  deriving DecidableEq, Repr

/-- A secure channel of a port's receive side (R195). -/
structure RxSc where
  sci : Nat
  /-- Slot by AN, none where 0xFFFF was given. -/
  slots : List (Option Nat)
  deriving DecidableEq, Repr

/-- What an operation works on. -/
inductive CipSubject where
  /-- MACsec egress of a copy. -/
  | tx (copy : Nat)
  /-- MACsec ingress of a frame. -/
  | rx (frame : Nat)
  /-- ESP outbound of a copy. -/
  | espOut (copy : Nat)
  /-- ESP inbound of a frame. -/
  | espIn (frame : Nat)
  /-- A TLS record of the storage engine, by record number. -/
  | tls (record : Nat)
  deriving DecidableEq, Repr

/-- An operation in a core (R181). -/
structure CipOp where
  subject : CipSubject
  slot : Nat
  /-- The record copied at admission. -/
  record : List Word
  /-- The counter value taken, transmit only. -/
  value : Nat
  fn : Nat
  start : Stamp
  port : Nat
  /-- Order of admission. -/
  seq : Nat
  /-- Output chain of an ESP operation, once granted (R239). -/
  chain : Option (List Nat) := none
  /-- `KeySlot.epoch` of the record copied. -/
  epoch : Nat := 0
  deriving DecidableEq, Repr

/-- The cipher engine. -/
structure Cip where
  slots : Tbl KeySlot := ⟨[]⟩
  /-- Records written into slots since reset, and the replaced ones on which operations still run, by `epoch` (R202). -/
  writes : Nat := 0
  retired : Tbl KeySlot := ⟨[]⟩
  /-- Function a slot is granted to; an unlisted slot belongs to the physical functions. -/
  grants : Tbl Nat := ⟨[]⟩
  /-- Default SCI per port. -/
  sci : Tbl Nat := ⟨[]⟩
  rxsc : Tbl (List RxSc) := ⟨[]⟩
  /-- TX queue: copies in release order. -/
  txQ : List Nat := []
  /-- RX queue: frames in arrival order with their arrival reference time, ns, and the slot of their channel. -/
  rxQ : List (Nat × Nat × Nat) := []
  /-- ESP queue: function and subject in arrival order. -/
  espQ : List (Nat × CipSubject) := []
  /-- TLS queue: function and record number in arrival order. -/
  tlsQ : List (Nat × Nat) := []
  cores : Tbl CipOp := ⟨[]⟩
  /-- Admissions since reset. -/
  nextSeq : Nat := 0
  /-- Class of the present weighted turn, 0 ESP and 1 TLS, and turns it has left; ESP has the first turn. -/
  turnClass : Nat := 1
  turnsLeft : Nat := 0
  /-- Function served last per class. -/
  lastFn : Tbl Nat := ⟨[]⟩
  /-- Per core, blocks processed since its generator was reseeded, and the seed it runs on; an unlisted one runs on its seed of
  the boot (R187). -/
  blocks : Tbl Nat := ⟨[]⟩
  seeds : Tbl Bytes := ⟨[]⟩
  deriving DecidableEq, Repr

/-! ## Frames and copies -/

/-- Where a host frame came from (R246, R298). -/
structure HostTx where
  /-- Global queue pair and ring count of its entry. -/
  qp : Nat
  idx : Nat
  tag : Nat
  /-- STAMP of the descriptor. -/
  wantStamp : Bool
  /-- Its transmit completion has been written (R48, R301). -/
  completed : Bool := false
  /-- Late-gather context. -/
  ctx : Option Nat
  deriving DecidableEq, Repr

/-- Where a frame is. -/
inductive Stage where
  /-- Received; its buffer request is under way. -/
  | buffers
  /-- In the MACsec receive queue or a core. -/
  | macsec
  /-- The front end makes its legend next. -/
  | legend
  /-- In a region sub-queue. -/
  | queued (region group : Nat)
  | onThread (t : Nat)
  /-- Handed to the virtual switch by END EMIT, or, with the region it came from, by END RECIRC for termination or ESP. -/
  | toSwitch (recirc : Option Nat)
  /-- ESP inbound before it recirculates to its region. -/
  | espIn (region : Nat)
  /-- In the slow-path queue, with reason and handle. -/
  | slow (reason handle : Nat)
  /-- Held back by a REORDER injector on receive (R379). -/
  | injector (n : Nat)
  /-- Forwarded whole to the host by SLOW_VERDICT, or diverted to the management transport. -/
  | firmware
  /-- Replicated; its copies carry on. -/
  | copied
  deriving DecidableEq, Repr

/-- A frame in the device. -/
structure Frame where
  inPort : Nat
  stamp : Stamp
  /-- The bytes without FCS. -/
  bytes : Bytes
  /-- The legend, 16 words; empty before it is made. -/
  lg : List Word := []
  stage : Stage
  /-- Function and generation when the legend was made (R315). -/
  owner : Nat := 0
  gen : Nat := 0
  /-- Order of arrival, for descriptor order (R51). -/
  seq : Nat := 0
  /-- Sheet charged (R127). -/
  charge : Option Nat := none
  /-- Order-tracker slot; none for an untracked frame (R50). -/
  slot : Option Nat := none
  host : Option HostTx := none
  /-- Buffer handles of the chain, first first, and the owner of the frame's share of it (R243). -/
  chain : List Nat := []
  party : Nat := 98
  /-- 4096 · endpoint + VID of the endpoint that terminated the frame (R174). -/
  decap : Option Nat := none
  /-- ESP or MACsec protection was removed. -/
  traversed : Bool := false
  /-- The traffic manager has applied filter, meter and 802.1CB (R217). -/
  filtered : Bool := false
  /-- R-TAG sequence number of R220. -/
  rtag : Option Nat := none
  /-- Reference time at which it entered its present stage, ns. -/
  since : Nat := 0
  deriving DecidableEq, Repr

/-- Where a copy is. -/
inductive CopyStage where
  /-- Waits for a header buffer of R238 from the virtual switch. -/
  | buffers
  /-- In the ESP queue or a core. -/
  | esp
  /-- The traffic manager admits it next. -/
  | admitting
  | queued (q : Nat)
  /-- Released with a planned start, in units of `Line`; in the TX queue or a core. -/
  | macsec (q : Nat) (start : Nat)
  /-- At the launch slot. -/
  | launch (q : Nat) (start : Nat)
  /-- On the line, or preempted with bytes left (R228). -/
  | line (q : Nat) (start : Nat)
  /-- Handed to the DMA engine for a function, with the local queue pair that HIF_RSS gave (R304). -/
  | dma (n : Nat)
  /-- Being placed with a receive descriptor. -/
  | placing (qp idx : Nat)
  /-- Taken by the storage engine for a connection (R270). -/
  | storage (conn : Nat)
  /-- Held back by a REORDER injector of a port or a function (R379); its queue and planned start on transmit. -/
  | injector (func tx : Bool) (n q start : Nat)
  deriving DecidableEq, Repr

/-- One copy of a frame, with the tag edits and encapsulation its destination gives it applied (R166, R173). -/
structure Copy where
  frame : Nat
  /-- Port, or 1,000 + function. -/
  dest : Nat
  /-- Generation of the destination function when replication began. -/
  gen : Nat := 0
  mirror : Bool := false
  /-- The stored copy of a late-gather context sent again (R254), and STAMP of the descriptor that the stored one came from. -/
  repeated : Bool := false
  stampReq : Bool := false
  bytes : Bytes
  lg : List Word
  stage : CopyStage
  /-- Header buffer of an encapsulated copy, or the output chain of an ESP operation. -/
  hdr : List Nat := []
  /-- It goes through a tunnel endpoint. -/
  encap : Bool := false
  /-- An encapsulated copy of a frame with an R-TAG: its bytes without the tag, should sequence recovery remove it (R221). -/
  bare : Option Bytes := none
  /-- It has given up its share of the frame's chain (R239). -/
  own : Bool := false
  /-- Owner of the copy's share and of its own buffers (R243). -/
  party : Nat := 96
  /-- Reference time of admission, ns, and the length its queue counts. -/
  admitted : Nat := 0
  /-- Bytes already sent of a preempted frame. -/
  sent : Nat := 0
  /-- Frame bytes lie outside the VLAN tags the copy leaves with: offset at which an R-TAG goes. -/
  tagEnd : Nat := 12
  /-- The resequencer has released it under R52 and does not hold it again. -/
  reseqDone : Bool := false
  /-- It has been counted in TMG_LATE_LAUNCH (R214). -/
  lateCounted : Bool := false
  /-- The injectors that have dealt with it: the port's, the function's (R377). -/
  injPort : Bool := false
  injFunc : Bool := false
  /-- It has counted as one that passes the function's receive injector (R379). -/
  passed : Bool := false
  /-- The bytes whose FCS it carries, where an injector has changed its own (R379). -/
  plain : Option Bytes := none
  /-- Bytes after which the store runs empty under it (R373). -/
  cutAt : Option Nat := none
  deriving DecidableEq, Repr

/-! ## Traffic manager (R210 to R230) -/

/-- A gate list with its parameters (R222). -/
structure GateList where
  /-- (INTERVAL, OP, GATES). -/
  entries : List (Nat × Nat × Nat)
  base : Nat
  cycle : Nat
  ext : Nat
  init : Nat
  /-- T in ns and N (R223). -/
  t : Nat
  n : Nat
  deriving DecidableEq, Repr

/-- The gates of a port. -/
structure GatePort where
  oper : Option GateList := none
  pending : Option GateList := none
  /-- Gates held between the acceptance of a first list and its T (R224). -/
  hold : Option Nat := none
  /-- Operational cycles started, and the present cycle of the list counted from its T. -/
  started : Nat := 0
  cycle : Nat := 0
  /-- Index of the entry whose change was applied last. -/
  entry : Nat := 0
  gates : Nat := 0xFF
  /-- SET_AND_HOLD is in force (R229). -/
  holding : Bool := false
  deriving DecidableEq, Repr

/-- A stream filter and its counts (R217, R218). -/
structure Filter where
  w0 : Word
  w1 : Word
  blocked : Bool := false
  matched : Nat := 0
  passed : Nat := 0
  oversize : Nat := 0
  meterDrops : Nat := 0
  deriving DecidableEq, Repr

/-- A meter (R219); token counts in units of 1/256 byte / 8,000,000 (exact at kb/s and ns). -/
structure Meter where
  cir : Nat
  eir : Nat
  w2 : Word
  w3 : Word
  tc : Nat
  te : Nat
  last : Stamp
  deriving DecidableEq, Repr

/-- An IEEE 802.1CB stream (R220, R221). -/
structure CbStream where
  w0 : Word
  w1 : Word
  nextSeq : Nat := 0
  recov : Nat := 0
  history : Nat := 0
  takeAny : Bool := true
  tagless : Nat := 0
  rogue : Nat := 0
  discarded : Nat := 0
  outOfOrder : Nat := 0
  resets : Nat := 0
  /-- Reference time of the last pass, ns, once a frame has passed. -/
  lastPass : Option Nat := none
  deriving DecidableEq, Repr

/-- The line time still to come, in 1/25,600 ns, of an attached frame that is on the line or that preemption has set aside: what
comes before its bytes, its bytes, and what follows them (R215). -/
structure ShapedFrame where
  copy : Nat
  pre : Nat
  body : Nat
  gap : Nat
  deriving DecidableEq, Repr

/-- A shaper (R215): credit in units of 1/204,800,000 byte, in which a rate in Mb/s is as many units per 1/25,600 ns, and the
attached frames that have gone onto the line, in their order. -/
structure Shaper where
  credit : Int := 0
  frames : List ShapedFrame := []
  deriving DecidableEq, Repr

/-- What a line is sending: copy, start and end of its bytes in 1/25,600 ns of reference time, and frame bytes sent in earlier
fragments. -/
structure OnLine where
  copy : Nat
  began : Nat
  ends : Nat
  before : Nat
  deriving DecidableEq, Repr

/-- The line of a port. Planned times are Meridian times in units of 1/25,600 ns, in which every byte time of R359 is whole. -/
structure Line where
  busy : Option OnLine := none
  /-- The preempted copy and bytes of it already sent. -/
  aside : Option (Nat × Nat) := none
  /-- Reference time, in 1/25,600 ns, at which the interframe gap ends. -/
  idleAt : Nat := 0
  /-- Planned time at which the line becomes free, after frames of either kind and after express frames (R212). -/
  tFree : Nat := 0
  tFreeX : Nat := 0
  deriving DecidableEq, Repr

/-- The traffic manager. -/
structure Tm where
  queues : Tbl (List Nat) := ⟨[]⟩
  /-- Deficits of queues, and of groups keyed 8 · group + class. -/
  qDef : Tbl Nat := ⟨[]⟩
  gDef : Tbl Nat := ⟨[]⟩
  /-- Member served last: groups keyed 8 · port + class, queues keyed 8 · group + class. -/
  gLast : Tbl Nat := ⟨[]⟩
  qLast : Tbl Nat := ⟨[]⟩
  shapers : Tbl Shaper := ⟨[]⟩
  lines : Tbl Line := ⟨[]⟩
  gates : Tbl GatePort := ⟨[]⟩
  filters : Tbl Filter := ⟨[]⟩
  meters : Tbl Meter := ⟨[]⟩
  cb : Tbl CbStream := ⟨[]⟩
  /-- Frames held by the resequencer per port: (copy, reference time at which MAX_WAIT ends, ns), longest held first. -/
  held : Tbl (List (Nat × Nat)) := ⟨[]⟩
  /-- Latest (stamp, IN_PORT) of each slot that has left a port, keyed 65,536 · port + slot. -/
  left : Tbl (Stamp × Nat) := ⟨[]⟩
  deriving DecidableEq, Repr

/-! ## Buffer pool manager (R235 to R243) -/

/-- Who waits for the outcome of a buffer request. -/
inductive BufFor where
  | frame (id : Nat)
  | copy (id : Nat)
  | lateGather (ctx tOpen : Nat)
  /-- A transmit descriptor: global queue pair and ring count. -/
  | descriptor (qp idx : Nat)
  | storage (conn : Nat)
  | cipher (core : Nat)
  /-- A reply frame of the control cluster, by its copy. -/
  | reply (copy : Nat)
  deriving DecidableEq, Repr

/-- A buffer request (R238 to R241). -/
structure BufReq where
  party : Nat
  len : Nat
  stamp : Stamp
  /-- Pool chosen first, and the pool the request has reached. -/
  first : Nat
  pool : Nat
  count : Nat
  /-- It waits for stamp order in that pool. -/
  waiting : Bool
  /-- It has reached the manager. -/
  arrived : Bool
  for_ : BufFor
  deriving DecidableEq, Repr

/-- A granted buffer: the party charged, and the last named owner of each share still held (R243). -/
structure Grant where
  charged : Nat
  owners : List Nat
  /-- The link to the next buffer of its chain (R236). -/
  next : Option Nat := none
  deriving DecidableEq, Repr

/-- The buffer pool manager. -/
structure Bpm where
  /-- Granted buffers by handle: pool · 2^30 + index. -/
  grants : Tbl Grant := ⟨[]⟩
  reqs : Tbl BufReq := ⟨[]⟩
  deriving DecidableEq, Repr

/-! ## What leaves the device -/

/-- How a register access ends (R415, R416, R419). -/
inductive Answer where
  | value (w : Word)
  /-- The write has been carried out, or posted and dropped. -/
  | done
  | unsupportedRequest
  | completerAbort
  /-- A control core's precise bus fault: DOMAIN_OFF. -/
  | faultOff
  /-- A control core's precise bus fault: RESERVED. -/
  | faultReserved
  /-- The debug unit's error status. -/
  | jtagError
  deriving DecidableEq, Repr

/-- What the device has put out, in order: the model's own record of its outputs (log entry 10). -/
inductive Out where
  /-- A write to host memory with the requester ID of function `f`, and whether it carries the Relaxed Ordering attribute. -/
  | hostWrite (f addr : Nat) (data : Bytes) (relaxed : Bool := false)
  /-- A read request to host memory. -/
  | hostRead (f addr len : Nat)
  /-- A TLS record of inner type `inner` delivered whole to the receive ring of a queue pair (R200, R278); the manual gives its
  content no address there (log entry 47). -/
  | rawRecord (qp conn inner : Nat) (content : Bytes)
  /-- An MSI-X message of a vector. -/
  | msix (f vec : Nat)
  /-- A frame begins to leave a port: the bytes that are sent, the FCS sent after them, stamp. -/
  | frame (port : Nat) (bytes : Bytes) (fcs : Word) (stamp : Stamp)
  /-- A frame on the line is cut short. -/
  | cutShort (port : Nat)
  /-- A flow-control frame: destination address, priority 0 to 7, or 8 for pause, and pause_time. -/
  | flowControl (port dest prio time : Nat)
  | answer (req : Requester) (a : Answer)
  /-- An SMBus Block Read. -/
  | smbRead (data : Bytes)
  /-- An SMBus command code that the device does not acknowledge. -/
  | smbNack
  /-- An edge of a time pin. -/
  | pin (n : Nat) (high : Bool) (stamp : Stamp)
  /-- PWR_WARN_N and THERMTRIP_N, true while asserted. -/
  | warnPin (asserted : Bool)
  | tripPin (asserted : Bool)
  /-- An error reported through AER of a function (R289). -/
  | aer (f : Nat)
  /-- A Translation Request, and an Invalidation Completion. -/
  | translate (f page : Nat)
  | invalidated (f tag : Nat)
  /-- A function-level reset has completed. -/
  | flrDone (f : Nat)
  /-- The link restarts auto-negotiation advertising a mode, which runs with an FEC in the encoding of R383. -/
  | negotiate (port mode fec : Nat)
  /-- The port runs the link training of a mode. -/
  | train (port mode : Nat)
  deriving DecidableEq, Repr

/-! ## DMA engine (R245 to R258) and host queue pairs (R296 to R305) -/

/-- What a burst is for. -/
inductive BurstFor where
  /-- Gathering a transmit frame: where the bytes go in it. -/
  | gather (qp idx pos : Nat)
  /-- A late-gather read of a context's window. -/
  | late (ctx : Nat) (tOpen pos : Nat)
  /-- Writing a copy into a receive descriptor's elements; `last` marks its last burst. -/
  | place (copy : Nat) (last : Bool)
  /-- A completion with its status, receive side when `rx`. -/
  | completion (qp status : Nat) (rx : Bool)
  | writeBack (qp : Nat) (rx : Bool)
  /-- An event-log entry, and any other write that has no consequence in the engine. -/
  | plain
  /-- A cancelled read: its completion is discarded; of a context's window when named (R254). -/
  | cancelled (late : Option (Nat × Nat))
  /-- The read that follows the zeroing of a failed TLS record (R201). -/
  | zeroRead (record : Nat)
  /-- Command data that the storage engine gathers for a connection, by PDU and place (R274). -/
  | storage (conn pdu pos : Nat)
  /-- Command data that it writes to host memory, by connection and command, and the record whose tag is still to be checked
  (R275, R277). -/
  | placed (conn cid : Nat) (record : Option Nat)
  /-- Zeros over what a failed TLS record has written (R201). -/
  | zero (record : Nat)
  deriving DecidableEq, Repr

/-- How bursts of a piece of work go: the channel and attributes that DMA_QP_CFG[n] gave when the work was fetched (R262, R263),
the queue pair and side whose order they keep, and their descriptor, with its BARRIER (R249). -/
structure Path where
  chan : Nat
  round : Bool := false
  relaxed : Bool := false
  queue : Option (Nat × Bool) := none
  desc : Option Nat := none
  barrier : Bool := false
  deriving DecidableEq, Repr

/-- One PCIe request waiting in a channel (R245). -/
structure Burst where
  path : Path
  fn : Nat
  /-- Generation of the function under which it was made (R315). -/
  gen : Nat
  write : Bool
  addr : Nat
  /-- Bytes to write, or how many to read. -/
  data : Bytes
  len : Nat
  for_ : BurstFor
  /-- Reads: whether the request has been issued and its completion is outstanding. -/
  issued : Bool := false
  /-- It has missed in the translation cache, and a Translation Request has been sent (R288). -/
  missed : Bool := false
  deriving DecidableEq, Repr

/-- A transmit or receive descriptor in the engine (R246, R298). -/
structure Desc where
  qp : Nat
  idx : Nat
  rx : Bool
  fn : Nat
  gen : Nat
  tag : Nat
  /-- Under which its bursts go, BARRIER of the descriptor with it. -/
  path : Path
  late : Bool
  stampReq : Bool
  total : Nat
  txTime : Nat
  /-- Elements (address, length), chain elements followed. -/
  elems : List (Nat × Nat)
  fetched : Stamp
  /-- Bytes gathered so far, in their places. -/
  got : Bytes := []
  /-- Data reads outstanding. -/
  reads : Nat := 0
  /-- Buffers granted for the frame. -/
  chain : List Nat := []
  /-- A late-gather window has taken it, or its frame has been handed on. -/
  taken : Bool := false
  /-- All its data is in the packet buffer; the frame waits for the descriptors before it. -/
  whole : Bool := false
  deriving DecidableEq, Repr

/-- Ring state of a queue pair beside its context (R297 to R303). -/
structure QpSt where
  txTail : Nat := 0
  rxTail : Nat := 0
  txFetched : Nat := 0
  rxFetched : Nat := 0
  /-- Completions written and consumed. -/
  txcTail : Nat := 0
  rxcTail : Nat := 0
  txcHead : Nat := 0
  rxcHead : Nat := 0
  /-- Reference time at which the holdoff of R305 ends, ns, and whether an interrupt waits, per side. -/
  txHold : Nat := 0
  rxHold : Nat := 0
  txWait : Bool := false
  rxWait : Bool := false
  deriving DecidableEq, Repr

/-- The open window of a late-gather context (R251 to R255). -/
structure LgWin where
  tOpen : Nat
  /-- Data deadline D in stamp units. -/
  deadline : Stamp
  /-- The descriptor taken, if one was ready. -/
  idx : Option Nat
  fn : Nat
  gen : Nat
  elems : List (Nat × Nat)
  tag : Nat
  total : Nat
  denied : Bool := false
  noBuffer : Bool := false
  got : Bytes := []
  /-- Reads not yet answered. -/
  reads : Nat := 0
  /-- The frame was written into the packet buffer in time. -/
  onTime : Bool := false
  /-- Buffers granted for it, and the party that owns them. -/
  chain : List Nat := []
  party : Nat := 32
  /-- The last of its read completions to arrive. -/
  arrived : Option Stamp := none
  /-- An element read has failed (R289). -/
  failed : Bool := false
  deriving DecidableEq, Repr

/-- An event-log entry whose lateness is not yet known (R255). -/
structure LgLog where
  tOpen : Nat
  deadline : Stamp
  outcome : Nat
  repeated : Bool
  qp : Nat
  cycle : Nat
  /-- Cancelled reads whose completions have still to come; with the last one the window's buffers are freed. -/
  reads : Nat
  chain : List Nat := []
  party : Nat := 32
  /-- The entry has been written, and only the buffers wait. -/
  written : Bool := false
  deriving DecidableEq, Repr

/-- Working state of a late-gather context. -/
structure LgCtx where
  wins : List LgWin := []
  /-- Opening of the last window dealt with, ns. -/
  lastOpen : Nat := 0
  /-- The stored copy of the last on-time frame: queue, bytes, legend, the share of its chain that the traffic manager keeps, and
  STAMP of its descriptor. -/
  stored : Option (Nat × Bytes × List Word × List Nat × Bool) := none
  repeats : Nat := 0
  logs : List LgLog := []
  deriving DecidableEq, Repr

/-- The DMA engine. -/
structure Dma where
  qps : Tbl QpSt := ⟨[]⟩
  /-- Descriptors in flight, keyed (2 · queue pair + side) · 2^32 + ring count. -/
  descs : Tbl Desc := ⟨[]⟩
  bursts : Tbl Burst := ⟨[]⟩
  /-- passed(c) of R245, reads keyed 2c and writes 2c + 1. -/
  passed : Tbl Nat := ⟨[]⟩
  /-- Channel served last at each priority, keyed 2 · PRIO + direction. -/
  lastAt : Tbl Nat := ⟨[]⟩
  ctxs : Tbl LgCtx := ⟨[]⟩
  /-- Address translations held: function and page to translated page (R288). -/
  atc : Tbl Nat := ⟨[]⟩
  /-- Pages whose translation ring and descriptor reads have asked for, by the keys of `atc`, and whether it was denied. -/
  asked : Tbl Bool := ⟨[]⟩
  /-- Invalidations being carried out: (function, tag, page). -/
  invals : List (Nat × Nat × Nat) := []
  /-- Copies handed over by the traffic manager, in order, with their local queue pairs (R304). -/
  handed : List (Nat × Nat) := []
  /-- Completions and write-backs issued in the last cycle that issued one: function, reference cycle, write (R60). -/
  posted : List (Nat × Nat × Out) := []
  deriving DecidableEq, Repr

/-! ## Storage engine (R266 to R284) -/

/-- An outstanding storage command (R267, R273). -/
structure StoCmd where
  cid : Nat
  /-- Under which its data is read, and placed and completed (R250, R262). -/
  txPath : Path
  rxPath : Path
  dir : Nat
  total : Nat
  elems : List (Nat × Nat)
  /-- Bytes placed or sent. -/
  placed : Nat := 0
  /-- A data digest has failed (R276). -/
  failed : Bool := false
  /-- R2Ts outstanding. -/
  r2ts : Nat := 0
  lastSeen : Bool := false
  /-- TLS records that have placed bytes of it (R277). -/
  records : List Nat := []
  /-- CQE, status and SYNTH of a command that is over but for a barrier that still holds its data back (R249, R279). -/
  ended : Option (Option (List Word) × Status × Bool) := none
  deriving DecidableEq, Repr

/-- A PDU that waits its turn in the byte stream (R273, R274): everything before its data, its data as read so far, and the data
reads outstanding. -/
structure StoPdu where
  num : Nat
  cid : Nat
  head : Bytes
  data : Bytes := []
  reads : Nat := 0
  /-- The last PDU of an R2T's range. -/
  r2tEnd : Bool := false
  deriving DecidableEq, Repr

/-- A segment that waits for a buffer (R271). -/
inductive SegReq where
  /-- So many stream bytes. -/
  | data (n : Nat)
  /-- An acknowledgement without data. -/
  | ack
  deriving DecidableEq, Repr

/-- State codes of R281. -/
inductive ConnState where
  | free | active | paused | returned
  deriving DecidableEq, Repr

/-- A connection context (R268 to R281). -/
structure Conn where
  state : ConnState := .active
  fn : Nat
  gen : Nat
  /-- The 144-byte record, 36 words. -/
  record : List Word
  sndNxt : Nat
  sndUna : Nat
  rcvNxt : Nat
  sndWnd : Nat
  /-- Congestion window and slow-start threshold in bytes (RFC 5681). -/
  cwnd : Nat
  ssthresh : Nat
  dupAcks : Nat := 0
  /-- Retransmission timeout in ns, consecutive timeouts, and the timer's end in reference ns. -/
  rto : Nat
  timeouts : Nat := 0
  rtoAt : Option Nat := none
  /-- Smoothed round-trip time and variance of RFC 6298, ns; the timed segment's end and its send time. -/
  srtt : Option Nat := none
  rttvar : Nat := 0
  timed : Option (Nat × Nat) := none
  /-- Full segments received and not yet acknowledged, and the delayed acknowledgement's end in reference ns. -/
  unacked : Nat := 0
  ackAt : Option Nat := none
  /-- Stream bytes queued and not yet sent. -/
  sendQ : Bytes := []
  /-- Segments sent and not yet acknowledged: sequence number, bytes, and the chain that holds them. -/
  segs : List (Nat × Bytes × List Nat) := []
  /-- Segments that wait for a buffer, whether a request is under way, and the retry time in reference ns (R271). -/
  want : List SegReq := []
  asking : Bool := false
  retryAt : Option Nat := none
  /-- PDUs that wait for their data, in stream order, and the number of the next. -/
  outQ : List StoPdu := []
  nextPdu : Nat := 0
  /-- Received stream bytes (plaintext) from the present PDU's first byte, how many of them have been verified, the stream
  position of the first, and the present PDU's data bytes placed. -/
  rxBytes : Bytes := []
  rxOk : Nat := 0
  rxPos : Nat := 0
  pduDone : Nat := 0
  /-- TLS bytes not yet taken as a whole record, and the receive record in the cipher engine. -/
  tlsBytes : Bytes := []
  rxRec : Option Nat := none
  /-- Transmit records in stream order. -/
  txRecs : List Nat := []
  /-- Outstanding commands by CID. -/
  cmds : Tbl StoCmd := ⟨[]⟩
  /-- Fatal error seen: nothing new is queued (R280). -/
  terminated : Bool := false
  /-- A record has failed its tag, and its bytes are being zeroed: the connection is lost when they are (R201, R277). -/
  failing : Bool := false
  txSlot : Nat
  rxSlot : Nat
  /-- A return under way: command number and reference-time limit (R281). -/
  returning : Option (Nat × Nat) := none
  retransmits : Nat := 0
  discards : Nat := 0
  deriving DecidableEq, Repr

/-- A TLS record on its way through the cipher engine (R199 to R201). -/
structure TlsRec where
  conn : Nat
  fn : Nat
  gen : Nat
  slot : Nat
  tx : Bool
  /-- Transmit: the content. Receive: the record as it came, with its header. -/
  bytes : Bytes
  /-- Inner content type; of a receive record once it is in a core. -/
  inner : Nat
  /-- Receive: stream position and length of its content, once it is in a core. -/
  pos : Nat := 0
  len : Nat := 0
  /-- Transmit: the protected record, once it is complete. -/
  out : Option Bytes := none
  /-- Host bytes that writes of the record have changed: (address, length). -/
  placed : List (Nat × Nat) := []
  /-- How its zeroing goes. -/
  path : Path := { chan := 0 }
  /-- The tag has failed and the zeroing read is outstanding. -/
  zeroing : Bool := false
  deriving DecidableEq, Repr

/-- The storage engine. -/
structure Sto where
  conns : Tbl Conn := ⟨[]⟩
  records : Tbl TlsRec := ⟨[]⟩
  nextRec : Nat := 0
  /-- Records that wait for room in the cipher engine's TLS queue: function and record (R184). -/
  waitQ : List (Nat × Nat) := []
  /-- Queue pair whose ring was served last (R267). -/
  lastRing : Nat := 0
  deriving DecidableEq, Repr

/-! ## Host interface (R285 to R311) and function manager (R313 to R329) -/

/-- An MSI-X vector: table entry and PBA bit. After reset its mask bit is 1, as PCIe states. -/
structure MsixVec where
  addr : Nat := 0
  data : Word := 0
  masked : Bool := true
  pending : Bool := false
  deriving DecidableEq, Repr

/-- The SR-IOV registers of a physical function (R286, R291 to R293): VF Enable, NumVFs, TotalVFs, VF stride, VF Device ID, and
the bases of VF BAR0 and VF BAR2. -/
structure SrIov where
  vfEnable : Bool := false
  numVfs : Nat := 0
  totalVfs : Nat := 255
  vfStride : Nat := 1
  vfDeviceId : Nat := 0x6409
  vfBar0 : Nat := 0
  vfBar2 : Nat := 0
  deriving DecidableEq, Repr

/-- What the configuration space of a function holds beside SR-IOV (R1, R286 to R293, R305): the identity in its header (the
Device ID is that of physical functions), the BARs, device power state, ATS Enable, MSI-X Enable and Function Mask, Max Payload
Size and Max Read Request Size in bytes, and what it reports of its capabilities: Max Payload Size Supported, ARI and No_Soft_Reset. No row of the table writes it but those for D3hot and resets (log entry 52). -/
structure FnCfg where
  classCode : Nat := 0x020000
  revision : Nat := 0xB0
  deviceId : Nat := 0x6408
  bar0 : Nat := 0
  bar2 : Nat := 0
  d3hot : Bool := false
  ats : Bool := false
  msixEnable : Bool := true
  msixMask : Bool := false
  maxPayload : Nat := 128
  maxRead : Nat := 512
  maxPayloadSupported : Nat := 512
  ari : Bool := true
  noSoftReset : Bool := true
  deriving DecidableEq, Repr

/-- Ring state of an administration queue (R306). -/
structure Aq where
  tail : Nat := 0
  fetched : Nat := 0
  written : Nat := 0
  head : Nat := 0
  deriving DecidableEq, Repr

/-- The host interface beside its registers. -/
structure Hif where
  sriov : Tbl SrIov := ⟨[]⟩
  cfg : Tbl FnCfg := ⟨[]⟩
  /-- Vectors, keyed 2048 · function + vector. -/
  msix : Tbl MsixVec := ⟨[]⟩
  aqs : Tbl Aq := ⟨[]⟩
  /-- Writes and messages of functions in D3hot or FROZEN that wait for their return, in order (R290, R323). -/
  deferred : List (Nat × Out) := []
  /-- Routing ID of the first physical function of each link, as its host has numbered the bus (R291). -/
  firstRid : Tbl Nat := ⟨[]⟩
  deriving DecidableEq, Repr

/-- A FUNCTION reset in progress (R317, R318). -/
structure FnReset where
  reason : Nat
  stamp : Stamp
  /-- Commands to answer at the end. -/
  cmds : List Nat
  /-- A function-level reset waits for completion. -/
  flr : Bool
  /-- Messages and posts discarded at G (R319). -/
  discarded : Nat := 0
  /-- A FUNC_RESTORE whose image is installed at the end: its command and the image (R326). -/
  restore : Option (Nat × Bytes) := none
  deriving DecidableEq, Repr

/-- A FREEZING or FROZEN function: Z, and the command that replies when it is FROZEN. -/
structure Freeze where
  z : Stamp
  cmd : Option Nat
  deriving DecidableEq, Repr

/-- The function manager beside its registers. -/
structure Fnc where
  resets : Tbl FnReset := ⟨[]⟩
  freezes : Tbl Freeze := ⟨[]⟩
  deriving DecidableEq, Repr

/-! ## Mailboxes and Vucel (R330 to R357) -/

/-- A mailbox message (R346, R349). -/
structure Msg where
  /-- 0 VUCEL, 1 USER. -/
  kind : Nat
  sender : Nat
  bytes : Bytes
  senderGen : Nat
  receiverGen : Nat
  stamp : Stamp
  /-- It occupies one of the 8 places for replies. -/
  replyPlace : Bool
  deriving DecidableEq, Repr

/-- A post in the holding store (R348). -/
structure HeldPost where
  sender : Nat
  receiver : Nat
  kind : Nat
  bytes : Bytes
  /-- Generations at the post. -/
  senderGen : Nat
  receiverGen : Nat
  deriving DecidableEq, Repr

/-- The mailbox unit beside the page registers. -/
structure Mbx where
  /-- Messages of each mailbox, in reading order. -/
  boxes : Tbl (List Msg) := ⟨[]⟩
  holding : List HeldPost := []
  deriving DecidableEq, Repr

/-- A command that has been accepted and not yet answered (R338, R471). -/
structure Accepted where
  cmd : Cmd
  opcode : Nat
  fn : Nat
  issuerGen : Nat
  fnGen : Nat
  stamp : Stamp
  /-- Ring position of an administration entry. -/
  ring : Nat
  /-- Source address, port, key and VID of a management frame. -/
  mgmt : Option (Nat × Nat × Nat × Nat)
  /-- It has had its turn and its effect has begun. -/
  started : Bool
  /-- It has passed its commit (R354, R471). -/
  committed : Bool
  deriving DecidableEq, Repr

/-- An authenticated management frame that waits for acceptance (R335). -/
structure MgmtCmd where
  port : Nat
  src : Nat
  key : Nat
  vid : Nat
  packet : Bytes
  deriving DecidableEq, Repr

/-- A frame in the slow path (R343 to R345). -/
structure SlowEnt where
  frame : Nat
  owner : Nat
  /-- Reference time at which SLOW_HOLD ends, ns. -/
  deadline : Nat
  deriving DecidableEq, Repr

/-- A firmware switch in progress (R353): reference time of S, the command, and whether S + 10 ms has been dealt with. -/
structure FwSwitch where
  start : Nat
  cmd : Nat
  stopped : Bool
  deriving DecidableEq, Repr

/-- The firmware's transports and slow path. -/
structure Vcl where
  /-- Accepted commands by number, in acceptance order. -/
  cmds : Tbl Accepted := ⟨[]⟩
  /-- Number of the next command. -/
  nextCmd : Nat := 1
  /-- The SMBus command not yet accepted, whether one is unreplied, and the reply not yet read. -/
  smb : Option Bytes := none
  smbBusy : Bool := false
  smbReply : Option Bytes := none
  mgmtQ : List MgmtCmd := []
  /-- Slow-path frames by handle. -/
  slow : Tbl SlowEnt := ⟨[]⟩
  nextHandle : Nat := 1
  /-- Thread faults since the last event of a function, and the reference time of that event, ns (R342). -/
  faults : Tbl (Nat × Option Nat) := ⟨[]⟩
  switch : Option FwSwitch := none
  /-- The firmware runs: false from a reset until BOOT. -/
  up : Bool := false
  /-- Version and digest of the running image. -/
  version : Word := 0
  digest : Bytes := []
  deriving DecidableEq, Repr

/-! ## Ports (R358 to R385) -/

/-- A stop of the transmitter or of a priority (R367, R368, R371). -/
structure Stop where
  /-- Reference times in ns: when it ends, and since when the transmitter has been stopped without a break. -/
  ends : Nat
  since : Nat
  /-- It has taken effect: no frame that began before it is on the line (R367). -/
  inForce : Bool := true
  deriving DecidableEq, Repr

/-- Working state of an injector (R378, R379). -/
structure Injector where
  /-- Frames seen since the FAULT_SET, and the seed of its generator (R378, R445). -/
  seen : Nat := 0
  seed : Nat := 0
  /-- Frames (receive side of a port) or copies held back: number, frames still to pass, end of the hold in reference ns. -/
  held : List (Nat × Nat × Nat) := []
  deriving DecidableEq, Repr

/-- A port's working state. -/
structure Port where
  /-- Stops by priority; 8 is the whole transmitter. -/
  stops : Tbl Stop := ⟨[]⟩
  /-- Ends of watchdog holdoffs by priority, reference ns. -/
  holdoffs : Tbl Nat := ⟨[]⟩
  /-- Priorities above XOFF for which flow control has been sent, with the reference time of the next refresh. -/
  sent : Tbl Nat := ⟨[]⟩
  /-- Bits received and sent in the present load interval, and its start in reference ns. -/
  bitsRx : Nat := 0
  bitsTx : Nat := 0
  interval : Nat := 0
  /-- Intervals in a row below DOWN_RATE; reference time of the last mode change; whether a return is asked for. -/
  quiet : Nat := 0
  modeSince : Nat := 0
  /-- A step waits for the partner since this reference time, ns. -/
  stepAt : Option Nat := none
  /-- No step before this reference time. -/
  noStep : Nat := 0
  /-- The link stays down until this reference time, ns, after a step or return (R376). -/
  downTill : Nat := 0
  /-- FEC of the running mode, in the encoding of R383 (R375). -/
  fec : Nat := 0
  /-- Flow-control frames that wait for their gap: pause_time by priority (R370). -/
  fcDue : Tbl Nat := ⟨[]⟩
  /-- A copy to the port has been dropped under R211 since the last interval. -/
  dropped : Bool := false
  deriving DecidableEq, Repr

/-- The port complex beside its registers. -/
structure Prt where
  ports : Tbl Port := ⟨[]⟩
  /-- Port injectors 2p + TX, and function injectors by function. -/
  portInj : Tbl Injector := ⟨[]⟩
  funcInj : Tbl Injector := ⟨[]⟩
  deriving DecidableEq, Repr

/-! ## Power and contour (R386 to R409) -/

/-- An island's demands and the level change under way (R393 to R400). -/
structure Island where
  load : Nat := 0
  pace : Nat := 0
  upPct : Nat := 100
  downPct : Nat := 0
  /-- Level sought and reason of the change; none when no change is in progress. -/
  target : Option (Nat × Nat) := none
  /-- The island is being powered up and its level is not yet confirmed. -/
  rising : Bool := false
  /-- Commands that reply when the level is confirmed. -/
  cmds : List Nat := []
  /-- A region whose reload has not ended (R403), with the reference time of the confirmation, ns. -/
  reload : Option Nat := none
  /-- A BLOCK, REGION or DEBUG reset of the block is in progress, with its command. -/
  resetting : Option (Option Nat) := none
  deriving DecidableEq, Repr

/-- A planned or present window demand (R397, R398). -/
structure WinDemand where
  port : Nat
  islands : Nat
  level : Nat
  /-- ns; a window that never closes has no end. -/
  opens : Nat
  closes : Option Nat
  tail : Nat
  late : Bool
  /-- It has been counted in PWR_CONTOUR_LATE. -/
  counted : Bool := false
  /-- Mask of the islands whose raise for it is not confirmed yet (R398). -/
  raising : Nat := 0
  deriving DecidableEq, Repr

/-- The power and contour manager beside its registers. -/
structure Pwr where
  islands : Tbl Island := ⟨[]⟩
  demands : List WinDemand := []
  trimLevel : Nat := 0
  dozeRegion : Nat := 0
  /-- Islands that ISLAND_POWER has turned off, against those a power state has. -/
  offByCmd : List Nat := []
  hotDies : List Nat := []
  /-- RESET_N is low, or a thermal trip holds the device in POWER_ON reset. -/
  resetN : Bool := false
  tripped : Bool := false
  /-- Rails at their reset level, which hold the package in POWER_ON reset (R389). -/
  railHold : List Nat := []
  /-- PWR_STATE_SET commands that reply on leaving a state. -/
  cmds : List Nat := []
  /-- PWR_WARN and PWR_WARN_CLEAR that the firmware still owes, as event code and rail, oldest first (R390). -/
  events : List (Nat × Nat) := []
  /-- The strap balls as the board ties them, open unless it does: PCIE_SPLIT and SMB_ADDR[1:0] (R450). -/
  pcieSplit : Bool := false
  smbAddr : Nat := 0
  /-- TRST_N is low, and holds the TAP in reset: no access comes from JTAG (R449; log entry 39). -/
  trstLow : Bool := false
  deriving DecidableEq, Repr

/-! ## Trust unit (R427 to R447) -/

/-- A word of the MRAM's control area: three copies, each none when it fails its ECC check past correction (R442, R443). -/
structure Triple where
  a : Option Nat := some 0
  b : Option Nat := some 0
  c : Option Nat := some 0
  deriving DecidableEq, Repr

/-- The two copies of a cartouche; the selector lies in the control area (R442). -/
structure TwoCopies where
  copyA : Bytes := []
  copyB : Bytes := []
  deriving DecidableEq, Repr

/-- A secret at rest under AES-256-GCM (R434). -/
structure Sealed where
  iv : Bytes
  text : Bytes
  tag : Bytes
  deriving DecidableEq, Repr

/-- The owner record in clear (R432): public key and wrapping key. -/
structure Owner where
  pub : Bytes
  wrap : Bytes
  deriving DecidableEq, Repr

/-- A management key at rest, and the integrity tag of its counters (R434). -/
structure MgmtSlot where
  key : Sealed
  mark : Sealed
  deriving DecidableEq, Repr

/-- A management key as the firmware works with it: its counters and their commits (R335, R336). -/
structure MgmtKey where
  key : Bytes
  high : Nat := 0
  reply : Nat := 0
  /-- Values committed to MRAM, in steps of 65,536. -/
  highKept : Nat := 0
  replyKept : Nat := 0
  deriving DecidableEq, Repr

/-- A node cache: the attestation key it belongs to, and its nodes (R438). -/
structure NodeCache where
  key : Nat
  nodes : List Bytes
  deriving DecidableEq, Repr

/-- The MRAM (R442), region by region. -/
structure Mram where
  /-- Control area, by word: 0 BOOT_SLOT, 1 MIN_SVN, 2 OWNER_SEQ, 3 the package cartouche's selector, 4 to 7 and 8 to 11 the counter
  commits of the management keys, from 16 the function cartouches' selectors, 64 a word (log entry 12). -/
  control : Tbl Triple := ⟨[]⟩
  /-- The signing index ring, 64 words of 64 bits (R436). -/
  ring : Tbl Nat := ⟨[]⟩
  /-- The keep-set: the two CONTOUR_SET words by island (R406). -/
  keepSet : Tbl (Word × Word) := ⟨[]⟩
  /-- The package cartouche, 1,024 bytes, and the function cartouches, 64 bytes, zeros when never written. -/
  cartouche : TwoCopies := {}
  fcartouches : Tbl TwoCopies := ⟨[]⟩
  /-- The owner record, encrypted. -/
  owner : Option Sealed := none
  /-- Management keys by KEY_ID, and migration domain keys by DOMAIN_ID, at most 4, encrypted. -/
  mgmtKeys : Tbl MgmtSlot := ⟨[]⟩
  domains : Tbl Sealed := ⟨[]⟩
  vendorCert : Bytes := Sys2Proof.vendorCert
  /-- Node caches of the key in use and of the next key: key k in place k modulo 2. -/
  caches : Tbl NodeCache := ⟨[(0, ⟨0, nodeCache 0⟩)]⟩
  /-- The firmware store, by byte: nothing in the manual reads or writes it. -/
  store : Tbl Byte := ⟨[]⟩
  /-- Words outside the control area that fail their ECC check past correction, by byte offset (R443). -/
  failed : Tbl Unit := ⟨[]⟩
  deriving DecidableEq, Repr

/-- The trust unit beside its registers. -/
structure Sec where
  mram : Mram := {}
  /-- SPI NOR slots A (0) and B (1) from their first byte; an unlisted byte is erased, 0xFF. -/
  nor : Tbl Bytes := ⟨[]⟩
  /-- Attestation tokens (R441): package bucket, function buckets by what is missing from 16, and reference times of the last gain. -/
  pkgTokens : Nat := 4096
  pkgAt : Nat := 0
  fnMissing : Tbl Nat := ⟨[]⟩
  fnAt : Tbl Nat := ⟨[]⟩
  /-- Reference time at which the buckets were filled, from which a function's first interval counts. -/
  fnFrom : Nat := 0
  /-- Working counters of the management keys by KEY_ID: the highest accepted COUNTER and the last reply's (R336). -/
  mgmtNow : Tbl (Nat × Nat) := ⟨[]⟩
  /-- Replies on the management VLAN that wait for an MRAM commit: source, port, key, VID, packet (R336, R390). -/
  mgmtHeld : List (Nat × Nat × Nat × Nat × Bytes) := []
  /-- Last report per transport, keyed as TRANSPORT codes it. -/
  reports : Tbl Bytes := ⟨[]⟩
  /-- ATTESTs that wait for SIGN_READY, a rail or a key (R437, R438). -/
  attests : List (Nat × Bool) := []
  /-- Key being generated (R438). -/
  keygen : Option Nat := none
  /-- Reference time of the last reseed of the DRBG, ns, and reseeds since reset. -/
  drbgAt : Nat := 0
  drbgCount : Nat := 0
  /-- Reference time of the last failed health test or start-up test of the TRNG, ns. -/
  trngAt : Nat := 0
  deriving DecidableEq, Repr

/-- The debug unit beside its registers: the reset ordered through DBG_RESET_CTRL, by block (R425). -/
structure Dbg where
  ordered : Option Nat := none
  deriving DecidableEq, Repr

/-- What the ECC of R15 counts; no register shows it, and the counts saturate at 32 bits (log entry 48). -/
structure EccCnt where
  /-- Corrected errors by die. -/
  corrected : Tbl Nat := ⟨[]⟩
  /-- Frames dropped for a buffer word that failed. -/
  frames : Nat := 0
  deriving DecidableEq, Repr

/-! ## The device -/

/-- The whole device but for the commands that wait. -/
structure Dev where
  mer : Mer := {}
  log : Logbook := {}
  pca : Pca := {}
  cls : Cls := {}
  tbl : TblEng := {}
  vsw : Vsw := {}
  cip : Cip := {}
  tm : Tm := {}
  bpm : Bpm := {}
  dma : Dma := {}
  sto : Sto := {}
  hif : Hif := {}
  fnc : Fnc := {}
  mbx : Mbx := {}
  vcl : Vcl := {}
  prt : Prt := {}
  pwr : Pwr := {}
  sec : Sec := {}
  dbg : Dbg := {}
  ecc : EccCnt := {}
  /-- Register words by `regKey`; an unlisted word holds its reset value. -/
  regs : Tbl Word := ⟨[]⟩
  /-- Words latched by a read of another word of their register (R30, R420). -/
  latch : Tbl Word := ⟨[]⟩
  frames : Tbl Frame := ⟨[]⟩
  copies : Tbl Copy := ⟨[]⟩
  /-- Number of the next frame and of the next copy. -/
  nextFrame : Nat := 0
  nextCopy : Nat := 0
  /-- The model's own draw counter for free values (log entry 2). -/
  fresh : Nat := 0
  out : List Out := []
  deriving DecidableEq, Repr

end Sys2Proof.Machine
end

