-- ==== Sys2Proof/Machine/Ops.lean ====
section
/-!
DEFINITION. The named operations every meaning is built from: register words and fields, saturating counters (R4), the
present time (R29), function numbers (R7, R291), free values, outputs, the logbook (R54 to R59, R468).
-/
namespace Sys2Proof.Machine

/-! ## Registers -/

/-- Words of one item of a function-page register lie together; a page holds `count` items. The key of item `i`, word `w`:
the address space of R410, and beyond it one page of 64 KiB per function (R412). Queue pair contexts are kept by global
queue pair, so that QP_ASSIGN moves the view and not the contents (R295). -/
def regKey (r : Reg) (i w : Nat) : Nat :=
  if r = .HIF_QP_CTX then 0x8000000 + 64 * i + 4 * w
  else if r.info.page then
    0x4000000 + 0x10000 * (i / r.info.count) + r.info.off + 4 * (r.info.words * (i % r.info.count) + w)
  else 0x100000 * r.info.window + r.info.off + 4 * (r.info.words * i + w)

/-- Word `w` of item `i` of a register as it is stored. -/
def Dev.rd (d : Dev) (r : Reg) (i : Nat := 0) (w : Nat := 0) : Word := d.regs.getD (regKey r i w) (r.reset i w)

/-- Stores a word; a word at its reset value is not listed. -/
def Dev.wr (d : Dev) (r : Reg) (i w : Nat) (v : Word) : Dev :=
  { d with regs := d.regs.putD (r.reset i w) (regKey r i w) v }

/-- A field of item `i`. -/
def Dev.get (d : Dev) (f : Field) (i : Nat := 0) : Nat := bitsOf (d.rd f.reg i f.word) f.hi f.lo

/-- A one-bit field of item `i`. -/
def Dev.on? (d : Dev) (f : Field) (i : Nat := 0) : Bool := d.get f i == 1

/-- Sets a field of item `i`. -/
def Dev.set (d : Dev) (f : Field) (i v : Nat) : Dev := d.wr f.reg i f.word (setBits (d.rd f.reg i f.word) f.hi f.lo v)

/-- Adds to a 32-bit counter that saturates at its maximum and stays there until read (R4, R419). -/
def Dev.bumpBy (d : Dev) (r : Reg) (i n : Nat) (w : Nat := 0) : Dev :=
  d.wr r i w (BitVec.ofNat 32 (min ((d.rd r i w).toNat + n) 0xFFFFFFFF))

/-- Adds 1 to a saturating counter. -/
def Dev.bump (d : Dev) (r : Reg) (i : Nat := 0) (w : Nat := 0) : Dev := d.bumpBy r i 1 w

/-- A number as a register word. -/
def toWord (n : Nat) : Word := BitVec.ofNat 32 n

/-! ## Time -/

/-- Counter units of 1/256 ns (see `Mer`). -/
def stampUnit : Nat := 16000000 * 2 ^ 40

/-- The present stamp (R29, R31). -/
def Dev.now (d : Dev) : Stamp := d.mer.acc / stampUnit % 2 ^ 72

/-- The present nanosecond count. -/
def Dev.nowNs (d : Dev) : Nat := nsOf d.now

/-- Reference time in ns since the power-on sequence, on which timers run. -/
def Dev.ref (d : Dev) : Nat := 2 * d.mer.refCycles

/-! ## Functions -/

/-- The physical function of a function number (R7). -/
def pfOf (f : Nat) : Nat := if f < 4 then f else (f - 4) / 255

/-- The VF number v of a virtual function, 1 to 255 (R291). -/
def vfOf (f : Nat) : Nat := (f - 4) % 255 + 1

/-- Function `f` exists (R291): a physical function, or a virtual one that NumVFs and VF Enable admit. -/
def Dev.exists? (d : Dev) (f : Nat) : Bool :=
  if f < 4 then true
  else if f < 1024 then
    let s := d.hif.sriov.getD (pfOf f) {}
    s.vfEnable && decide (vfOf f ≤ s.numVfs)
  else false

/-- The 16-bit generation of a function (R313). -/
def Dev.gen (d : Dev) (f : Nat) : Nat := d.get Fld.FNC_FUNC_STATE_GENERATION f

/-- STATE of R322. -/
def Dev.fnState (d : Dev) (f : Nat) : Nat := d.get Fld.FNC_FUNC_STATE_STATE f

/-- The 8-bit generation of a block (R320). -/
def Dev.blockGen (d : Dev) (b : Nat) : Nat := (d.rd .FNC_BLOCK_GEN b).toNat % 256

/-- BASE and COUNT of a function's queue pairs (R295). -/
def Dev.qpBase (d : Dev) (f : Nat) : Nat := bitsOf (d.rd .FNC_QP_MAP f) 13 0
def Dev.qpCount (d : Dev) (f : Nat) : Nat := bitsOf (d.rd .FNC_QP_MAP f) 31 24

/-- The function that holds a global queue pair. -/
def Dev.qpOwner (d : Dev) (q : Nat) : Option Nat :=
  let byDefault := q / 16
  if d.qpBase byDefault ≤ q && q < d.qpBase byDefault + d.qpCount byDefault then some byDefault
  else (List.range 1024).find? fun f => d.qpBase f ≤ q && q < d.qpBase f + d.qpCount f

/-! ## Free values and outputs -/

/-- Takes a number the manual leaves open, and moves the draw counter. -/
def Dev.drawNat (d : Dev) : Nat × Dev := (Config.freeNat d.fresh, { d with fresh := d.fresh + 1 })

/-- Takes a word the manual leaves open. -/
def Dev.drawWord (d : Dev) : Word × Dev := (Config.freeWord d.fresh, { d with fresh := d.fresh + 1 })

/-- Takes `n` bytes the manual leaves open. -/
def Dev.drawBytes (d : Dev) (n : Nat) : Bytes × Dev :=
  ((List.range n).map (Config.freeByte d.fresh), { d with fresh := d.fresh + 1 })

/-- Puts something out. -/
def Dev.emit (d : Dev) (o : Out) : Dev := { d with out := d.out ++ [o] }

/-- The bursts that carry `n` bytes at `addr`: at most `lim` each, none across a 4 KiB boundary (R245, R287). Those of a read stay
within `lim` when they are widened to whole units of `unit` bytes (R248). -/
def splitBursts (lim unit : Nat) : Nat → Nat → Nat → List (Nat × Nat)
  | 0, _, _ => []
  | fuel + 1, addr, n =>
    if n = 0 then []
    else
      let k := min (min n (max (lim - addr % unit) 1)) (4096 - addr % 4096)
      (addr, k) :: splitBursts lim unit fuel (addr + k) (n - k)

/-- Largest write and read of a function (R287). -/
def Dev.writeLimit (d : Dev) (f : Nat) : Nat := min 512 (d.hif.cfg.getD f {}).maxPayload
def Dev.readLimit (d : Dev) (f : Nat) : Nat := min 512 (d.hif.cfg.getD f {}).maxRead

/-! ## Translated addresses and the reads of rings and descriptors (R288) -/

/-- The page of an address, and the key of a translation. -/
def atcKey (f addr : Nat) : Nat := f * 2 ^ 52 + addr / 4096

/-- An address as a request of a function carries it. -/
def Dev.hostAddr (d : Dev) (f a : Nat) : Nat :=
  if (d.hif.cfg.getD f {}).ats then d.dma.atc.getD (atcKey f a) 0 * 4096 + a % 4096 else a

/-- The translation of an address is at hand, or none is needed. -/
def Dev.translated (d : Dev) (f a : Nat) : Bool := !(d.hif.cfg.getD f {}).ats || (d.dma.atc.look? (atcKey f a)).isSome

/-- Asks for the translation of a page, once for all that wait for it. -/
def Dev.askPage (d : Dev) (f page : Nat) : Dev :=
  let k := atcKey f (4096 * page)
  if d.dma.asked.look? k == some false || (d.dma.bursts.first? fun _ y => y.missed && atcKey y.fn y.addr == k).isSome then d
  else d.emit (.translate f page)

/-- Whether ranges that a function reads itself can be read: all their pages have their translations, or one is denied, or
one has still to come. -/
inductive Reach where
  | ready | denied | waits
  deriving DecidableEq, Repr

/-- The pages of ranges. -/
def pagesOf (l : List (Nat × Nat)) : List Nat :=
  l.flatMap fun r => (List.range ((r.1 + r.2 + 4095) / 4096 - r.1 / 4096)).map (r.1 / 4096 + ·)

/-- Looks the pages of ranges up; the first that misses is asked for. -/
def Dev.reachPages (d : Dev) (f : Nat) (l : List (Nat × Nat)) : Reach × Dev :=
  match (pagesOf l).find? fun p => !d.translated f (4096 * p) with
  | none => (.ready, d)
  | some p =>
    let k := atcKey f (4096 * p)
    let put (e : Dev) (t : Tbl Bool) : Dev := { e with dma := { e.dma with asked := t } }
    match d.dma.asked.look? k with
    | some true => (.denied, put d (d.dma.asked.erase k))
    | some false => (.waits, d)
    | none => (.waits, put (d.askPage f p) (d.dma.asked.put k false))

/-- Puts out the reads of ranges (R245, R287). -/
def Dev.putReads (d : Dev) (f : Nat) (l : List (Nat × Nat)) : Dev :=
  (l.flatMap fun r => splitBursts (d.readLimit f) 4 (r.2 + 1) r.1 r.2).foldl (fun x b => x.emit (.hostRead f (d.hostAddr f b.1) b.2)) d

/-! ## Writes, reads and messages of a function (R287 to R290) -/

/-- A host error (R289). -/
def Dev.hostError (d : Dev) (f : Nat) : Dev := (d.bump .HIF_HOST_ERR).emit (.aer f)

/-- Ring state of a global queue pair. -/
def Dev.qp (d : Dev) (q : Nat) : QpSt := d.dma.qps.getD q {}

/-- Replaces the ring state of a queue pair. -/
def Dev.setQp (d : Dev) (q : Nat) (s : QpSt) : Dev := { d with dma := { d.dma with qps := d.dma.qps.putD {} q s } }

/-- The holdoff state an interrupt of a side uses: one per vector of the queue pair (R305). -/
def Dev.irqSide (d : Dev) (q : Nat) (rx : Bool) : Bool := rx && d.get Fld.HIF_QP_CTX_TX_VEC q != d.get Fld.HIF_QP_CTX_RX_VEC q

/-- The message of a vector starts the holdoff of each side of a queue pair that uses the vector (R305). -/
def Dev.holdVector (d : Dev) (f vec : Nat) : Dev :=
  (List.range (d.qpCount f)).foldl (fun x i =>
    let q := d.qpBase f + i
    let ends := d.ref + 1000 * d.get Fld.HIF_QP_CTX_HOLDOFF q
    let s := x.qp q
    let s1 := if d.get Fld.HIF_QP_CTX_TX_VEC q = vec then { s with txHold := ends } else s
    let s2 := if d.get Fld.HIF_QP_CTX_RX_VEC q = vec && d.irqSide q true then { s1 with rxHold := ends } else s1
    if d.on? Fld.HIF_QP_CTX_IRQ_EN q then x.setQp q s2 else x) d

/-- The function issues nothing: in D3hot it issues no burst of its own, FROZEN has nothing written to its host memory
(R290, R323). -/
def Dev.silent (d : Dev) (f : Nat) : Bool := (d.hif.cfg.getD f {}).d3hot || d.fnState f == 3

/-- Writes and messages of a function go out in their order: each write under its translation, where ATS is on; one whose
translation is denied is a host error and is not made, and one whose translation has still to come waits, and all after it with
it (R288, R289). A message that has waited starts the holdoffs of its vector (R305). -/
def Dev.hostSend (f : Nat) : List Out → Dev → Dev
  | [], d => d
  | o :: rest, d =>
    match o with
    | .hostWrite _ a data r =>
      match d.reachPages f [(a, data.length)] with
      | (.ready, d1) => hostSend f rest (d1.emit (.hostWrite f (d1.hostAddr f a) data r))
      | (.denied, d1) => hostSend f rest (d1.hostError f)
      | (.waits, d1) => { d1 with hif := { d1.hif with deferred := d1.hif.deferred ++ (o :: rest).map fun x => (f, x) } }
    | .msix _ vec => hostSend f rest ((d.holdVector f vec).emit o)
    | _ => hostSend f rest (d.emit o)

/-- What waits of function `f` goes out. -/
def Dev.hostFlush (d : Dev) (f : Nat) : Dev :=
  if d.silent f then d
  else
    Dev.hostSend f ((d.hif.deferred.filter (·.1 == f)).map (·.2))
      { d with hif := { d.hif with deferred := d.hif.deferred.filter (·.1 != f) } }

/-- Puts out a write or message that function `f` makes of its own, after what waits of it. A message that waits already is not
sent twice. -/
def Dev.hostOut (d : Dev) (f : Nat) (o : Out) : Dev :=
  let waiting := d.hif.deferred.filter (·.1 == f)
  let later (e : Dev) : Dev := { e with hif := { e.hif with deferred := e.hif.deferred ++ [(f, o)] } }
  match o with
  | .msix _ _ => if waiting.contains (f, o) then d else if d.silent f || !waiting.isEmpty then later d else d.emit o
  | _ => if d.silent f || !waiting.isEmpty then later d else Dev.hostSend f [o] d

/-- Puts out the write of `data` at `addr` for function `f`. -/
def Dev.hostPut (d : Dev) (f addr : Nat) (data : Bytes) : Dev :=
  ((splitBursts (d.writeLimit f) 1 (data.length + 1) addr data.length).foldl (fun (acc : Dev × Nat) (b : Nat × Nat) =>
    (acc.1.hostOut f (.hostWrite f b.1 (slice data acc.2 b.2)), acc.2 + b.2)) (d, 0)).1

/-- Ranges that a function reads for itself can be read now: it issues bursts, and the pages have their translations (R288, R290). -/
def Dev.ownReach (d : Dev) (f : Nat) (l : List (Nat × Nat)) : Reach × Dev :=
  if d.silent f then (.waits, d) else d.reachPages f l

/-! ## The logbook -/

/-- Records that the ring or the trace holds (R58). -/
def Dev.logSize (d : Dev) : Nat :=
  if d.on? Fld.DBG_LOG_CTRL_TO_HOST then 2 ^ clampTo 16 30 (d.get Fld.DBG_LOG_HOST_SIZE_LOG2_SIZE) / 32 else 32768

/-- Whether the next record finds room (R58, R423). -/
def Dev.logRoom (d : Dev) : Bool :=
  if d.on? Fld.DBG_LOG_CTRL_TO_HOST && !d.on? Fld.DBG_LOG_CTRL_WRAP then
    ((d.rd .DBG_LOG_WPTR).toNat + 1) % d.logSize != (d.rd .DBG_LOG_RPTR).toNat % d.logSize
  else true

/-- Writes one record into the trace or the host ring (R58). -/
def Dev.logPut (d : Dev) (rec : List Word) : Dev :=
  let p := (d.rd .DBG_LOG_WPTR).toNat % d.logSize
  let d1 := d.wr .DBG_LOG_WPTR 0 0 (toWord ((p + 1) % d.logSize))
  if d.on? Fld.DBG_LOG_CTRL_TO_HOST then
    d1.hostOut 0 (.hostWrite 0 ((d.rd .DBG_LOG_HOST_BASE 0 0).toNat + 2 ^ 32 * (d.rd .DBG_LOG_HOST_BASE 0 1).toNat + 32 * p)
      (wordBytes rec))
  else
    let filled := min (d.log.filled + 1) 32768
    let d2 : Dev := { d1 with log := { d1.log with trace := d1.log.trace.put p rec, filled := filled } }
    if !d.on? Fld.DBG_LOG_CTRL_WRAP && filled == 32768 then d2.set Fld.DBG_LOG_CTRL_STOPPED 0 1 else d2

/-- The eight words of a record (R54). -/
def logWords (stamp : Stamp) (cls src seq : Nat) (fn : Option (Nat × Nat)) (d0 d1 d2 : Word) : List Word :=
  stampWords stamp ++ [toWord (cls * 2 ^ 24 + src * 2 ^ 16 + seq % 2 ^ 16),
    (match fn with
     | some (f, g) => toWord (f * 2 ^ 22 + 2 ^ 21 + g)
     | none => 0), d0, d1, d2]

/-- Advances SEQ of a source and gives the number the record takes (R468). -/
def Dev.logSeq (d : Dev) (src : Nat) : Nat × Dev :=
  let n := d.log.seq.getD src 0
  (n, { d with log := { d.log with seq := d.log.seq.put src ((n + 1) % 65536) } })

/-- Whether a record is generated (R55, R59, R468); the logbook is off in STANDBY (R402, R415). -/
def Dev.logWanted (d : Dev) (cls : Nat) (fn : Option Nat) (forced : Bool) : Bool :=
  d.on? Fld.DBG_LOG_CTRL_ENABLE && d.get Fld.PWR_STAT_STATE != 3 &&
    (forced ||
      ((d.rd .DBG_LOG_CLASS_EN (cls / 32)).getLsbD (cls % 32) &&
        (!d.on? Fld.DBG_LOG_FUNC_FILTER_EN || fn == some (d.get Fld.DBG_LOG_FUNC_FILTER_FUNCTION))))

/-- Writes a record; one of class STOP_CLASS is the last, with STOP_EN (R58). -/
def Dev.logLast (d : Dev) (cls : Nat) (rec : List Word) : Dev :=
  let d1 := d.logPut rec
  if d.on? Fld.DBG_LOG_CTRL_STOP_EN && d.get Fld.DBG_LOG_CTRL_STOP_CLASS == cls then d1.set Fld.DBG_LOG_CTRL_STOPPED 0 1 else d1

/-- Accepts a generated record: written with a GAP record before it if records were dropped, dropped when there is no
room, neither while the logbook is stopped (R56, R58), be it by that GAP record. -/
def Dev.logAccept (d : Dev) (cls : Nat) (rec : List Word) : Dev :=
  if d.on? Fld.DBG_LOG_CTRL_STOPPED then d
  else if !d.logRoom then
    let d1 := d.bump .DBG_LOG_DROP
    { d1 with log := { d1.log with dropped := d1.log.dropped + 1 } }
  else
    let d1 :=
      if d.log.dropped == 0 then d
      else
        let (n, e) := d.logSeq 52
        let e := e.logLast 0xFF (logWords e.now 0xFF 52 n none (toWord d.log.dropped) 0 0)
        { e with log := { e.log with dropped := 0 } }
    if d1.on? Fld.DBG_LOG_CTRL_STOPPED then d1
    else if !d1.logRoom then
      let d2 := d1.bump .DBG_LOG_DROP
      { d2 with log := { d2.log with dropped := d2.log.dropped + 1 } }
    else d1.logLast cls rec

/-- Writes a record of class `cls` from source `src` about a function and generation (R55, R468). -/
def Dev.logGen (d : Dev) (cls src : Nat) (fn : Option (Nat × Nat)) (stamp : Stamp) (d0 d1 d2 : Word)
    (forced : Bool := false) : Dev :=
  if d.logWanted cls (fn.map (·.1)) forced then
    let (n, e) := d.logSeq src
    e.logAccept cls (logWords stamp cls src n fn d0 d1 d2)
  else d

/-- A record about function `fn` at its present generation. -/
def Dev.logAt (d : Dev) (cls src : Nat) (fn : Option Nat) (stamp : Stamp) (d0 d1 d2 : Word) (forced : Bool := false) : Dev :=
  d.logGen cls src (fn.map fun f => (f, d.gen f)) stamp d0 d1 d2 forced

/-- A record that carries the present stamp. -/
def Dev.logNow (d : Dev) (cls src : Nat) (fn : Option Nat) (d0 d1 d2 : Word) : Dev := d.logAt cls src fn d.now d0 d1 d2

/-! ## Power, reset and reach of a block -/

/-- The block of R320 is powered and its level is confirmed or was confirmed (R401). -/
def Dev.powered (d : Dev) (b : Nat) : Bool := d.on? Fld.PWR_ISLAND_STAT_ON b && !(d.pwr.islands.getD b {}).rising

/-- The block answers: powered, confirmed, and in no reset (R415). -/
def Dev.available (d : Dev) (b : Nat) : Bool := d.powered b && (d.pwr.islands.getD b {}).resetting.isNone

/-- The island is being brought up: requests on the ring wait for it (R401). -/
def Dev.rising (d : Dev) (b : Nat) : Bool := (d.pwr.islands.getD b {}).rising

/-- A region takes legends: powered and its reload has ended (R403). -/
def Dev.regionUp (d : Dev) (r : Nat) : Bool := d.available r && (d.pwr.islands.getD r {}).reload.isNone

/-- The rails are above their warning levels (R390). -/
def Dev.railsGood (d : Dev) : Bool := !d.on? Fld.PWR_STAT_WARN

/-- A port has an active gate list, from the acceptance of a GATE_SET that starts one (R225). -/
def Dev.gateActive (d : Dev) (p : Nat) : Bool :=
  (d.tm.gates.getD p {}).oper.isSome || (d.tm.gates.getD p {}).pending.isSome

/-- The device is held in POWER_ON reset: RESET_N is low, a die has tripped, or a rail is below its reset level (R388, R389, R391). -/
def Dev.inReset (d : Dev) : Bool := d.pwr.resetN || d.pwr.tripped || !d.pwr.railHold.isEmpty

end Sys2Proof.Machine
end

