-- ==== Sys2Proof/Machine/State.lean ====
section
/-!
DEFINITION. State: everything the manual gives the device (the blocks of `Machine/Blocks.lean`) and the queue of the
commands that wait, with the state after reset.
-/
namespace Sys2Proof.Machine

/-- No command of the device stops the machine: the manual gives every step an outcome. The one fault says that a
stored state is not one the device can hold; no meaning raises it (safe). -/
inductive Fault where
  | impossibleState
  deriving DecidableEq, Repr

/-- A command with no meaning in the model, by mnemonic (raised by an arm of `exec` that is not modelled; safe). -/
inductive Refusal where
  | notModelled (mnemonic : String)
  deriving DecidableEq, Repr

/-- The state of the machine: the device and the commands that wait, first in, first out. -/
structure State extends Dev where
  pending : List Instr := []
  deriving DecidableEq, Repr

/-- The machine after the power-on sequence of R388 and before the boot of R430 (log entry 41): every register at its
reset value, nothing in flight, no command waiting. -/
def State.reset : State := {}

end Sys2Proof.Machine
end

