-- ==== Sys2Proof/Machine/Exec.lean ====
section
/-!
DEFINITION. How a command or an event acts on State: on the device alone, never on the queue, and on a device held in
POWER_ON reset not at all (R388, R389, R391, R404), but for the pins, rails and sensors that hold or end that reset.
-/
namespace Sys2Proof.Machine

/-- Runs an operation on the device and leaves the queue as it is. -/
def State.onAlways (s : State) (f : Dev → Dev) : Host.Outcome State Fault Refusal := .next { s with toDev := f s.toDev }

/-- Runs an operation on a device that is out of reset; in reset nothing happens. -/
def State.on (s : State) (f : Dev → Dev) : Host.Outcome State Fault Refusal :=
  s.onAlways fun d => if d.inReset then d else f d

end Sys2Proof.Machine
end

