-- ==== Sys2Proof/Machine/MramOps.lean ====
section
/-!
DEFINITION. The MRAM (R434, R436, R442, R443): the control area in three copies, cartouches in two, secrets at rest, words that have
failed, and what the trust unit reads of them.
-/
namespace Sys2Proof.Machine

/-- Changes the trust unit's state, and the MRAM. -/
def Dev.setSec (d : Dev) (f : Sec → Sec) : Dev := { d with sec := f d.sec }
def Dev.setMram (d : Dev) (f : Mram → Mram) : Dev := d.setSec fun s => { s with mram := f s.mram }

/-! ## The control area (R442) -/

/-- The copies of a word that pass their check. -/
def Triple.votes (t : Triple) : List Nat := [t.a, t.b, t.c].filterMap id

/-- A read takes the majority. -/
def Triple.value (t : Triple) : Option Nat :=
  match t.votes.find? fun x => 2 ≤ t.votes.count x with
  | some x => some x
  | none => t.votes.head?

/-- A write writes the three copies. -/
def Triple.all (n : Nat) : Triple := ⟨some n, some n, some n⟩

/-- One copy fails its check. -/
def Triple.fail (t : Triple) (copy : Nat) : Triple :=
  match copy with
  | 0 => { t with a := none }
  | 1 => { t with b := none }
  | _ => { t with c := none }

/-- A word of the control area; what one reads as whose copies have all failed, the manual leaves open (log entry 12). -/
def Mram.word (m : Mram) (w : Nat) : Nat := ((m.control.getD w {}).value).getD (Config.lostWord w)
def Mram.setWord (m : Mram) (w n : Nat) : Mram := { m with control := m.control.putD {} w (Triple.all n) }

/-- A word of the control area has lost its three copies (R443). -/
def Mram.controlLost (m : Mram) : Bool := (m.control.first? fun _ t => t.votes.isEmpty).isSome

/-- The words that the manual names. -/
def Mram.bootSlot (m : Mram) : Nat := m.word 0 % 2
def Mram.minSvn (m : Mram) : Word := toWord (m.word 1)
def Mram.ownerSeq (m : Mram) : Word := toWord (m.word 2)

/-! ## Words outside the control area (R443) -/

/-- Words from byte `lo` up to byte `hi` are written anew. -/
def Mram.heal (m : Mram) (lo hi : Nat) : Mram := { m with failed := m.failed.keep fun a _ => !(decide (lo ≤ a) && decide (a < hi)) }

/-- A word from byte `lo` up to byte `hi` fails its ECC check past correction. -/
def Dev.mramBad (d : Dev) (lo hi : Nat) : Bool := (d.sec.mram.failed.first? fun a _ => lo ≤ a && a < hi).isSome

/-- An uncorrectable word is met: it is counted, and one of the control area whose three copies have failed sets MRAM_FAIL. A word
that is corrected is counted and written again. Copy c of word w of the control area lies at byte 24 w + 8 c (log entry 12). -/
def Dev.mramLose (d : Dev) (a : Nat) : Dev :=
  let d1 := d.bump .SEC_MRAM_UNCORR
  if a < 0x1000 then
    let d2 := d1.setMram fun m => { m with control := m.control.put (a / 24) ((m.control.getD (a / 24) {}).fail (a / 8 % 3)) }
    if d2.sec.mram.controlLost then d2.set Fld.SEC_STAT_MRAM_FAIL 0 1 else d2
  else d1.setMram fun m => { m with failed := m.failed.put a () }

/-! ## Secrets at rest (R434) -/

/-- What is sealed under the MRAM key with an initialisation vector, and what it holds. -/
def sealed (iv plain : Bytes) : Sealed :=
  let text := gcmSeal mramKey iv [] plain
  { iv := iv, text := text, tag := gcmTag mramKey iv [] text }
def Sealed.plain (s : Sealed) : Bytes := gcmOpen mramKey s.iv [] s.text

/-- Seals a secret; the manual leaves the initialisation vector open. -/
def Dev.seal (d : Dev) (plain : Bytes) : Sealed × Dev :=
  let (iv, d1) := d.drawBytes 12
  (sealed iv plain, d1)

/-! ## The owner record (R432, R443) -/

/-- An owner record is in force: none while the control area has failed. -/
def Dev.owned (d : Dev) : Bool := d.sec.mram.owner.isSome && !d.on? Fld.SEC_STAT_MRAM_FAIL

/-- The record's two keys, and their bytes. -/
def ownerOf (b : Bytes) : Owner := { pub := b.take 68, wrap := slice b 68 32 }
def Owner.bytes (o : Owner) : Bytes := o.pub ++ o.wrap
def Dev.owner? (d : Dev) : Option Owner :=
  if d.on? Fld.SEC_STAT_MRAM_FAIL then none else d.sec.mram.owner.map fun s => ownerOf s.plain

/-- Installs or removes the owner record together with OWNER_SEQ. -/
def Dev.setOwner (d : Dev) (o : Option Owner) : Dev :=
  let bump (m : Mram) : Mram := m.setWord 2 ((m.ownerSeq + 1).toNat)
  match o with
  | none => d.setMram fun m => bump { m with owner := none }
  | some w =>
    let (s, d1) := d.seal w.bytes
    d1.setMram fun m => bump { m with owner := some s }

/-! ## Management and domain keys (R328, R336) -/

/-- A migration domain's key. -/
def Dev.domainKey (d : Dev) (k : Nat) : Option Bytes := (d.sec.mram.domains.look? k).map (·.plain)

/-- A management key with its counters. -/
def Dev.mgmtKey (d : Dev) (kid : Nat) : Option MgmtKey :=
  (d.sec.mram.mgmtKeys.look? kid).map fun s =>
    { key := s.key.plain, high := (d.sec.mgmtNow.getD kid (0, 0)).1, reply := (d.sec.mgmtNow.getD kid (0, 0)).2,
      highKept := d.sec.mram.word (4 + kid), replyKept := d.sec.mram.word (8 + kid) }

/-- Counters of a key: the working ones, and with a new commit the words of the control area and their integrity tag. -/
def Dev.mgmtCount (d : Dev) (kid high reply highKept replyKept : Nat) : Dev :=
  let d1 := d.setSec fun s => { s with mgmtNow := s.mgmtNow.put kid (high, reply) }
  if d.sec.mram.word (4 + kid) = highKept && d.sec.mram.word (8 + kid) = replyKept then d1
  else
    let (mark, d2) := d1.seal (Config.counterTag kid highKept replyKept)
    d2.setMram fun m =>
      { (m.setWord (4 + kid) highKept).setWord (8 + kid) replyKept with
        mgmtKeys := m.mgmtKeys.modify kid fun s => { s with mark := mark } }

/-- Installs a management key, its counters 0, or removes it (R433). -/
def Dev.setMgmtKey (d : Dev) (kid : Nat) (key : Option Bytes) : Dev :=
  match key with
  | none => d.setMram fun m => { m with mgmtKeys := m.mgmtKeys.erase kid }
  | some b =>
    let (k, d1) := d.seal b
    let (mark, d2) := d1.seal (Config.counterTag kid 0 0)
    (d2.setMram fun m =>
      { (m.setWord (4 + kid) 0).setWord (8 + kid) 0 with mgmtKeys := m.mgmtKeys.put kid { key := k, mark := mark } }).setSec fun s =>
        { s with mgmtNow := s.mgmtNow.put kid (0, 0) }

/-- Working counters after a loss of power: above what was committed by a whole step (R336). -/
def Mram.countersAfterLoss (m : Mram) : Tbl (Nat × Nat) :=
  m.mgmtKeys.mapVals fun kid _ => (m.word (4 + kid) + 65536, m.word (8 + kid) + 65536)

/-- Installs or removes the key of a migration domain. -/
def Dev.setDomain (d : Dev) (dom : Nat) (key : Option Bytes) : Dev :=
  match key with
  | none => d.setMram fun m => { m with domains := m.domains.erase dom }
  | some b =>
    let (k, d1) := d.seal b
    d1.setMram fun m => { m with domains := m.domains.put dom k }

/-! ## Cartouches (R442, R444) -/

/-- The selectors: the second copy is in force. -/
def Mram.selector (m : Mram) : Bool := m.word 3 % 2 == 1
def Mram.fselector (m : Mram) (f : Nat) : Bool := (m.word (16 + f / 64)).testBit (f % 64)

/-- The copy that a selector names, and a write of the other. -/
def TwoCopies.now (c : TwoCopies) (useB : Bool) : Bytes := if useB then c.copyB else c.copyA
def TwoCopies.write (c : TwoCopies) (useB : Bool) (new : Bytes) : TwoCopies :=
  if useB then { c with copyA := new } else { c with copyB := new }

/-- The package cartouche, and a function's. -/
def Dev.cartouche (d : Dev) : Bytes := sized 1024 (d.sec.mram.cartouche.now d.sec.mram.selector)
def Dev.fcartouche (d : Dev) (f : Nat) : Bytes := sized 64 ((d.sec.mram.fcartouches.getD f {}).now (d.sec.mram.fselector f))

/-- Where the copy of a cartouche lies that a selector names. -/
def cartoucheAt (useB : Bool) : Nat := if useB then 0x1800 else 0x1400
def fcartoucheAt (f : Nat) (useB : Bool) : Nat := (if useB then 0x20000 else 0x10000) + 64 * f

/-- A write goes to the copy that the selector does not name; the selector then changes (R442). -/
def Mram.writeCartouche (m : Mram) (new : Bytes) : Mram :=
  let u := m.selector
  ({ m with cartouche := m.cartouche.write u new }.heal (cartoucheAt !u) (cartoucheAt (!u) + 1024)).setWord 3 (b2n !u)
def Mram.writeFcartouche (m : Mram) (f : Nat) (new : Bytes) : Mram :=
  let u := m.fselector f
  ({ m with fcartouches := m.fcartouches.put f ((m.fcartouches.getD f {}).write u new) }.heal (fcartoucheAt f !u)
    (fcartoucheAt f (!u) + 64)).setWord (16 + f / 64) (m.word (16 + f / 64) ^^^ 2 ^ (f % 64))

/-- Replaces a function cartouche. -/
def Dev.setFcartouche (d : Dev) (f : Nat) (new : Bytes) : Dev := d.setMram fun m => m.writeFcartouche f new

/-! ## The keep-set (R406) -/

/-- Where the record of an island lies, and a write of it. -/
def keepAt (b : Nat) : Nat := 0x1200 + 8 * b
def Mram.writeKeep (m : Mram) (b : Nat) (r : Option (Word × Word)) : Mram :=
  { m with keepSet := match r with
      | some w => m.keepSet.put b w
      | none => m.keepSet.erase b }.heal (keepAt b) (keepAt b + 8)

/-- The records that a reset applies: none of a failed control area, and none whose word has failed (R406, R443). -/
def Mram.keepNow (m : Mram) : List (Nat × (Word × Word)) :=
  if m.controlLost then [] else m.keepSet.cells.filter fun c => (m.failed.look? (keepAt c.1)).isNone

/-! ## Node caches (R438) -/

/-- Attestation keys generated: keys 0 to this number less 1. -/
def Mram.keysReady (m : Mram) : Nat := (m.caches.vals.map (·.key)).foldl max 0 + 1

/-- A key's node cache is written; the place is that of the key before the last. -/
def Mram.writeCache (m : Mram) (k : Nat) : Mram :=
  { m with caches := m.caches.put (k % 2) ⟨k, nodeCache k⟩ }.heal (0x30000 + 0x10000 * (k % 2)) (0x40000 + 0x10000 * (k % 2))

/-- A node of an attestation key's tree: of the cache from level 10 up, from the key's seeds below (R438). -/
def Mram.nodeOf (m : Mram) (k level i : Nat) : Bytes :=
  if level < 10 then attNode k level i else ((m.caches.look? (k % 2)).map (·.nodes)).getD [] |>.getD (cachePlace level i) []

end Sys2Proof.Machine
end

