-- ==== Sys2Proof/Machine/VucelOps.lean ====
section
/-!
DEFINITION. Interrupts (R305), mailbox delivery (R346, R349), and what every Vucel command shares: packets (R330), who may
issue what (R337), the checks before a command's own (R332), acceptance and order (R338, R471), replies (R339) and
events (R342).
-/
namespace Sys2Proof

/-- Header fields of a command packet (R330). -/
def Cmd.opcode (c : Cmd) : Nat := bitsOf (le32 c.packet 0) 31 16
def Cmd.flags (c : Cmd) : Nat := bitsOf (le32 c.packet 0) 15 0
def Cmd.isIndirect (c : Cmd) : Bool := (le32 c.packet 0).getLsbD 13
def Cmd.tag (c : Cmd) : Nat := bitsOf (le32 c.packet 4) 31 16
def Cmd.status (c : Cmd) : Nat := bitsOf (le32 c.packet 4) 15 0
def Cmd.fn (c : Cmd) : Nat := bitsOf (le32 c.packet 8) 31 22
def Cmd.length (c : Cmd) : Nat := bitsOf (le32 c.packet 8) 16 0
def Cmd.sequence (c : Cmd) : Word := le32 c.packet 12

/-- ADDR and LEN of an INDIRECT command (R331). -/
def Cmd.indirectAddr (c : Cmd) : Nat := le c.packet 32 8
def Cmd.indirectLen (c : Cmd) : Nat := le c.packet 40 4

/-- CMD_ADDR, REPLY_ADDR and REPLY_CAP of an administration entry (R306). -/
def Cmd.cmdAddr (c : Cmd) : Nat := le c.entry 0 8
def Cmd.replyAddr (c : Cmd) : Nat := le c.entry 0x10 8
def Cmd.replyCap (c : Cmd) : Nat := le c.entry 0x18 4

/-- Bytes that the firmware reads of its packet: CMD_LEN, at most 65,536. One below 32 carries no whole header, and is answered
BAD_LENGTH as a short carrier is (R306, R332). -/
def Cmd.carried (c : Cmd) : Nat := min (le c.entry 8 4) 65536

/-- TRANSPORT of a reply (R330). -/
def Transport.code : Transport → Nat
  | .admin => 0 | .mailbox => 1 | .smbus => 2 | .mgmt => 3

/-- The command came out of band (R337). -/
def Transport.oob : Transport → Bool
  | .smbus => true | .mgmt => true | _ => false

/-- Largest packet of a transport (R333). -/
def Transport.largest : Transport → Nat
  | .admin => 32 + 65504 | .mailbox => 256 | .smbus => 255 | .mgmt => 1024

end Sys2Proof

namespace Sys2Proof.Machine

/-! ## Interrupts -/

/-- Vectors of a function's MSI-X table (R286). -/
def msixCount (f : Nat) : Nat := if f < 4 then 2048 else 64

/-- Sends the MSI-X message of a vector, or sets its pending bit while it or its function is masked; a vector beyond the table, or
of a function whose MSI-X Enable is 0, sends nothing (R296, R305, R356). -/
def Dev.interrupt (d : Dev) (f vec : Nat) : Dev :=
  if vec < msixCount f && (d.hif.cfg.getD f {}).msixEnable then
    let v := d.hif.msix.getD (2048 * f + vec) {}
    if v.masked || (d.hif.cfg.getD f {}).msixMask then { d with hif := { d.hif with msix := d.hif.msix.putD {} (2048 * f + vec) { v with pending := true } } }
    else d.hostOut f (.msix f vec)
  else d

/-! ## Mailboxes -/

/-- The messages a mailbox holds, in reading order. -/
def Dev.box (d : Dev) (m : Nat) : List Msg := d.mbx.boxes.getD m []

/-- Replaces the messages of a mailbox. -/
def Dev.setBox (d : Dev) (m : Nat) (l : List Msg) : Dev :=
  { d with mbx := { d.mbx with boxes := d.mbx.boxes.putD [] m l } }

/-- Reading order: stamp order, then the lower sender (R349). -/
def insertMsg (m : Msg) : List Msg → List Msg
  | [] => [m]
  | x :: rest => if m.stamp < x.stamp || (m.stamp == x.stamp && m.sender < x.sender) then m :: x :: rest
    else x :: insertMsg m rest

/-- Messages in places of one kind. -/
def places (l : List Msg) (reply : Bool) : Nat := (l.filter fun m => m.replyPlace == reply).length

/-- Room for a message that is no reply (R346): 16 common places of a function mailbox, 8 unread of one sender in 1024. -/
def Dev.hasRoom (d : Dev) (sender receiver : Nat) : Bool :=
  if receiver < 1024 then places (d.box receiver) false < 16
  else if receiver = 1024 then ((d.box 1024).filter fun m => m.sender == sender).length < 8
  else true

/-- SENDER_GEN of a mailbox: a function's generation, or that of block 24 for an internal mailbox (R349). -/
def Dev.mbxGen (d : Dev) (m : Nat) : Nat := if m < 1024 then d.gen m else d.blockGen 24

/-- The MAILBOX record of a message or a ring (R349). -/
def Dev.logMail (d : Dev) (sender receiver sGen rGen len : Nat) (stamp : Stamp) : Dev :=
  let fn := if sender < 1024 then some (sender, sGen) else if receiver < 1024 then some (receiver, rGen) else none
  d.logGen 0x09 48 fn stamp (toWord sender) (toWord receiver) (toWord len)

/-- Puts a message into a mailbox and signals it (R349, R356). -/
def Dev.deliver (d : Dev) (receiver : Nat) (m : Msg) : Dev :=
  let d1 := d.setBox receiver (insertMsg m (d.box receiver))
  let d2 := d1.logMail m.sender receiver m.senderGen m.receiverGen m.bytes.length m.stamp
  if receiver < 1024 && d.on? Fld.MBX_CFG_MSG_IRQ_EN receiver then d2.interrupt receiver (d.get Fld.MBX_CFG_VEC receiver) else d2

/-- Delivers a message of the present moment. -/
def Dev.send (d : Dev) (sender receiver kind : Nat) (bytes : Bytes) (replyPlace : Bool) : Dev :=
  d.deliver receiver
    { kind := kind, sender := sender, bytes := bytes, senderGen := d.mbxGen sender, receiverGen := d.mbxGen receiver,
      stamp := d.now, replyPlace := replyPlace }

/-! ## Events -/

/-- The packet of an event (R330); TRANSPORT names the mailbox that carries it (log entry 23). -/
def eventPacket (opcode receiver : Nat) (stamp : Stamp) (params : Bytes) : Bytes :=
  wordBytes ([toWord (opcode * 2 ^ 16 + 2 ^ 14), 0, toWord (receiver * 2 ^ 22 + 2 ^ 20 + params.length), 0] ++ stampWords stamp ++ [0])
    ++ params

/-- Whether an event to a function finds its receiver and room (R342). -/
def Dev.eventFits (d : Dev) (f : Nat) : Bool := d.exists? f && d.hasRoom 1024 f

/-- Sends an event to a function's mailbox, or counts it lost (R342). -/
def Dev.event (d : Dev) (f opcode : Nat) (params : Bytes) : Dev :=
  if d.eventFits f then d.send 1024 f 0 (eventPacket opcode f d.now params) false
  else d.bump .MBX_EVT_LOST f

/-- Sends an event to every physical function. -/
def Dev.eventPfs (d : Dev) (opcode : Nat) (params : Bytes) : Dev :=
  [0, 1, 2, 3].foldl (fun e f => e.event f opcode params) d

/-! ## Packets -/

/-- The encoding of a status word (R340). -/
def Status.code : Status → Nat
  | .ok => 0 | .badOpcode => 1 | .badLength => 2 | .badParam => 3 | .badState => 4 | .denied => 5 | .notFound => 6
  | .tableFull => 7 | .sheetBusy => 8 | .insetBusy => 9 | .insetReject => 0xA | .authFail => 0xB | .poolEmpty => 0xC
  | .targetReset => 0xD | .domainOff => 0xE | .restarted => 0xF | .late => 0x10 | .hostErr => 0x11 | .digestErr => 0x12
  | .connLost => 0x13 | .busy => 0x14 | .verifyFail => 0x15

/-- Who may issue a command (R337). -/
inductive By where
  | f | p | p0
  deriving DecidableEq, Repr

/-- What the opcode tables fix about a command (R341). -/
structure OpInfo where
  by_ : By
  /-- Accepted out of band. -/
  oob : Bool := false
  /-- A command of physical functions that names a function. -/
  named : Bool := false
  /-- The length, for a layout whose length is fixed. -/
  len : Option Nat := none
  /-- The least and the greatest length, for a layout that states a range. -/
  range : Option (Nat × Nat) := none
  /-- Masks of the defined bits of the leading words; words beyond the list are not checked. -/
  masks : List Word := []
  deriving DecidableEq, Repr

/-- The opcode tables (R341); layouts of 0x0C, 0x0D and 0x0E are those of R381, R407, R439, R444, R432, R433, R445. -/
def opInfo : Nat → Option OpInfo
  | 0x0100 => some { by_ := .f, oob := true, len := some 0 }
  | 0x0101 => some { by_ := .f, oob := true, len := some 0 }
  | 0x0102 => some { by_ := .p0, len := some 20, masks := [0xC0000000] }
  | 0x0103 => some { by_ := .p0, len := some 4, masks := [0] }
  | 0x0104 => some { by_ := .p, oob := true, len := some 0 }
  | 0x0105 => some { by_ := .p0, len := some 0 }
  | 0x0201 => some { by_ := .p, len := some 8 }
  | 0x0202 => some { by_ := .p, len := some 8, masks := [0xFFFFFFFF, 0x3FF] }
  | 0x0203 => some { by_ := .p, len := some 4 }
  | 0x0204 => some { by_ := .p, len := some 12, masks := [0xFFFFFFFF, 0xFFFFFFFF, 0xFF] }
  | 0x0301 => some { by_ := .f }
  | 0x0302 => some { by_ := .f }
  | 0x0303 => some { by_ := .f, len := some 0 }
  | 0x0401 => some { by_ := .f, len := some 4, masks := [0xC0FFFFFF] }
  | 0x0402 => some { by_ := .f, len := some 20, masks := [0x80000007] }
  | 0x0403 => some { by_ := .f, len := some 4, masks := [0xFFFFFFFF] }
  | 0x0404 => some { by_ := .f, masks := [0xFFFFFFFF, 0] }
  | 0x0405 => some { by_ := .f }
  | 0x0406 => some { by_ := .f, len := some 0 }
  | 0x0407 => some { by_ := .f, len := some 0 }
  | 0x0501 => some { by_ := .p, len := some 16, masks := [0x3F, 0x1FFFFF, 0x1F] }
  | 0x0502 => some { by_ := .p, named := true, len := some 4, masks := [0x8000003F] }
  | 0x0503 => some { by_ := .f, len := some 36, masks := [0x3F] }
  | 0x0504 => some { by_ := .f, len := some 24, masks := [0x3F] }
  | 0x0505 => some { by_ := .f, len := some 24, masks := [0x3F] }
  | 0x0506 => some { by_ := .f, len := some 8, masks := [0xC000003F, 0x0FFF0000] }
  | 0x0507 => some { by_ := .f, len := some 28, masks := [0x800000FF] }
  | 0x0508 => some { by_ := .f, len := some 20, masks := [0x800000FF] }
  | 0x0509 => some { by_ := .f, len := some 20, masks := [0x80000000] }
  | 0x0601 => some { by_ := .p, len := some 304, masks := [0xCFFF0FFF, 0x3FFFF, 0x3FFFF] }
  | 0x0602 => some { by_ := .p, len := some 4, masks := [0xFFF] }
  | 0x0603 => some { by_ := .p, masks := [0x0FFF0FFF] }
  | 0x0604 => some { by_ := .p, len := some 4, masks := [0xFFF] }
  | 0x0605 => some { by_ := .p, len := some 132, masks := [0xFFF] }
  | 0x0606 => some { by_ := .p, len := some 4, masks := [0xFFF] }
  | 0x0607 => some { by_ := .p, named := true, len := some 8, masks := [0xFFFFFFFF, 0xFFFF0000] }
  | 0x0701 => some { by_ := .p, named := true, len := some 12, masks := [0x80000000, 0x3FFF, 0x7FFF] }
  | 0x0702 => some { by_ := .f, len := some 132, masks := [0x3FFF] }
  | 0x0703 => some { by_ := .f, len := some 4, masks := [0x3FFF] }
  | 0x0704 => some { by_ := .f, len := some 4, masks := [0x3FFF] }
  | 0x0705 => some { by_ := .p, len := some 12, masks := [0xF000001F] }
  | 0x0706 => some { by_ := .p, len := some 20, masks := [0x8000001F] }
  | 0x0707 => some { by_ := .p, len := some 8, masks := [0x1F, 0x3FFF] }
  | 0x0801 => some { by_ := .p, masks := [0x8000001F, 0x07FF00FF] }
  | 0x0802 => some { by_ := .p, len := some 20, masks := [0x1FFF] }
  | 0x0803 => some { by_ := .p, len := some 4, masks := [0x80001FFF] }
  | 0x0804 => some { by_ := .p, len := some 20, masks := [0x1FFF] }
  | 0x0805 => some { by_ := .p, len := some 12, masks := [0xFFF] }
  | 0x0806 => some { by_ := .p, len := some 4, masks := [0x80000FFF] }
  | 0x0901 => some { by_ := .f, len := some 16, masks := [0x80000007, 0xFFFFFFFF, 0xFFFFFFFF, 0xFFFFF] }
  | 0x0902 => some { by_ := .p, named := true, len := some 8, masks := [0x3FFF, 0x7F] }
  | 0x0903 => some { by_ := .p, named := true, len := some 4, masks := [3] }
  | 0x0A01 => some { by_ := .f, len := some 148, masks := [0x3FFF] }
  | 0x0A02 => some { by_ := .f, len := some 8, masks := [0x80003FFF] }
  | 0x0A03 => some { by_ := .f, len := some 8, masks := [0x80003FFF, 0x3FFF] }
  | 0x0A04 => some { by_ := .f, masks := [0x3FFF, 0x3FFF] }
  | 0x0A05 => some { by_ := .f, len := some 4, masks := [0x3FFF] }
  | 0x0B01 => some { by_ := .p, named := true, len := some 0 }
  | 0x0B02 => some { by_ := .p, named := true, len := some 0 }
  | 0x0B03 => some { by_ := .p, named := true, len := some 12 }
  | 0x0B04 => some { by_ := .p, named := true, len := some 12 }
  | 0x0B05 => some { by_ := .p, named := true, len := some 0 }
  | 0x0B06 => some { by_ := .p0, masks := [0x80000000] }
  | 0x1001 => some { by_ := .f, len := some 8, masks := [0xFFFFFFFF, 0x003F0003] }
  | 0x0C01 => some { by_ := .p, len := some 16, masks := [0x1F, 0x800003FF, 0xF0FFFFFF, 0x3FFF] }
  | 0x0C02 => some { by_ := .p, oob := true, len := some 4, masks := [0x1F] }
  | 0x0C03 => some { by_ := .f, len := some 16, masks := [0xFF3F03FF] }
  | 0x0C04 => some { by_ := .p, len := some 12, masks := [0x80000F1F] }
  | 0x0C05 => some { by_ := .p, len := some 8, masks := [0x1F] }
  | 0x0D01 => some { by_ := .p0, oob := true, len := some 8, masks := [0x8003771F, 0xFFFF] }
  | 0x0D02 => some { by_ := .p0, len := some 8 }
  | 0x0D03 => some { by_ := .p0, oob := true, len := some 4, masks := [0x733] }
  | 0x0D04 => some { by_ := .p0, oob := true, len := some 8, masks := [0x31F, 0] }
  | 0x0D05 => some { by_ := .p, oob := true, len := some 0 }
  | 0x0E01 => some { by_ := .f, oob := true, len := some 48, masks := [0xE0000000] }
  | 0x0E02 => some { by_ := .p0, oob := true, range := some (8, 1032), masks := [0x3FF] }
  | 0x0E03 => some { by_ := .p, named := true, len := some 68, masks := [0x3FF] }
  | 0x0E04 => some { by_ := .p0, range := some (8, 4104), masks := [0x80000000] }
  | 0x0E05 => some { by_ := .p0, range := some (8, 72), masks := [0x800000FF] }
  | 0x0E06 => some { by_ := .f, len := some 4, masks := [0x7F] }
  | _ => none

/-- The length that the counts inside the parameters require, before any padding to a multiple of 4 (R341). -/
def neededLen (opcode : Nat) (p : Bytes) : Nat :=
  match opcode with
  | 0x0301 => 16 + 8 * (le32 p 12).toNat
  | 0x0302 => 4 + 8 * (le32 p 0).toNat
  | 0x0404 => 8 + 32 * (le32 p 0).toNat
  | 0x0405 => 4 + 20 * (le32 p 0).toNat
  | 0x0603 => 8 + 2 * (le32 p 4).toNat
  | 0x0801 => 0x18 + 8 * bitsOf (le32 p 4) 26 16
  | 0x0A04 => 12 + (le32 p 8).toNat
  | 0x0B06 => 12 + (le32 p 8).toNat
  | 0x0E02 => 8 + (le32 p 4).toNat
  | 0x0E04 => 8 + (le32 p 4).toNat
  | 0x0E05 => 8 + (le32 p 4).toNat
  | _ => p.length

/-- The shortest parameters that hold every count of the layout. -/
def headLen (opcode : Nat) : Nat :=
  match opcode with
  | 0x0301 => 16 | 0x0302 => 4 | 0x0404 => 8 | 0x0405 => 4 | 0x0603 => 8 | 0x0801 => 0x18 | 0x0A04 => 12 | 0x0B06 => 12
  | 0x0E02 => 8 | 0x0E04 => 8 | 0x0E05 => 8 | _ => 0

/-- Step 6 of R332: the length agrees with the counts, exactly or rounded up to a multiple of 4 where the layout ends in
items of 1 or 2 bytes (R341). -/
def lengthFits (opcode : Nat) (p : Bytes) : Bool :=
  headLen opcode ≤ p.length &&
    (p.length == neededLen opcode p ||
      (opcode == 0x0603 || opcode == 0x0A04 || opcode == 0x0B06 || opcode == 0x0E02 || opcode == 0x0E04 || opcode == 0x0E05) &&
        p.length == (neededLen opcode p + 3) / 4 * 4)

/-- Reserved bits of a record of fixed layout inside the parameters, with the offset of each word: a default result (R121), an
endpoint (R172), a key (R188), a filter (R218), a meter (R219), a stream (R221), a connection (R268). An entry of R138 has none that
R154 refuses, and the records of RULE_ADD and RULE_DEL are checked as they are applied (R332). -/
def recordReserved : Nat → List (Nat × Word)
  | 0x0403 => [(0, 0x8)]
  | 0x0605 => [(4, 0x0000FC00), (8, 0xFF000000), (0x10, 0x00030000), (0x20, 0xFFFFFFFF)]
  | 0x0702 => [(4, 0x0001FC00), (0x20, 0x3FFFFFFF), (0x38, 0x0003FFFF), (0x3C, 0xFFFFFFFF), (0x40, 0xFFFFFFFF)]
  | 0x0802 => [(4, 0x00003C00), (8, 0xE000C000), (0xC, 0xFFFFFFFF), (0x10, 0xFFFFFFFF)]
  | 0x0804 => [(0xC, 0x07000000), (0x10, 0xFF000000)]
  | 0x0805 => [(4, 0x40FFFFFF), (8, 0x0000FFFF)]
  | 0x0A01 => [(4, 0x0F00C000), (8, 0x000000E0), (0x1C, 0x00FFE000), (0x24, 0xFFFE0000), (0x28, 0xFFFF0000), (0x2C, 0xFFFFC000),
      (0x30, 0xFFFFC000)]
  | _ => []

/-- Reserved bits of records inside the parameters are 0 (R332 step 7): the symbol map of INSET_LOAD, the records of INSET_BIND, the
entries of a gate list, the records of fixed layout; pad bytes of R341. -/
def recordsClean (opcode : Nat) (p : Bytes) : Bool :=
  match opcode with
  | 0x0301 => (List.range (le32 p 12).toNat).all fun i => le32 p (20 + 8 * i) &&& 0xFFFFFF00 == 0
  | 0x0302 => (List.range (le32 p 0).toNat).all fun i =>
      let w := le32 p (4 + 8 * i)
      let v := le32 p (8 + 8 * i)
      if bitsOf w 31 30 == 1 then w &&& 0x00FFF000 == 0 && v &&& 0xFFFF0000 == 0
      else if bitsOf w 31 30 == 2 then w &&& 0x00FC0000 == 0 && v == 0
      else true
  | 0x0601 => le32 p 0x10C &&& ~~~(0x1F#32) == 0
  | 0x0801 => (List.range (bitsOf (le32 p 4) 26 16)).all fun i => le32 p (0x1C + 8 * i) &&& 0xFFFFFC00 == 0
  | _ => (recordReserved opcode).all (fun r => le32 p r.1 &&& r.2 == 0) && (p.drop (neededLen opcode p)).all (· == 0)

/-- Step 7 of R332: no reserved bit of the parameters is 1. -/
def reservedClean (opcode : Nat) (info : OpInfo) (p : Bytes) : Bool :=
  ((List.range info.masks.length).all fun i => le32 p (4 * i) &&& ~~~(info.masks.getD i 0) == 0) && recordsClean opcode p

/-- Step 3 of R332: R337 lets the issuer use the opcode for FUNCTION. -/
def mayIssue (info : OpInfo) (c : Cmd) : Bool :=
  if c.via.oob then info.oob && c.fn == 0
  else
    match info.by_ with
    | .f => c.issuer == c.fn || (c.issuer < 4 && pfOf c.fn == c.issuer)
    | .p => c.issuer < 4 && (c.issuer == c.fn || (info.named && pfOf c.fn == c.issuer))
    | .p0 => c.issuer == 0 && c.fn == 0

/-- Step 3 of R332; in RECOVERY the boot ROM serves FW_STAGE and DEV_RESET over SMBus too (R430). -/
def Dev.mayIssueFor (d : Dev) (info : OpInfo) (c : Cmd) : Bool :=
  mayIssue info c ||
    (d.on? Fld.SEC_STAT_RECOVERY && c.via == .smbus && c.fn == 0 && (c.opcode == 0x0102 || c.opcode == 0x0105))

/-- The opcode tables allow a length of the parameters, as far as it does not depend on counts inside them (R332, R341). -/
def OpInfo.allows (info : OpInfo) (n : Nat) : Bool :=
  (match info.len with
   | some k => n == k
   | none => true) &&
  (match info.range with
   | some r => decide (r.1 ≤ n) && decide (n ≤ r.2)
   | none => true)

/-- Step 2 of R332: what the header and the carrier show of the length; `none` when it is right. -/
def headerLength (info : OpInfo) (c : Cmd) : Option Status :=
  if c.packet.length < 32 + c.length then some .badLength
  else if c.isIndirect then
    if c.via.oob then some .badParam
    else if c.length ≠ 16 || c.indirectLen > 65504 || !info.allows c.indirectLen then some .badLength
    else none
  else if 32 + c.length > c.via.largest || !info.allows c.length then some .badLength
  else none

/-- Steps 1 to 4 of R332, on the header and the carrier. -/
def Dev.vclHeader (d : Dev) (c : Cmd) : Except Status OpInfo :=
  match opInfo c.opcode with
  | none => .error .badOpcode
  | some info =>
    if bitN c.flags 15 || bitN c.flags 14 then .error .badOpcode
    else
      match headerLength info c with
      | some s => .error s
      | none =>
        if !d.mayIssueFor info c then .error .denied
        else if !d.exists? c.fn then .error .badParam
        else .ok info

/-- Steps 1 to 7 of R332: the parameters, or the status of the first check that fails. -/
def Dev.vclCheck (d : Dev) (c : Cmd) : Except Status Bytes :=
  match d.vclHeader c with
  | .error s => .error s
  | .ok info =>
    match (if c.isIndirect then c.indirect.map (sized c.indirectLen) else some ((c.packet.drop 32).take c.length)) with
    | none => .error .hostErr
    | some p =>
      if !lengthFits c.opcode p then .error .badLength
      else if !reservedClean c.opcode info p || c.flags % 2 ^ 13 ≠ 0 || c.status ≠ 0
          || bitsOf (le32 c.packet 8) 19 17 ≠ 0 || (c.isIndirect && le32 c.packet 44 ≠ 0) then .error .badParam
      else .ok p

/-! ## Acceptance -/

/-- Entries of an administration ring (R306). -/
def Dev.aqSize (d : Dev) (pf : Nat) : Nat := 2 ^ (min (d.get Fld.HIF_AQ_CFG_LOG2 pf) 8 + 4)

/-- Commands of a physical function's administration queue that are being processed (ACTIVE of R306). -/
def Dev.aqInFlight (d : Dev) (pf : Nat) : Nat := d.vcl.cmds.countP fun _ a => a.cmd.via == .admin && a.cmd.issuer == pf

/-- Takes the command from its transport, if the transport holds it next (R333, R338): the ring position of an
administration entry and the origin of a management frame beside the device. -/
def Dev.takeCmd (d : Dev) (c : Cmd) : Option (Nat × Option (Nat × Nat × Nat × Nat) × Dev) :=
  match c.via with
  | .admin =>
    let q := d.hif.aqs.getD c.issuer {}
    if c.issuer < 4 && d.on? Fld.HIF_AQ_CFG_ENABLE c.issuer && d.fnState c.issuer < 2 && q.fetched ≠ q.tail
        && c.packet.length = c.carried && (q.written + 2 ^ 32 - q.head) % 2 ^ 32 + d.aqInFlight c.issuer < d.aqSize c.issuer && !(d.hif.cfg.getD c.issuer {}).d3hot then
      some (q.fetched % d.aqSize c.issuer, none,
        { d with hif := { d.hif with aqs := d.hif.aqs.put c.issuer { q with fetched := (q.fetched + 1) % 2 ^ 32 } } })
    else none
  | .mailbox =>
    match d.box 1024 with
    | m :: rest => if m.kind = 0 && m.sender = c.issuer && m.bytes = c.packet then some (0, none, d.setBox 1024 rest) else none
    | [] => none
  | .smbus =>
    if d.vcl.smb = some c.packet && c.issuer = 0 then some (0, none, { d with vcl := { d.vcl with smb := none } }) else none
  | .mgmt =>
    match d.vcl.mgmtQ with
    | m :: rest =>
      if m.packet = c.packet && c.issuer = 0 then
        some (0, some (m.src, m.port, m.key, m.vid), { d with vcl := { d.vcl with mgmtQ := rest } })
      else none
    | [] => none

/-- The firmware, or in RECOVERY the boot ROM, runs: its island is awake (R402, R430). -/
def Dev.runs (d : Dev) : Bool := d.available 12 && !d.inReset && (d.on? Fld.SEC_STAT_RECOVERY || d.vcl.up)

/-- It accepts commands: no switch is under way (R353). -/
def Dev.accepts (d : Dev) (_ : Cmd) : Bool := d.runs && d.vcl.switch.isNone

/-- What the boot ROM serves in RECOVERY; every other command replies BAD_STATE (R430). -/
def romServes (c : Cmd) : Bool :=
  (c.via == .smbus || (c.via == .admin && c.issuer == 0)) &&
    (c.opcode == 0x0100 || c.opcode == 0x0101 || c.opcode == 0x0102 || c.opcode == 0x0104 || c.opcode == 0x0105)

/-- Subjects that run one command at a time across all functions (R338). -/
def packageSubject (hi : Nat) : Bool := hi == 1 || hi == 2 || hi == 6 || hi == 8 || hi == 0xC || hi == 0xD

/-- The parameters of an accepted command. -/
def Accepted.params (a : Accepted) : Bytes :=
  if a.cmd.isIndirect then a.cmd.indirect.getD [] else (a.cmd.packet.drop 32).take a.cmd.length

/-- The function whose cartouche an FCARTOUCHE_WRITE writes (R444). -/
def Accepted.writesCartouche (a : Accepted) : Option Nat := if a.opcode = 0x0E03 then some (bitsOf (le32 a.params 0) 9 0) else none

/-- Two commands run one after the other (R338); two writes of one cartouche whatever functions their headers name (R444). -/
def sameTurn (a b : Accepted) : Bool :=
  a.opcode / 256 == b.opcode / 256 &&
    (packageSubject (a.opcode / 256) || a.fn == b.fn || (a.writesCartouche.isSome && a.writesCartouche == b.writesCartouche))

/-- The command has its turn: nothing accepted before it is in its way, and its function is not RESETTING, unless it is a
FUNC_RESET, which joins (R338, R471, R318). -/
def Dev.hasTurn (d : Dev) (n : Nat) (a : Accepted) : Bool :=
  if a.opcode == 0x0B01 && d.fnState a.fn == 1 then true
  else d.fnState a.fn ≠ 1 && (d.vcl.cmds.first? fun m b => m < n && sameTurn a b).isNone

/-- The memory that taking a command reads: the entry and packet of an administration queue, and the parameters of an INDIRECT
command whose header passes (R306, R331, R332). -/
def Dev.cmdRanges (d : Dev) (c : Cmd) : List (Nat × Nat) × List (Nat × Nat) :=
  let q := d.hif.aqs.getD c.issuer {}
  let ring := (d.rd .HIF_AQ_CFG c.issuer 2).toNat + 2 ^ 32 * (d.rd .HIF_AQ_CFG c.issuer 3).toNat
  (if c.via == .admin then [(ring + 32 * (q.fetched % d.aqSize c.issuer), 32), (c.cmdAddr, c.packet.length)] else [],
   match (if c.isIndirect then d.vclHeader c else .error .badOpcode) with
   | .ok _ => [(c.indirectAddr, c.indirectLen)]
   | .error _ => [])

/-- A command accepted earlier that still waits for its turn, or the command taken from its transport, which reads the memory it
needs, stamped, counted and recorded (R338, R357, R55). -/
def Dev.accept (d : Dev) (c : Cmd) : Option (Nat × Accepted × Dev) :=
  match d.vcl.cmds.first? fun _ a => a.cmd == c && !a.started with
  | some (n, a) => some (n, a, d)
  | none =>
    match d.takeCmd c with
    | none => none
    | some (ring, mgmt, d1) =>
      let n := d1.vcl.nextCmd
      let a : Accepted :=
        { cmd := c, opcode := c.opcode, fn := c.fn, issuerGen := d.gen c.issuer, fnGen := d.gen c.fn, stamp := d.now,
          ring := ring, mgmt := mgmt, started := false, committed := false }
      let d2 : Dev := { d1.putReads c.issuer (d.cmdRanges c).1 with vcl := { d1.vcl with cmds := d1.vcl.cmds.put n a, nextCmd := n + 1 } }
      some (n, a, ((d2.bump .VCL_CMD_COUNT).logNow 0x07 25 (some c.fn) (toWord c.opcode) (toWord c.tag) 0).putReads c.issuer
        (if (pagesOf (d.cmdRanges c).2).all fun p => d.translated c.issuer (4096 * p) then (d.cmdRanges c).2 else []))

/-! ## Replies -/

/-- The reply packet (R330). -/
def replyPacket (a : Accepted) (now : Stamp) (st : Status) (params : Bytes) : Bytes :=
  wordBytes ([toWord (a.opcode * 2 ^ 16 + 2 ^ 15), toWord (a.cmd.tag * 2 ^ 16 + st.code),
    toWord (a.fn * 2 ^ 22 + a.cmd.via.code * 2 ^ 20 + params.length), a.cmd.sequence] ++ stampWords now
    ++ [toWord (min ((now - a.stamp) / 256) 0xFFFFFFFF)]) ++ params

/-- Completes an entry of an administration queue: the completion, the write-back and the interrupt (R306). -/
def Dev.aqComplete (d : Dev) (f ring : Nat) (st : Status) (len : Nat) : Dev :=
  let q := d.hif.aqs.getD f {}
  let base (w : Nat) : Nat := (d.rd .HIF_AQ_CFG f w).toNat + 2 ^ 32 * (d.rd .HIF_AQ_CFG f (w + 1)).toNat
  let d1 := d.hostPut f (base 4 + 16 * (q.written % d.aqSize f)) (wordBytes [toWord ring, toWord st.code, toWord len, 0])
  let d2 := d1.hostPut f (base 6) (bytesLE 4 (q.written + 1))
  let d3 : Dev := { d2 with hif := { d2.hif with aqs := d2.hif.aqs.put f { q with written := (q.written + 1) % 2 ^ 32 } } }
  d3.interrupt f (d.get Fld.HIF_AQ_CFG_VEC f)

/-- Posts a packet through the administration queue: the reply, then the entry's completion (R306). -/
def Dev.replyAdmin (d : Dev) (a : Accepted) (pkt : Bytes) (st : Status) : Dev :=
  (d.hostPut a.cmd.issuer a.cmd.replyAddr (pkt.take a.cmd.replyCap)).aqComplete a.cmd.issuer a.ring st pkt.length

/-- Posts a packet into the issuer's mailbox: into a place for replies, or with all 8 taken into one of the 16 common ones; a reply
that finds neither is lost (R346; log entry 26). -/
def Dev.replyMail (d : Dev) (f : Nat) (pkt : Bytes) : Dev :=
  let p := (padTo pkt ((pkt.length + 3) / 4 * 4)).take 256
  if places (d.box f) true < 8 then d.send 1024 f 0 p true
  else if places (d.box f) false < 16 then d.send 1024 f 0 p false
  else d

/-- The pool chosen for a length, and how many of its buffers (R238). -/
def poolFor (len : Nat) : Nat × Nat :=
  if len ≤ 256 then (0, 1) else if len ≤ 2048 then (1, 1) else if len ≤ 10240 then (2, 1)
  else (3, if len ≤ 65536 then 1 else ceilDiv len 65536)

/-- Issues a buffer request (R39, R238). -/
def Dev.askBuffers (d : Dev) (party len : Nat) (who : BufFor) : Dev :=
  let (pool, k) := poolFor len
  let r : BufReq := { party := party, len := len, stamp := d.now, first := pool, pool := pool, count := k, waiting := false,
                      arrived := false, for_ := who }
  { d with bpm := { d.bpm with reqs := d.bpm.reqs.put d.bpm.reqs.nextKey r } }

/-- A frame of the firmware's own to a port, with buffers of party 99, admitted to
its DEF_QUEUE by the traffic manager next (R242, R336; log entry 36). -/
def Dev.sendFrame (d : Dev) (port : Nat) (bytes : Bytes) : Dev :=
  let lg : List Word := [toWord d.now, toWord (d.now / 2 ^ 32 % 2 ^ 24), toWord (d.gen 0), toWord (25 * 2 ^ 17 + bytes.length),
    toWord (d.get Fld.TMG_PORT_CFG_DEF_QUEUE port * 2 ^ 6), 0, 0, 0, 0, 0x0000FFFF, 0, 0, 0, 0, 0, 0]
  let f : Frame := { inPort := 25, stamp := d.now, bytes := bytes, lg := lg, stage := .copied, gen := d.gen 0, filtered := true,
                     party := 99, since := d.ref }
  let c : Copy := { frame := d.nextFrame, dest := port, bytes := bytes, lg := lg, stage := .buffers, reseqDone := true, party := 99 }
  ({ d with frames := d.frames.put d.nextFrame f, nextFrame := d.nextFrame + 1, copies := d.copies.put d.nextCopy c,
            nextCopy := d.nextCopy + 1 } : Dev).askBuffers 99 bytes.length (.reply d.nextCopy)

/-- The commit that a reply counter needs (R336). -/
def MgmtKey.replyCommit (k : MgmtKey) : Nat := if k.reply + 1 > k.replyKept + 65536 then k.replyKept + 65536 else k.replyKept

/-- Sends a reply frame on the management VLAN (R335, R336): by the port of the request, with a counter of its own, and the
tag over the frame. -/
def Dev.sendMgmt (d : Dev) (src port key vid : Nat) (pkt : Bytes) : Dev :=
  match d.mgmtKey key with
  | none => d
  | some k =>
    let ctr := k.reply + 1
    let mac := (d.rd .VCL_MGMT_MAC_HI).toNat * 2 ^ 16 + bitsOf (d.rd .VCL_MGMT_MAC_LO) 31 16
    let head := bytesBE 6 src ++ bytesBE 6 mac ++ bytesBE 2 0x8100 ++ bytesBE 2 vid
      ++ bytesBE 2 0x88B5 ++ bytesLE 4 (0x01000000 + key) ++ bytesBE 8 ctr ++ pkt.take 1024
    let tag := gcmTag k.key ([1#8, 0, 0, 0] ++ bytesBE 8 ctr) head []
    (d.mgmtCount key k.high ctr k.highKept k.replyCommit).sendFrame port (head ++ tag)

/-- A reply on the management VLAN: one whose counter needs an MRAM commit waits through a rail warning, and so does what follows it
(R336, R390). -/
def Dev.replyMgmt (d : Dev) (src port key vid : Nat) (pkt : Bytes) : Dev :=
  let commits := ((d.mgmtKey key).map fun k => k.replyCommit != k.replyKept).getD false
  if !d.railsGood && (commits || !d.sec.mgmtHeld.isEmpty) then
    d.setSec fun s => { s with mgmtHeld := s.mgmtHeld ++ [(src, port, key, vid, pkt)] }
  else d.sendMgmt src port key vid pkt

/-- The replies that have waited go out in order. -/
def Dev.mgmtResume (d : Dev) : Dev :=
  d.sec.mgmtHeld.foldl (fun x h => x.sendMgmt h.1 h.2.1 h.2.2.1 h.2.2.2.1 h.2.2.2.2) (d.setSec fun s => { s with mgmtHeld := [] })

/-- Ends a command with a reply; the reply is posted only while the issuer's generation is that of the acceptance (R339). -/
def Dev.reply (d : Dev) (n : Nat) (st : Status) (params : Bytes := []) : Dev :=
  match d.vcl.cmds.look? n with
  | none => d
  | some a =>
    let d1 : Dev := { d with vcl := { d.vcl with cmds := d.vcl.cmds.erase n } }
    if !a.cmd.via.oob && d.gen a.cmd.issuer ≠ a.issuerGen then d1
    else
      let pkt := replyPacket a d.now st params
      let d2 := d1.logNow 0x08 25 (some a.fn) (toWord a.opcode) (toWord a.cmd.tag) (toWord st.code)
      match a.cmd.via with
      | .admin => d2.replyAdmin a pkt st
      | .mailbox => d2.replyMail a.cmd.issuer (pkt.take 256)
      | .smbus => { d2 with vcl := { d2.vcl with smbBusy := false, smbReply := some (pkt.take 255) } }
      | .mgmt =>
        match a.mgmt with
        | some (src, port, key, vid) => d2.replyMgmt src port key vid pkt
        | none => d2

/-- Changes the record of an accepted command. -/
def Dev.updCmd (d : Dev) (n : Nat) (f : Accepted → Accepted) : Dev :=
  { d with vcl := { d.vcl with cmds := d.vcl.cmds.modify n f } }

/-- Marks a command that has passed its commit (R354, R471). -/
def Dev.commit (d : Dev) (n : Nat) : Dev := d.updCmd n fun a => { a with committed := true }

/-- Ends a command with OK and parameter words. -/
def Dev.replyOk (d : Dev) (n : Nat) (ws : List Word := []) : Dev := d.reply n .ok (wordBytes ws)

/-- Step 8 of R332 for the loading, binding and unloading of insets: a virtual function needs the privilege INSET (R307). -/
def Dev.mayInset (d : Dev) (n : Nat) (c : Cmd) (go : Dev → Dev) : Dev :=
  if decide (4 ≤ c.issuer) && !(d.rd .FNC_PRIV c.issuer).getLsbD 1 then d.reply n .denied else go d

/-- The firmware reads `len` bytes of host memory at `addr` for command `n`, as its issuer (log entry 52), and goes on with them.
While they cannot be read the command waits; a read that fails is a host error, and the command ends with HOST_ERR (R288 to R290). -/
def Dev.withData (d : Dev) (n addr len : Nat) (data : Option Bytes) (go : Bytes → Dev → Dev) : Dev :=
  let f := ((d.vcl.cmds.look? n).map (·.cmd.issuer)).getD 0
  match d.ownReach f [(addr, len)], data with
  | (.waits, d1), _ => d1.updCmd n fun x => { x with started := false }
  | (.denied, d1), _ => (d1.hostError f).reply n .hostErr
  | (.ready, d1), none => ((d1.putReads f [(addr, len)]).hostError f).reply n .hostErr
  | (.ready, d1), some bs => go bs (d1.putReads f [(addr, len)])

/-- The command has been accepted and waits. -/
def Dev.waitsTurn (d : Dev) (c : Cmd) : Bool := (d.vcl.cmds.first? fun _ a => a.cmd == c && !a.started).isSome

/-- Whether that memory can be read; a command that waits already has been read. -/
def Dev.reachCmd (d : Dev) (c : Cmd) : Reach × Dev :=
  if d.waitsTurn c || (d.takeCmd c).isNone || (d.cmdRanges c).1 ++ (d.cmdRanges c).2 = [] then (.ready, d)
  else d.ownReach c.issuer ((d.cmdRanges c).1 ++ (d.cmdRanges c).2)

/-- An entry of an administration queue, or its command packet, has not been read: the entry completes with HOST_ERR, and there
is no reply (R289, R306). -/
def Dev.adminFail (d : Dev) (pf : Nat) (c : Cmd) : Dev :=
  match (if d.accepts c then d.takeCmd c else none) with
  | some (ring, _, d1) => (d1.hostError pf).aqComplete pf ring .hostErr 0
  | none => d

/-- The read of the next entry of an administration queue, or of the packet it names, fails (R289, R306). -/
def Dev.adminReadError (d : Dev) (pf : Nat) : Dev :=
  let c : Cmd := { via := .admin, issuer := pf, packet := [] }
  let entry := (d.cmdRanges c).1.take 1
  if (d.takeCmd c).isNone then d
  else
    match d.ownReach pf entry with
    | (.ready, d1) => (d1.putReads pf entry).adminFail pf c
    | (.denied, d1) => d1.adminFail pf c
    | (.waits, d1) => d1

/-- A translation that the taking of a command needs has been denied: the entry of an administration queue, or the command whose
parameters cannot be read, ends with HOST_ERR (R288, R289). -/
def Dev.denyCmd (d : Dev) (c : Cmd) : Dev :=
  if (pagesOf (d.cmdRanges c).1).any fun p => !d.translated c.issuer (4096 * p) then d.adminFail c.issuer c
  else
    match d.accept c with
    | some (n, _, d1) => (d1.hostError c.issuer).reply n .hostErr
    | none => d

/-- A Vucel command: accepted, or waiting for its turn; checked (R332, and R430 in RECOVERY); then its own checks and
effect, `body`, with the command's number, record and parameters. A packet of another opcode, or one that its transport
does not hold next, changes nothing (log entry 7). -/
def Dev.runVucel (d : Dev) (ops : Nat → Bool) (c : Cmd) (body : Nat → Accepted → Bytes → Dev → Dev) : Dev :=
  if !ops c.opcode || !(d.accepts c || (d.runs && d.waitsTurn c)) then d
  else
    match d.reachCmd c with
    | (.waits, d1) => d1
    | (.denied, d1) => d1.denyCmd c
    | (.ready, _) =>
      match d.accept c with
      | none => d
      | some (n, a, d1) =>
        if !d1.hasTurn n a then d1
        else
          let d2 := d1.updCmd n fun x => { x with started := true }
          match d2.vclCheck c with
          | .error st => (if st = .hostErr then d2.hostError a.cmd.issuer else d2).reply n st
          | .ok p => if d2.on? Fld.SEC_STAT_RECOVERY && !romServes c then d2.reply n .badState else body n a p d2

end Sys2Proof.Machine
end

