-- ==== Sys2Proof/Machine/MerOps.lean ====
section
/-!
DEFINITION. The Meridian (R29 to R43): the cycle, the adjustments, load and enable, and the time pins.
-/
namespace Sys2Proof.Machine

/-- Replaces the Meridian's state. -/
def Dev.setMer (d : Dev) (f : Mer → Mer) : Dev := { d with mer := f d.mer }

/-- The rate part of a cycle, 2 ns × (1 + A × 2^-48), in counter units (R29). -/
def Mer.ratePart (m : Mer) : Nat := (2 * (2 ^ 48 + m.rateA) * 16000000).toNat

/-- What a slew adds to a cycle in full, 2 ns × S, in counter units (R29, R33). -/
def Mer.slewPart (m : Mer) : Int := 2 * m.slewPpm * 2 ^ 48 * 16

/-- What the slew adds on the present cycle: the last one adds only the remainder (R33). -/
def Mer.slewNow (m : Mer) : Int := if m.slewLeft.natAbs ≤ m.slewPart.natAbs then m.slewLeft else m.slewPart

/-- What a backward step absorbs on the present cycle: fifteen sixteenths of the rate part, the last cycle what remains (R34). -/
def Mer.absorbNow (m : Mer) : Nat := min (m.ratePart / 16 * 15) m.stepLeft

/-- One 2 ns cycle of the counter (R29, R33, R34). -/
def Mer.cycle (m : Mer) : Mer :=
  { m with
    acc := (m.acc + m.ratePart - m.absorbNow + m.slewNow : Int).toNat
    slewLeft := m.slewLeft - m.slewNow
    stepLeft := m.stepLeft - m.absorbNow }

/-- One cycle of the device when no command waits: the reference clock and, while the Meridian is enabled, its counter
(R29; log entry 1). -/
def Dev.tick (d : Dev) : Dev :=
  d.setMer fun m =>
    let m1 := if d.on? Fld.MER_CTRL_ENABLE then m.cycle else m
    { m1 with refCycles := m.refCycles + 1 }

/-- The slew offset not yet added, in 1/256 ns, and the backward step not yet absorbed, in ns, rounded towards zero. -/
def Mer.slewRemain (m : Mer) : Int := m.slewLeft.tdiv stampUnit
def Mer.stepRemain (m : Mer) : Nat := m.stepLeft / (256 * stampUnit)

/-- A TIME_ADJ record (R467). -/
def Dev.logTime (d : Dev) (kind : Nat) (value : Nat) : Dev :=
  d.logNow 0x0D 51 none (toWord kind) (toWord value) (toWord (value / 2 ^ 32))

/-- The limit of A, ±1000 ppm in units of 2^-48 (R32). -/
def rateLimit : Int := 281474976710

/-- A + S stays inside ±1000 ppm (R32). -/
def Mer.rateFits (m : Mer) (a : Int) : Bool :=
  -rateLimit ≤ a && a ≤ rateLimit &&
    (m.slewLeft == 0 || (a * 1000000 + m.slewPpm * 2 ^ 48).natAbs ≤ 1000 * 2 ^ 48)

/-- TIME_RATE (R32, R35). -/
def Dev.timeRate (d : Dev) (n : Nat) (p : Bytes) : Dev :=
  let a := signedOf 64 (le p 0 8)
  if d.mer.rateFits a then ((d.setMer fun m => { m with rateA := a }).logTime 1 (unsignedOf 64 a)).replyOk n
  else d.reply n .badParam

/-- TIME_SLEW (R33, R35, R36). -/
def Dev.timeSlew (d : Dev) (n : Nat) (p : Bytes) : Dev :=
  let o := signedOf 32 (le p 0 4)
  let m := bitsOf (le32 p 4) 9 0
  if o.natAbs > 1000000 * 256 || m < 1 || m > 1000 then d.reply n .badParam
  else if !d.on? Fld.MER_CTRL_ENABLE then d.reply n .badState
  else
    let old := toWord (unsignedOf 32 d.mer.slewRemain)
    let d1 := d.setMer fun x =>
      { x with slewPpm := if o = 0 then 0 else if o < 0 then -(m : Int) else m, slewLeft := o * stampUnit }
    let d2 := if o = 0 then d1.set Fld.MER_STATUS_SLEW_DONE 0 1 else d1
    (d2.logTime 2 (unsignedOf 64 o)).replyOk n [old]

/-- A slew has added its whole offset (R33). -/
def Dev.slewEnd (d : Dev) : Dev :=
  if d.mer.slewPpm ≠ 0 && d.mer.slewLeft == 0 then (d.setMer fun m => { m with slewPpm := 0 }).set Fld.MER_STATUS_SLEW_DONE 0 1
  else d

/-- TIME_STEP (R34, R35, R36): a positive step at once, a negative one to be absorbed. Its record carries the stamp before
the step (log entry 23). `moved` is what follows a forward step. -/
def Dev.timeStep (d : Dev) (n : Nat) (p : Bytes) (moved : Dev → Dev) : Dev :=
  let s := signedOf 32 (le p 0 4)
  let u : Nat := 256 * stampUnit
  if s < -1000000 || s > 1000000000 || (s < 0 && d.mer.stepLeft + s.natAbs * u > 1000000 * u) then d.reply n .badParam
  else if !d.on? Fld.MER_CTRL_ENABLE then d.reply n .badState
  else
    let d1 := d.logTime 3 (unsignedOf 64 s)
    if s < 0 then (d1.setMer fun m => { m with stepLeft := m.stepLeft + s.natAbs * u, stepping := true }).replyOk n
    else
      let d2 := (d1.setMer fun m => { m with acc := m.acc + s.natAbs * u }).set Fld.MER_STATUS_STEP_DONE 0 1
      (if s = 0 then d2 else moved d2).replyOk n

/-- A backward step has been absorbed (R34). -/
def Dev.stepEnd (d : Dev) : Dev :=
  if d.mer.stepping && d.mer.stepLeft == 0 then
    (d.setMer fun m => { m with stepping := false }).set Fld.MER_STATUS_STEP_DONE 0 1
  else d

/-- TIME_LOAD (R36). -/
def Dev.timeLoad (d : Dev) (n : Nat) (p : Bytes) : Dev :=
  if d.on? Fld.MER_CTRL_ENABLE then d.reply n .badState
  else
    let d1 := ((d.wr .MER_LOAD 0 0 (le32 p 0)).wr .MER_LOAD 0 1 (le32 p 4)).wr .MER_LOAD 0 2 (le32 p 8)
    (d1.setMer fun m => { m with armed := true }).replyOk n

/-- After an accepted write of a word of MER_LOAD: the load is armed (R36). -/
def Dev.merLoadWritten (d : Dev) : Dev :=
  if d.on? Fld.MER_CTRL_ENABLE then d else d.setMer fun m => { m with armed := true }

/-- MODE of an enabled pin, reserved values and a disabled pin acting as 0 (R41). -/
def Dev.pinMode (d : Dev) (n : Nat) : Nat :=
  let m := d.get Fld.MER_TIO_CTRL_MODE n
  if n < 4 && d.on? Fld.MER_TIO_CTRL_ENABLE n && m ≤ 4 then m else 0

/-- The state of a pin. -/
def Dev.pin (d : Dev) (n : Nat) : TioPin := d.mer.pins.getD n {}

/-- Replaces the state of a pin. -/
def Dev.setPin (d : Dev) (n : Nat) (p : TioPin) : Dev := d.setMer fun m => { m with pins := m.pins.put n p }

/-- The pins that give an edge in every period look for edges from a loaded stamp on, be it lower than the last one (R41). -/
def Dev.pinsFrom (d : Dev) (t : Stamp) : Dev :=
  (List.range 4).foldl (fun x n =>
    if x.pinMode n = 2 || x.pinMode n = 3 then x.setPin n { x.pin n with edgeFrom := t } else x) d

/-- Late-gather contexts look for windows from a loaded stamp on, be it lower than the last one (R251). -/
def Dev.windowsFrom (d : Dev) : Dev :=
  { d with dma := { d.dma with ctxs := d.dma.ctxs.keys.foldl (fun t k => t.putD {} k { t.getD k {} with lastOpen := 0 }) d.dma.ctxs } }

/-- ENABLE of MER_CTRL goes from 0 to 1 (R36). The record of a load carries the loaded value as its stamp: that of the cycle on
which it takes effect (DESIGN CHOICE, log entry 43). -/
def Dev.merEnable (d : Dev) : Dev :=
  if d.mer.armed then
    let t := stampOf (d.rd .MER_LOAD 0 0) (d.rd .MER_LOAD 0 1) (d.rd .MER_LOAD 0 2)
    ((d.setMer fun m => { m with acc := t * stampUnit, armed := false }).pinsFrom t).windowsFrom.logTime 4 (nsOf t)
  else d.logTime 5 d.nowNs

/-- ENABLE of MER_CTRL goes from 1 to 0: slews and steps are discarded (R36). -/
def Dev.merDisable (d : Dev) : Dev :=
  (d.setMer fun m => { m with slewPpm := 0, slewLeft := 0, stepLeft := 0, stepping := false }).logTime 6
    (unsignedOf 32 d.mer.slewRemain + 2 ^ 32 * d.mer.stepRemain)

/-- After a write of MER_CTRL. -/
def Dev.merCtrlWritten (d : Dev) (old : Word) : Dev :=
  match old.getLsbD 0, d.on? Fld.MER_CTRL_ENABLE with
  | false, true => d.merEnable
  | true, false => d.merDisable
  | _, _ => d

/-- The reference clock fails (R31). -/
def Dev.refLost (d : Dev) : Dev :=
  if d.on? Fld.MER_STATUS_REF_LOST then d else (d.set Fld.MER_STATUS_REF_LOST 0 1).logTime 7 0

/-- The reference clock is back (R38). -/
def Dev.refReturn (d : Dev) : Dev := d.set Fld.MER_STATUS_REF_LOST 0 0

/-! ## Time pins -/

/-- The edge is one that EDGE selects (R42). -/
def edgeSelected (edge : Nat) (rising : Bool) : Bool :=
  match edge with
  | 1 => !rising
  | 2 => true
  | _ => rising

/-- An edge at an input pin (R41, R43). -/
def Dev.timeIoEdge (d : Dev) (n : Nat) (rising : Bool) : Dev :=
  if d.pinMode n = 1 && edgeSelected (d.get Fld.MER_TIO_CTRL_EDGE n) rising then
    let p := d.pin n
    let d1 :=
      if p.fifo.length < 16 then d.setPin n { p with fifo := p.fifo ++ [d.now] }
      else
        let o := d.get Fld.MER_TIO_FIFO_STAT_OVERFLOWS n
        (d.set Fld.MER_TIO_FIFO_STAT_OVERFLOWS n (min (o + 1) 0xFFFF)).set Fld.MER_STATUS_TIO_OVF 0 1
    d1.logNow 0x0E 51 none (toWord n) (Config.timeIoEdge rising) 0
  else d

/-- The period and phase of a periodic output as they act (R41); a pulse-per-second output has a second and 0. -/
def Dev.pinPeriod (d : Dev) (n : Nat) : Nat × Nat :=
  if d.pinMode n = 2 then (1000000000, 0)
  else
    let p := clampTo 100 4000000000 (d.rd .MER_TIO_PERIOD n).toNat
    (p, (d.rd .MER_TIO_PHASE n).toNat % p)

/-- Stamp of the first rising edge of an output pin at or after `from_`; none for a pin that gives no edge (R41). -/
def Dev.nextEdge (d : Dev) (n : Nat) (from_ : Stamp) : Option Stamp :=
  let m := d.pinMode n
  if m = 2 || m = 3 then
    let (p, ph) := d.pinPeriod n
    let ns := (from_ + 255) / 256
    some (256 * (ns + (ph + p - ns % p) % p))
  else if m = 4 then
    let t := stampOf (d.rd .MER_TIO_TARGET n 0) (d.rd .MER_TIO_TARGET n 1) (d.rd .MER_TIO_TARGET n 2)
    if from_ ≤ t then some t else none
  else none

/-- The pulse of an output lasts WIDTH × 16 ns, or half the period (R42), which is rounded up to a whole ns (R2); of a strobe
with WIDTH 0 the manual states no length (log entry 16). -/
def Dev.pulseLength (d : Dev) (n : Nat) : Nat × Dev :=
  let w := 16 * d.get Fld.MER_TIO_CTRL_WIDTH n
  if d.pinMode n = 4 then (if w = 0 then d.drawNat else (w, d))
  else
    let p := (d.pinPeriod n).1
    (if w = 0 || w ≥ p then ceilDiv p 2 else w, d)

/-- An output edge whose stamp has come (R41, R42). It writes no TIME_IO record: the manual does not say that output edges write
any, and the model writes them of input edges only. The pulse's length is counted on the reference clock (DESIGN CHOICE, log entry
43). -/
def Dev.tioOutputEdge (d : Dev) (n : Nat) : Dev :=
  match d.nextEdge n (d.pin n).edgeFrom with
  | some t =>
    if t ≤ d.now then
      let (len, d1) := d.pulseLength n
      let p := d1.pin n
      (d1.setPin n { p with high := true, pulseEnd := d.ref + len, edgeFrom := d.now + 1 }).emit (.pin n true t)
    else d
  | none => d

/-- An output pulse ends after its width (R42). -/
def Dev.tioPulseEnd (d : Dev) (n : Nat) : Dev :=
  let p := d.pin n
  if p.high && p.pulseEnd ≤ d.ref then (d.setPin n { p with high := false }).emit (.pin n false d.now) else d

/-- After a write of MER_TIO_CTRL[n]: a pin that goes into use looks for edges from now on, a pin that goes out of use
is high-impedance (R41). -/
def Dev.tioCtrlWritten (d : Dev) (n : Nat) (old : Word) : Dev :=
  match old.getLsbD 31, d.on? Fld.MER_TIO_CTRL_ENABLE n with
  | false, true => d.setPin n { d.pin n with edgeFrom := d.now }
  | true, false => d.setPin n { d.pin n with high := false }
  | _, _ => d

/-- A read of word +0x0 of MER_TIO_STAMP[n]: the oldest stamp, latched and removed; zeros of an empty FIFO (R43, R420). -/
def Dev.tioPop (d : Dev) (n : Nat) : Stamp × Dev :=
  match (d.pin n).fifo with
  | [] => (0, d)
  | t :: rest => (t, d.setPin n { d.pin n with fifo := rest })

end Sys2Proof.Machine
end

