-- ==== Sys2Proof/Machine/Operands.lean ====
section
/-!
DEFINITION. The operand forms of thread instructions: the words of R96, R99 and R100, sign extension, ALU results and
branch conditions.
-/
namespace Sys2Proof.Machine

/-! ## Encodings -/

/-- A word from an opcode and its fields, each with the place of its lowest bit (R96). -/
def packInsn (op : Nat) (fields : List (Nat × Nat)) : Word :=
  BitVec.ofNat 32 (op * 2 ^ 26 + (fields.map fun f => f.1 * 2 ^ f.2).foldl (· + ·) 0)

/-- ALU, function `fn`. -/
def encAlu (fn : Nat) (d a b sh : BitVec 5) : Word :=
  packInsn 0x01 [(d.toNat, 21), (a.toNat, 16), (b.toNat, 11), (sh.toNat, 6), (fn, 0)]

/-- ADDI to SLTI, opcode 0x02 to 0x07. -/
def encImm (op : Nat) (d a : BitVec 5) (imm : BitVec 16) : Word := packInsn op [(d.toNat, 21), (a.toNat, 16), (imm.toNat, 0)]

/-- BR. -/
def encBr (cnd : BitVec 3) (a b : BitVec 5) (off : BitVec 13) : Word :=
  packInsn 0x08 [(cnd.toNat, 23), (a.toNat, 18), (b.toNat, 13), (off.toNat, 0)]

/-- JUMP of a KIND. -/
def encJump (kind : Nat) (rsv : BitVec 10) (target : BitVec 14) : Word :=
  packInsn 0x09 [(kind, 24), (rsv.toNat, 14), (target.toNat, 0)]

/-- JR; `rsv` holds bits [25:21] above bits [15:0]. -/
def encJr (a : BitVec 5) (rsv : BitVec 21) : Word :=
  packInsn 0x0A [(rsv.toNat / 2 ^ 16, 21), (a.toNat, 16), (rsv.toNat % 2 ^ 16, 0)]

/-- LOOP. -/
def encLoop (count : BitVec 8) (body : BitVec 10) (rsv : BitVec 8) : Word :=
  packInsn 0x0B [(count.toNat, 18), (body.toNat, 8), (rsv.toNat, 0)]

/-- PW. -/
def encPw (d a : BitVec 5) (w : Bool) (sz : BitVec 2) (rsv : BitVec 5) (off : BitVec 8) : Word :=
  packInsn 0x10 [(d.toNat, 21), (a.toNat, 16), (b2n w, 15), (sz.toNat, 13), (rsv.toNat, 8), (off.toNat, 0)]

/-- LG. -/
def encLg (d : BitVec 5) (w : Bool) (word : BitVec 4) (lsb wm1 : BitVec 5) (rsv : BitVec 6) : Word :=
  packInsn 0x11 [(d.toNat, 21), (b2n w, 20), (word.toNat, 16), (lsb.toNat, 11), (wm1.toNat, 6), (rsv.toNat, 0)]

/-- SC (0x12) and BUF (0x13). -/
def encMem (op : Nat) (d a : BitVec 5) (w : Bool) (sz : BitVec 2) (off : BitVec 13) : Word :=
  packInsn op [(d.toNat, 21), (a.toNat, 16), (b2n w, 15), (sz.toNat, 13), (off.toNat, 0)]

/-- LOOKUP (R99). -/
def encLookup (slot kind : Nat) (table : BitVec 6) (keyq : BitVec 3) (pre : Bool) (rsv : BitVec 12) : Word :=
  packInsn 0x18 [(slot, 24), (kind, 22), (table.toNat, 16), (keyq.toNat, 13), (b2n pre, 12), (rsv.toNat, 0)]

/-- LDRES. -/
def encLdres (d : BitVec 5) (slot part : BitVec 2) (rsv : BitVec 17) : Word :=
  packInsn 0x19 [(d.toNat, 21), (slot.toNat, 19), (part.toNat, 17), (rsv.toNat, 0)]

/-- CHAN of a KIND. -/
def encChan (kind : Nat) (ch : BitVec 3) (d : BitVec 5) (rv : BitVec 2) (st : BitVec 5) (rsv : BitVec 9) : Word :=
  packInsn 0x1A [(kind, 24), (ch.toNat, 21), (d.toNat, 16), (rv.toNat, 14), (st.toNat, 9), (rsv.toNat, 0)]

/-- EVT WAIT: the fields of the other kinds of EVT are not placed by the manual for it; gD is in [23:19] and gA in [18:14]
(log entry 24). -/
def encWait (d a : BitVec 5) (rsv : BitVec 14) : Word := packInsn 0x1B [(0, 24), (d.toNat, 19), (a.toNat, 14), (rsv.toNat, 0)]

/-- EVT SIGNAL. -/
def encSignal (cluster : BitVec 2) (thread ev : BitVec 5) (rsv : BitVec 12) : Word :=
  packInsn 0x1B [(1, 24), (cluster.toNat, 22), (thread.toNat, 17), (ev.toNat, 12), (rsv.toNat, 0)]

/-- EVT TIMER: gA in [23:19] (log entry 24). -/
def encTimer (a : BitVec 5) (rsv : BitVec 19) : Word := packInsn 0x1B [(2, 24), (a.toNat, 19), (rsv.toNat, 0)]

/-- TIME. -/
def encTime (d : BitVec 5) (rsv : BitVec 21) : Word := packInsn 0x1C [(d.toNat, 21), (rsv.toNat, 0)]

/-- LIBCALL. -/
def encLibcall (entry : BitVec 8) (rsv : BitVec 18) : Word := packInsn 0x1D [(entry.toNat, 18), (rsv.toNat, 0)]

/-- END (R100). -/
def encEnd (kind : Nat) (reason : BitVec 8) (rsv : BitVec 16) : Word :=
  packInsn 0x1E [(kind, 24), (reason.toNat, 16), (rsv.toNat, 0)]

/-- BRK. -/
def encBrk (rsv : BitVec 26) : Word := packInsn 0x3F [(rsv.toNat, 0)]

/-! ## Results -/

/-- The mask of a field of width B + 1 (EXT and INS). -/
def widthMask (b : BitVec 5) : Word := BitVec.ofNat 32 (2 ^ (b.toNat + 1) - 1)

/-- EXT: (gA >> SH) and a mask of width B + 1. -/
def aluExt (a : Word) (b sh : BitVec 5) : Word := (a >>> sh.toNat) &&& widthMask b

/-- INS: width B + 1 of gA into gD at SH; bits that would lie beyond bit 31 are lost (log entry 24). -/
def aluIns (old a : Word) (b sh : BitVec 5) : Word :=
  (old &&& ~~~ (widthMask b <<< sh.toNat)) ||| ((a &&& widthMask b) <<< sh.toNat)

/-- CRC: CRC32C of the four bytes of gA, seeded with gB; byte order and final complement are left open (log entry 4). -/
def aluCrc (msbFirst complement : Bool) (a b : Word) : Word :=
  let bs := bytesLE 4 a.toNat
  let c := crcRaw b (if msbFirst then bs.reverse else bs)
  if complement then ~~~ c else c

/-- BSWAP: the bytes of a word in reverse. -/
def aluBswap (a : Word) : Word := BitVec.ofNat 32 (natBE (bytesLE 4 a.toNat))

/-- One of a Boolean. -/
def flagWord (b : Bool) : Word := if b then 1 else 0

/-- IMM, sign-extended. -/
def immS (imm : BitVec 16) : Word := imm.signExtend 32

/-- IMM, zero-extended. -/
def immZ (imm : BitVec 16) : Word := imm.setWidth 32

/-- The condition CND of BR (R96). -/
def brHolds (cnd : BitVec 3) (a b : Word) : Bool :=
  match cnd.toNat with
  | 0 => a == b
  | 1 => a != b
  | 2 => a.slt b
  | 3 => !a.slt b
  | 4 => a.ult b
  | _ => !a.ult b

/-- PC + OFF, with OFF signed. -/
def brTarget (pc : Nat) (off : BitVec 13) : Nat := ((pc : Int) + off.toInt + 16384).toNat % 16384

/-- The word of the parse window, 1, 2 or 4 bytes in network order. -/
def pwLoad (pw : Bytes) (addr sz : Nat) : Word := BitVec.ofNat 32 (be pw addr (2 ^ sz))

/-- The parse window after a store of the low bytes of a register. -/
def pwStore (pw : Bytes) (addr sz : Nat) (v : Word) : Bytes := overwrite (padTo pw 256) addr (bytesBE (2 ^ sz) v.toNat)

/-- The key in four registers, the first holding bits [127:96] (R99). -/
def keyOf (r : Nat → Word) (q : Nat) : Nat :=
  (r q).toNat * 2 ^ 96 + (r (q + 1)).toNat * 2 ^ 64 + (r (q + 2)).toNat * 2 ^ 32 + (r (q + 3)).toNat

/-- The word is legal under R96, R99 and R100 and insets may use it (detail 0x05 of R108). -/
def insetLegal (w : Word) : Bool :=
  let z (hi lo : Nat) : Bool := bitsOf w hi lo == 0
  match bitsOf w 31 26 with
  | 0x01 => decide (bitsOf w 5 0 ≤ 0x10)
  | 0x02 => true
  | 0x03 => true
  | 0x04 => true
  | 0x05 => true
  | 0x06 => z 20 16
  | 0x07 => true
  | 0x08 => decide (bitsOf w 25 23 < 6) && !z 12 0
  | 0x09 => z 23 14 && (decide (bitsOf w 25 24 < 2) || z 13 0)
  | 0x0B => z 7 0 && !z 25 18 && !z 17 8
  | 0x10 => z 12 8 && bitsOf w 14 13 != 3
  | 0x11 => z 5 0 && decide (bitsOf w 15 11 + bitsOf w 10 6 ≤ 31)
  | 0x12 => w.getLsbD 15 || bitsOf w 14 13 != 3
  | 0x13 => bitsOf w 14 13 != 3
  | 0x18 => z 11 0 && (bitsOf w 23 22 != 3 || (z 21 16 && z 12 12))
  | 0x19 => z 16 0 && bitsOf w 18 17 != 3
  | 0x1A => z 8 0 && bitsOf w 20 16 % 4 == 0 && bitsOf w 15 14 != 3
  | 0x1B =>
    match bitsOf w 25 24 with
    | 0 => z 13 0 && bitsOf w 18 14 % 2 == 0
    | 1 => z 11 0
    | 2 => z 18 0 && decide (bitsOf w 23 19 ≤ 29)
    | _ => false
  | 0x1C => z 20 0 && decide (bitsOf w 25 21 ≤ 29)
  | 0x1D => z 17 0
  | 0x1E => z 15 0 && (z 23 16 || bitsOf w 25 24 == 1 || bitsOf w 25 24 == 3)
  | _ => false

end Sys2Proof.Machine
end

