-- ==== Sys2Proof/Machine/FlowOps.lean ====
section
/-!
DEFINITION. Port rates and lines (R359), and the flow control that a port sends (R369, R370).
-/
namespace Sys2Proof.Machine

/-! ## Lines -/

/-- Rate of a mode in Mb/s (R359). -/
def modeRate (m : Nat) : Nat := [0, 200000, 100000, 100000, 50000, 25000, 10000, 2500, 1000, 100].getD m 0

/-- The mode that a port runs. -/
def Dev.curMode (d : Dev) (p : Nat) : Nat := d.get Fld.PRT_LINK_STAT_CUR_MODE p

/-- R of R215: the data rate of a port in its present mode, Mb/s. -/
def Dev.portRate (d : Dev) (p : Nat) : Nat := modeRate (d.curMode p)

/-- Line time of a byte in 1/25,600 ns. -/
def Dev.byteTime (d : Dev) (p : Nat) : Nat := 204800000 / max 1 (d.portRate p)

/-- Units of line time in a nanosecond. -/
def lineNs : Nat := 25600

/-- The Meridian, and the reference time, in units of line time. -/
def Dev.nowLine (d : Dev) : Nat := d.mer.acc * 100 / stampUnit
def Dev.refLine (d : Dev) : Nat := lineNs * d.ref

/-- The line of a port. -/
def Dev.line (d : Dev) (p : Nat) : Line := d.tm.lines.getD p {}

/-- Replaces the traffic manager's state. -/
def Dev.setTm (d : Dev) (f : Tm → Tm) : Dev := { d with tm := f d.tm }

/-- Replaces the line of a port. -/
def Dev.setLine (d : Dev) (p : Nat) (l : Line) : Dev := d.setTm fun t => { t with lines := t.lines.putD {} p l }

/-- A port's working state. -/
def Dev.port (d : Dev) (p : Nat) : Port := d.prt.ports.getD p {}

/-- Replaces a port's working state. -/
def Dev.setPort (d : Dev) (p : Nat) (x : Port) : Dev := { d with prt := { d.prt with ports := d.prt.ports.putD {} p x } }

/-- The link of a port is up. -/
def Dev.linkUp? (d : Dev) (p : Nat) : Bool := d.on? Fld.PRT_LINK_STAT_UP p

/-! ## Flow control that a port sends (R369) -/

/-- PCP of a frame's first tag, or DEF_PCP of the port. -/
def Dev.fcPrio (d : Dev) (p : Nat) (bs : Bytes) : Nat :=
  if be bs 12 2 = 0x8100 || be bs 12 2 = 0x88A8 then natBits (be bs 14 2) 15 13 else d.get Fld.VSW_PORT_CFG_DEF_PCP p

/-- The frame is in flight for the order tracker: it has not left through a port, gone to a host queue or been dropped (R50). -/
def Dev.inFlight (d : Dev) (id : Nat) (f : Frame) : Bool :=
  f.stage != .copied || (d.copies.first? fun _ c => c.frame == id &&
    (match c.stage with
     | .line _ _ => false
     | .placing _ _ => false
     | .storage _ => false
     | _ => true)).isSome

/-- Held bytes of a port, of the frames that are in flight: all of them (8), or those of a priority. -/
def Dev.heldBytes (d : Dev) (p prio : Nat) : Nat :=
  ((d.frames.cells.filter fun x => x.2.inPort == p && (prio == 8 || d.fcPrio p x.2.bytes == prio) && d.inFlight x.1 x.2).map
    fun x => x.2.bytes.length + 4).foldl (· + ·) 0

/-- XOFF and XON in bytes: an XON of XOFF or more acts as half of XOFF. -/
def Dev.xoff (d : Dev) (p : Nat) : Nat := 1024 * d.get Fld.PRT_FC_THRESH_XOFF p
def Dev.xon (d : Dev) (p : Nat) : Nat :=
  let off := d.get Fld.PRT_FC_THRESH_XOFF p
  let on_ := d.get Fld.PRT_FC_THRESH_XON p
  1024 * (if off ≤ on_ then off / 2 else on_)

/-- What the port sends flow control for: 8 for pause, or a priority that takes part in PFC. -/
def Dev.fcKind (d : Dev) (p : Nat) (bs : Bytes) : Option Nat :=
  if !d.on? Fld.PRT_FC_CFG_TX_GEN p then none
  else
    match d.get Fld.PRT_FC_CFG_FC_MODE p with
    | 1 => some 8
    | 2 => if (d.get Fld.PRT_FC_CFG_PFC_EN p).testBit (d.fcPrio p bs) then some (d.fcPrio p bs) else none
    | _ => none

/-- Quanta of 512 bit times of the running mode, in ns. -/
def Dev.quantaNs (d : Dev) (p q : Nat) : Nat := ceilDiv (q * 512000) (max 1 (d.portRate p))

/-- The address of flow-control frames (R369). -/
def fcAddress : Nat := 0x0180C2000001

/-- The line takes a flow-control frame now, on a port with an active gate list: it is idle, and the gap ends at least 84 byte times
before the next planned start (R370). -/
def Dev.fcGap (d : Dev) (p : Nat) : Bool :=
  (d.line p).busy.isNone && decide ((d.line p).idleAt ≤ d.refLine) &&
    (d.copies.first? fun _ c => c.dest == p && !c.lateCounted && match c.stage with
      | .launch _ s => decide (s < d.nowLine + 84 * d.byteTime p)
      | _ => false).isNone

/-- A flow-control frame leaves and takes 84 bytes of line time, for which no frame is planned (R369, R370). -/
def Dev.fcEmit (d : Dev) (p prio time : Nat) : Dev :=
  let l := d.line p
  let n := 84 * d.byteTime p
  let d1 := d.setLine p { l with idleAt := max l.idleAt d.refLine + n, tFree := max l.tFree (d.nowLine + n), tFreeX := max l.tFreeX (d.nowLine + n) }
  let d2 := d1.setPort p { d1.port p with bitsTx := (d1.port p).bitsTx + 8 * 84, fcDue := (d1.port p).fcDue.erase prio }
  (d2.bump .PRT_TX_PAUSE p).emit (.flowControl p fcAddress prio time)

/-- Sends a flow-control frame: at once behind what is on the line, or, on a port with an active gate list, in the next gap that no
scheduled frame needs (R370; log entry 38). -/
def Dev.fcSend (d : Dev) (p prio time : Nat) : Dev :=
  if !d.linkUp? p then d
  else if d.gateActive p && !d.fcGap p then d.setPort p { d.port p with fcDue := (d.port p).fcDue.put prio time }
  else d.fcEmit p prio time

/-- Flow-control frames that wait for a gap go out as soon as there is one; those of a link that is down are given up. -/
def Dev.fcRetry (d : Dev) (p : Nat) : Dev :=
  if !d.linkUp? p then (if (d.port p).fcDue.cells.isEmpty then d else d.setPort p { d.port p with fcDue := ⟨[]⟩ })
  else (d.port p).fcDue.cells.foldl (fun x e => x.fcSend p e.1 e.2) d

/-- XOFF of a priority goes out, now and again after half of QUANTA. -/
def Dev.fcXoff (d : Dev) (p prio : Nat) : Dev :=
  let q := d.get Fld.PRT_FC_CFG_QUANTA p
  let d1 := d.fcSend p prio q
  d1.setPort p { d1.port p with sent := (d1.port p).sent.put prio (d.ref + ceilDiv (d.quantaNs p q) 2) }

/-- A frame has been taken in: held bytes that reach XOFF start flow control. -/
def Dev.fcRise (d : Dev) (p : Nat) (bs : Bytes) : Dev :=
  match d.fcKind p bs with
  | some k => if ((d.port p).sent.look? k).isNone && decide (d.xoff p ≤ d.heldBytes p k) then d.fcXoff p k else d
  | none => d

/-- Held bytes that have fallen below XON end the flow control of a priority, with pause_time 0. -/
def Dev.fcEnd (d : Dev) (p prio : Nat) : Dev :=
  if d.heldBytes p prio < d.xon p then
    let d1 := d.setPort p { d.port p with sent := (d.port p).sent.erase prio }
    d1.fcSend p prio 0
  else d

/-- A frame of the port is no longer in flight. -/
def Dev.fcFall (d : Dev) (p : Nat) : Dev := (d.port p).sent.keys.foldl (fun x k => x.fcEnd p k) d

end Sys2Proof.Machine
end

