-- ==== Sys2Proof/Machine/FrameOps.lean ====
section
/-!
DEFINITION. The legend (R19, R20), frames and copies, buffers (R235 to R243), and host bursts and completions (R245, R287,
R301 to R303, R305).
-/
namespace Sys2Proof.Machine

/-! ## The legend -/

/-- A legend field: bits `hi` down to `lo` of word `word`. -/
structure LgField where
  word : Nat
  hi : Nat
  lo : Nat
  deriving DecidableEq, Repr

/-- The legend's fields (R19). -/
def lgTraverse : LgField := ⟨1, 31, 28⟩
def lgSheet : LgField := ⟨2, 31, 16⟩
def lgGeneration : LgField := ⟨2, 15, 0⟩
def lgFunction : LgField := ⟨3, 31, 22⟩
def lgInPort : LgField := ⟨3, 21, 17⟩
def lgColour : LgField := ⟨3, 16, 15⟩
def lgFrameLen : LgField := ⟨3, 13, 0⟩
def lgClass : LgField := ⟨4, 31, 20⟩
def lgQueue : LgField := ⟨4, 19, 6⟩
def lgFlowHash : LgField := ⟨5, 31, 0⟩
def lgL3 : LgField := ⟨6, 31, 24⟩
def lgL4 : LgField := ⟨6, 23, 16⟩
def lgInner : LgField := ⟨6, 15, 8⟩
def lgPayload : LgField := ⟨6, 7, 0⟩
def lgException : LgField := ⟨7, 31, 24⟩
def lgHeaders : LgField := ⟨7, 23, 19⟩
def lgFragment : LgField := ⟨7, 15, 15⟩
def lgSlowPath : LgField := ⟨7, 14, 14⟩
def lgDecrypted : LgField := ⟨7, 13, 13⟩
def lgEncrypt : LgField := ⟨7, 12, 12⟩
def lgDecap : LgField := ⟨7, 11, 11⟩
def lgEncap : LgField := ⟨7, 10, 10⟩
def lgMirror : LgField := ⟨7, 9, 9⟩
def lgPtp : LgField := ⟨7, 8, 8⟩
def lgLate : LgField := ⟨7, 7, 7⟩
def lgLearn : LgField := ⟨7, 6, 6⟩
def lgDest : LgField := ⟨8, 31, 16⟩
def lgKeySlot : LgField := ⟨8, 15, 2⟩
def lgTunnel : LgField := ⟨9, 31, 16⟩
def lgStream : LgField := ⟨9, 15, 0⟩

/-- A field of a legend; a legend not yet made reads 0. -/
def lgGet (lg : List Word) (f : LgField) : Nat := bitsOf (lg.getD f.word 0) f.hi f.lo

/-- A one-bit field. -/
def lgOn (lg : List Word) (f : LgField) : Bool := lgGet lg f == 1

/-- A legend with a field replaced. -/
def lgSet (lg : List Word) (f : LgField) (v : Nat) : List Word := lg.set f.word (setBits (lg.getD f.word 0) f.hi f.lo v)

/-- The full ingress stamp recovered from a legend (R21). -/
def Dev.ingress (d : Dev) (lg : List Word) : Stamp :=
  let kept := (lg.getD 0 0).toNat + 2 ^ 32 * bitsOf (lg.getD 1 0) 23 0
  let cand := d.now / 2 ^ 56 * 2 ^ 56 + kept
  if cand > d.now then cand - 2 ^ 56 else cand

/-! ## Frames and copies -/

/-- A frame by number. -/
def Dev.frame? (d : Dev) (id : Nat) : Option Frame := d.frames.look? id

/-- A copy by number. -/
def Dev.copy? (d : Dev) (id : Nat) : Option Copy := d.copies.look? id

/-- Changes a frame. -/
def Dev.updFrame (d : Dev) (id : Nat) (f : Frame → Frame) : Dev := { d with frames := d.frames.modify id f }

/-- Changes a copy. -/
def Dev.updCopy (d : Dev) (id : Nat) (f : Copy → Copy) : Dev := { d with copies := d.copies.modify id f }

/-- Enters a frame into the device. -/
def Dev.addFrame (d : Dev) (f : Frame) : Nat × Dev :=
  (d.nextFrame, { d with frames := d.frames.put d.nextFrame f, nextFrame := d.nextFrame + 1 })

/-- Enters a copy. -/
def Dev.addCopy (d : Dev) (c : Copy) : Nat × Dev :=
  (d.nextCopy, { d with copies := d.copies.put d.nextCopy c, nextCopy := d.nextCopy + 1 })

/-- The frame's owner has had a generation change since the legend was made (R315). -/
def Dev.staleFrame (d : Dev) (f : Frame) : Bool := !f.lg.isEmpty && d.gen f.owner ≠ f.gen

/-- DATA0 of the drop of a stale frame: the reason of the change that made it stale (R317), which FNC_GEN_REC shows once the
reset has ended (R318). -/
def Dev.staleReason (d : Dev) (owner : Nat) : Word :=
  toWord (0x00040000 + ((d.fnc.resets.look? owner).map (·.reason)).getD (bitsOf (d.rd .FNC_GEN_REC owner 3) 31 28))

/-- The FRAME_DROP record of a frame or copy with its owner (R55); a frame without a legend writes none. -/
def Dev.logDrop (d : Dev) (src owner : Nat) (lg : List Word) (reason : Word) : Dev :=
  if lg.isEmpty then d else d.logNow 0x03 src (some owner) reason (lg.getD 5 0) (lg.getD 10 0)

/-! ## Buffers -/

/-- Buffer sizes of the pools (R235). -/
def poolSize (i : Nat) : Nat := [256, 2048, 10240, 65536].getD i 65536

/-- The pool of a handle (R236). -/
def poolOf (h : Nat) : Nat := h / 2 ^ 30

/-- COUNT of a pool. -/
def Dev.poolCount (d : Dev) (i : Nat) : Nat := d.get Fld.BPM_POOL_CFG_COUNT i

/-- Free buffers of a pool. -/
def Dev.poolFree (d : Dev) (i : Nat) : Nat := d.poolCount i - d.bpm.grants.countP fun h _ => poolOf h == i

/-- Buffers of a pool that a party holds, used(p) of R240. -/
def Dev.partyUsed (d : Dev) (i p : Nat) : Nat := d.bpm.grants.countP fun h g => poolOf h == i && g.charged == p

/-- The first free index of a pool from `start` on, wrapping (R236). -/
def firstFree (grants : Tbl Grant) (pool count : Nat) : Nat → Nat → Option Nat
  | 0, _ => none
  | fuel + 1, start =>
    if (grants.look? (pool * 2 ^ 30 + start % count)).isNone then some (start % count)
    else firstFree grants pool count fuel (start + 1)

/-- Takes `k` free buffers of a pool; which ones, the manual leaves open (R236; log entry 20). -/
def Dev.takeBuffers (d : Dev) (pool party : Nat) : Nat → List Nat × Dev
  | 0 => ([], d)
  | k + 1 =>
    let (start, d1) := d.drawNat
    match firstFree d1.bpm.grants pool (d1.poolCount pool) (d1.poolCount pool) (start % d1.poolCount pool) with
    | none => ([], d1)
    | some i =>
      let h := pool * 2 ^ 30 + i
      let d2 : Dev := { d1 with bpm := { d1.bpm with grants := d1.bpm.grants.put h { charged := party, owners := [party] } } }
      let (rest, d3) := d2.takeBuffers pool party k
      (h :: rest, d3)

/-- Links the buffers of a chain (R236). -/
def linkChain (t : Tbl Grant) : List Nat → Tbl Grant
  | a :: b :: rest => linkChain (t.modify a fun g => { g with next := some b }) (b :: rest)
  | _ => t

/-- Grants a chain of `k` buffers. -/
def Dev.grantChain (d : Dev) (pool party k : Nat) : List Nat × Dev :=
  let (l, d1) := d.takeBuffers pool party k
  (l, { d1 with bpm := { d1.bpm with grants := linkChain d1.bpm.grants l } })

/-- Owners of the shares of a buffer after party `from_` has handed its share on to the owners `to_` (R243). -/
def passShare (from_ : Nat) (to_ l : List Nat) : List Nat := if l.contains from_ then to_ ++ l.erase from_ else l

/-- Changes the owners of every buffer of a chain. -/
def Dev.updOwners (d : Dev) (chain : List Nat) (f : List Nat → List Nat) : Dev :=
  { d with bpm := { d.bpm with grants := chain.foldl (fun t h => t.modify h fun g => { g with owners := f g.owners }) d.bpm.grants } }

/-- A chain, or a share of it, is handed on (R243). -/
def Dev.handOver (d : Dev) (chain : List Nat) (from_ to_ : Nat) : Dev := d.updOwners chain (passShare from_ [to_])

/-- Makes the one share of a chain that party `from_` holds into a share for each of `parties` (R243). -/
def Dev.shareChain (d : Dev) (chain : List Nat) (from_ : Nat) (parties : List Nat) : Dev := d.updOwners chain (passShare from_ parties)

/-- A party is an owner of a buffer's shares. -/
def Dev.ownsBuffer (d : Dev) (party h : Nat) : Bool := ((d.bpm.grants.look? h).map (·.owners.contains party)).getD false

/-- A party gives up its share of a buffer; the last share frees it (R243). -/
def freeOne (party : Nat) (t : Tbl Grant) (h : Nat) : Tbl Grant :=
  match t.look? h with
  | some g =>
    if !g.owners.contains party then t
    else if g.owners.length ≤ 1 then t.erase h else t.put h { g with owners := g.owners.erase party }
  | none => t

/-- A free of the chain that begins at handle `h` by a party that does not own it changes nothing, and is counted and recorded
(R243). -/
def Dev.freeDenied (d : Dev) (h party : Nat) : Dev := (d.bump .BPM_FREE_DENIED).logNow 0x12 45 none 0x500 (toWord h) (toWord party)

/-- A party gives up its share of a chain (R243). While the manager is unavailable it holds nothing that could be freed. -/
def Dev.freeShare (d : Dev) (chain : List Nat) (party : Nat) : Dev :=
  match chain with
  | [] => d
  | h :: _ =>
    if d.ownsBuffer party h then { d with bpm := { d.bpm with grants := chain.foldl (freeOne party) d.bpm.grants } }
    else if d.available 13 then d.freeDenied h party
    else d

/-- BUF_HEAD and BUF_COUNT of a chain written into a legend. -/
def lgChain (lg : List Word) (chain : List Nat) : List Word :=
  (lg.set 10 (toWord (chain.headD 0))).set 11 (toWord (chain.length % 256 * 2 ^ 24))

/-! ## Host bursts -/

/-- Queues one burst. -/
def Dev.addBurst (d : Dev) (b : Burst) : Dev :=
  { d with dma := { d.dma with bursts := d.dma.bursts.put d.dma.bursts.nextKey b } }

/-- The unit to which a read is widened: doublewords, or 64-byte blocks with ROUND64 (R248). -/
def Path.unit (p : Path) : Nat := if p.round then 64 else 4

/-- The bursts of a read of `n` bytes at `addr`. -/
def Dev.readSplit (d : Dev) (p : Path) (f addr n : Nat) : List (Nat × Nat) := splitBursts (d.readLimit f) p.unit (n + 1) addr n

/-- Queues the write of `data` at `addr`; `who last` says what each burst is for. -/
def Dev.queueWrite (d : Dev) (path : Path) (f addr : Nat) (data : Bytes) (who : Bool → BurstFor) : Dev :=
  let l := splitBursts (d.writeLimit f) 1 (data.length + 1) addr data.length
  (l.foldl (fun (acc : Dev × Nat) (b : Nat × Nat) =>
    (acc.1.addBurst { path := path, fn := f, gen := d.gen f, write := true, addr := b.1, data := slice data acc.2 b.2,
                      len := b.2, for_ := who (acc.2 + b.2 == data.length) }, acc.2 + b.2)) (d, 0)).1

/-- Queues the reads of `n` bytes at `addr`, the first of which goes to place `pos`; answers how many. -/
def Dev.queueRead (d : Dev) (path : Path) (f addr n pos : Nat) (who : Nat → BurstFor) : Nat × Dev :=
  let l := d.readSplit path f addr n
  (l.length, (l.foldl (fun (acc : Dev × Nat) (b : Nat × Nat) =>
    (acc.1.addBurst { path := path, fn := f, gen := d.gen f, write := false, addr := b.1, data := [], len := b.2,
                      for_ := who acc.2 }, acc.2 + b.2)) (d, pos)).1)

/-! ## Queue pairs and completions -/

/-- A count modulo 2^32. -/
def inc32 (n : Nat) : Nat := (n + 1) % 2 ^ 32

/-- Distance of two free-running counts. -/
def sub32 (a b : Nat) : Nat := (a + 2 ^ 32 - b % 2 ^ 32) % 2 ^ 32

/-- Key of a descriptor in flight. -/
def descKey (q : Nat) (rx : Bool) (idx : Nat) : Nat := (2 * q + b2n rx) * 2 ^ 32 + idx

/-- Descriptors of one side in flight: fetched and not yet completed (R300). -/
def Dev.descCount (d : Dev) (q : Nat) (rx : Bool) : Nat := d.dma.descs.countP fun _ x => x.qp == q && x.rx == rx

/-- Ring sizes of a queue pair: 2^(x + 6), larger x acting as 10 (R296). -/
def Dev.txSize (d : Dev) (q : Nat) : Nat := 2 ^ (min (d.get Fld.HIF_QP_CTX_TX_LOG2 q) 10 + 6)
def Dev.rxSize (d : Dev) (q : Nat) : Nat := 2 ^ (min (d.get Fld.HIF_QP_CTX_RX_LOG2 q) 10 + 6)

/-- A 64-bit address in words `w` and `w + 1` of a queue pair context. -/
def Dev.qpAddr (d : Dev) (q w : Nat) : Nat := (d.rd .HIF_QP_CTX q w).toNat + 2 ^ 32 * (d.rd .HIF_QP_CTX q (w + 1)).toNat

/-- The channel of a side (R263). -/
def Dev.qpChan (d : Dev) (q : Nat) (rx : Bool) : Nat :=
  if rx then d.get Fld.DMA_QP_CFG_RX_CHAN q else d.get Fld.DMA_QP_CFG_TX_CHAN q

/-- How the work of a side goes that is fetched now (R262). -/
def Dev.qpPath (d : Dev) (q : Nat) (rx : Bool) : Path :=
  { chan := d.qpChan q rx, round := d.on? Fld.DMA_QP_CFG_ROUND64 q, relaxed := d.on? Fld.DMA_QP_CFG_RO_EN q, queue := some (q, rx) }

/-- How the completion of a piece of work goes: on its channel, in its order, never with Relaxed Ordering (R250). -/
def Path.strict (p : Path) : Path := { p with relaxed := false }

/-- Writes a completion of eight words: the entry, and after it the write-back that counts it (R301 to R303). -/
def Dev.postCompletion (d : Dev) (path : Path) (q : Nat) (rx : Bool) (f : Nat) (ws : List Word) (status : Nat) : Dev :=
  let s := d.qp q
  let n := if rx then s.rxcTail else s.txcTail
  let size := if rx then d.rxSize q else d.txSize q
  let base := if rx then d.qpAddr q 10 else d.qpAddr q 6
  let d1 := d.setQp q (if rx then { s with rxcTail := inc32 n } else { s with txcTail := inc32 n })
  let d2 := d1.queueWrite path.strict f (base + 32 * (n % size)) (wordBytes ws) fun _ => .completion q status rx
  d2.queueWrite path.strict f (d.qpAddr q 12 + 4 * b2n rx) (bytesLE 4 (inc32 n)) fun _ => .writeBack q rx

/-- Completes a transmit descriptor (R301, R302): egress stamp if it has one, status, bytes sent. -/
def Dev.txComplete (d : Dev) (q idx : Nat) (st : Status) (stamp : Option Stamp) (late : Bool) (sent : Nat) : Dev :=
  match d.dma.descs.look? (descKey q false idx) with
  | none => d
  | some x =>
    let d1 : Dev := { d with dma := { d.dma with descs := d.dma.descs.erase (descKey q false idx) } }
    let ws := stampWords (stamp.getD 0) ++
      [toWord (x.tag * 2 ^ 16 + st.code), toWord (b2n stamp.isSome * 2 ^ 26 + b2n late * 2 ^ 25 + sent), 0, 0,
       toWord (idx % d.txSize q)]
    if d.gen x.fn = x.gen then d1.postCompletion x.path q false x.fn ws st.code else d1

/-- The transmit completion that a host frame still owes when it leaves a port (R301, R48) or ends (`stamp` none). Of several copies
the first to leave gives the stamp, a mirror copy as any (DESIGN CHOICE, log entry 43). -/
def Dev.frameComplete (d : Dev) (id : Nat) (stamp : Option Stamp) (sent : Nat) : Dev :=
  match d.frame? id with
  | none => d
  | some f =>
    match f.host with
    | some h =>
      if h.wantStamp && !h.completed then
        (d.updFrame id fun x => { x with host := some { h with completed := true } }).txComplete h.qp h.idx .ok stamp (lgOn f.lg lgLate) sent
      else d
    | none => d

/-! ## The end of frames and copies -/

/-- A copy has left the device, or has been handed on: the held bytes of its frame's port fall if it was the last one (R50, R369). -/
def Dev.copyLeft (d : Dev) (c : Copy) : Dev :=
  match d.frame? c.frame with
  | some f => d.fcFall f.inPort
  | none => d

/-- Removes a frame: its buffers go back, a completion it owes is written (R243, R301), and its port's held bytes fall (R369). -/
def Dev.endFrame (d : Dev) (id : Nat) : Dev :=
  match d.frame? id with
  | none => d
  | some f =>
    let d1 := (d.frameComplete id none 0).freeShare f.chain f.party
    ({ d1 with frames := d1.frames.erase id } : Dev).fcFall f.inPort

/-- Drops a frame: FRAME_DROP record, then its end. -/
def Dev.dropFrame (d : Dev) (id src : Nat) (reason : Word) : Dev :=
  match d.frame? id with
  | none => d
  | some f => (d.logDrop src f.owner f.lg reason).endFrame id

/-- A copy whose share a party holds gives it up; the frame's chain is gone with the last share (R243). -/
def Dev.dropShare (d : Dev) (frame party : Nat) : Dev :=
  match d.frame? frame with
  | none => d
  | some f =>
    let d1 := d.freeShare f.chain party
    if (d1.copies.first? fun _ x => x.frame == frame && !x.own).isSome then d1 else d1.updFrame frame fun x => { x with chain := [] }

/-- A frame, or a copy with its share and its own buffers, is handed on to a party (R243). -/
def Dev.moveFrame (d : Dev) (id party : Nat) : Dev :=
  match d.frame? id with
  | none => d
  | some f => (d.updFrame id fun x => { x with party := party }).handOver f.chain f.party party
def Dev.moveCopy (d : Dev) (id party : Nat) : Dev :=
  match d.copy? id with
  | none => d
  | some c =>
    let d1 := (d.updCopy id fun x => { x with party := party }).handOver c.hdr c.party party
    if c.own then d1 else d1.handOver (((d.frame? c.frame).map (·.chain)).getD []) c.party party

/-- Removes a copy; the frame ends with its last copy (R50, R243). -/
def Dev.endCopy (d : Dev) (id : Nat) : Dev :=
  match d.copy? id with
  | none => d
  | some c =>
    let d1 := ({ d with copies := d.copies.erase id } : Dev).freeShare c.hdr c.party
    let d2 := if c.own then d1 else d1.dropShare c.frame c.party
    if (d2.copies.first? fun _ x => x.frame == c.frame).isSome then d2.copyLeft c else d2.endFrame c.frame

/-- The owner of a copy's frame (R315). -/
def Dev.ownerOf (d : Dev) (c : Copy) : Nat := ((d.frame? c.frame).map (·.owner)).getD (lgGet c.lg lgFunction)

/-- Drops a copy: FRAME_DROP record, then its end. -/
def Dev.dropCopy (d : Dev) (id src : Nat) (reason : Word) : Dev :=
  match d.copy? id with
  | none => d
  | some c => (d.logDrop src (d.ownerOf c) c.lg reason).endCopy id

/-! ## Into the cipher engine -/

/-- Replaces the cipher engine's state. -/
def Dev.setCip (d : Dev) (f : Cip → Cip) : Dev := { d with cip := f d.cip }

/-- The engine admits work (R185). -/
def Dev.cipOn (d : Dev) : Bool := d.on? Fld.CIP_CTRL_ENABLE && d.available 4

/-- The engine takes work: it admits, or its island is being brought up and the work waits at its ring repeater (R401). -/
def Dev.cipTakes (d : Dev) : Bool := d.on? Fld.CIP_CTRL_ENABLE && (d.available 4 || d.rising 4)

/-- A frame that needs the engine is dropped while it takes nothing (R185, R321). -/
def Dev.cipRefused (d : Dev) : Dev := d.bump .CIP_ADMIT_DROP

/-- DATA0 of a drop by the cipher engine. -/
def cipReason (d : Dev) (k : Nat) : Word := if d.available 4 then Config.dropReason k else 0x00040000

/-- Subject of an operation in a queue or core is given up: its frame or copy is dropped. -/
def Dev.dropSubject (d : Dev) (s : CipSubject) (reason : Word) : Dev :=
  match s with
  | .tx c => d.dropCopy c 43 reason
  | .espOut c => d.dropCopy c 43 reason
  | .rx f => d.dropFrame f 43 reason
  | .espIn f => d.dropFrame f 43 reason
  | .tls _ => d

/-- A key slot. -/
def Dev.slot (d : Dev) (k : Nat) : KeySlot := d.cip.slots.getD k {}

/-- Replaces a slot. -/
def Dev.setSlot (d : Dev) (k : Nat) (s : KeySlot) : Dev := d.setCip fun c => { c with slots := c.slots.putD {} k s }

/-- Fields of a key record (R188). -/
def krWord (r : List Word) (i : Nat) : Word := r.getD i 0
def krType (r : List Word) : Nat := bitsOf (krWord r 0) 31 28
def krShared (r : List Word) : Bool := (krWord r 0).getLsbD 24
def krOwner (r : List Word) : Nat := bitsOf (krWord r 0) 9 0

/-- Whether function `f` may use a slot for the frames of the function (R189, R21). -/
def espHeld (s : KeySlot) (f : Nat) : Bool :=
  (krType s.record == 3 || krType s.record == 4) && (krOwner s.record == f || krShared s.record)

/-- Slot `k` is one of ESP type `want` that the function may use (R189, R198). -/
def Dev.espFits (d : Dev) (k fn want : Nat) : Bool := espHeld (d.slot k) fn && krType (d.slot k).record == want

/-- A slot admits ESP operations of type `want` of the function (R190). -/
def Dev.espAdmits (d : Dev) (k fn want : Nat) : Bool := d.espFits k fn want && (d.slot k).state == 1

/-- What an ESP operation of type `want` that a slot does not admit is counted as, by all that holds of it: the slot is not the
function's (R21); it is not ACTIVE or of another type (R190); another type is a combination that R198 does not list. With DATA0
of the drop. -/
def Dev.espRefused (d : Dev) (k fn want : Nat) : Dev × Word :=
  let held := espHeld (d.slot k) fn
  let fits := krType (d.slot k).record == want
  let d1 := if held then d else d.bump .FNC_ISOLATION_DROP fn
  let d2 := if fits && (d.slot k).state == 1 then d1 else d1.bump .CIP_SLOT_DROP
  (if fits then d2 else d2.bump .CIP_ESP_DROP, Config.dropReason (if !held then 6 else if fits then 12 else 13))

/-- A frame or copy for ESP joins the queue, or is dropped (R184). -/
def Dev.espEnqueue (d : Dev) (fn : Nat) (s : CipSubject) : Dev :=
  if !d.cipTakes || d.cip.espQ.length ≥ 2048 then d.cipRefused.dropSubject s (cipReason d 11)
  else d.setCip fun c => { c with espQ := c.espQ ++ [(fn, s)] }

end Sys2Proof.Machine
end

