-- ==== Sys2Proof/Machine/PoolOps.lean ====
section
/-!
DEFINITION. Where buffers lie (R135, R235, R236): pools that overlap, or that reach into the table partition, share memory, and
what is written through one is then read through the other.
-/
namespace Sys2Proof.Machine

/-- Bytes of the packet buffer (R135); the table partition begins behind them. -/
def Dev.packetBytes (d : Dev) : Nat := clampTo 2 15 (d.get Fld.TBL_PARTITION_PB_UNITS) * 2 ^ 24

/-- First byte of a buffer of the stacked SRAM (R235). -/
def Dev.bufAddr (d : Dev) (h : Nat) : Nat := d.get Fld.BPM_POOL_BASE_BASE (poolOf h) * 65536 + h % 2 ^ 30 * poolSize (poolOf h)

/-- First byte of a pool, and the byte after it. -/
def Dev.poolSpan (d : Dev) (i : Nat) : Nat × Nat := (d.bufAddr (i * 2 ^ 30), d.bufAddr (i * 2 ^ 30) + d.poolCount i * poolSize i)

/-- No pool meets another or leaves the packet buffer, and every buffer in use lies in its pool: writes meet nothing else. -/
def Dev.poolsApart (d : Dev) : Bool :=
  ((List.range 4).all fun i => decide ((d.poolSpan i).2 ≤ d.packetBytes) &&
    (List.range i).all fun j => decide ((d.poolSpan i).2 ≤ (d.poolSpan j).1) || decide ((d.poolSpan j).2 ≤ (d.poolSpan i).1)) &&
  d.bpm.grants.cells.all fun c => decide (c.1 % 2 ^ 30 < d.poolCount (poolOf c.1))

/-- The stretches of memory that `n` bytes fill in a chain, each buffer before the next (R236): address, offset, length. -/
def Dev.stretches (d : Dev) : List Nat → Nat → Nat → List (Nat × Nat × Nat)
  | [], _, _ => []
  | h :: rest, off, n =>
    if n = 0 then []
    else
      let k := min n (poolSize (poolOf h))
      (d.bufAddr h, off, k) :: d.stretches rest (off + k) (n - k)

/-- Bytes that lie in stretches of memory, after `data` has been written at address `a`. -/
def overlay (l : List (Nat × Nat × Nat)) (a : Nat) (data : Bytes) (bs : Bytes) : Bytes :=
  l.foldl (fun b s =>
    let lo := max s.1 a
    let hi := min (s.1 + s.2.2) (a + data.length)
    if lo < hi then overwrite b (s.2.1 + (lo - s.1)) (slice data (lo - a) (hi - lo)) else b) bs

/-- The change from `old` to `new` carried over to bytes that hold the same `shift` places further on. -/
def carryOver (old new : Bytes) (shift : Int) (bs : Bytes) : Bytes :=
  (List.range old.length).foldl (fun b i =>
    if byteAt old i = byteAt new i || ((i : Int) + shift < 0) then b else b.set ((i : Int) + shift).toNat (byteAt new i)) bs

/-- A copy whose bytes have not been read from the packet buffer yet. -/
def Copy.inBuffer (c : Copy) : Bool :=
  match c.stage with
  | .buffers => true
  | .esp => true
  | .admitting => true
  | .queued _ => true
  | .dma _ => true
  | _ => false

/-- A copy after the memory under it has changed: its own buffers, and the payload it shares with its frame (R173, R243). -/
def Dev.copyOverlay (d : Dev) (a : Nat) (data : Bytes) (c : Copy) : Copy :=
  if !c.inBuffer then c
  else
    match (if c.own then none else d.frame? c.frame) with
    | none => { c with bytes := overlay (d.stretches c.hdr 0 c.bytes.length) a data c.bytes }
    | some f =>
      let shift : Int := if c.mirror && !c.encap then 0 else (c.bytes.length : Int) - f.bytes.length
      let b := if c.encap then overlay (d.stretches c.hdr 0 shift.toNat) a data c.bytes else c.bytes
      { c with bytes := carryOver f.bytes (overlay (d.stretches f.chain 0 f.bytes.length) a data f.bytes) shift b }

/-- What the packet buffer holds of frames and copies, after `data` has been written at address `a`. -/
def Dev.frameOverlay (d : Dev) (a : Nat) (data : Bytes) : Dev :=
  { d with copies := d.copies.mapVals fun _ c => d.copyOverlay a data c,
           frames := d.frames.mapVals fun _ f => { f with bytes := overlay (d.stretches f.chain 0 f.bytes.length) a data f.bytes } }

/-- The eight words of an entry in its slot (R138); of an empty slot only the spill flags. -/
def slotWords (e : Option Entry) (spill : Nat) : List Word :=
  let key (k : Nat) : List Word := (List.range 4).map fun i => toWord (k / 2 ^ (32 * (3 - i)))
  match e with
  | none => [0, 0, 0, 0, 0, 0, toWord (spill % 2 * 2 ^ 9 + spill / 2 * 2 ^ 8), 0]
  | some x =>
    key x.key ++ [toWord x.result, toWord (x.result / 2 ^ 32),
      toWord (2 ^ 31 + b2n x.static * 2 ^ 30 + b2n x.ageEn * 2 ^ 29 + b2n x.frozen * 2 ^ 28 + b2n x.moved * 2 ^ 27 + b2n x.stampOld * 2 ^ 26
        + x.table * 2 ^ 20 + x.fn * 2 ^ 10 + spill % 2 * 2 ^ 9 + spill / 2 * 2 ^ 8 + x.age % 256),
      toWord x.qual]

/-- The entry that eight words are, none while VALID is 0, and the spill flags (R138). -/
def slotOfWords (w : List Word) : Option Entry × Nat :=
  let s := w.getD 6 0
  (if s.getLsbD 31 then
    some { key := (List.range 4).foldl (fun k i => k * 2 ^ 32 + (w.getD i 0).toNat) 0, result := (w.getD 4 0).toNat + 2 ^ 32 * (w.getD 5 0).toNat,
           static := s.getLsbD 30, ageEn := s.getLsbD 29, frozen := s.getLsbD 28, moved := s.getLsbD 27, stampOld := s.getLsbD 26,
           table := bitsOf s 25 20, fn := bitsOf s 19 10, age := bitsOf s 7 0, qual := (w.getD 7 0).toNat }
  else none, bitsOf s 9 9 + 2 * bitsOf s 8 8)

/-- The bytes of slot `k` of the table partition, each word in little-endian order (DESIGN CHOICE, log entry 50). -/
def Dev.slotBytes (d : Dev) (k : Nat) : Bytes :=
  wordBytes (slotWords (d.tbl.slots.look? k) (if k % 4 = 0 then d.tbl.spill.getD (k / 4) 0 else 0))

/-- The table slots after `data` has been written at address `a` of the stacked SRAM. -/
def Dev.tableOverlay (d : Dev) (a : Nat) (data : Bytes) : Dev :=
  let base := d.packetBytes
  let hi := min (a + data.length) (2 ^ 28)
  if hi ≤ base then d
  else
    let lo := max a base
    (List.range ((hi - 1 - base) / 32 + 1 - (lo - base) / 32)).foldl (fun x i =>
      let k := (lo - base) / 32 + i
      let (e, spill) := slotOfWords (wordsOf (overlay [(base + 32 * k, 0, 32)] a data (x.slotBytes k)) 8)
      { x with tbl := { x.tbl with slots := match e with
                                             | some e => x.tbl.slots.put k e
                                             | none => x.tbl.slots.erase k,
                                   spill := if k % 4 = 0 then x.tbl.spill.putD 0 (k / 4) spill else x.tbl.spill } }) d

/-- `data` is written from offset `off` on into the buffers of a chain (R236). -/
def Dev.fillAt (d : Dev) (chain : List Nat) (off : Nat) (data : Bytes) : Dev :=
  if d.poolsApart then d
  else
    (d.stretches chain 0 (off + data.length)).foldl (fun x s =>
      let lo := max s.2.1 off
      let part := slice data (lo - off) (s.2.1 + s.2.2 - lo)
      (x.frameOverlay (s.1 + (lo - s.2.1)) part).tableOverlay (s.1 + (lo - s.2.1)) part) d

/-- `data` is written into the buffers of a chain (R236). -/
def Dev.fill (d : Dev) (chain : List Nat) (data : Bytes) : Dev := d.fillAt chain 0 data

/-- Slot `k` of the table partition has been written. -/
def Dev.slotWritten (d : Dev) (k : Nat) : Dev := if d.poolsApart then d else d.frameOverlay (d.packetBytes + 32 * k) (d.slotBytes k)

/-- The four slots of buckets have been written. -/
def Dev.bucketsWritten (d : Dev) (l : List Nat) : Dev :=
  if d.poolsApart then d else l.foldl (fun x b => [0, 1, 2, 3].foldl (fun y i => y.slotWritten (4 * b + i)) x) d

end Sys2Proof.Machine
end

