-- ==== Sys2Proof/Machine/ThreadOps.lean ====
section
/-!
DEFINITION. Hardware threads (R61 to R82, R91 to R103): states, issue, registers, scratch, the event unit, channels,
thread faults, dispatch, and the ends of a frame's handling (R100, R118).
-/
namespace Sys2Proof.Machine

/-! ## Threads -/

/-- The state of a thread. -/
def Dev.thread (d : Dev) (t : Nat) : Thread := d.pca.threads.getD t {}

/-- Replaces the state of a thread. -/
def Dev.setThread (d : Dev) (t : Nat) (x : Thread) : Dev :=
  { d with pca := { d.pca with threads := d.pca.threads.putD {} t x } }

/-- Changes a thread. -/
def Dev.updThread (d : Dev) (t : Nat) (f : Thread → Thread) : Dev := d.setThread t (f (d.thread t))

/-- Core, cluster and region of a thread (R61). -/
def coreOf (t : Nat) : Nat := t / 4
def clusterOf (t : Nat) : Nat := t / 32
def regionOf (t : Nat) : Nat := t / 128

/-- STATE of a thread (R68). -/
def Dev.threadState (d : Dev) (t : Nat) : Nat :=
  let x := d.thread t
  if x.halted then 5
  else if x.frame.isNone then (if d.on? Fld.PCA_THREAD_CTRL_ENABLE t then 1 else 0)
  else
    match x.pend with
    | .none => 2
    | .evt .. => 4
    | .reserve .. => 4
    | .read .. => 4
    | _ => 3

/-- The value of gN; g0 reads 0 (R62). -/
def Thread.reg (x : Thread) (n : Nat) : Word := if n = 0 then 0 else x.g.getD n 0

/-- Writes gN; a write to g0 is discarded. -/
def Thread.setReg (x : Thread) (n : Nat) (v : Word) : Thread := if n = 0 then x else { x with g := x.g.putD 0 n v }

/-- Writes consecutive registers. -/
def Thread.setRegs (x : Thread) (n : Nat) : List Word → Thread
  | [] => x
  | v :: rest => (x.setReg n v).setRegs (n + 1) rest

/-- The candidate of a slot that its owner does not take (R69): a READY thread of high priority, the current thread, or the one
switched to; none while no thread is READY. After none, the switch begins at thread 0 (DESIGN CHOICE, log entry 44). -/
def CoreSt.candidate (c : CoreSt) (ready hi : Nat → Bool) : Option Nat × CoreSt :=
  if (List.range 4).any hi then
    let h := if hi c.hiCurrent then c.hiCurrent else (roundRobin 4 (c.hiCurrent + 1) hi).getD 0
    (some h, { c with hiCurrent := h })
  else if (c.current.map ready).getD false then (c.current, c)
  else
    let k := roundRobin 4 (c.current.getD 3 + 1) ready
    (k, { c with current := k })

/-- The thread of the core that the next issuing slot takes, and the core at that slot (R69): the owner of the position, the
candidate, or a thread the slot is lent to; slots that are empty count. `stall k` is the slot count at which a short stall of
thread `k` has ended. -/
def CoreSt.choose (slotN : Nat) (ready hi : Nat → Bool) (stall : Nat → Nat) : Nat → CoreSt → Option (Nat × CoreSt)
  | 0, _ => none
  | fuel + 1, c =>
    let can (k : Nat) : Bool := ready k && decide (stall k ≤ c.slotCount)
    let pos := c.slotCount % slotN
    if pos < 4 && can pos then some (pos, c)
    else
      match c.candidate ready hi with
      | (none, _) => none
      | (some k, c1) =>
        if can k then some (k, c1)
        else
          match roundRobin 4 (k + 1) can with
          | some l => some (l, c1)
          | none => CoreSt.choose slotN ready hi stall fuel { c1 with slotCount := c1.slotCount + 1 }

/-- The state of a core. -/
def Dev.core (d : Dev) (n : Nat) : CoreSt := d.pca.cores.getD n {}

/-- Replaces the state of a core. -/
def Dev.setCore (d : Dev) (n : Nat) (c : CoreSt) : Dev := { d with pca := { d.pca with cores := d.pca.cores.putD {} n c } }

/-- Which thread of a core issues next (R69); a short stall ends within 3 slots, so the fifth slot issues at the latest. -/
def Dev.nextIssue (d : Dev) (core : Nat) : Option (Nat × CoreSt) :=
  let ready (k : Nat) : Bool := d.threadState (4 * core + k) == 2
  CoreSt.choose (clampTo 4 16 (d.get Fld.PCA_CORE_CFG_SLOT_N core)) ready
    (fun k => ready k && d.on? Fld.PCA_THREAD_CTRL_PRIO (4 * core + k)) (fun k => (d.thread (4 * core + k)).stallTo) 5 (d.core core)

/-- The next issuing slot of its core is thread `t`'s. -/
def Dev.mayIssue (d : Dev) (t : Nat) : Bool := (d.nextIssue (coreOf t)).any fun r => r.1 == t % 4

/-- The core after the slot that thread `t` takes. -/
def Dev.issueTo (d : Dev) (t : Nat) : Dev :=
  match d.nextIssue (coreOf t) with
  | some (_, c) => d.setCore (coreOf t) { c with slotCount := c.slotCount + 1 }
  | none => d

/-- While no thread of a core is READY, it has no current thread (R69). -/
def Dev.settleCore (d : Dev) (core : Nat) : Dev :=
  if (d.core core).current.isSome && (List.range 4).all fun k => d.threadState (4 * core + k) != 2 then
    d.setCore core { d.core core with current := none }
  else d

/-! ## Program counter, loops -/

/-- Arrival at `pc` in sequence or by a return: active loops whose body ends there run again or end (R96 LOOP). -/
def arrive (pc depth : Nat) : List LoopRec → Nat × List LoopRec
  | [] => (pc, [])
  | l :: rest =>
    if l.depth = depth && pc = l.start + l.body then
      if l.left > 1 then (l.start, { l with left := l.left - 1 } :: rest) else arrive pc depth rest
    else (pc, l :: rest)

/-- The thread goes on at `pc`, reached in sequence or by a return. -/
def Thread.goSeq (x : Thread) (pc : Nat) : Thread :=
  let (p, l) := arrive (pc % 16384) x.rets.length (x.loops.filter fun r => r.depth ≤ x.rets.length)
  { x with pc := p, loops := l }

/-- The thread goes on at the next instruction. -/
def Thread.next (x : Thread) : Thread := x.goSeq (x.pc + 1)

/-- A taken branch or jump: loops of this call depth whose body it leaves end (R96 LOOP). -/
def Thread.goTo (x : Thread) (pc : Nat) : Thread :=
  let p := pc % 16384
  { x with pc := p, loops := x.loops.filter fun r => r.depth ≠ x.rets.length || (r.start ≤ p && p < r.start + r.body) }

/-- The inset whose programs the thread runs. -/
def Dev.insetOf (d : Dev) (x : Thread) : Option Inset := x.inset.bind fun i => d.pca.insets.look? i

/-- The class map's entry for a class, and the hook `n` of a function, as they stood at the thread's dispatch. -/
def Dev.classBind (d : Dev) (x : Thread) (f cls : Nat) : Option ClassBind :=
  ((d.pca.classMap.getD (4096 * f + cls) []).find? fun b => b.1 ≤ x.born).map (·.2)
def Dev.hookBind (d : Dev) (x : Thread) (f n : Nat) : Option Hook :=
  ((d.pca.hooks.getD (4 * f + n) []).find? fun b => b.1 ≤ x.born).bind (·.2)

/-- Base of the inset's text in the thread's cluster. -/
def Dev.insetBase (d : Dev) (t : Nat) (x : Thread) : Nat := ((d.insetOf x).map fun i => i.base.getD (clusterOf t) 0).getD 0

/-- Absolute index of a jump or call target: relative to the inset's text in inset mode (R95). -/
def Dev.target (d : Dev) (t : Nat) (x : Thread) (target : Nat) : Nat :=
  if x.insetMode then d.insetBase t x + target else target

/-! ## Exceptions, events -/

/-- FUNCTION of the frame that a thread holds. -/
def Dev.threadFn (d : Dev) (t : Nat) : Option Nat :=
  (d.thread t).frame.bind fun f => (d.frame? f).map fun fr => lgGet fr.lg lgFunction

/-- An EXCEPTION record of a region (R55). -/
def Dev.logExc (d : Dev) (t : Nat) (d0 d1 d2 : Word) : Dev := d.logNow 0x12 (32 + regionOf t) (d.threadFn t) d0 d1 d2

/-- The lowest set bit below 64. -/
def lowestBit (v : Nat) : Option Nat := (List.range 64).find? v.testBit

/-- Completes an event wait that a pending event ends (R73, R79). -/
def Thread.wake (x : Thread) : Thread :=
  match x.pend with
  | .evt mask dst =>
    match lowestBit (x.events &&& (mask ||| 2 ^ 61)) with
    | some e => { x.setReg dst (toWord e) with events := x.events ^^^ 2 ^ e, pend := .none }
    | none => x
  | .reserve _ _ st => if x.events.testBit 61 then { x.setReg st 0 with events := x.events ^^^ 2 ^ 61, pend := .none } else x
  | .read _ _ st => if x.events.testBit 61 then { x.setReg st 0 with events := x.events ^^^ 2 ^ 61, pend := .none } else x
  | _ => x

/-- Sets an event pending in a thread (R72, R73). -/
def Dev.raise (d : Dev) (t e : Nat) : Dev := d.updThread t fun x => ({ x with events := x.events ||| 2 ^ e } : Thread).wake

/-- Raises an event in every thread of a cluster that a mask names (R71). -/
def Dev.raiseMask (d : Dev) (cluster : Nat) (mask : Word) (e : Nat) : Dev :=
  (List.range 32).foldl (fun x i => if mask.getLsbD i then x.raise (32 * cluster + i) e else x) d

/-! ## Channels -/

/-- Slots of a channel held by live reservations (RESERVED of R83). -/
def Dev.chanReserved (d : Dev) (n : Nat) : Nat :=
  ((List.range 32).map fun i => ((d.thread (32 * (n / 8) + i)).rv.countP fun _ r => r.live && r.chan == n)).foldl (· + ·) 0

/-- Committed entries of a channel, oldest first. -/
def Dev.chanEntries (d : Dev) (n : Nat) : List (List Word) := d.pca.chans.getD n []

/-- Replaces the committed entries of a channel. -/
def Dev.setChan (d : Dev) (n : Nat) (l : List (List Word)) : Dev :=
  { d with pca := { d.pca with chans := d.pca.chans.putD [] n l } }

/-- DEPTH of a channel; 0 and values above 128 act as 128 (R88). -/
def Dev.chanDepth (d : Dev) (n : Nat) : Nat :=
  let v := d.get Fld.PCA_CHAN_CFG_DEPTH n
  if v = 0 || v > 128 then 128 else v

/-- Takes a slot into a reservation register, if one is free; its contents are what the memory held (log entry 2). -/
def Dev.tryReserve (d : Dev) (t n rv : Nat) : Option Dev :=
  if d.chanReserved n + (d.chanEntries n).length < d.chanDepth n then
    let (a, d1) := d.drawWord
    let (b, d2) := d1.drawWord
    let (c, d3) := d2.drawWord
    let (e, d4) := d3.drawWord
    some (d4.updThread t fun x => { x with rv := x.rv.put rv { chan := n, live := true, data := [a, b, c, e] } })
  else none

/-- Threads of a cluster that are blocked in a reserve of channel `n` try again, lower core and thread first (R75, R76). -/
def Dev.retryReserves (d : Dev) (n : Nat) : Dev :=
  (List.range 32).foldl (fun (x : Dev) i =>
    let t := 32 * (n / 8) + i
    match (x.thread t).pend with
    | .reserve ch rv st =>
      if ch = n then
        match x.tryReserve t n rv with
        | some y => y.updThread t fun z => { z.setReg st 1 with pend := .none }
        | none => x
      else x
    | _ => x) d

/-- A slot of channel `n` has been freed: CH_SPACE is raised, and blocked reserves try again (R71, R75). -/
def Dev.chanSpace (d : Dev) (n : Nat) : Dev :=
  (d.raiseMask (n / 8) (d.rd .PCA_CHAN_WRITERS n) (40 + n % 8)).retryReserves n

/-- Threads blocked in a read of channel `n` take entries, lower core and thread first (R75, R76). -/
def Dev.retryReads (d : Dev) (n : Nat) : Dev :=
  (List.range 32).foldl (fun (x : Dev) i =>
    let t := 32 * (n / 8) + i
    match (x.thread t).pend with
    | .read ch dst st =>
      if ch = n then
        match x.chanEntries n with
        | e :: rest => ((x.setChan n rest).updThread t fun z => { (z.setRegs dst e).setReg st 1 with pend := .none }).chanSpace n
        | [] => x
      else x
    | _ => x) d

/-- A commit to channel `n`: the entry joins the visible order and CH_DATA is raised (R75). -/
def Dev.chanCommit (d : Dev) (n : Nat) (e : List Word) : Dev :=
  ((d.setChan n (d.chanEntries n ++ [e])).raiseMask (n / 8) (d.rd .PCA_CHAN_READERS n) (32 + n % 8)).retryReads n

/-- Releases every live reservation of a thread (R81). -/
def Dev.abandon (d : Dev) (t : Nat) : Dev :=
  let held := (d.thread t).rv.cells.filter fun c => c.2.live
  held.foldl (fun (x : Dev) c =>
    let y := x.updThread t fun z => { z with rv := z.rv.put c.1 { c.2 with live := false } }
    (y.bump .PCA_CHAN_ABANDON (clusterOf t)).chanSpace c.2.chan) d

/-- Releases them while the thread's own blocked RESERVE, if it waits in one, takes none of the slots that come free (R81; DEDUCED,
log entry 44). -/
def Dev.abandonHeld (d : Dev) (t : Nat) : Dev :=
  match (d.thread t).pend with
  | .reserve ch rv st =>
    ((d.updThread t fun x => { x with pend := .none }).abandon t).updThread t fun x => { x with pend := .reserve ch rv st }
  | _ => d.abandon t

/-- A thread that waits in a RESERVE when it runs again tries it at once: CH_SPACE was set pending meanwhile (R80). -/
def Dev.resumeReserve (d : Dev) (t : Nat) : Dev :=
  match (d.thread t).pend with
  | .reserve ch _ _ => d.retryReserves ch
  | _ => d

/-- ENABLE of a channel goes to 0: entries and reservations are discarded, blocked threads are released (R78). -/
def Dev.chanDisable (d : Dev) (n : Nat) : Dev :=
  (List.range 32).foldl (fun (x : Dev) i =>
    let t := 32 * (n / 8) + i
    x.updThread t fun z =>
      let z1 : Thread := { z with rv := z.rv.mapVals fun _ r => if r.chan = n then { r with live := false } else r }
      match z1.pend with
      | .reserve ch _ st => if ch = n then { z1.setReg st 0 with pend := .none } else z1
      | .read ch _ st => if ch = n then { z1.setReg st 0 with pend := .none } else z1
      | _ => z1) (d.setChan n [])

/-! ## Leaving a frame -/

/-- The thread gives up its frame: reservations are released, outstanding requests discarded, and it returns to IDLE
(R67, R81, R103). A thread halted meanwhile stays halted (R317). -/
def Dev.freeThread (d : Dev) (t : Nat) : Dev :=
  let d1 := (d.updThread t fun x => { x with pend := .none }).abandon t
  let d2 := d1.updThread t fun x =>
    { halted := x.halted, haltAt := x.haltAt, stepping := x.stepping, events := x.events, timer := x.timer }
  ({ d2 with pca := { d2.pca with reqs := d2.pca.reqs.keep fun _ r => r.thread != t } } : Dev).settleCore (coreOf t)

/-- The THREAD_FAULT event: faults since the last one, at most one in 10 ms (R342). -/
def Dev.faultEvent (d : Dev) (f : Nat) : Dev :=
  let (n, last) := d.vcl.faults.getD f (0, none)
  if (last.map fun t => decide (t + 10000000 ≤ d.ref)).getD true then
    ({ d with vcl := { d.vcl with faults := d.vcl.faults.put f (0, some d.ref) } } : Dev).event (pfOf f) 0x8009
      (wordBytes [toWord f, toWord (n + 1)])
  else { d with vcl := { d.vcl with faults := d.vcl.faults.put f (n + 1, last) } }

/-- Requests of a thread whose replies are outstanding (R70). -/
def Dev.lookOut (d : Dev) (t : Nat) : Nat := d.pca.reqs.countP fun _ r => r.thread == t

/-- A thread fault (R103). -/
def Dev.threadFault (d : Dev) (t cause : Nat) : Dev :=
  let x := d.thread t
  match x.frame with
  | none => d
  | some id =>
    let f := (d.threadFn t).getD 0
    let d1 := d.bump .FNC_THREAD_FAULT f
    let d2 := d1.logExc t (toWord (0x300 + cause)) (toWord t) (toWord (x.pc + b2n x.insetMode * 2 ^ 31))
    let d3 := d2.dropFrame id (32 + regionOf t) (toWord (0x00020000 + cause))
    (d3.freeThread t).faultEvent f

/-! ## Region queues (R63 to R66) -/

/-- The region that takes a legend sent to region `r`: `r`, or the lowest-numbered one that takes legends (R23, R403). -/
def Dev.liveRegion (d : Dev) (r : Nat) : Nat :=
  if d.regionUp r then r else ((List.range 4).find? d.regionUp).getD r

/-- Legends queued in a region. -/
def Dev.rqLevel (d : Dev) (r : Nat) : Nat := ((List.range 16).map fun g => (d.pca.rq.getD (16 * r + g) []).length).foldl (· + ·) 0

/-- A thread's GROUP_MASK accepts a group (R65). -/
def Dev.acceptsGroup (d : Dev) (t g : Nat) : Bool := (d.rd .PCA_THREAD_CTRL t).getLsbD g

/-- Some enabled thread of the region accepts the group (R66). -/
def Dev.regionAccepts (d : Dev) (r g : Nat) : Bool :=
  (List.range 128).any fun i => d.on? Fld.PCA_THREAD_CTRL_ENABLE (128 * r + i) && d.acceptsGroup (128 * r + i) g

/-- A legend joins its sub-queue, or is dropped with its frame (R64, R66). Its group is what PCA_FUNC_GROUP holds as it joins, a
recirculated or reinjected legend's too, though it was made before a write that lies between (DESIGN CHOICE, log entry 44). -/
def Dev.enqueueLegend (d : Dev) (id region : Nat) : Dev :=
  match d.frame? id with
  | none => d
  | some f =>
    let r := d.liveRegion region
    let g := d.get Fld.PCA_FUNC_GROUP_GROUP (lgGet f.lg lgFunction)
    if !d.regionAccepts r g then (d.bump .PCA_DISPATCH_DROP r).dropFrame id (32 + r) (Config.dropReason 1)
    else if d.rqLevel r ≥ 4096 then (d.bump .PCA_RQ_FULL_DROP r).dropFrame id (32 + r) (Config.dropReason 2)
    else
      let d1 := d.updFrame id fun x => { x with stage := .queued r g, since := d.ref }
      let d2 := d1.moveFrame id (100 + r)
      { d2 with pca := { d2.pca with rq := d2.pca.rq.putD [] (16 * r + g) (d2.pca.rq.getD (16 * r + g) [] ++ [id]) } }

/-- A region queue or another engine hands the frame on for a further traverse (R63, R131). -/
def Dev.recirculate (d : Dev) (id region : Nat) : Dev :=
  (d.updFrame id fun f => { f with lg := lgSet f.lg lgTraverse (lgGet f.lg lgTraverse + 1) }).enqueueLegend id region

/-! ## Sheets: the pin (R127) -/

/-- The two banks of a function. -/
def Dev.banks (d : Dev) (f : Nat) : Banks := d.cls.banks.getD f {}

/-- The sheet in force for a function at a stamp, 0 for none (R127, R60). -/
def Dev.pinFor (d : Dev) (f : Nat) (t : Stamp) : Nat :=
  let b := d.banks f
  let act (s : Option Sheet) : Nat :=
    match s with
    | some sh => if sh.since ≤ t then sh.num else 0
    | none => 0
  match b.other, b.swapAt with
  | .staged sh, some (at_, _) => if at_ ≤ t then sh.num else act b.active
  | .draining sh, _ => if act b.active = 0 then act (some sh) else act b.active
  | _, _ => act b.active

/-! ## Dispatch (R65, R91, R93) -/

/-- A thread may take a legend of group `g`. -/
def Dev.eligible (d : Dev) (g t : Nat) : Bool := d.threadState t == 1 && d.acceptsGroup t g

/-- The thread that R65 chooses in a region for a legend of group `g`. Its second step takes the core with the fewest non-IDLE
threads among those of the cluster that hold an eligible thread (DESIGN CHOICE, log entry 44). -/
def Dev.chooseThread (d : Dev) (r g : Nat) : Option Nat :=
  let start := match d.pca.rqCluster.look? (16 * r + g) with
    | some k => k + 1
    | none => 0
  let inCore (core : Nat) : Option Nat := ((List.range 4).map (4 * core + ·)).find? (d.eligible g)
  let busy (core : Nat) : Nat := ((List.range 4).filter fun k => d.threadState (4 * core + k) != 1).length
  match roundRobin 4 start fun k => (List.range 8).any fun c => (inCore (32 * r + 8 * k + c)).isSome with
  | none => none
  | some k =>
    let cores := ((List.range 8).map (32 * r + 8 * k + ·)).filter fun c => (inCore c).isSome
    let best := cores.foldl (fun b c => if busy c < busy b then c else b) (cores.headD 0)
    inCore best

/-- The set-up of a thread for a frame (R91, R93, R127, R101). -/
def Dev.setUpThread (d : Dev) (t id : Nat) (f : Frame) : Dev :=
  let fn := lgGet f.lg lgFunction
  let ins := d.pca.insetAt.look? (4 * fn + regionOf t)
  let inst := ins.bind fun i => d.pca.insets.look? i
  let parse := inst.bind fun i => (i.entries.find? fun e => e.1 == 1).map fun e => i.base.getD (clusterOf t) 0 + e.2.2
  let lg := if lgGet f.lg lgTraverse = 1 then lgSet f.lg lgSheet (d.pinFor f.owner (d.ingress f.lg)) else f.lg
  let old := d.thread t
  let d1 := d.setThread t
    { pc := parse.getD (Config.vendorParsePc % 0x1000), insetMode := parse.isSome, inset := ins, frame := some id,
      pw := slice f.bytes 0 256, limit := if ins.isSome then 512 else 1024, events := old.events,
      timer := old.timer, born := d.pca.binds, stepping := old.stepping, haltAt := old.haltAt }
  let d2 := d1.updFrame id fun x => { x with lg := lg, stage := .onThread t, since := d.ref }
  match inst with
  | none => d2
  | some i =>
    let base := 0x4000 * coreOf t + 0x800 * (t % 4)
    { d2 with pca := { d2.pca with scratch := d2.pca.scratch.keep fun k _ => !(base ≤ k && k < base + i.priv) } }

/-- One dispatch of a region (R65). -/
def Dev.dispatch (d : Dev) (r : Nat) : Dev :=
  if r < 4 && d.regionUp r then
    let head (g : Nat) : Option Nat := (d.pca.rq.getD (16 * r + g) []).head?
    let start := match d.pca.rqLast.look? r with
      | some g => g + 1
      | none => 0
    match roundRobin 16 start fun g => (head g).isSome && (d.chooseThread r g).isSome with
    | none => d
    | some g =>
      match head g, d.chooseThread r g with
      | some id, some t =>
        let d1 : Dev := { d with pca := { d.pca with
          rq := d.pca.rq.putD [] (16 * r + g) ((d.pca.rq.getD (16 * r + g) []).drop 1), rqLast := d.pca.rqLast.put r g } }
        match d.frame? id with
        | none => d1
        | some f =>
          if d.staleFrame f then d1.dropFrame id (32 + r) (d.staleReason f.owner)
          else
            ({ d1 with pca := { d1.pca with rqCluster := d1.pca.rqCluster.put (16 * r + g) (clusterOf t % 4) } } : Dev).setUpThread
              t id f
      | _, _ => d
  else d

/-! ## Halts (R80 to R82) -/

/-- Halts a thread and records it; `code` is DATA0 of the record (R80). -/
def Dev.haltThread (d : Dev) (t : Nat) : Dev :=
  (((d.updThread t fun x => { x with halted := true, stepping := false, haltAt := d.ref }).logExc t 0x100 (toWord t) 0).set
    Fld.SEC_STAT_JTAG_SEEN 0 1).settleCore (coreOf t)

/-- The end of an instruction: a STEP is over, and the thread halts again, with a stall it has met outstanding (R80). The 2^44 ns
of R82 run from the halt before the STEP (DESIGN CHOICE, log entry 44). -/
def Dev.endStep (d : Dev) (t : Nat) : Dev :=
  let d1 :=
    if (d.thread t).stepping then
      (d.updThread t fun x => { x with halted := true, stepping := false }).logExc t 0x100 (toWord t) 0
    else d
  d1.settleCore (coreOf t)

/-! ## Instructions -/

/-- Executes one instruction word of the thread whose slot is next (R69, R96, R101, R102): fetch and budget checks, then `body`
with the thread after the budget count. In inset mode the word must be the text's word at the program counter, and a word that
is no instruction for insets faults whichever row is sent; the vendor text is not given by the manual, so any word may stand
there (log entry 13). -/
def Dev.instr (d : Dev) (t : Nat) (w : Word) (legal : Bool) (body : Thread → Dev → Dev) : Dev :=
  if t < 512 && d.available (regionOf t) && d.threadState t == 2 && d.mayIssue t then
    let x := d.thread t
    let text : Option Word := if x.insetMode then
        (if d.insetBase t x ≤ x.pc then ((d.insetOf x).bind fun i => i.text[x.pc - d.insetBase t x]?) else none)
      else some w
    match x.frame.bind d.frame? with
    | none => d
    | some f =>
      if d.staleFrame f then
        let d1 := d.bump .FNC_MC_DROP (lgGet f.lg lgFunction)
        (d1.dropFrame (x.frame.getD 0) (32 + regionOf t) (d.staleReason f.owner)).freeThread t
      else
        match text with
        | none => ((d.issueTo t).threadFault t 0x02).endStep t
        | some v =>
          let bad := x.insetMode && !insetLegal v
          if v ≠ w && !bad then d
          else if x.budget ≥ x.limit then ((d.issueTo t).threadFault t 0x07).endStep t
          else if bad || !legal then ((d.issueTo t).threadFault t 0x01).endStep t
          else (body { x with budget := x.budget + 1 } (d.issueTo t)).endStep t
  else d

/-! ## Memories of a thread -/

/-- A place that an access reaches (R62, R94). -/
inductive MemAt where
  | scratch (key : Nat)
  | region (key : Nat)
  deriving DecidableEq, Repr

/-- Where an access of `n` bytes at `addr` goes; none when any byte is unmapped (R62, R94). -/
def Dev.mapAddr (d : Dev) (t : Nat) (x : Thread) (addr n : Nat) : Option MemAt :=
  let priv := 0x4000 * coreOf t + 0x800 * (t % 4)
  if x.insetMode then
    match d.insetOf x with
    | none => none
    | some i =>
      if addr + n ≤ i.priv then some (.scratch (priv + addr))
      else if 0x80000 ≤ addr && addr + n ≤ 0x80000 + i.rgn then
        some (.region (0x80000 * regionOf t + i.rgnBase.getD (regionOf t) 0 + (addr - 0x80000)))
      else none
  else if addr + n ≤ 0x800 then some (.scratch (priv + addr))
  else if 0x2000 ≤ addr && addr + n ≤ 0x4000 then some (.scratch (0x4000 * coreOf t + addr))
  else if 0x80000 ≤ addr && addr + n ≤ 0x100000 then some (.region (0x80000 * regionOf t + (addr - 0x80000)))
  else none

/-- Bytes of an access by size code: 0 byte, 1 half-word, 2 word, 3 the word of an atomic add. -/
def sizeBytes (sz : Nat) : Nat := if sz = 0 then 1 else if sz = 1 then 2 else 4

/-- The little-endian number in `n` bytes of a byte memory (R94). -/
def memRead (m : Tbl Byte) (key n : Nat) : Nat := natLE ((List.range n).map fun i => m.getD (key + i) 0)

/-- A byte memory after a little-endian store of `n` bytes. -/
def memWrite (m : Tbl Byte) (key n v : Nat) : Tbl Byte :=
  (List.range n).foldl (fun a i => a.putD 0 (key + i) (BitVec.ofNat 8 (v / 256 ^ i))) m

/-- One scratch or region store access: the value for gD (none for a plain store) and the memory after it. -/
def memAccess (m : Tbl Byte) (key : Nat) (w : Bool) (sz : Nat) (v : Word) : Option Word × Tbl Byte :=
  let n := sizeBytes sz
  let old := memRead m key n
  if w then
    if sz = 3 then (some (toWord old), memWrite m key n (old + v.toNat)) else (none, memWrite m key n v.toNat)
  else (some (toWord old), m)

/-- A register write that an access may make. -/
def Thread.result (x : Thread) (n : Nat) (v : Option Word) : Thread :=
  match v with
  | some w => x.setReg n w
  | none => x

/-! ## Legend stores (R98) -/

/-- Bits of each legend word that an inset may write (R19, R20). -/
def insetMask (word : Nat) : Word :=
  match word with
  | 5 => 0xFFFFFFFF | 6 => 0xFFFFFFFF | 7 => 0xFFF85740 | 8 => 0xFFFFFFFC | 9 => 0xFFFFFFFF
  | 12 => 0xFFFFFFFF | 13 => 0xFFFFFFFF | 14 => 0xFFFFFFFF | 15 => 0xFFFFFFFF | _ => 0

/-- Bits of each legend word that vendor microcode may write: those above and FRAGMENT (R19, R20, R98). -/
def vendorMask (word : Nat) : Word := if word = 7 then 0xFFF8D740 else insetMask word

end Sys2Proof.Machine
end

