-- ==== Sys2Proof/Machine/InsnOps.lean ====
section
/-!
DEFINITION. What thread instructions share (R96 to R99): register results, jumps, the return and loop stacks, memory
accesses, legend fields, lookup requests, channels and events.
-/
namespace Sys2Proof.Machine

/-- The instruction leaves thread `x` to go on at the next word. -/
def Dev.done (d : Dev) (t : Nat) (x : Thread) : Dev := d.setThread t x.next

/-- The same for an access to the window, the legend or scratch, which may leave a short stall of up to 3 slots (R62, R69); how
long, the manual leaves open (log entry 2). -/
def Dev.doneShort (d : Dev) (t : Nat) (x : Thread) : Dev :=
  let (n, d1) := d.drawNat
  d1.done t { x with stallTo := (d1.core (coreOf t)).slotCount + n % 4 }

/-- An instruction whose whole effect is a new value of gD. -/
def Dev.regInsn (d : Dev) (t : Nat) (w : Word) (dst : BitVec 5) (legal : Bool) (f : Thread → Word) : Dev :=
  d.instr t w legal fun x e => e.done t (x.setReg dst.toNat (f x))

/-- An ALU instruction (R96). -/
def Dev.alu (d : Dev) (t fn : Nat) (dst a b sh : BitVec 5) (f : Word → Word → Word) : Dev :=
  d.regInsn t (encAlu fn dst a b sh) dst true fun x => f (x.reg a.toNat) (x.reg b.toNat)

/-- An instruction with an immediate (R96). -/
def Dev.immInsn (d : Dev) (t op : Nat) (dst a : BitVec 5) (imm : BitVec 16) (legal : Bool) (f : Word → Word) : Dev :=
  d.regInsn t (encImm op dst a imm) dst legal fun x => f (x.reg a.toNat)

/-- BR (R96): OFF 0 and CND 6 and 7 are illegal. -/
def Dev.branch (d : Dev) (t : Nat) (cnd : BitVec 3) (a b : BitVec 5) (off : BitVec 13) : Dev :=
  d.instr t (encBr cnd a b off) (decide (off ≠ 0) && decide (cnd.toNat < 6)) fun x e =>
    if brHolds cnd (x.reg a.toNat) (x.reg b.toNat) then e.setThread t (x.goTo (brTarget x.pc off)) else e.done t x

/-- Pushes a return-stack entry, or faults (R93, R102). -/
def Dev.push (d : Dev) (t : Nat) (x : Thread) (r : RetRec) (k : Thread → Dev → Dev) : Dev :=
  if x.rets.length < 8 then k { x with rets := r :: x.rets } d else d.threadFault t 0x08

/-- CALL (R96). -/
def Dev.callInsn (d : Dev) (t : Nat) (rsv : BitVec 10) (target : BitVec 14) : Dev :=
  d.instr t (encJump 1 rsv target) (rsv == 0) fun x e =>
    e.push t x { pc := x.pc + 1, inset := x.insetMode } fun y f =>
      f.setThread t { y with pc := f.target t x target.toNat % 16384 }

/-- JCLASS: the program that the class map binds to lg.CLASS (R92). -/
def Dev.jclass (d : Dev) (t : Nat) (x : Thread) : Dev :=
  match x.frame.bind d.frame? with
  | none => d.setThread t x
  | some f =>
    let bind := d.classBind x (lgGet f.lg lgFunction) (lgGet f.lg lgClass)
    let entry := (bind.bind (·.entry)).bind fun id => (d.insetOf x).bind fun i => i.entries.find? fun e => e.1 == 2 && e.2.1 == id
    match entry with
    | some e => d.setThread t ({ x with insetMode := true }.goTo (d.insetBase t x + e.2.2))
    | none => d.setThread t ({ x with insetMode := false }.goTo (Config.vendorActionPc % 0x1000))

/-- LOOP (R96): COUNT and BODY from 1; more than four active loops is a thread fault. -/
def Dev.loopInsn (d : Dev) (t : Nat) (count : BitVec 8) (body : BitVec 10) (rsv : BitVec 8) : Dev :=
  d.instr t (encLoop count body rsv) (count != 0 && body != 0 && rsv == 0) fun x e =>
    if x.loops.length < 4 then
      e.setThread t { x with pc := (x.pc + 1) % 16384,
                             loops := { start := (x.pc + 1) % 16384, body := body.toNat, left := count.toNat,
                                        depth := x.rets.length } :: x.loops }
    else e.threadFault t 0x09

/-- The address gA + OFF, modulo 2^32 (log entry 24). -/
def Thread.addr (x : Thread) (a : BitVec 5) (off : Nat) : Nat := ((x.reg a.toNat).toNat + off) % 2 ^ 32

/-- PW (R96). -/
def Dev.pwInsn (d : Dev) (t : Nat) (dst a : BitVec 5) (w : Bool) (sz : BitVec 2) (rsv : BitVec 5) (off : BitVec 8) : Dev :=
  d.instr t (encPw dst a w sz rsv off) (sz != 3 && rsv == 0) fun x e =>
    let addr := x.addr a off.toNat
    if addr + 2 ^ sz.toNat > 256 then e.threadFault t 0x03
    else if w then e.doneShort t { x with pw := pwStore x.pw addr sz.toNat (x.reg dst.toNat) }
    else e.doneShort t (x.setReg dst.toNat (pwLoad x.pw addr sz.toNat))

/-- LG (R96, R98). -/
def Dev.lgInsn (d : Dev) (t : Nat) (dst : BitVec 5) (w : Bool) (word : BitVec 4) (lsb wm1 : BitVec 5) (rsv : BitVec 6) : Dev :=
  d.instr t (encLg dst w word lsb wm1 rsv) (decide (lsb.toNat + wm1.toNat ≤ 31) && rsv == 0) fun x e =>
    match x.frame with
    | none => e
    | some id =>
      let fld : LgField := ⟨word.toNat, lsb.toNat + wm1.toNat, lsb.toNat⟩
      let lg := ((e.frame? id).map (·.lg)).getD []
      if w then
        let may := if x.insetMode then insetMask word.toNat else vendorMask word.toNat
        if fieldMask fld.hi fld.lo &&& ~~~ may ≠ 0 then e.threadFault t 0x05
        else (e.updFrame id fun f => { f with lg := lgSet f.lg fld (x.reg dst.toNat).toNat }).doneShort t x
      else e.doneShort t (x.setReg dst.toNat (toWord (lgGet lg fld)))

/-- SC (R94, R96, R70): scratch at once, region store as a long stall; unmapped and misaligned word accesses fault. -/
def Dev.scInsn (d : Dev) (t : Nat) (dst a : BitVec 5) (w : Bool) (sz : BitVec 2) (off : BitVec 13) : Dev :=
  d.instr t (encMem 0x12 dst a w sz off) (w || sz != 3) fun x e =>
    let addr := x.addr a off.toNat
    let n := sizeBytes sz.toNat
    if n = 4 && addr % 4 ≠ 0 then e.threadFault t 0x04
    else
      match e.mapAddr t x addr n with
      | none => e.threadFault t 0x04
      | some (.scratch key) =>
        let (v, m) := memAccess e.pca.scratch key w sz.toNat (x.reg dst.toNat)
        ({ e with pca := { e.pca with scratch := m } } : Dev).doneShort t (x.result dst.toNat v)
      | some (.region key) => e.done t { x with pend := .region w sz.toNat key dst.toNat }

/-- A region store access completes (R70). -/
def Dev.regionStoreDone (d : Dev) (t : Nat) : Dev :=
  let x := d.thread t
  match x.pend with
  | .region w sz key dst =>
    let (v, m) := memAccess d.pca.rstore key w sz (x.reg dst)
    ({ d with pca := { d.pca with rstore := m } } : Dev).setThread t { x.result dst v with pend := .none }
  | _ => d

/-- BUF (R96): a DMA wait, with the generations of the blocks that answer it (R18); a store at or beyond FRAME_LEN faults. SZ 3,
which R96 neither gives a size nor marks, is illegal; an access at an offset inside the window reaches the frame and not the window,
which replaces those bytes when the frame is emitted (DESIGN CHOICE, log entry 44). -/
def Dev.bufInsn (d : Dev) (t : Nat) (dst a : BitVec 5) (w : Bool) (sz : BitVec 2) (off : BitVec 13) : Dev :=
  d.instr t (encMem 0x13 dst a w sz off) (sz != 3) fun x e =>
    let addr := x.addr a off.toNat
    let len := ((x.frame.bind e.frame?).map fun f => f.bytes.length).getD 0
    if w && addr + 2 ^ sz.toNat > len then e.threadFault t 0x0C
    else e.done t { x with pend := .buf w sz.toNat addr dst.toNat (e.blockGen 7) (e.blockGen 13) }

/-- The reply to a BUF access (R70): bytes of the frame in network order, 0 beyond FRAME_LEN; TARGET_RESET, where the DMA engine
or the buffer pool manager answers no request or has been reset since the access was issued, is a thread fault (R18, R102, R320,
R321). -/
def Dev.bufferReply (d : Dev) (t : Nat) : Dev :=
  let x := d.thread t
  match x.pend, x.frame with
  | .buf w sz addr dst g7 g13, some id =>
    if !d.available 7 || !d.available 13 || d.blockGen 7 ≠ g7 || d.blockGen 13 ≠ g13 then d.threadFault t 0x0E
    else if w then
      let bs := bytesBE (2 ^ sz) (x.reg dst).toNat
      ((d.updFrame id fun f => { f with bytes := overwrite f.bytes addr bs }).fillAt (((d.frame? id).map (·.chain)).getD []) addr bs).setThread t
        { x with pend := .none }
    else
      let bs := ((d.frame? id).map (·.bytes)).getD []
      d.setThread t { x.setReg dst (toWord (be bs addr (2 ^ sz))) with pend := .none }
  | _, _ => d

/-! ## Lookups (R99) -/

/-- The table an instruction names: an inset's handle, or a table number. -/
def Dev.lookupTable (d : Dev) (x : Thread) (table : Nat) : Option Nat :=
  if x.insetMode then (if table < 16 then (d.insetOf x).bind fun i => i.handles[table]? else none) else some table

/-- Issues a request: a lookup into its slot; the library's own, which the thread waits for. -/
def Dev.issueReq (d : Dev) (t : Nat) (x : Thread) (r : LookReq) : Dev :=
  let n := d.pca.reqs.nextKey
  let d1 : Dev := { d with pca := { d.pca with reqs := d.pca.reqs.put n r } }
  d1.setThread t (if r.prefetch then x else if r.slot ≥ 4 then { x with pend := .libClassify n }
                  else { x with ls := x.ls.put r.slot (.waiting n) })

/-- A request stalls its thread: four are outstanding, or its slot waits for an earlier one, which a prefetch, that writes no
slot, does not mind: it leaves the slot's reply as it is (R70, R99; DESIGN CHOICE, log entry 44). -/
def Dev.lookStalls (d : Dev) (t : Nat) (x : Thread) (r : LookReq) : Bool :=
  decide (d.lookOut t ≥ 4) || (!r.prefetch && match x.ls.getD r.slot .empty with
    | .waiting _ => true
    | _ => false)

/-- A reply has arrived: a request that waits in its thread is issued, if it stalls no more (R70, R99). -/
def Dev.retryLook (d : Dev) (t : Nat) : Dev :=
  let x := d.thread t
  match x.pend with
  | .relook r => if d.lookStalls t x r then d else d.issueReq t { x with pend := .none } r
  | _ => d

/-- The request that LOOKUP makes; a request records the generation of its target (R18): block 10 for the classifier,
block 9 for the table engine. -/
def Dev.makeReq (d : Dev) (t : Nat) (x : Thread) (slot kind table key : Nat) (pre : Bool) : LookReq :=
  let id := x.frame.getD 0
  let f := ((d.frame? id).map fun fr => lgGet fr.lg lgFunction).getD 0
  { thread := t, slot := slot, kind := kind, table := table, key := key, prefetch := pre, inset := x.insetMode, function := f, fnGen := d.gen f,
    blockGen := d.blockGen (if kind = 3 then 10 else 9), frame := id, stamp := d.now, answer := none }

/-- LOOKUP (R99, R70): a slot with a request outstanding, or four requests outstanding, stall the thread until a reply. -/
def Dev.lookupInsn (d : Dev) (t slot kind : Nat) (table : BitVec 6) (keyq : BitVec 3) (pre : Bool) (rsv : BitVec 12) : Dev :=
  d.instr t (encLookup slot kind table keyq pre rsv) (rsv == 0 && !(kind == 3 && (pre || table != 0))) fun x e =>
    let key := keyOf x.reg (4 * keyq.toNat)
    match (if kind = 3 then some 0 else e.lookupTable x table.toNat) with
    | none => e.threadFault t 0x06
    | some tb =>
      let r := e.makeReq t x slot kind tb key pre
      if e.lookStalls t x r then e.done t { x with pend := .relook r } else e.issueReq t x.next r

/-- A part of an answered slot. -/
def slotPart (s lo hi : Word) (part : Nat) : Word := if part = 0 then s else if part = 1 then lo else hi

/-- LDRES (R99). -/
def Dev.ldresInsn (d : Dev) (t : Nat) (dst : BitVec 5) (slot part : BitVec 2) (rsv : BitVec 17) : Dev :=
  d.instr t (encLdres dst slot part rsv) (part != 3 && rsv == 0) fun x e =>
    match x.ls.getD slot.toNat .empty with
    | .empty => e.threadFault t 0x0D
    | .waiting _ => e.done t { x with pend := .ldres slot.toNat part.toNat dst.toNat }
    | .ready s lo hi => e.done t (x.setReg dst.toNat (slotPart s lo hi part.toNat))

/-! ## Channels (R75 to R77) -/

/-- CHAN: what all kinds share. D is a multiple of 4, RV = 3 is illegal; in inset mode the channel must be granted (R102,
R106): the cause is ILLEGAL where the inset has no channel granted in the cluster, and GRANT where it has another one, both of
which R102 would fit (DESIGN CHOICE, log entry 44). `n` is the channel, `write` the permission it needs. A thread without
permission gets the no-entry result and a record, whose DATA1 and DATA2 R77 does not name: the thread, and 0 (DESIGN CHOICE, log
entry 44); a disabled channel refuses reserve and read without one. -/
def Dev.chanInsn (d : Dev) (t kind : Nat) (ch : BitVec 3) (dst : BitVec 5) (rv : BitVec 2) (st : BitVec 5) (rsv : BitVec 9)
    (write needsOn : Bool) (body : Nat → Thread → Dev → Dev) : Dev :=
  d.instr t (encChan kind ch dst rv st rsv) (decide (dst.toNat % 4 = 0) && rv != 3 && rsv == 0) fun x e =>
    let n := 8 * clusterOf t + ch.toNat
    let mask := ((e.insetOf x).map fun i => if i.granted.contains (clusterOf t) then i.chanMask else 0).getD 0
    if x.insetMode && mask = 0 then e.threadFault t 0x01
    else if x.insetMode && !mask.testBit ch.toNat then e.threadFault t 0x0B
    else if !((e.rd (if write then .PCA_CHAN_WRITERS else .PCA_CHAN_READERS) n).getLsbD (t % 32)) then
      (e.logExc t 0x201 (toWord t) 0).done t (x.setReg st.toNat 0)
    else if needsOn && !e.on? Fld.PCA_CHAN_CFG_ENABLE n then e.done t (x.setReg st.toNat 0)
    else body n x e

/-- Reservations a thread holds; a discarded one is none. -/
def Thread.resCount (x : Thread) : Nat := x.rv.countP fun _ r => r.live

/-- RESERVE (R75): a fourth reservation faults. A reserve into a register that already names one releases the earlier one
first (log entry 24). -/
def Dev.reserveBody (d : Dev) (t : Nat) (rv st : Nat) (n : Nat) (x : Thread) : Dev :=
  if x.resCount ≥ 3 then d.threadFault t 0x0A
  else
    let (d1, x1) :=
      match x.rv.look? rv with
      | some old =>
        let y : Dev := d.setThread t { x with rv := x.rv.erase rv }
        let z := if old.live then (y.bump .PCA_CHAN_ABANDON (clusterOf t)).chanSpace old.chan else y
        (z, { x with rv := x.rv.erase rv, events := (z.thread t).events })
      | none => (d, x)
    match (d1.setThread t x1).tryReserve t n rv with
    | some e => e.updThread t fun z => (z.setReg st 1).next
    | none => d1.done t { x1 with pend := .reserve n rv st }

/-- WRITE (R75): gD to gD+3 into the slot; writes to a slot that was discarded are dropped (R78, R81). A register that holds no
reservation, or one of another channel, gives the no-entry result, here and in COMMIT (DESIGN CHOICE, log entry 44). -/
def Dev.writeBody (d : Dev) (t : Nat) (dst rv st : Nat) (n : Nat) (x : Thread) : Dev :=
  match x.rv.look? rv with
  | some r =>
    if r.chan = n && r.live then
      d.done t ({ x with rv := x.rv.put rv { r with data := (List.range 4).map fun k => x.reg (dst + k) } }.setReg st 1)
    else d.done t (x.setReg st 0)
  | none => d.done t (x.setReg st 0)

/-- COMMIT (R75): the slot joins the visible order; of a discarded or abandoned reservation nothing is committed (R78,
R81). The register is free again. -/
def Dev.commitBody (d : Dev) (t : Nat) (rv st : Nat) (n : Nat) (x : Thread) : Dev :=
  match x.rv.look? rv with
  | some r =>
    if r.chan = n then
      if r.live then (d.done t ({ x with rv := x.rv.erase rv }.setReg st 1)).chanCommit n r.data
      else d.done t ({ x with rv := x.rv.erase rv }.setReg st 0)
    else d.done t (x.setReg st 0)
  | none => d.done t (x.setReg st 0)

/-- READ (R75): the oldest committed entry, or WAIT. -/
def Dev.readBody (d : Dev) (t : Nat) (dst st : Nat) (n : Nat) (x : Thread) : Dev :=
  match d.chanEntries n with
  | e :: rest => ((d.setChan n rest).done t ((x.setRegs dst e).setReg st 1)).chanSpace n
  | [] => d.done t { x with pend := .read n dst st }

/-! ## Events (R72 to R74) -/

/-- WAIT (R73). In inset mode a wait is allowed: its mask names no other thread's events (R106). -/
def Dev.waitInsn (d : Dev) (t : Nat) (dst a : BitVec 5) (rsv : BitVec 14) : Dev :=
  d.instr t (encWait dst a rsv) (decide (a.toNat % 2 = 0) && rsv == 0) fun x e =>
    let mask := (x.reg a.toNat).toNat + 2 ^ 32 * (x.reg (a.toNat + 1)).toNat
    e.setThread t { x.next with pend := .evt mask dst.toNat }.wake

/-- SIGNAL (R72, R74): a SOFT event within the cluster, a message to another cluster of the region. DATA1 and DATA2 of the record
of an event that the thread may not raise, which R72 does not name, are the thread and 0, and the cause of an ungranted event is
chosen as for CHAN (DESIGN CHOICE, log entry 44). -/
def Dev.signalInsn (d : Dev) (t : Nat) (cluster : BitVec 2) (thread ev : BitVec 5) (rsv : BitVec 12) : Dev :=
  d.instr t (encSignal cluster thread ev rsv) (rsv == 0) fun x e =>
    let mask := ((e.insetOf x).map fun i => if i.granted.contains (clusterOf t) then i.softMask else 0).getD 0
    let own := clusterOf t
    let e1 := e.done t x
    if x.insetMode && mask = 0 then e.threadFault t 0x01
    else if x.insetMode && !mask.testBit ev.toNat then e.threadFault t 0x0B
    else if !((e.rd .PCA_EVT_SRC (32 * own + ev.toNat)).getLsbD (t % 32)) then e1.logExc t 0x200 (toWord t) 0
    else if cluster.toNat = own % 4 then e1.raise (32 * own + thread.toNat) ev.toNat
    else
      let r := regionOf t
      { e1 with pca := { e1.pca with
        msgs := e1.pca.msgs.put r (e1.pca.msgs.getD r [] ++ [(128 * r + 32 * cluster.toNat + thread.toNat, own % 4)]) } }

/-- A message of the region queue arrives (R74). -/
def Dev.regionMsgDeliver (d : Dev) (r : Nat) : Dev :=
  match d.pca.msgs.getD r [] with
  | (target, from_) :: rest =>
    ({ d with pca := { d.pca with msgs := d.pca.msgs.putD [] r rest } } : Dev).raise target (48 + from_)
  | [] => d

/-- The timer of a thread (R74). -/
def Dev.timerCheck (d : Dev) (t : Nat) : Dev :=
  match (d.thread t).timer with
  | some s => if s ≤ d.now then (d.updThread t fun x => { x with timer := none }).raise t 56 else d
  | none => d

/-- TIMER (R74): a stamp already passed raises the event at once. A fourth word would lie beyond g31: A above 29 is illegal,
as D is for TIME (log entry 13). -/
def Dev.timerInsn (d : Dev) (t : Nat) (a : BitVec 5) (rsv : BitVec 19) : Dev :=
  d.instr t (encTimer a rsv) (decide (a.toNat ≤ 29) && rsv == 0) fun x e =>
    (e.done t { x with timer := some (stampOf (x.reg a.toNat) (x.reg (a.toNat + 1)) (x.reg (a.toNat + 2))) }).timerCheck t

/-- TIME (R96, R31). -/
def Dev.timeInsn (d : Dev) (t : Nat) (dst : BitVec 5) (rsv : BitVec 21) : Dev :=
  d.instr t (encTime dst rsv) (decide (dst.toNat ≤ 29) && rsv == 0) fun x e =>
    e.done t (x.setRegs dst.toNat (stampWords e.now))

/-! ## Closed waits (R79) -/

/-- The bits of a mask that a core has within its cluster. -/
def coreMask (core : Nat) : Word := BitVec.ofNat 32 (15 * 2 ^ (4 * (core % 8)))

/-- The event is internal to the core (R79). -/
def Dev.internalEvent (d : Dev) (core e : Nat) : Bool :=
  let cl := core / 8
  let only (m : Word) : Bool := m &&& ~~~ coreMask core == 0
  if e < 32 then d.rd .PCA_EVT_SRC (32 * cl + e) ≠ 0 && only (d.rd .PCA_EVT_SRC (32 * cl + e))
  else if e < 40 then only (d.rd .PCA_CHAN_WRITERS (8 * cl + (e - 32)))
  else if e < 48 then only (d.rd .PCA_CHAN_READERS (8 * cl + (e - 40)))
  else false

/-- The events a waiting thread waits for; none for a thread that does not wait. -/
def Thread.waitMask (x : Thread) : Option Nat :=
  match x.pend with
  | .evt m _ => some m
  | .reserve c _ _ => some (2 ^ (40 + c % 8))
  | .read c _ _ => some (2 ^ (32 + c % 8))
  | _ => none

/-- The core is in a closed wait (R79): some thread is enabled, every enabled one waits for internal events of which none is
pending, and no thread that is IDLE, READY, in STALL or HALTED holds the core out, be it disabled with a frame to end. -/
def Dev.closedWait (d : Dev) (core : Nat) : Bool :=
  let all := (List.range 4).map (4 * core + ·)
  let en := all.filter fun t => d.on? Fld.PCA_THREAD_CTRL_ENABLE t
  !en.isEmpty && (all.all fun t => d.threadState t == 0 || d.threadState t == 4) && en.all fun t =>
    d.threadState t == 4 &&
      match (d.thread t).waitMask with
      | some m => ((List.range 64).all fun e => !m.testBit e || d.internalEvent core e) && (d.thread t).events &&& m == 0
      | none => false

/-- Detection of a closed wait (R79). -/
def Dev.closedWaitDetect (d : Dev) (core : Nat) : Dev :=
  if core < 128 && d.closedWait core then
    let w := ((List.range 4).map (4 * core + ·)).filter fun t => d.threadState t == 4
    let t := (w.find? fun t => d.on? Fld.PCA_THREAD_CTRL_PRIO t).getD (w.headD 0)
    let mask := (w.map fun t => 2 ^ (t % 4)).foldl (· + ·) 0
    ((d.raise t 61).bump .PCA_WAIT_CLOSED (core / 8)).logExc t 0x3D (toWord t) (toWord mask)
  else d

end Sys2Proof.Machine
end

