-- ==== Sys2Proof/Machine/TableOps.lean ====
section
/-!
DEFINITION. The table engine (R135 to R161, R469, R474): partition, descriptors, entries and keys, placement, lookup,
longest-prefix match, learning, aging, and the table commands.
-/
namespace Sys2Proof.Machine

/-! ## Tables -/

/-- Buckets of the table partition (R135); PB_UNITS 0 and 1 act as 2, above 15 as 15. -/
def Dev.partBuckets (d : Dev) : Nat := (16 - clampTo 2 15 (d.get Fld.TBL_PARTITION_PB_UNITS)) * 131072

/-- LOG2_BUCKETS as it acts (R160); none for a table without buckets. -/
def Dev.tblLog2 (d : Dev) (n : Nat) : Option Nat :=
  let l := d.get Fld.TBL_DESC_CFG_LOG2_BUCKETS n
  if l = 0 then none else some (clampTo 10 (if n = 0 then 18 else 20) l)

/-- The bucket at an index of a table, wrapping in the partition (R136). -/
def Dev.bucketAt (d : Dev) (n i : Nat) : Nat := (d.get Fld.TBL_DESC_BASE_BASE n + i) % d.partBuckets

/-- The engine serves lookups and learns (R135). -/
def Dev.tblOn (d : Dev) : Bool := d.on? Fld.TBL_CTRL_ENABLE && d.available 9

/-- The table is in use and not being cleared (R160, R474). -/
def Dev.tblEnabled (d : Dev) (n : Nat) : Bool := d.on? Fld.TBL_DESC_CFG_ENABLE n
def Dev.tblClearing (d : Dev) (n : Nat) : Bool := d.on? Fld.TBL_DESC_CFG_CLEARING n

/-- Width of the matched key bits (R139). -/
def keyWidth (n : Nat) : Nat := if n = 0 then 60 else if n = 2 then 32 else 128

/-- FUNCTION, and QUAL, is part of the match (R139). -/
def fnMatched (n : Nat) : Bool := n = 1 || 4 ≤ n
def qualMatched (n : Nat) : Bool := n = 1 || n = 2 || n = 3

/-- The grant of a FLOW table, and of table 0 for handles (R136). -/
def Dev.tblGranted (d : Dev) (f n : Nat) : Bool := (d.rd .TBL_FUNC_GRANT (2 * f + n / 32)).getLsbD (n % 32)

/-- What a request or command names (R139). -/
structure Match where
  table : Nat
  key : Nat
  fn : Nat
  qual : Nat
  deriving DecidableEq, Repr

/-- The match that finds an entry. -/
def Entry.toMatch (e : Entry) : Match := { table := e.table, key := e.key, fn := e.fn, qual := e.qual }

/-- An entry matches (R139). -/
def Match.hits (m : Match) (e : Entry) : Bool :=
  e.table == m.table && e.key % 2 ^ keyWidth m.table == m.key % 2 ^ keyWidth m.table && (!fnMatched m.table || e.fn == m.fn)
    && (!qualMatched m.table || e.qual == m.qual)

/-- The 24-byte message of R140. -/
def Match.message (m : Match) : Bytes :=
  bytesBE 16 (m.key % 2 ^ keyWidth m.table) ++ [BitVec.ofNat 8 m.table, 0] ++ bytesBE 2 (if fnMatched m.table then m.fn else 0)
    ++ bytesBE 4 (if qualMatched m.table then m.qual else 0)

/-- The two candidate buckets (R140); none for a table without buckets. -/
def Dev.candidates (d : Dev) (m : Match) : Option (Nat × Nat) :=
  (d.tblLog2 m.table).map fun l =>
    let seed := d.rd .TBL_DESC_SEED m.table
    let i1 := (crcRaw seed m.message).toNat % 2 ^ l
    let i2 := (crcRaw (~~~ seed) m.message).toNat % 2 ^ l
    let base := d.get Fld.TBL_DESC_BASE_BASE m.table
    let b := if i2 = i1 then (if (base + i1) % 2 = 0 then base + i1 + 1 else base + i1 - 1) else base + i2
    ((base + i1) % d.partBuckets, b % d.partBuckets)

/-- Where an entry lies. -/
inductive Place where
  | slot (key : Nat)
  | ovf (key : Nat)
  deriving DecidableEq, Repr

/-- Replaces the engine's state. -/
def Dev.setTbl (d : Dev) (f : TblEng → TblEng) : Dev := { d with tbl := f d.tbl }

/-- The matching slot of a bucket. -/
def Dev.matchIn (d : Dev) (b : Nat) (m : Match) : Option (Place × Entry) :=
  ((List.range 4).find? fun i => ((d.tbl.slots.look? (4 * b + i)).map m.hits).getD false).bind fun i =>
    (d.tbl.slots.look? (4 * b + i)).map fun e => (.slot (4 * b + i), e)

/-- The matching entry of the overflow store. -/
def Dev.matchOvf (d : Dev) (m : Match) : Option (Place × Entry) :=
  (d.tbl.ovf.first? fun _ e => m.hits e).map fun c => (.ovf c.1, c.2)

/-- A bucket fails its ECC check (R143). -/
def Dev.bucketFailed (d : Dev) (b : Nat) : Bool := (d.tbl.failed.look? b).isSome

/-- The search of R143, with the number of failed buckets it read. -/
def Dev.search (d : Dev) (m : Match) : Option (Place × Entry) × Nat :=
  match d.candidates m with
  | none => (none, 0)
  | some (a, b) =>
    if d.bucketFailed a then (none, 1)
    else
      match d.matchIn a m with
      | some r => (some r, 0)
      | none =>
        let spill := d.tbl.spill.getD a 0
        if spill.testBit 0 && d.bucketFailed b then (none, 1)
        else
          match (if spill.testBit 0 then d.matchIn b m else none) with
          | some r => (some r, 0)
          | none => (if spill.testBit 1 then d.matchOvf m else none, 0)

/-- The entry a match finds. -/
def Dev.findEntry (d : Dev) (m : Match) : Option (Place × Entry) := (d.search m).1

/-- Stores an entry at its place. -/
def Dev.putEntry (d : Dev) (p : Place) (e : Entry) : Dev :=
  match p with
  | .slot k => (d.setTbl fun x => { x with slots := x.slots.put k e }).slotWritten k
  | .ovf k => d.setTbl fun x => { x with ovf := x.ovf.put k e }

/-- Clears VALID at a place; the spill flags stay (R142). -/
def Dev.dropEntry (d : Dev) (p : Place) : Dev :=
  match p with
  | .slot k => (d.setTbl fun x => { x with slots := x.slots.erase k }).slotWritten k
  | .ovf k => d.setTbl fun x => { x with ovf := x.ovf.erase k }

/-- Entries of a table, of a function toward its quota, and of a function in the overflow store (R141, R157). -/
def Dev.descUsed (d : Dev) (n : Nat) : Nat :=
  (d.tbl.slots.countP fun _ e => e.table == n) + d.tbl.ovf.countP fun _ e => e.table == n
def quotaKind (n : Nat) : Bool := n ≠ 2 && n ≠ 3
def Dev.funcEntries (d : Dev) (f : Nat) : Nat :=
  (d.tbl.slots.countP fun _ e => e.fn == f && quotaKind e.table) + d.tbl.ovf.countP fun _ e => e.fn == f && quotaKind e.table
def Dev.funcOvf (d : Dev) (f : Nat) : Nat := d.tbl.ovf.countP fun _ e => e.fn == f

/-- The first free slot of a bucket; a failed one offers none to a learn (log entry 25). -/
def Dev.freeSlot (d : Dev) (b : Nat) : Option Nat :=
  if d.bucketFailed b then none
  else ((List.range 4).map (4 * b + ·)).find? fun k => (d.tbl.slots.look? k).isNone

/-- Sets a spill flag of a bucket. -/
def Dev.setSpill (d : Dev) (b bit : Nat) : Dev :=
  (d.setTbl fun x => { x with spill := x.spill.put b (x.spill.getD b 0 ||| 2 ^ bit) }).slotWritten (4 * b)

/-- The first free place of the overflow store. -/
def Dev.ovfFree (d : Dev) : Nat := ((List.range (d.tbl.ovf.size + 1)).find? fun k => (d.tbl.ovf.look? k).isNone).getD d.tbl.ovf.size

/-- Zeroes a failed bucket, as a host write to it does (R143). -/
def Dev.healBucket (d : Dev) (b : Nat) : Dev :=
  if d.bucketFailed b then
    (d.setTbl fun x => { x with slots := x.slots.keep fun k _ => k / 4 != b, spill := x.spill.erase b, failed := x.failed.erase b }).bucketsWritten
      [b]
  else d

/-- Inserts a new entry (R141): where it was placed, or none. -/
def Dev.insertEntry (d : Dev) (e : Entry) (learn : Bool) : Option (Place × Dev) :=
  match d.candidates e.toMatch with
  | none => none
  | some (a, b) =>
    if learn && d.bucketFailed a then none
    else if quotaKind e.table && d.funcEntries e.fn + 1 > d.get Fld.TBL_FUNC_QUOTA_ENTRIES e.fn then none
    else
      let d1 := if learn then d else d.healBucket a
      match d1.freeSlot a with
      | some k => some (.slot k, d1.putEntry (.slot k) e)
      | none =>
        let d2 := if learn then d1 else d1.healBucket b
        match d2.freeSlot b with
        | some k => some (.slot k, (d2.putEntry (.slot k) e).setSpill a 0)
        | none =>
          if d1.tbl.ovf.size ≥ 16384 || d1.funcOvf e.fn ≥ 64 * d1.get Fld.TBL_FUNC_QUOTA_OVF_MAX e.fn
              || (learn && d1.tbl.ovf.size ≥ d1.get Fld.TBL_CTRL_OVF_LEARN_LIMIT) then none
          else some (.ovf d1.ovfFree, (d1.putEntry (.ovf d1.ovfFree) e).setSpill a 1)

/-! ## Records (R469) -/

/-- DATA1 of a TABLE_UPDATE record: bucket a of an entry, or all ones in the overflow store. -/
def Dev.updIndex (d : Dev) (m : Match) (p : Option Place) : Word :=
  match p with
  | some (.ovf _) => 0xFFFFFFFF
  | _ => toWord (((d.candidates m).map (·.1)).getD 0xFFFFFFFF)

/-- A TABLE_UPDATE record. -/
def Dev.logTable (d : Dev) (table : Nat) (fn : Nat) (index : Word) (op : Nat) (st : Status) : Dev :=
  d.logNow 0x04 41 (some fn) (toWord table) index (toWord (op * 2 ^ 16 + st.code))

/-! ## Lookup -/

/-- The enabled lengths of a VRF's filter, longest first (R146, R147). -/
def Dev.lpmLengths (d : Dev) (f : Nat) (v6 : Bool) : List Nat :=
  ((List.range (if v6 then 128 else 32)).reverse.map (· + 1)).filter fun n =>
    if v6 then (d.rd .TBL_LPM6_FILTER (4 * f + (n - 1) / 32)).getLsbD ((n - 1) % 32)
    else (d.rd .TBL_LPM4_FILTER f).getLsbD (n - 1)

/-- A prefix masked to its length. -/
def prefixOf (width n key : Nat) : Nat := key % 2 ^ width / 2 ^ (width - n) * 2 ^ (width - n)

/-- The match of a route (R139, R145). -/
def routeMatch (v6 : Bool) (vrf n key : Nat) : Match :=
  { table := if v6 then 3 else 2, key := prefixOf (if v6 then 128 else 32) n key, fn := vrf, qual := vrf * 2 ^ 22 + n }

/-- The table serves lookups now. -/
def Dev.tblServes (d : Dev) (n : Nat) : Bool := d.tblOn && d.tblEnabled n && !d.tblClearing n

/-- Failed buckets that the probes of an LPM lookup read: those of the groups up to the one that hits (R143, R147). -/
def Dev.lpmFails (d : Dev) (v6 : Bool) (vrf key : Nat) (hit : Option Nat) (ls : List Nat) : Nat :=
  let p := d.get Fld.TBL_CTRL_LPM_PAR + 1
  let read := match hit with
    | some n => (ls.takeWhile (· ≥ n)).length
    | none => ls.length
  ((ls.take (ceilDiv read p * p)).map fun n => (d.search (routeMatch v6 vrf n key)).2).foldl (· + ·) 0

/-- The longest matching route of a VRF, or its default (R147): length, entry and RESULT, with the failed buckets read. -/
def Dev.lpm (d : Dev) (v6 : Bool) (vrf key : Nat) : Option (Nat × Option (Place × Entry) × Nat) × Nat :=
  if !d.tblServes (if v6 then 3 else 2) then (none, 0)
  else
    let ls := d.lpmLengths vrf v6
    let hit := ls.find? fun n => (d.findEntry (routeMatch v6 vrf n key)).isSome
    let fails := d.lpmFails v6 vrf key hit ls
    match hit with
    | some n =>
      match d.findEntry (routeMatch v6 vrf n key) with
      | some (p, e) => (some (n, some (p, e), e.result), fails)
      | none => (none, fails)
    | none => ((d.tbl.dflt.look? (2 * vrf + b2n v6)).map fun r => (0, none, r), fails)

/-- A hit sends a refresh when the lookup read AGE other than 0 (R143, R152). -/
def Dev.refreshFor (d : Dev) (e : Entry) : Dev :=
  if e.ageEn && e.age ≠ 0 then d.setTbl fun x => { x with refreshQ := x.refreshQ ++ [(e.table, e.key, e.fn, e.qual)] } else d

/-- An exact-match lookup (R143): RESULT of the entry found. -/
def Dev.exact (d : Dev) (m : Match) : Option Nat × Dev :=
  if !d.tblServes m.table then (none, d)
  else
    let (r, fails) := d.search m
    let d1 := d.bumpBy .TBL_ECC_FAIL 0 fails
    match r with
    | some (_, e) => (some e.result, d1.refreshFor e)
    | none => (none, d1)

/-- A route lookup: matched length and RESULT. -/
def Dev.route (d : Dev) (v6 : Bool) (vrf key : Nat) : Option (Nat × Nat) × Dev :=
  let (r, fails) := d.lpm v6 vrf key
  let d1 := d.bumpBy .TBL_ECC_FAIL 0 fails
  match r with
  | some (n, some (_, e), res) => (some (n, res), d1.refreshFor e)
  | some (n, none, res) => (some (n, res), d1)
  | none => (none, d1)

/-- A request names a table its function does not hold (R136): a FLOW table without a grant; table 0 through a handle. -/
def Dev.lookupDenied (d : Dev) (r : LookReq) : Bool :=
  if 4 ≤ r.table then !d.tblGranted r.function r.table else r.table = 0 && r.inset && !d.tblGranted r.function 0

/-- The engine's answer to a request: outcome of R99, prefix length, RESULT. A request of an earlier generation gets TARGET_RESET
(R18, R315, R320); one that meets the engine disabled or unavailable gets MISS (R135). -/
def Dev.lookupAnswer (d : Dev) (r : LookReq) : (Nat × Nat × Nat) × Dev :=
  if r.blockGen ≠ d.blockGen 9 || d.gen r.function ≠ r.fnGen then ((3, 0, 0), d)
  else if !d.tblOn then ((1, 0, 0), d)
  else if r.kind = 0 then
    if d.lookupDenied r then ((2, 0, 0), d)
    else if r.table = 2 || r.table = 3 then ((1, 0, 0), d)
    else
      match d.exact { table := r.table, key := r.key, fn := r.function, qual := 0 } with
      | (some v, e) => ((0, 0, v), e)
      | (none, e) => ((1, 0, 0), e)
  else if r.table ≠ r.kind + 1 then ((1, 0, 0), d)
  else
    match d.route (r.kind = 2) r.function r.key with
    | (some (n, v), e) => ((0, n, v), e)
    | (none, e) => ((1, 0, 0), e)

/-- Changes the outstanding requests. -/
def Dev.setReqs (d : Dev) (f : Tbl LookReq → Tbl LookReq) : Dev := { d with pca := { d.pca with reqs := f d.pca.reqs } }

/-- The engine serves a request (R143, R144, R147), once its island is up (R401): a prefetch changes nothing and gets no reply. -/
def Dev.tableLookup (d : Dev) (n : Nat) : Dev :=
  match d.pca.reqs.look? n with
  | none => d
  | some r =>
    if r.kind = 3 || r.answer.isSome || d.rising 9 then d
    else if r.prefetch then (d.setReqs fun x => x.erase n).retryLook r.thread
    else
      let (a, e) := d.lookupAnswer r
      e.setReqs fun x => x.put n { r with answer := some a }

/-- The slot status word (R99). -/
def slotStatus (outcome len : Nat) : Word := toWord (len * 2 ^ 16 + outcome)

/-- A reply reaches the slot of its thread, and a stalled thread goes on (R70, R80, R99). A request that the thread has made
meanwhile is issued; into the same slot, it leaves the reply unread. -/
def Dev.fillSlot (d : Dev) (r : LookReq) (n : Nat) (outcome len result : Nat) : Dev :=
  let x := d.thread r.thread
  if x.ls.getD r.slot .empty ≠ .waiting n then d
  else
    let s := slotStatus outcome len
    let lo := toWord result
    let hi := toWord (result / 2 ^ 32)
    let x1 : Thread := { x with ls := x.ls.put r.slot (.ready s lo hi) }
    match x.pend with
    | .ldres slot part dst =>
      if slot = r.slot then d.setThread r.thread { x1.setReg dst (slotPart s lo hi part) with pend := .none }
      else d.setThread r.thread x1
    | _ => (d.setThread r.thread x1).retryLook r.thread

/-- LOOKUP_REPLY (R99, R320, R321): a reply with another block generation than the request's counts as TARGET_RESET. -/
def Dev.lookupReply (d : Dev) (n : Nat) : Dev :=
  match d.pca.reqs.look? n with
  | none => d
  | some r =>
    match r.answer with
    | none => d
    | some (o, len, v) =>
      let d1 := d.setReqs fun x => x.erase n
      if r.blockGen ≠ d.blockGen 9 then d1.fillSlot r n 3 0 0 else d1.fillSlot r n o len v

/-! ## Learning (R148 to R151) -/

/-- FLAP_UNITS (R150). -/
def Dev.flapUnits (d : Dev) : Nat := ceilDiv (clampTo 100 1000000 (d.get Fld.TBL_LEARN_CFG_FLAP_WINDOW) * 1000) 1024

/-- A stamp recovered from its bits [63:0], as R21 recovers one. -/
def Dev.recover64 (d : Dev) (kept : Nat) : Stamp :=
  let cand := d.now / 2 ^ 64 * 2 ^ 64 + kept
  if cand > d.now then cand - 2 ^ 64 else cand

/-- SRC_PORT and DEST of a MAC entry's RESULT (R139). -/
def srcPort (result : Nat) : Nat := natBits result 47 43
def macResult (dest port : Nat) : Nat := dest * 2 ^ 48 + port * 2 ^ 43

/-- The 60 matched bits of a MAC key, and the whole key with a learn stamp (R139). -/
def macKey (fid mac : Nat) : Nat := fid * 2 ^ 48 + mac
def stampedKey (s : Stamp) (key : Nat) : Nat := s % 2 ^ 64 * 2 ^ 64 + key % 2 ^ 60

/-- Ports 24 and 25 are told apart by function (R149). -/
def hostPort (p : Nat) : Bool := p = 24 || p = 25
def sameSource (r : LearnReq) (e : Entry) : Bool :=
  r.inPort == srcPort e.result && (!hostPort r.inPort || r.fn == e.fn)
def lowerSource (r : LearnReq) (e : Entry) : Bool :=
  decide (r.inPort < srcPort e.result) || (r.inPort == srcPort e.result && hostPort r.inPort && decide (r.fn < e.fn))

/-- DEST that a learn records (R149, R162, R175). -/
def LearnReq.dest (r : LearnReq) : Nat :=
  match r.tunnel with
  | some t => 4 * 2 ^ 13 + t
  | none => if hostPort r.inPort then 2 * 2 ^ 13 + r.fn else 2 ^ 13 + r.inPort

/-- A learn finds no room (R151). -/
def Dev.learnFull (d : Dev) (m : Match) (f owner : Nat) (at_ : Option Place := none) : Dev :=
  (d.bump .TBL_LEARN_FULL f).logTable 0 owner (d.updIndex m at_) 8 .tableFull

/-- A move that the new function's quota refuses (R150): the entry goes. -/
def Dev.moveFits (d : Dev) (p : Place) (old new : Nat) : Bool :=
  old == new ||
    (d.funcEntries new + 1 ≤ d.get Fld.TBL_FUNC_QUOTA_ENTRIES new &&
      match p with
      | .ovf _ => d.funcOvf new + 1 ≤ 64 * d.get Fld.TBL_FUNC_QUOTA_OVF_MAX new
      | .slot _ => true)

/-- One learn request against table 0 (R150). -/
def Dev.learn (d : Dev) (r : LearnReq) : Dev :=
  let s := r.stamp
  let m : Match := { table := 0, key := macKey r.fid r.mac, fn := r.fn, qual := 0 }
  match d.findEntry m with
  | none =>
    let e : Entry := { key := stampedKey s m.key, result := macResult r.dest r.inPort, static := false, ageEn := true, table := 0,
                       fn := r.fn }
    match d.insertEntry e true with
    | some (p, d1) => d1.logTable 0 r.fn (d1.updIndex m (some p)) 7 .ok
    | none => d.learnFull m r.fn r.fn
  | some (p, e) =>
    let older : Bool := e.stampOld
    let t := d.recover64 (e.key / 2 ^ 64)
    if e.static then d.bump .TBL_LEARN_STATIC
    else if sameSource r e then
      if older || s > t then d.putEntry p { e with key := stampedKey s e.key, stampOld := false, age := 0 } else d
    else if !older && (s < t || (s == t && !lowerSource r e)) then d.bump .TBL_LEARN_STALE
    else
      let u := nsOf s / 1024 % 2 ^ 32
      let delta := (u + 2 ^ 32 - e.qual) % 2 ^ 32
      if e.frozen && delta < d.flapUnits then d.bump .TBL_LEARN_FROZEN
      else if !d.moveFits p e.fn r.fn then (d.dropEntry p).learnFull m r.fn e.fn (some p)
      else
        let flap := e.moved && decide (delta < d.flapUnits)
        let e1 : Entry :=
          { e with key := stampedKey s e.key, result := macResult r.dest r.inPort, fn := r.fn, stampOld := false, age := 0,
                   qual := u, moved := true, frozen := flap }
        let d1 := (d.putEntry p e1).logNow 0x05 41 (some r.fn)
          (toWord (srcPort e.result * 2 ^ 24 + r.inPort * 2 ^ 16 + b2n flap)) (toWord r.mac) (toWord (r.mac / 2 ^ 32))
        if flap then d1.bump .TBL_FLAP_COUNT else d1

/-- The engine takes the oldest learn request; it is discarded without count while the engine is off, table 0 is being
cleared, or its generation is old (R135, R155, R474). -/
def Dev.learnApply (d : Dev) : Dev :=
  match d.tbl.learnQ with
  | [] => d
  | r :: rest =>
    let d1 := d.setTbl fun x => { x with learnQ := rest }
    if !d.tblOn || d.tblClearing 0 || d.gen r.fn ≠ r.gen then d1 else d1.learn r

/-- A learn request of the virtual switch (R148). -/
def Dev.learnSubmit (d : Dev) (r : LearnReq) : Dev :=
  let bit := if hostPort r.inPort then 18 else r.inPort
  if !d.tblOn || d.tblClearing 0 || !d.on? Fld.TBL_CTRL_LEARN_EN || !((d.rd .TBL_LEARN_PORTS).getLsbD bit) then d
  else if d.tbl.learnQ.length ≥ 4096 then d.bump .TBL_LEARN_DROP
  else d.setTbl fun x => { x with learnQ := x.learnQ ++ [r] }

/-! ## Aging (R152, R153) -/

/-- A refresh reaches its bucket. -/
def Dev.ageRefresh (d : Dev) : Dev :=
  match d.tbl.refreshQ with
  | [] => d
  | (n, k, f, q) :: rest =>
    let d1 := d.setTbl fun x => { x with refreshQ := rest }
    match d.findEntry { table := n, key := k, fn := f, qual := q } with
    | some (p, e) => d1.putEntry p { e with age := 0 }
    | none => d1.bump .TBL_REFRESH_MISS

/-- SCAN_PERIOD in ns and AGE_LIMIT of a word of TBL_AGE_CFG (R159). -/
def scanPeriod (w : Word) : Nat := clampTo 100 250000 (bitsOf w 31 8) * 1000000
def ageLimit (w : Word) : Nat := max 1 (bitsOf w 7 0)

/-- A pass starts when SCAN_PERIOD has passed since the last one started (R152). -/
def Dev.scanPassStart (d : Dev) : Dev :=
  let due : Bool := match d.tbl.lastPass with
    | some t => decide (t + scanPeriod d.tbl.passCfg ≤ d.ref)
    | none => true
  if d.tblOn && due then
    d.setTbl fun x => { x with scan := some (d.ref, 0), lastPass := some d.ref, passCfg := d.rd .TBL_AGE_CFG }
  else d

/-- What a visit does to one entry: its new form, or none when it is removed for its age (R150, R152). -/
def Dev.scanEntry (d : Dev) (e : Entry) : Option Entry :=
  let fresh := (nsOf d.now / 1024 + 2 ^ 32 - e.qual) % 2 ^ 32
  let e1 : Entry := if e.table = 0 && fresh ≥ d.flapUnits then { e with moved := false, frozen := false } else e
  let e2 : Entry := if e.table = 0 && d.now - d.recover64 (e.key / 2 ^ 64) > 2 ^ 54 * 256 then { e1 with stampOld := true } else e1
  if e2.ageEn && !e2.static then
    if e2.age + 1 ≥ ageLimit d.tbl.passCfg then none else some { e2 with age := e2.age + 1 }
  else some e2

/-- Visits one place. -/
def Dev.scanPlace (d : Dev) (p : Place) (e : Entry) : Dev :=
  match d.scanEntry e with
  | some e1 => d.putEntry p e1
  | none => (d.dropEntry p).logTable e.table e.fn (d.updIndex e.toMatch (some p)) 6 .ok

/-- Bucket a of an entry. -/
def Dev.homeOf (d : Dev) (e : Entry) : Option Nat := (d.candidates e.toMatch).map (·.1)

/-- Clears the spill flags of a bucket that cover no entry any more (R142). -/
def Dev.trimSpill (d : Dev) (b : Nat) : Dev :=
  let inB := (d.tbl.slots.first? fun k e => k / 4 != b && d.homeOf e == some b).isSome
  let inO := (d.tbl.ovf.first? fun _ e => d.homeOf e == some b).isSome
  let d1 := d.setTbl fun x => { x with spill := x.spill.putD 0 b (x.spill.getD b 0 &&& (b2n inB + 2 * b2n inO)) }
  if d1.tbl.spill = d.tbl.spill then d1 else d1.slotWritten (4 * b)

/-- Some enabled table's range holds the bucket. -/
def Dev.bucketInUse (d : Dev) (b : Nat) : Bool :=
  (List.range 64).any fun n => d.tblEnabled n &&
    match d.tblLog2 n with
    | some l => decide ((b + d.partBuckets - d.get Fld.TBL_DESC_BASE_BASE n % d.partBuckets) % d.partBuckets < 2 ^ l)
    | none => false

/-- The scanner visits the next bucket, once its time in the pass has come; entries of the overflow store go with their
bucket a (R152; log entry 23). -/
def Dev.scanVisit (d : Dev) : Dev :=
  match d.tbl.scan with
  | none => d
  | some (start, b) =>
    if !d.tblOn || start + scanPeriod d.tbl.passCfg * b / d.partBuckets > d.ref then d
    else
      let d1 := d.setTbl fun x => { x with scan := if b + 1 < d.partBuckets then some (start, b + 1) else none }
      if !d.bucketInUse b || d.bucketFailed b then d1
      else
        let slots := (List.range 4).filterMap fun i => (d.tbl.slots.look? (4 * b + i)).map fun e => (Place.slot (4 * b + i), e)
        let spilt := (d.tbl.ovf.cells.filter fun c => d.homeOf c.2 == some b).map fun c => (Place.ovf c.1, c.2)
        (((slots ++ spilt).filter fun x => d.tblEnabled x.2.table).foldl (fun y x => y.scanPlace x.1 x.2) d1).trimSpill b

/-! ## Clearing (R474) -/

/-- Clears a table: every bucket of its range, and its overflow entries. -/
def Dev.clearTable (d : Dev) (n : Nat) : Dev :=
  let inRange (b : Nat) : Bool := match d.tblLog2 n with
    | some l => decide ((b + d.partBuckets - d.get Fld.TBL_DESC_BASE_BASE n % d.partBuckets) % d.partBuckets < 2 ^ l)
    | none => false
  (d.setTbl fun x => { x with slots := x.slots.keep fun k _ => !inRange (k / 4), spill := x.spill.keep fun b _ => !inRange b,
                              ovf := x.ovf.keep fun _ e => e.table != n }).bucketsWritten
    ((List.range (2 ^ (d.tblLog2 n).getD 0)).map fun i => (d.get Fld.TBL_DESC_BASE_BASE n + i) % d.partBuckets)

/-- ENABLE of a table has gone from 0 to 1. -/
def Dev.startClearing (d : Dev) (n : Nat) : Dev := (d.clearTable n).set Fld.TBL_DESC_CFG_CLEARING n 1

/-- After a write of TBL_DESC_CFG[n]. -/
def Dev.descCfgWritten (d : Dev) (n : Nat) (old : Word) : Dev :=
  if !old.getLsbD 31 && d.tblEnabled n then d.startClearing n else d

/-- After a write of TBL_PARTITION: contents stay at their bytes of the SRAM, so an entry's bucket moves against the partition's
start, and one whose bytes now belong to the packet buffer is gone (R135). What buckets that come from the packet buffer hold is
not modelled: they start empty (DESIGN CHOICE, log entry 45). -/
def Dev.partitionWritten (d : Dev) (old : Word) : Dev :=
  let start (w : Word) : Nat := 131072 * clampTo 2 15 (bitsOf w Fld.TBL_PARTITION_PB_UNITS.hi Fld.TBL_PARTITION_PB_UNITS.lo)
  let was := start old
  let now := start (d.rd .TBL_PARTITION)
  let moved {α : Type} (n : Nat) (t : Tbl α) : Tbl α :=
    ⟨t.cells.filterMap fun c => if n * now ≤ c.1 + n * was then some (c.1 + n * was - n * now, c.2) else none⟩
  d.setTbl fun x => { x with slots := moved 4 x.slots, spill := moved 1 x.spill, failed := moved 1 x.failed }

/-- After a write of TBL_CTRL: a pass starts from the first bucket when ENABLE returns, and stops when it goes (R152);
learns that wait are discarded (R135). -/
def Dev.tblCtrlWritten (d : Dev) (old : Word) : Dev :=
  match old.getLsbD 31, d.on? Fld.TBL_CTRL_ENABLE with
  | false, true => d.setTbl fun x => { x with scan := some (d.ref, 0), lastPass := some d.ref, passCfg := d.rd .TBL_AGE_CFG }
  | true, false => d.setTbl fun x => { x with scan := none, learnQ := [] }
  | _, _ => d

/-- Clearing ends; a TABLE_CREATE of the table replies (R153, R474). -/
def Dev.tableClearDone (d : Dev) (n : Nat) : Dev :=
  if n < 64 && d.tblClearing n then
    let d1 := d.set Fld.TBL_DESC_CFG_CLEARING n 0
    match d1.vcl.cmds.first? fun _ a => a.opcode == 0x0501 && a.started && bitsOf (le32 a.params 0) 5 0 == n with
    | some (c, _) => d1.replyOk c
    | none => d1
  else d

/-! ## Commands -/

/-- The command goes back to waiting, to be taken up again (log entry 27). -/
def Dev.wait (d : Dev) (n : Nat) : Dev := d.updCmd n fun a => { a with started := false }

/-- A command whose block does not answer ends with TARGET_RESET (R321; log entry 26); while the block's island rises it
waits (R401). -/
def Dev.needBlock (d : Dev) (b n : Nat) (k : Dev → Dev) : Dev :=
  if d.available b then k d else if d.rising b then d.wait n else d.reply n .targetReset

/-- TABLE_CREATE (R153, R474). -/
def Dev.tableCreate (d : Dev) (n : Nat) (p : Bytes) : Dev :=
  let t := bitsOf (le32 p 0) 5 0
  let base := bitsOf (le32 p 4) 20 0
  let l := bitsOf (le32 p 8) 4 0
  let size := if l = 0 then 0 else 2 ^ clampTo 10 20 l
  let clash := (List.range 64).any fun k => k ≠ t && d.tblEnabled k &&
    match d.tblLog2 k with
    | some m =>
      let b := d.get Fld.TBL_DESC_BASE_BASE k
      size ≠ 0 && base < b + 2 ^ m && b < base + size
    | none => false
  if t < 4 || clash || base + size > d.partBuckets then d.reply n .badParam
  else if d.tblEnabled t then d.reply n .badState
  else
    let d1 := (d.wr .TBL_DESC_BASE t 0 (toWord base)).wr .TBL_DESC_SEED t 0 (le32 p 12)
    (((d1.set Fld.TBL_DESC_CFG_LOG2_BUCKETS t l).set Fld.TBL_DESC_CFG_ENABLE t 1).startClearing t).commit n

/-- TABLE_GRANT (R136). -/
def Dev.tableGrant (d : Dev) (n f : Nat) (p : Bytes) : Dev :=
  let t := bitsOf (le32 p 0) 5 0
  let w := d.rd .TBL_FUNC_GRANT (2 * f + t / 32)
  let v := if (le32 p 0).getLsbD 31 then w ||| BitVec.ofNat 32 (2 ^ (t % 32)) else w &&& ~~~ (BitVec.ofNat 32 (2 ^ (t % 32)))
  (d.wr .TBL_FUNC_GRANT (2 * f + t / 32) 0 v).replyOk n

/-- What the entry commands check of a table (R341): tables 1 to 3 refuse, a virtual function uses FLOW tables granted to
it, table 0 takes physical functions, a disabled table is BAD_STATE, a table being cleared makes the command wait. -/
def Dev.onTable (d : Dev) (n : Nat) (a : Accepted) (t : Nat) (k : Dev → Dev) : Dev :=
  if 1 ≤ t && t ≤ 3 then d.reply n .badParam
  else if a.cmd.issuer ≥ 4 && (t = 0 || !d.tblGranted a.cmd.issuer t) then d.reply n .denied
  else if !d.tblEnabled t then d.reply n .badState
  else if d.tblClearing t then d.wait n
  else d.needBlock 9 n k

/-- The 128-bit key in 16 bytes of parameters, in the register order of R99. -/
def paramKey (p : Bytes) (i : Nat) : Nat := keyOf (fun k => le32 p (i + 4 * k)) 0

/-- The host-owned fields of an ENTRY_WRITE (R154). -/
def Dev.hostEntry (d : Dev) (t f : Nat) (r : Bytes) : Entry :=
  let w := le32 r 24
  let key := paramKey r 0
  let res := (le32 r 16).toNat + 2 ^ 32 * (le32 r 20).toNat
  { key := if t = 0 then stampedKey d.now key else key
    result := if t = 0 then macResult (res / 2 ^ 48) 31 else res
    static := w.getLsbD 30, ageEn := w.getLsbD 29, table := t, fn := f }

/-- ENTRY_WRITE (R141, R154). -/
def Dev.entryWrite (d : Dev) (n : Nat) (a : Accepted) (p : Bytes) : Dev :=
  let t := bitsOf (le32 p 0) 5 0
  d.onTable n a t fun d =>
    let e := d.hostEntry t a.fn (slice p 4 32)
    let m := e.toMatch
    let full (d : Dev) (q : Option Place) : Dev := (d.logTable t a.fn (d.updIndex m q) 1 .tableFull).reply n .tableFull
    match d.findEntry m with
    | some (q, old) =>
      if d.moveFits q old.fn e.fn then ((d.putEntry q e).logTable t a.fn (d.updIndex m (some q)) 1 .ok).replyOk n
      else full d (some q)
    | none =>
      match d.insertEntry e false with
      | some (q, d1) => (d1.logTable t a.fn (d1.updIndex m (some q)) 1 .ok).replyOk n
      | none => full d none

/-- The match that ENTRY_DELETE and ENTRY_READ name. -/
def entryMatch (p : Bytes) (f : Nat) : Match := { table := bitsOf (le32 p 0) 5 0, key := paramKey p 4, fn := f, qual := 0 }

/-- ENTRY_DELETE (R154). -/
def Dev.entryDelete (d : Dev) (n : Nat) (a : Accepted) (p : Bytes) : Dev :=
  let m := entryMatch p a.fn
  d.onTable n a m.table fun d =>
    match d.findEntry m with
    | some (q, e) => ((d.dropEntry q).logTable m.table e.fn (d.updIndex m (some q)) 2 .ok).replyOk n
    | none => d.reply n .notFound

/-- The words of an entry (R138); the spill flags are those of slot 0. -/
def Dev.entryWords (d : Dev) (p : Place) (e : Entry) : List Word :=
  slotWords (some e) (match p with
    | .slot k => if k % 4 = 0 then d.tbl.spill.getD (k / 4) 0 else 0
    | .ovf _ => 0)

/-- ENTRY_READ. -/
def Dev.entryRead (d : Dev) (n : Nat) (a : Accepted) (p : Bytes) : Dev :=
  let m := entryMatch p a.fn
  d.onTable n a m.table fun d =>
    match d.findEntry m with
    | some (q, e) => d.replyOk n (d.entryWords q e)
    | none => d.reply n .notFound

/-- TABLE_FLUSH (R153, R469). -/
def Dev.tableFlush (d : Dev) (n : Nat) (a : Accepted) (p : Bytes) : Dev :=
  let t := bitsOf (le32 p 0) 5 0
  let byFunc := (le32 p 0).getLsbD 31 || a.cmd.issuer ≥ 4
  let byFid := (le32 p 0).getLsbD 30
  let fid := bitsOf (le32 p 4) 27 16
  let picked (e : Entry) : Bool :=
    e.table == t && (!byFunc || e.fn == a.fn) && (!byFid || natBits e.key 59 48 == fid)
  if byFid && t ≠ 0 then d.reply n .badParam
  else
    d.onTable n a t fun d =>
      let hit := (d.tbl.slots.cells.filter fun c => picked c.2).map (fun c => (Place.slot c.1, c.2))
        ++ (d.tbl.ovf.cells.filter fun c => picked c.2).map fun c => (Place.ovf c.1, c.2)
      (hit.foldl (fun (x : Dev) c => (x.dropEntry c.1).logTable t c.2.fn (d.updIndex c.2.toMatch (some c.1)) 3 .ok) d).replyOk n
        [toWord hit.length]

/-- What LPM_ADD and LPM_DEL name: family, length, prefix; none when refused (R145). -/
def routeOf (p : Bytes) : Option (Bool × Nat × Nat) :=
  let v6 := (le32 p 0).getLsbD 31
  let len := bitsOf (le32 p 0) 7 0
  let w := if v6 then 128 else 32
  let key := paramKey p 4
  if len > w || key ≠ prefixOf w len key then none else some (v6, len, key)

/-- LPM_ADD (R145). -/
def Dev.lpmAdd (d : Dev) (n f : Nat) (p : Bytes) : Dev :=
  match routeOf p with
  | none => d.reply n .badParam
  | some (v6, len, key) =>
    let t := 2 + b2n v6
    let res := le p 20 8
    if d.tblClearing t then d.wait n
    else
      d.needBlock 9 n fun d =>
        if len = 0 then
          ((d.setTbl fun x => { x with dflt := x.dflt.put (2 * f + b2n v6) res }).logTable t f 0xFFFFFFFF 4 .ok).replyOk n
        else
          let m := routeMatch v6 f len key
          match d.findEntry m with
          | some (q, e) => ((d.putEntry q { e with result := res }).logTable t f (d.updIndex m (some q)) 4 .ok).replyOk n
          | none =>
            match d.insertEntry { key := m.key, result := res, static := true, ageEn := false, table := t, fn := f, qual := m.qual }
                false with
            | some (q, d1) => (d1.logTable t f (d1.updIndex m (some q)) 4 .ok).replyOk n
            | none => (d.logTable t f (d.updIndex m none) 4 .tableFull).reply n .tableFull

/-- LPM_DEL (R145). -/
def Dev.lpmDel (d : Dev) (n f : Nat) (p : Bytes) : Dev :=
  match routeOf p with
  | none => d.reply n .badParam
  | some (v6, len, key) =>
    let t := 2 + b2n v6
    if d.tblClearing t then d.wait n
    else
      d.needBlock 9 n fun d =>
        if len = 0 then
          match d.tbl.dflt.look? (2 * f + b2n v6) with
          | some _ =>
            ((d.setTbl fun x => { x with dflt := x.dflt.erase (2 * f + b2n v6) }).logTable t f 0xFFFFFFFF 5 .ok).replyOk n
          | none => d.reply n .notFound
        else
          let m := routeMatch v6 f len key
          match d.findEntry m with
          | some (q, _) => ((d.dropEntry q).logTable t f (d.updIndex m (some q)) 5 .ok).replyOk n
          | none => d.reply n .notFound

/-- LPM_FILTER (R146). -/
def Dev.lpmFilter (d : Dev) (n f : Nat) (p : Bytes) : Dev :=
  if (le32 p 0).getLsbD 31 then
    ((List.range 4).foldl (fun (x : Dev) w => x.wr .TBL_LPM6_FILTER (4 * f + w) 0 (le32 p (4 + 4 * w))) d).replyOk n
  else (d.wr .TBL_LPM4_FILTER f 0 (le32 p 4)).replyOk n

/-- What a FUNCTION reset removes (R155). -/
def Dev.tblFuncReset (d : Dev) (f : Nat) : Dev :=
  let mine (e : Entry) : Bool := e.fn == f
  let d1 := d.setTbl fun x => { x with slots := x.slots.keep fun _ e => !mine e, ovf := x.ovf.keep fun _ e => !mine e,
                                       dflt := (x.dflt.erase (2 * f)).erase (2 * f + 1),
                                       learnQ := x.learnQ.filter fun r => r.fn != f }
  (List.range 4).foldl (fun (x : Dev) w => x.wr .TBL_LPM6_FILTER (4 * f + w) 0 0) (d1.wr .TBL_LPM4_FILTER f 0 0)

end Sys2Proof.Machine
end

