-- ==== Sys2Proof/Machine/ParseOps.lean ====
section
/-!
DEFINITION. Headers: the flow hash of the ingress front end (R466, R50), the vendor parse (R113 to R116, R473), and the
rule key (R119).
-/
namespace Sys2Proof.Machine

/-- TPID of a tag that the device recognises. -/
def isTpid (e : Nat) : Bool := e = 0x8100 || e = 0x88A8

/-! ## Flow hash -/

/-- Place of the R-TAG of a frame, after zero, one or two VLAN tags (R221). -/
def rtagAt (bs : Bytes) : Option Nat :=
  if be bs 12 2 = 0xF1C1 then some 12
  else if isTpid (be bs 12 2) && be bs 16 2 = 0xF1C1 then some 16
  else if isTpid (be bs 12 2) && isTpid (be bs 16 2) && be bs 20 2 = 0xF1C1 then some 20
  else none

/-- The bytes of a frame without its R-TAG (R221). -/
def untag (bs : Bytes) : Bytes :=
  match rtagAt bs with
  | some i => cut bs i 6
  | none => bs

/-- Offset of the EtherType that follows the last recognised tag: at most two tags. -/
def typeOffset (bs : Bytes) : Nat :=
  if isTpid (be bs 12 2) && 16 + 2 ≤ min bs.length 256 then (if isTpid (be bs 16 2) && 20 + 2 ≤ min bs.length 256 then 20 else 16)
  else 12

/-- The last Next Header reached from an IPv6 header, and its place (R466). -/
def v6Chain (bs : Bytes) (n : Nat) : Nat → Nat → Nat → Nat × Nat
  | 0, nh, pos => (nh, pos)
  | fuel + 1, nh, pos =>
    if (nh = 0 || nh = 43 || nh = 60) && pos + 2 ≤ n then
      v6Chain bs n fuel (byteAt bs pos).toNat (pos + 8 * ((byteAt bs (pos + 1)).toNat + 1))
    else (nh, pos)

/-- The message whose CRC32C is FLOW_HASH (R466). -/
def flowMessage (bs : Bytes) : Bytes :=
  let n := min bs.length 256
  let eo := typeOffset bs
  let et := be bs eo 2
  let ip := eo + 2
  let ports (proto pos : Nat) (frag : Bool) : Bytes :=
    if (proto = 6 || proto = 17) && !frag && pos + 4 ≤ n then slice bs pos 4 else []
  if et = 0x0800 && ip + 20 ≤ n then
    let proto := (byteAt bs (ip + 9)).toNat
    let frag := be bs (ip + 6) 2 % 2 ^ 14 ≠ 0
    [4#8] ++ slice bs (ip + 12) 8 ++ [byteAt bs (ip + 9)] ++ ports proto (ip + 4 * ((byteAt bs ip).toNat % 16)) frag
  else if et = 0x86DD && ip + 40 ≤ n then
    let (proto, pos) := v6Chain bs n 32 (byteAt bs (ip + 6)).toNat (ip + 40)
    [6#8] ++ slice bs (ip + 8) 32 ++ [BitVec.ofNat 8 proto] ++ ports proto pos false
  else slice bs 0 12 ++ bytesBE 2 et

/-- FLOW_HASH (R466). -/
def flowHash (bs : Bytes) : Word := crc32c (flowMessage bs)

/-- The order-tracker slot (R50). -/
def orderSlot (f : Nat) (hash : Word) : Nat := (crc32c (bytesBE 2 (f % 1024) ++ bytesBE 4 hash.toNat)).toNat % 65536

/-! ## The vendor parse -/

/-- The hooks of a function: UDP key and hook number. -/
def hookFor (hooks : List (Nat × Bool × Nat)) (udp : Bool) (key : Nat) : Option Nat :=
  (hooks.find? fun h => h.2.1 == udp && h.2.2 == key).map (·.1)

/-- Changes what has been found at the present level. -/
def ParseSt.lv (p : ParseSt) (f : ParseLv → ParseLv) : ParseSt :=
  if p.inner.isSome then { p with innerLv := f p.innerLv } else { p with outerLv := f p.outerLv }

/-- What has been found at the present level. -/
def ParseSt.level (p : ParseSt) : ParseLv := if p.inner.isSome then p.innerLv else p.outerLv

/-- The parse stops before its present header (R473). -/
def ParseSt.stop (p : ParseSt) (exc : Nat) : ParseSt :=
  { p with exc := exc, payload := some (if exc = 1 || p.pos > 255 then 255 else p.pos) }

/-- The present header of `n` bytes has been parsed; `next` follows. -/
def ParseSt.pass (p : ParseSt) (n : Nat) (next : Hdr) : ParseSt :=
  let q : ParseSt := { p with pos := p.pos + n, headers := p.headers + 1, next := next }
  if next = .payload then { q with payload := some (if q.pos < 256 then q.pos else 255) } else q

/-- What follows an EtherType (R113). -/
def afterType (hooks : List (Nat × Bool × Nat)) (et : Nat) : Hdr :=
  if isTpid et then .tag else if et = 0x0800 then .ip4 else if et = 0x86DD then .ip6
  else match hookFor hooks false et with
    | some h => .hook h
    | none => .payload

/-- What follows an IPv6 Next Header or IPv4 protocol (R113). -/
def afterProto (v6 : Bool) (nh : Nat) : Hdr :=
  if nh = 17 then .udp else if nh = 6 then .tcp
  else if v6 && (nh = 0 || nh = 43 || nh = 60) then .ext else if v6 && nh = 44 then .frag else .payload

/-- The tunnel row of R115 at the inner network header: its offset and its total length. -/
def ParseSt.tunnelConflict (p : ParseSt) (total : Nat) : Bool :=
  match p.inner with
  | none => false
  | some (start, some lin) => !p.innerIp && (p.pos - start + total > lin || (lin ≥ 60 && p.pos - start + total ≠ lin))
  | some (_, none) => false

/-- Ethernet header or tag: the level's EtherType unless a tag follows. -/
def ParseSt.l2 (p : ParseSt) (hooks : List (Nat × Bool × Nat)) (et n : Nat) : ParseSt :=
  if isTpid et then p.pass n .tag
  else (p.lv fun l => { l with etherType := some et }).pass n (afterType hooks et)

/-- The least bytes of a header that its kind needs, up to the field that gives its length where it has one; a hook's header must
begin within the window. -/
def Hdr.least : Hdr → Nat
  | .eth => 14 | .tag => 4 | .ip4 => 1 | .ip6 => 40 | .ext => 8 | .frag => 8 | .udp => 8 | .tcp => 13 | .vxlan => 8 | .geneve => 8
  | .hook _ => 1
  | .payload => 0

/-- One header of the parse (R113 to R116, R473), of the window `w` of a frame of `len` bytes. A hook's header waits for its
hook. Where several exceptions fit one header, the window and depth come first, then the version or option length, then
the whole length against the window, then the length fields (log entry 23). -/
def ParseSt.step (p : ParseSt) (w : Bytes) (len : Nat) (hooks : List (Nat × Bool × Nat)) : ParseSt :=
  if p.payload.isSome then p
  else if p.next = .payload then { p with payload := some (if p.pos < 256 then p.pos else 255) }
  else if p.headers ≥ 16 || p.pos + p.next.least > 256 then p.stop 1
  else
    let o := p.pos
    match p.next with
    | .payload => p
    | .hook _ => p
    | .eth =>
      let bare : Bool :=
        match p.inner with
        | some (start, some lin) =>
          let e := if isTpid (be w (o + 12) 2) then (if isTpid (be w (o + 16) 2) then o + 20 else o + 16) else o + 12
          start == o && !(be w e 2 == 0x0800 || be w e 2 == 0x86DD) && decide (e + 2 - o > lin)
        | _ => false
      if bare then p.stop 2
      else
        let q : ParseSt := { p with tags := 0, innerOff := if p.inner.map (·.1) = some o then o else p.innerOff }
        q.l2 hooks (be w (o + 12) 2) 14
    | .tag =>
      if p.tags ≥ 2 then p.stop 1
      else
        let tci := be w o 2
        let q := { p with tags := p.tags + 1 }.lv fun l =>
          if l.tag.isSome then l else { l with tag := some (natBits tci 15 13, natBits tci 11 0) }
        q.l2 hooks (be w (o + 2) 2) 4
    | .ip4 =>
      let ihl := (byteAt w o).toNat % 16
      let total := be w (o + 2) 2
      if (byteAt w o).toNat / 16 ≠ 4 then p.stop 4
      else if o + 4 * ihl > 256 then p.stop 1
      else if ihl < 5 || total < 4 * ihl || o + total > len || p.tunnelConflict total then p.stop 2
      else
        let proto := (byteAt w (o + 9)).toNat
        let q := { p with l3 := if p.inner.isSome then p.l3 else o, ipEnd := o + total, innerIp := p.innerIp || p.inner.isSome }.lv
          fun l => { l with l3 := 1, proto := proto, src := be w (o + 12) 4, dst := be w (o + 16) 4 }
        if be w (o + 6) 2 % 2 ^ 14 ≠ 0 then { q with fragment := true }.pass (4 * ihl) .payload
        else q.pass (4 * ihl) (afterProto false proto)
    | .ip6 =>
      let plen := be w (o + 4) 2
      let fold (i : Nat) : Nat := Nat.xor (Nat.xor (be w i 4) (be w (i + 4) 4)) (Nat.xor (be w (i + 8) 4) (be w (i + 12) 4))
      if (byteAt w o).toNat / 16 ≠ 6 then p.stop 4
      else if o + 40 + plen > len || plen = 0 || p.tunnelConflict (40 + plen) then p.stop 2
      else
        let nh := (byteAt w (o + 6)).toNat
        let q := { p with l3 := if p.inner.isSome then p.l3 else o, ipEnd := o + 40 + plen,
                          innerIp := p.innerIp || p.inner.isSome }.lv
          fun l => { l with l3 := 2, proto := nh, src := fold (o + 8), dst := fold (o + 24) }
        q.pass 40 (afterProto true nh)
    | .ext =>
      let n := 8 * ((byteAt w (o + 1)).toNat + 1)
      let nh := (byteAt w o).toNat
      if o + n > 256 then p.stop 1
      else if o + n > p.ipEnd then p.stop 2
      else (p.lv fun l => { l with proto := nh }).pass n (afterProto true nh)
    | .frag =>
      if o + 8 > p.ipEnd then p.stop 2
      else ({ p with fragment := true }.lv fun l => { l with proto := (byteAt w o).toNat }).pass 8 .payload
    | .udp =>
      let ulen := be w (o + 4) 2
      let dport := be w (o + 2) 2
      if ulen < 8 || o + ulen > p.ipEnd then p.stop 2
      else
        let q := { p with l4 := if p.inner.isSome then p.l4 else o, udpLen := if p.inner.isSome then p.udpLen else ulen }.lv
          fun l => { l with sport := be w o 2, dport := dport }
        let next : Hdr :=
          if p.inner.isNone && dport = 4789 then .vxlan else if p.inner.isNone && dport = 6081 then .geneve
          else match hookFor hooks true dport with
            | some h => .hook h
            | none => .payload
        q.pass 8 next
    | .tcp =>
      let doff := (byteAt w (o + 12)).toNat / 16
      if o + 4 * doff > 256 then p.stop 1
      else if doff < 5 || o + 4 * doff > p.ipEnd then p.stop 2
      else
        ({ p with l4 := if p.inner.isSome then p.l4 else o }.lv fun l => { l with sport := be w o 2, dport := be w (o + 2) 2 }).pass
          (4 * doff) .payload
    | .vxlan => { p with inner := some (o + 8, some (p.udpLen - 16)) }.pass 8 .eth
    | .geneve =>
      let opt := (byteAt w o).toNat % 64
      let n := 8 + 4 * opt
      let pt := be w (o + 2) 2
      if opt > 16 then p.stop 3
      else if o + n > 256 then p.stop 1
      else
        { p with inner := some (o + n, some (p.udpLen - 8 - n)) }.pass n
          (if pt = 0x6558 then .eth else if pt = 0x0800 then .ip4 else if pt = 0x86DD then .ip6 else .payload)

/-- The parse goes on to its end, or to a hook. -/
def ParseSt.run (w : Bytes) (len : Nat) (hooks : List (Nat × Bool × Nat)) : Nat → ParseSt → ParseSt
  | 0, p => p
  | fuel + 1, p => ParseSt.run w len hooks fuel (p.step w len hooks)

/-- A hook returns: header length `n` and next protocol (R110, R114, R115). An Ethernet header after a hook's, or a network header
after the outer one has been parsed, begins the inner headers, whose length no row of R115 gives: the offsets of the outer
headers stay (R113; DEDUCED, log entry 44). -/
def ParseSt.hooked (p : ParseSt) (off n nextProto : Nat) : ParseSt :=
  let next : Hdr := if nextProto = 1 then .eth else if nextProto = 2 then .ip4 else if nextProto = 3 then .ip6 else .payload
  let tunnel : Bool := p.inner.isNone && (next == .eth || (next != .payload && p.l3 != 0))
  let q := { p with pos := off, inner := if tunnel then some (off + n, none) else p.inner }
  if q.headers ≥ 16 || q.pos + n > 256 then q.stop 1
  else if q.ipEnd ≠ 0 && q.pos + n > q.ipEnd then q.stop 2
  else q.pass n next

/-- The whole parse of a window without hooks. -/
def parseAll (w : Bytes) (len : Nat) : ParseSt := ParseSt.run w len [] 20 {}

/-! ## The rule key (R119) -/

/-- The key of what was found at one level. -/
def ruleKey (inPort : Nat) (l : ParseLv) : Nat :=
  let (pcp, vid) := l.tag.getD (0, 0)
  let other : Bool :=
    match l.etherType with
    | some e => e ≠ 0x0800 && e ≠ 0x86DD
    | none => false
  let l3 := if l.l3 ≠ 0 then l.l3 else if other then 3 else 0
  let sel (v : Nat) : Nat := if l.l3 ≠ 0 then v else 0
  inPort % 32 * 2 ^ 123 + pcp * 2 ^ 120 + vid * 2 ^ 108 + l3 * 2 ^ 106 + sel l.proto * 2 ^ 98 + sel l.src * 2 ^ 64
    + sel l.dst * 2 ^ 32 + sel l.sport * 2 ^ 16 + (if l3 = 3 then l.etherType.getD 0 else sel l.dport)

end Sys2Proof.Machine
end

