-- ==== Sys2Proof/Machine/EndOps.lean ====
section
/-!
DEFINITION. The ends of a frame's handling by a thread (R100, R118, R131) and the slow path (R343 to R345).
-/
namespace Sys2Proof.Machine

/-! ## The slow path -/

/-- Frames that the slow path holds, in all and of one owner. -/
def Dev.slowCount (d : Dev) : Nat := d.vcl.slow.size
def Dev.slowOf (d : Dev) (f : Nat) : Nat := d.vcl.slow.countP fun _ e => e.owner == f

/-- SLOW_LIMIT, and SLOW_HOLD in ns, as they act (R357). -/
def Dev.slowLimit (d : Dev) (f : Nat) : Nat := min 8192 (d.get Fld.VCL_SLOW_CFG_SLOW_LIMIT f)
def Dev.slowHold (d : Dev) (f : Nat) : Nat := clampTo 1 10000 (d.get Fld.VCL_SLOW_CFG_SLOW_HOLD f) * 100000

/-- Parameters of a SLOW_FRAME event (R344). -/
def Dev.slowParams (d : Dev) (handle : Nat) (f : Frame) : Bytes :=
  wordBytes ([toWord handle, f.lg.getD 3 0, f.lg.getD 4 0, f.lg.getD 7 0] ++ stampWords (d.ingress f.lg)
    ++ [toWord (lgGet f.lg lgFrameLen)]) ++ slice f.bytes 0 128

/-- A frame enters the slow path, or is dropped and counted (R343, R344); `why` names the drop. -/
def Dev.slowPath (d : Dev) (id src reason : Nat) : Dev :=
  match d.frame? id with
  | none => d
  | some f0 =>
    let f : Frame := { f0 with lg := lgSet (lgSet f0.lg lgException reason) lgSlowPath 1 }
    let full := d.slowCount ≥ 8192 || d.slowOf f.owner ≥ d.slowLimit f.owner
    let d1 := d.updFrame id fun _ => f
    if !d.available 12 then (d1.bump .VCL_SLOW_DROP f.owner).dropFrame id src 0x00040000
    else if full then (d1.bump .VCL_SLOW_DROP f.owner).dropFrame id src (Config.dropReason 3)
    else
      let h := d.vcl.nextHandle
      let fits := d.eventFits f.owner
      let d2 := d1.event f.owner 0x8005 (d.slowParams h f)
      if !fits then (d2.bump .VCL_SLOW_DROP f.owner).dropFrame id src (Config.dropReason 4)
      else
        let d3 := (d2.updFrame id fun x => { x with stage := .slow reason h, since := d.ref }).moveFrame id 99
        let ent := SlowEnt.mk id f.owner (d.ref + d.slowHold f.owner)
        { d3 with vcl := { d3.vcl with nextHandle := h + 1, slow := d3.vcl.slow.put h ent } }

/-- A reinjection or other further traverse beyond TRAVERSE_MAX is counted and dropped (R131). -/
def Dev.traverseMax (d : Dev) (f : Nat) : Nat := max 1 (d.get Fld.CLS_FUNC_CFG_TRAVERSE_MAX f)

/-! ## END -/

/-- The parse window replaces the first bytes of the frame (R62). -/
def Dev.writeBack (d : Dev) (t id : Nat) : Dev :=
  (d.updFrame id fun f => { f with bytes := overwrite f.bytes 0 ((d.thread t).pw.take 256) }).fill
    (((d.frame? id).map (·.chain)).getD []) ((d.thread t).pw.take (min 256 (((d.frame? id).map (·.bytes.length)).getD 0)))

/-- The frame goes to the virtual switch. -/
def Dev.handSwitch (d : Dev) (id : Nat) (recirc : Option Nat) : Dev :=
  (d.updFrame id fun f => { f with stage := .toSwitch recirc, since := d.ref }).moveFrame id 96

/-- What R118 does with a frame of a thread; `recirc` for END RECIRC. -/
def Dev.endUnit (d : Dev) (t id : Nat) (recirc : Bool) : Dev :=
  match d.frame? id with
  | none => d
  | some f =>
    let fn := lgGet f.lg lgFunction
    let src := 32 + regionOf t
    let e0 := lgGet f.lg lgException
    let tooDeep := recirc && e0 = 0 && decide (lgGet f.lg lgTraverse ≥ d.traverseMax fn)
    let e := if tooDeep then 8 else e0
    let d1 := if tooDeep then d.updFrame id fun x => { x with lg := lgSet x.lg lgException 8 } else d
    let drop (x : Dev) : Dev := (x.bump .CLS_EXC_DROP fn).dropFrame id src (toWord (0x00030000 + e))
    if lgOn f.lg lgFragment then d1.slowPath id src e
    else if e ≥ 0x20 then drop d1
    else if e ≠ 0 then
      let d2 := d1.bump .CLS_EXC_COUNT e
      if (d2.rd .CLS_EXC_DISP fn).getLsbD e then d2.slowPath id src e else drop d2
    else if lgOn f.lg lgSlowPath then d1.slowPath id src 0
    else if recirc then
      if lgGet f.lg lgDest = 2 || lgOn f.lg lgEncrypt then d1.handSwitch id (some (regionOf t))
      else d1.recirculate id (regionOf t)
    else d1.handSwitch id none

/-- The thread releases its frame with an END (R67, R100). -/
def Dev.endThread (d : Dev) (t : Nat) (k : Nat → Dev → Dev) : Dev :=
  match (d.thread t).frame with
  | none => d
  | some id => (k id d).freeThread t

/-- END EMIT: the window is written back (R62, R118). -/
def Dev.endEmit (d : Dev) (t : Nat) : Dev := d.endThread t fun id e => (e.writeBack t id).endUnit t id false

/-- END RECIRC (R131). -/
def Dev.endRecirc (d : Dev) (t : Nat) : Dev := d.endThread t fun id e => e.endUnit t id true

/-- END DROP (R100). -/
def Dev.endDrop (d : Dev) (t reason : Nat) : Dev :=
  d.endThread t fun id e =>
    (e.bump .FNC_MC_DROP ((d.threadFn t).getD 0)).dropFrame id (32 + regionOf t) (toWord (0x00010000 + reason))

/-- END SLOW (R100). -/
def Dev.endSlow (d : Dev) (t reason : Nat) : Dev := d.endThread t fun id e => e.slowPath id (32 + regionOf t) reason

end Sys2Proof.Machine
end

