-- ==== Sys2Proof/Machine/SwitchOps.lean ====
section
/-!
DEFINITION. The virtual switch (R162 to R176): VLAN selection and membership, copies and their tags, mirroring, tunnel
encapsulation and termination, and the switch commands.
-/
namespace Sys2Proof.Machine

/-! ## VLANs -/

/-- What R164 selects: the VID, whether the selecting or priority tag stands at byte 12, and the PCP. -/
structure VlanSel where
  vid : Nat
  cut : Bool
  pcp : Nat
  deriving DecidableEq, Repr

/-- The source of a frame is a port, or a function (R163). -/
def srcIsPort (inPort : Nat) : Bool := decide (inPort < 18)

/-- The VLAN mode word of a source. -/
def Dev.vlanCfg (d : Dev) (inPort f : Nat) : Word := if srcIsPort inPort then d.rd .VSW_PORT_CFG inPort else d.rd .VSW_FUNC_CFG f

/-- The selection of R164 by a mode word; none when the frame is not accepted for its tags. -/
def vlanSelect (cfg : Word) (bs : Bytes) : Option VlanSel :=
  let mode := bitsOf cfg 31 30
  let pvid := bitsOf cfg 11 0
  let et := be bs 12 2
  let tci := be bs 14 2
  let vid := natBits tci 11 0
  let tagged := isTpid et
  let prio : Bool := tagged && vid = 0
  let pcp := if tagged then natBits tci 15 13 else bitsOf cfg 15 13
  if !tagged || prio then
    if mode = 1 && !cfg.getLsbD 29 then none else some { vid := pvid, cut := prio, pcp := pcp }
  else if mode = 2 then
    if et = 0x88A8 then some { vid := vid, cut := true, pcp := pcp } else some { vid := pvid, cut := false, pcp := bitsOf cfg 15 13 }
  else if et = 0x88A8 then none
  else if mode = 1 then some { vid := vid, cut := true, pcp := pcp }
  else if vid = pvid then some { vid := vid, cut := true, pcp := pcp } else none

/-- The VLAN of a frame as it stands (R164, R165), with its entry. -/
def Dev.vlanOf (d : Dev) (f : Frame) (inPort fn : Nat) : Option (VlanSel × Vlan) :=
  let cfg := d.vlanCfg inPort fn
  let sel : Option VlanSel := match f.decap with
    | some v => some { vid := v % 4096, cut := false, pcp := bitsOf cfg 15 13 }
    | none => vlanSelect cfg f.bytes
  sel.bind fun s => if s.vid = 4095 then none else (d.vsw.vlans.look? s.vid).map fun v => (s, v)

/-- Membership in a VLAN. -/
def Vlan.hasPort (v : Vlan) (p : Nat) : Bool := v.ports.testBit p
def Vlan.hasFunc (v : Vlan) (f : Nat) : Bool := v.funcs.testBit f

/-- The source is a member. -/
def Vlan.hasSource (v : Vlan) (inPort fn : Nat) : Bool := if srcIsPort inPort then v.hasPort inPort else v.hasFunc fn

/-! ## Tags of a copy (R166) -/

/-- The bytes of a copy to a member: tag edits, and the offset after the tags it leaves with. -/
def tagEdit (cfg : Word) (untagged : Bool) (s : VlanSel) (bs : Bytes) : Bytes × Nat :=
  let mode := bitsOf cfg 31 30
  let plain := if s.cut then cut bs 12 4 else bs
  if untagged || (mode = 1 && cfg.getLsbD 29 && s.vid = bitsOf cfg 11 0) then (plain, 12)
  else
    (insertAt plain 12 (bytesBE 2 (if mode = 2 then 0x88A8 else 0x8100) ++ bytesBE 2 (s.pcp % 8 * 2 ^ 13 + s.vid)), 16)

/-! ## Tunnels -/

/-- Fields of an endpoint record (R172). -/
def epType (r : List Word) : Nat := bitsOf (r.getD 0 0) 31 30
def epV6 (r : List Word) : Bool := (r.getD 0 0).getLsbD 29
def epShared (r : List Word) : Bool := (r.getD 0 0).getLsbD 28
def epAnyRemote (r : List Word) : Bool := (r.getD 0 0).getLsbD 27
def epCsum4 (r : List Word) : Bool := (r.getD 0 0).getLsbD 26
def epCrit (r : List Word) : Bool := (r.getD 0 0).getLsbD 25
def epTagged (r : List Word) : Bool := (r.getD 0 0).getLsbD 24
def epOptWords (r : List Word) : Nat := bitsOf (r.getD 0 0) 23 16
def epOwner (r : List Word) : Nat := bitsOf (r.getD 0 0) 9 0
def epVni (r : List Word) : Nat := bitsOf (r.getD 1 0) 23 0
def epPort (r : List Word) : Nat := bitsOf (r.getD 2 0) 31 27
def epVid (r : List Word) : Nat := bitsOf (r.getD 2 0) 11 0
def epMtu (r : List Word) : Nat := bitsOf (r.getD 3 0) 15 0

/-- Words of a record in network order. -/
def netWords (r : List Word) (i n : Nat) : Bytes := (List.range n).flatMap fun k => bytesBE 4 (r.getD (i + k) 0).toNat

/-- An address of a record as it stands in a header. -/
def epAddr (r : List Word) (i : Nat) : Bytes := if epV6 r then netWords r i 4 else netWords r (i + 3) 1

/-- The one's complement sum of 16-bit words of a byte string, an odd last byte padded with zero. -/
def onesSum (bs : Bytes) : Nat :=
  let s := ((List.range ((bs.length + 1) / 2)).map fun i => be bs (2 * i) 2).foldl (· + ·) 0
  let f (x : Nat) : Nat := x % 65536 + x / 65536
  f (f (f s))

/-- The Internet checksum. -/
def inetSum (bs : Bytes) : Nat := 65535 - onesSum bs

/-- A UDP checksum, 0 sent as all ones. -/
def udpSum (pseudo udp : Bytes) : Nat := let c := inetSum (pseudo ++ udp); if c = 0 then 65535 else c

/-- An IPv4 header without options, DF set, identification 0. -/
def ip4Header (total ttl dscp proto : Nat) (src dst : Bytes) : Bytes :=
  let h (sum : Nat) : Bytes := [0x45#8, BitVec.ofNat 8 (4 * dscp)] ++ bytesBE 2 total ++ [0, 0, 0x40#8, 0]
    ++ [BitVec.ofNat 8 ttl, BitVec.ofNat 8 proto] ++ bytesBE 2 sum ++ src ++ dst
  h (inetSum (h 0))

/-- An IPv6 header. -/
def ip6Header (plen ttl dscp flow next : Nat) (src dst : Bytes) : Bytes :=
  bytesBE 4 (6 * 2 ^ 28 + 4 * dscp * 2 ^ 20 + flow % 2 ^ 20) ++ bytesBE 2 plen ++ [BitVec.ofNat 8 next, BitVec.ofNat 8 ttl] ++ src ++ dst

/-- A frame encapsulated through an endpoint (R173). -/
def encapsulate (r : List Word) (hash : Word) (inner : Bytes) : Bytes :=
  let vx := epType r == 1
  let tun : Bytes :=
    if vx then [8#8, 0, 0, 0] ++ bytesBE 3 (epVni r) ++ [0]
    else [BitVec.ofNat 8 (epOptWords r), BitVec.ofNat 8 (b2n (epCrit r) * 64)] ++ bytesBE 2 0x6558 ++ bytesBE 3 (epVni r) ++ [0]
      ++ netWords r 16 (epOptWords r)
  let body := tun ++ inner
  let ulen := 8 + body.length
  let loc := epAddr r 8
  let rem := epAddr r 12
  let udp (sum : Nat) : Bytes :=
    bytesBE 2 (0xC000 + hash.toNat % 2 ^ 14) ++ bytesBE 2 (if vx then 4789 else 6081) ++ bytesBE 2 ulen ++ bytesBE 2 sum ++ body
  let pseudo : Bytes := if epV6 r then loc ++ rem ++ bytesBE 4 ulen ++ [0, 0, 0, 17#8] else loc ++ rem ++ [0, 17#8] ++ bytesBE 2 ulen
  let u := udp (if epV6 r || epCsum4 r then udpSum pseudo (udp 0) else 0)
  let ttl := bitsOf (r.getD 3 0) 31 24
  let dscp := bitsOf (r.getD 3 0) 23 18
  let ip := if epV6 r then ip6Header ulen ttl dscp hash.toNat 17 loc rem else ip4Header (20 + ulen) ttl dscp 17 loc rem
  let macs := (netWords r 4 3).take 12
  let tag : Bytes :=
    if epTagged r then bytesBE 2 0x8100 ++ bytesBE 2 (bitsOf (r.getD 2 0) 26 24 * 2 ^ 13 + bitsOf (r.getD 2 0) 23 12) else []
  macs ++ tag ++ bytesBE 2 (if epV6 r then 0x86DD else 0x0800) ++ ip ++ u

/-- MAX_LEN of a port (R382). -/
def Dev.portMaxLen (d : Dev) (p : Nat) : Nat := clampTo 1514 9728 (d.rd .PRT_MAX_LEN p).toNat

/-! ## Copies -/

/-- A copy that has its buffers goes on: to the cipher engine when ESP protects it (R198), else to the traffic manager. -/
def Dev.copyReady (d : Dev) (id : Nat) : Dev :=
  match d.copy? id with
  | none => d
  | some c =>
    if c.dest < 1000 && !c.mirror && lgOn c.lg lgEncrypt then
      ((d.updCopy id fun x => { x with stage := .esp }).moveCopy id 97).espEnqueue (lgGet c.lg lgFunction) (.espOut id)
    else (d.updCopy id fun x => { x with stage := .admitting }).moveCopy id 104

/-- One copy that the switch is to make. -/
structure CopyPlan where
  /-- Port, or 1,000 + function. -/
  dest : Nat
  bytes : Bytes
  tagEnd : Nat
  encap : Bool
  mirror : Bool
  /-- Its bytes without the frame's R-TAG, where a tunnel hides the tag (R221). -/
  bare : Option Bytes := none
  deriving DecidableEq, Repr

/-- Enters a planned copy; the header of an encapsulated one needs a buffer of 256 bytes (R238). -/
def Dev.enterCopy (d : Dev) (frame : Nat) (lg : List Word) (p : CopyPlan) : Dev :=
  let c : Copy :=
    { frame := frame, dest := p.dest, gen := if p.dest < 1000 then 0 else d.gen (p.dest - 1000), mirror := p.mirror, bytes := p.bytes,
      lg := lgSet lg lgFrameLen p.bytes.length, stage := .buffers, encap := p.encap, bare := p.bare,
      tagEnd := p.tagEnd }
  let (id, d1) := d.addCopy c
  if p.encap then d1.askBuffers 96 256 (.copy id) else d1.copyReady id

/-- A copy through an endpoint (R173, R176): none, counted, when the endpoint is invalid or the copy too long. -/
def Dev.tunnelPlan (d : Dev) (t : Nat) (hash : Word) (bs : Bytes) (mirror : Bool) : Option CopyPlan × Dev :=
  match d.vsw.tunnels.look? t with
  | none => (none, d.bump .VSW_TUN_MISMATCH)
  | some r =>
    let out := encapsulate r hash bs
    if out.length > min (epMtu r) (d.portMaxLen (epPort r)) then (none, d.bump .VSW_TUN_MTU_DROP)
    else
      (some { dest := epPort r, bytes := out, tagEnd := if epTagged r then 16 else 12, encap := true, mirror := mirror,
              bare := (rtagAt bs).map fun i => encapsulate r hash (cut bs i 6) }, d)

/-- Bytes a mirror sends (R171). -/
def truncated (cfg : Word) (bs : Bytes) : Bytes :=
  let n := 16 * bitsOf cfg 25 16
  if n = 0 then bs else bs.take n

/-- A mirror copy under a mirror register (R171). -/
def Dev.mirrorPlan (d : Dev) (cfg : Word) (hash : Word) (bs : Bytes) : Option CopyPlan × Dev :=
  let dest := bitsOf cfg 15 0
  let i := dest % 2 ^ 13
  let whole := truncated cfg bs
  let miss := (none, d.bump .VSW_MIRROR_DROP)
  match dest / 2 ^ 13 with
  | 1 => if i < 18 then (some { dest := i, bytes := whole, tagEnd := 12, encap := false, mirror := true }, d) else miss
  | 2 =>
    if i < 1024 && d.exists? i then (some { dest := 1000 + i, bytes := whole, tagEnd := 12, encap := false, mirror := true }, d)
    else miss
  | 4 => if i < 4096 then d.tunnelPlan i hash whole true else miss
  | _ => miss

/-- What the switch knows of a frame when it begins replicating it (R169). -/
structure SwCtx where
  sel : VlanSel
  vlan : Vlan
  inPort : Nat
  fn : Nat
  bytes : Bytes
  hash : Word
  deriving DecidableEq, Repr

/-- The copy to one destination of R162, unencapsulated members edited under R166; none when it is no copy. -/
def Dev.plan (d : Dev) (x : SwCtx) (dest : Nat) : Option CopyPlan × Dev :=
  let i := dest % 2 ^ 13
  match dest / 2 ^ 13 with
  | 1 =>
    if i < 18 then
      let (b, e) := tagEdit (d.rd .VSW_PORT_CFG i) (x.vlan.untagPorts.testBit i) x.sel x.bytes
      (some { dest := i, bytes := b, tagEnd := e, encap := false, mirror := false }, d)
    else (none, d)
  | 2 =>
    if i < 1024 && d.exists? i then
      let (b, e) := tagEdit (d.rd .VSW_FUNC_CFG i) (x.vlan.untagFuncs.testBit i) x.sel x.bytes
      (some { dest := 1000 + i, bytes := b, tagEnd := e, encap := false, mirror := false }, d)
    else (none, d)
  | 4 => if i < 4096 then d.tunnelPlan i x.hash x.bytes false else (none, d)
  | _ => (none, d)

/-- DEST of the frame's own source. -/
def sourceDest (inPort fn : Nat) : Nat := if srcIsPort inPort then 2 ^ 13 + inPort else 2 * 2 ^ 13 + fn

/-- The members of a flood (R167): ports, functions, tunnels, less the source. -/
def floodSet (v : Vlan) (src : Nat) (multicast decap : Bool) : List Nat :=
  if (if multicast then v.floodMc else v.floodUc) then
    let ports := ((List.range 18).filter v.hasPort).map (2 ^ 13 + ·)
    let funcs := ((List.range 1024).filter v.hasFunc).map (2 * 2 ^ 13 + ·)
    let tuns := if decap then [] else v.tunnels.eraseDups.map (4 * 2 ^ 13 + ·)
    (ports ++ funcs ++ tuns).filter (· ≠ src)
  else []

/-- The condition of R163 on endpoint `t`. No endpoint above 4,095 exists, so none is held (R21); a copy through a deleted one is
counted where it is made (R176). -/
def Dev.holdsTunnel (d : Dev) (v : Vlan) (fn t : Nat) : Bool :=
  decide (t < 4096) && ((d.vsw.tunnels.look? t).map fun r => epOwner r == fn || (epShared r && v.tunnels.contains t)).getD true

/-- The condition of R163 on a destination, the source being a member. -/
def Dev.holdsDest (d : Dev) (v : Vlan) (vid fn dest : Nat) : Bool :=
  let i := dest % 2 ^ 13
  match dest / 2 ^ 13 with
  | 1 => v.hasPort i
  | 2 => v.hasFunc i
  | 3 => ((d.vsw.groups.look? i).map fun g => g.vid == vid).getD false
  | 4 => d.holdsTunnel v fn i
  | _ => true

/-- A destination code that acts as DROP (R162). -/
def destDrops (dest : Nat) : Bool :=
  let i := dest % 2 ^ 13
  match dest / 2 ^ 13 with
  | 0 => i ≠ 1
  | 1 => 18 ≤ i
  | 2 => 1024 ≤ i
  | 3 => 4096 ≤ i
  | 4 => 4096 ≤ i
  | _ => true

/-- Plans a list of destinations. -/
def Dev.planAll (d : Dev) (x : SwCtx) : List Nat → List CopyPlan × Dev
  | [] => ([], d)
  | dest :: rest =>
    let (p, d1) := d.plan x dest
    let (ps, d2) := d1.planAll x rest
    (p.toList ++ ps, d2)

/-- Mirror copies of the frame and of its copies (R171). -/
def Dev.mirrors (d : Dev) (x : SwCtx) (mirrorFlag : Bool) (copies : List CopyPlan) : List CopyPlan × Dev :=
  let rx : List Word :=
    if srcIsPort x.inPort && d.on? Fld.VSW_PORT_MIRROR_RX_EN x.inPort then [d.rd .VSW_PORT_MIRROR x.inPort] else []
  let fn : List Word := if mirrorFlag && d.on? Fld.VSW_MIRROR_CFG_EN x.fn then [d.rd .VSW_MIRROR_CFG x.fn] else []
  let tx := copies.filterMap fun c =>
    if c.dest < 18 && d.on? Fld.VSW_PORT_MIRROR_TX_EN c.dest then some (d.rd .VSW_PORT_MIRROR c.dest) else none
  (rx ++ fn ++ tx).foldl (fun acc w =>
    let (p, d1) := acc.2.mirrorPlan w x.hash x.bytes
    (acc.1 ++ p.toList, d1)) ([], d)

/-- Replicates a frame into its copies (R169, R243); no copy ends the frame, for the reason given. -/
def Dev.replicate (d : Dev) (id : Nat) (f : Frame) (ps : List CopyPlan) (why : Nat) : Dev :=
  if ps.isEmpty then d.dropFrame id 42 (Config.dropReason why)
  else
    let d1 := (d.updFrame id fun x => { x with stage := .copied, since := d.ref }).shareChain f.chain f.party (ps.map fun _ => 96)
    ps.foldl (fun x p => x.enterCopy id f.lg p) d1

/-- The destinations that a frame's DEST names (R162, R167, R168). -/
def Dev.namedSet (d : Dev) (x : SwCtx) (lg : List Word) (decap : Bool) : List Nat :=
  let dest := lgGet lg lgDest
  let src := sourceDest x.inPort x.fn
  if destDrops dest then []
  else if dest = 1 then floodSet x.vlan src ((byteAt x.bytes 0).getLsbD 0) decap
  else if dest / 2 ^ 13 = 3 then (((d.vsw.groups.look? (dest % 2 ^ 13)).map (·.dests)).getD []).eraseDups.filter (· ≠ src)
  else [dest]

/-- A copy to a port of a frame with ENCAP = 1 goes through the frame's own endpoint instead (R173). -/
def viaEndpoint (lg : List Word) (dest : Nat) : Bool := dest / 2 ^ 13 == 1 && lgOn lg lgEncap

/-- The destinations of a frame's copies (R162, R173). -/
def Dev.destSet (d : Dev) (x : SwCtx) (lg : List Word) (decap : Bool) : List Nat :=
  (d.namedSet x lg decap).map fun dest => if viaEndpoint lg dest then 4 * 2 ^ 13 + lgGet lg lgTunnel else dest

/-- The frame's FUNCTION holds what the frame names: DEST, or TUNNEL in place of a port with ENCAP = 1, and TUNNEL too where a
flood or group has such port copies (R163, R173). -/
def Dev.holdsFrame (d : Dev) (x : SwCtx) (lg : List Word) (decap : Bool) : Bool :=
  let dest := lgGet lg lgDest
  (destDrops dest || viaEndpoint lg dest || d.holdsDest x.vlan x.sel.vid x.fn dest) &&
    (!(d.namedSet x lg decap).any (viaEndpoint lg) || d.holdsTunnel x.vlan x.fn (lgGet lg lgTunnel))

/-- A frame emitted to the switch (R163 to R175). One that is to be protected with a slot that is no ESP_OUT slot of its function is
dropped whole (R198, R21). -/
def Dev.emitFrame (d : Dev) (id : Nat) (f : Frame) : Dev :=
  let fn := lgGet f.lg lgFunction
  let inPort := lgGet f.lg lgInPort
  let dest := lgGet f.lg lgDest
  match d.vlanOf f inPort fn with
  | none => (d.bump .FNC_ISOLATION_DROP fn).dropFrame id 42 (Config.dropReason 6)
  | some (sel, v) =>
    let x : SwCtx := { sel := sel, vlan := v, inPort := inPort, fn := fn, bytes := f.bytes, hash := f.lg.getD 5 0 }
    if !v.hasSource inPort fn || !d.holdsFrame x f.lg f.decap.isSome then
      (d.bump .FNC_ISOLATION_DROP fn).dropFrame id 42 (Config.dropReason 6)
    else if lgOn f.lg lgEncrypt && d.cipOn && !d.espFits (lgGet f.lg lgKeySlot) fn 3 then
      let (e, r) := d.espRefused (lgGet f.lg lgKeySlot) fn 3
      e.dropFrame id 42 r
    else
      let d1 :=
        if lgOn f.lg lgLearn then
          d.learnSubmit { fid := v.fid, mac := be f.bytes 6 6, inPort := inPort, fn := fn, gen := lgGet f.lg lgGeneration,
                          stamp := d.ingress f.lg, tunnel := f.decap.map (· / 4096) }
        else d
      let hairpin : Bool := dest = sourceDest inPort fn && !viaEndpoint f.lg dest
      let set := if hairpin then [] else d1.destSet x f.lg f.decap.isSome
      let noFn : Bool := dest / 2 ^ 13 = 2 && !d1.exists? (dest % 2 ^ 13)
      let d2 :=
        if hairpin then d1.bump .VSW_HAIRPIN_DROP
        else if (set.isEmpty && (destDrops dest || dest = 1)) || noFn then d1.bump .VSW_NO_DEST else d1
      let (ps, d3) := d2.planAll x set
      let (ms, d4) := d3.mirrors x (lgOn f.lg lgMirror) ps
      d4.replicate id f (ps ++ ms) (if hairpin then 7 else 5)

/-- A frame's outer headers are Geneve with O = 1 (R174). -/
def geneveO (bs : Bytes) : Bool :=
  let p := parseAll (slice bs 0 256) bs.length
  p.outerLv.proto == 17 && p.l4 != 0 && p.outerLv.dport == 6081 && (byteAt bs (p.l4 + 9)).getLsbD 7

/-- What termination checks beside O (R174): the inner frame's place and length when every check passes. -/
def termination (r : List Word) (bs : Bytes) : Option (Nat × Nat) :=
  let p := parseAll (slice bs 0 256) bs.length
  match p.inner with
  | some (start, some lin) =>
    let v6 := p.outerLv.l3 == 2
    let src := if v6 then slice bs (p.l3 + 8) 16 else slice bs (p.l3 + 12) 4
    let dst := if v6 then slice bs (p.l3 + 24) 16 else slice bs (p.l3 + 16) 4
    let vx := p.outerLv.dport == 4789
    let th := p.l4 + 8
    let vni := be bs (th + 4) 3
    let c := !vx && (byteAt bs (th + 1)).getLsbD 6
    if v6 == epV6 r && dst == epAddr r 8 && (epAnyRemote r || src == epAddr r 12) && vx == (epType r == 1) && vni == epVni r
        && (!c || epCrit r) && p.udpLen ≥ start - p.l4 && start + lin ≤ bs.length then some (start, lin)
    else none
  | _ => none

/-- END RECIRC with DEST = TERMINATE (R174). -/
def Dev.terminate (d : Dev) (id region : Nat) (f : Frame) : Dev :=
  let t := lgGet f.lg lgTunnel
  let bad := (d.bump .VSW_TUN_MISMATCH).dropFrame id 42 (Config.dropReason 8)
  if geneveO f.bytes then d.slowPath id 42 0
  else
    match d.vsw.tunnels.look? t with
    | none => bad
    | some r =>
      match termination r f.bytes with
      | none => bad
      | some (start, lin) =>
        (d.updFrame id fun x =>
          { x with bytes := slice x.bytes start lin, lg := lgSet (lgSet x.lg lgFrameLen lin) lgDecap 1,
                   decap := some (4096 * t + epVid r) }).recirculate id region

/-- A frame reaches the switch (R163, R174, R198, R315, R321). One that recirculates protected is checked and stripped before it is
terminated. -/
def Dev.switchFrame (d : Dev) (id : Nat) : Dev :=
  match d.frame? id with
  | none => d
  | some f =>
    match f.stage with
    | .toSwitch r =>
      if d.staleFrame f then d.dropFrame id 42 (d.staleReason f.owner)
      else if d.rising 11 then d
      else if !d.available 11 then d.dropFrame id 42 0x00040000
      else
        match r with
        | none => d.emitFrame id f
        | some region =>
          if lgOn f.lg lgEncrypt then
            ((d.updFrame id fun x => { x with stage := .espIn region, since := d.ref }).moveFrame id 97).espEnqueue
              (lgGet f.lg lgFunction) (.espIn id)
          else d.terminate id region f
    | _ => d

/-! ## Commands -/

/-- Replaces the switch's tables. -/
def Dev.setVsw (d : Dev) (f : Vsw → Vsw) : Dev := { d with vsw := f d.vsw }

/-- Some copy of a replication that has begun has not been issued: it waits for its header buffer (R169, R176). -/
def Dev.tunnelBusy (d : Dev) : Bool := (d.copies.first? fun _ c => c.encap && c.stage == .buffers).isSome

/-- A change of the switch's tables is in force at once, and its command replies when every replication that began earlier has
issued its last copy (R169, R176). -/
def Dev.vswCommit (d : Dev) (n : Nat) (f : Vsw → Vsw) : Dev :=
  let d1 := (d.setVsw f).commit n
  if d1.tunnelBusy then d1 else d1.replyOk n

/-- VLAN_SET (R169, R341). -/
def Dev.vlanSet (d : Dev) (n : Nat) (p : Bytes) : Dev :=
  let w := le32 p 0
  let vid := bitsOf w 11 0
  let cnt := bitsOf (le32 p 0x10C) 4 0
  let tuns := (List.range (min cnt 16)).map fun i => le p (0x110 + 2 * i) 2
  if vid = 0 || vid = 4095 || cnt > 16 || tuns.any (4096 ≤ ·) then d.reply n .badParam
  else
    let v : Vlan :=
      { fid := bitsOf w 27 16, floodUc := w.getLsbD 31, floodMc := w.getLsbD 30, ports := (le32 p 4).toNat,
        untagPorts := (le32 p 8).toNat, funcs := le p 12 128, untagFuncs := le p 0x8C 128, tunnels := tuns }
    d.vswCommit n fun x => { x with vlans := x.vlans.put vid v }

/-- VLAN_DEL. -/
def Dev.vlanDel (d : Dev) (n : Nat) (p : Bytes) : Dev :=
  let vid := bitsOf (le32 p 0) 11 0
  if (d.vsw.vlans.look? vid).isSome then (d.setVsw fun v => { v with vlans := v.vlans.erase vid }).replyOk n else d.reply n .notFound

/-- A value of R162 that a group may hold (R168). -/
def groupDest (x : Nat) : Bool :=
  let i := x % 2 ^ 13
  match x / 2 ^ 13 with
  | 1 => decide (i < 18)
  | 2 => decide (i < 1024)
  | 4 => decide (i < 4096)
  | _ => false

/-- GROUP_SET (R168, R169). -/
def Dev.groupSet (d : Dev) (n : Nat) (p : Bytes) : Dev :=
  let cnt := (le32 p 4).toNat
  let dests := (List.range cnt).map fun i => le p (8 + 2 * i) 2
  if cnt > 64 || !dests.all groupDest then d.reply n .badParam
  else
    d.vswCommit n fun v => { v with groups := v.groups.put (bitsOf (le32 p 0) 11 0) (Group.mk (bitsOf (le32 p 0) 27 16) dests) }

/-- GROUP_DEL. -/
def Dev.groupDel (d : Dev) (n : Nat) (p : Bytes) : Dev :=
  let g := bitsOf (le32 p 0) 11 0
  if (d.vsw.groups.look? g).isSome then d.vswCommit n fun v => { v with groups := v.groups.erase g } else d.reply n .notFound

/-- A record that TUNNEL_SET accepts (R172). -/
def tunnelRecordOk (r : List Word) : Bool :=
  (epType r == 1 || epType r == 2) && decide (epOptWords r ≤ 16) && (epType r == 2 || epOptWords r == 0) && decide (epPort r < 18)
    && r.getD 0 0 &&& 0x0000FC00 == 0 && r.getD 1 0 &&& 0xFF000000 == 0 && r.getD 3 0 &&& 0x00030000 == 0 && r.getD 7 0 == 0

/-- TUNNEL_SET (R172, R176). -/
def Dev.tunnelSet (d : Dev) (n : Nat) (p : Bytes) : Dev :=
  let r := wordsOf (p.drop 4) 32
  if tunnelRecordOk r then (d.setVsw fun v => { v with tunnels := v.tunnels.put (bitsOf (le32 p 0) 11 0) r }).replyOk n
  else d.reply n .badParam


/-- TUNNEL_DEL (R176): the reply follows once the copies that read the record have been written. -/
def Dev.tunnelDel (d : Dev) (n : Nat) (p : Bytes) : Dev :=
  let t := bitsOf (le32 p 0) 11 0
  match d.vsw.tunnels.look? t with
  | none => d.reply n .notFound
  | some _ => d.vswCommit n fun v => { v with tunnels := v.tunnels.erase t }

/-- The copies that a switch command waits for have been issued (R169, R176). -/
def Dev.switchDrainReply (d : Dev) (n : Nat) : Dev :=
  match d.vcl.cmds.look? n with
  | some a => if a.opcode / 256 = 6 && a.started && a.committed && !d.tunnelBusy then d.replyOk n else d
  | none => d

/-- VRF_SET. -/
def Dev.vrfSet (d : Dev) (n f : Nat) (p : Bytes) : Dev :=
  let mac := (le32 p 0).toNat * 2 ^ 16 + bitsOf (le32 p 4) 31 16
  (d.setVsw fun v => { v with routerMac := v.routerMac.put f mac }).replyOk n

end Sys2Proof.Machine
end

