-- ==== Sys2Proof/Machine/ClassOps.lean ====
section
/-!
DEFINITION. The classifier (R119 to R134, R471) and the making of legends (R19, R50, R63, R165, R365, R466).
-/
namespace Sys2Proof.Machine

/-! ## Sheets -/

/-- Replaces the banks of a function. -/
def Dev.setBanks (d : Dev) (f : Nat) (b : Banks) : Dev := { d with cls := { d.cls with banks := d.cls.banks.putD {} f b } }

/-- The sheet of a number among the active and draining ones of a function. -/
def Dev.liveSheet (d : Dev) (f num : Nat) : Option Sheet :=
  let b := d.banks f
  let other := match b.other with
    | .draining sh => some sh
    | .staged sh => if (b.swapAt.map fun x => decide (x.1 ≤ d.now)).getD false then some sh else none
    | .empty => none
  ([b.active, other].filterMap id).find? fun sh => sh.num == num

/-- QUAL of a rule (R138): sheet and profile. -/
def ruleQual (num profile : Nat) : Nat := num * 2 ^ 16 + profile

/-- The match of a rule. -/
def ruleMatch (f num profile key : Nat) : Match := { table := 1, key := key, fn := f, qual := ruleQual num profile }

/-- An entry is a rule of a sheet. -/
def Entry.ofSheet (e : Entry) (f num : Nat) : Bool := e.table == 1 && e.fn == f && e.qual / 2 ^ 16 == num

/-- Rules of a sheet. -/
def Dev.sheetRules (d : Dev) (f num : Nat) : List (Place × Entry) :=
  ((d.tbl.slots.cells.filter fun c => c.2.ofSheet f num).map fun c => (Place.slot c.1, c.2))
    ++ (d.tbl.ovf.cells.filter fun c => c.2.ofSheet f num).map fun c => (Place.ovf c.1, c.2)

/-- Removes a sheet's rules and cached results (R128). -/
def Dev.removeSheet (d : Dev) (f num : Nat) : Dev :=
  let d1 := d.setTbl fun x => { x with slots := x.slots.keep fun _ e => !e.ofSheet f num, ovf := x.ovf.keep fun _ e => !e.ofSheet f num }
  { d1 with cls := { d1.cls with cache := d1.cls.cache.mapVals fun _ l => l.filter fun c => !(c.fn == f && c.sheet == num) } }

/-! ## CLASSIFY (R120 to R123, R129) -/

/-- Every enabled profile is looked up; the rule is that of the lowest-numbered one that hits (R120). -/
def Dev.matchProfiles (d : Dev) (f num key : Nat) : List (Nat × Nat) → Option Nat × Dev
  | [] => (none, d)
  | (i, mask) :: rest =>
    let (v, e) := d.exact (ruleMatch f num i (key &&& mask))
    let (later, e2) := e.matchProfiles f num key rest
    (v <|> later, e2)

/-- Keeps a result in a region's cache; which one a full cache gives up, the manual leaves open (R123). -/
def Dev.cachePut (d : Dev) (r : Nat) (c : CacheEnt) : Dev :=
  let l := d.cls.cache.getD r []
  let (k, d1) := if l.length < 8192 then (0, d) else d.drawNat
  let l1 := if l.length < 8192 then l else l.eraseIdx (k % 8192)
  { d1 with cls := { d1.cls with cache := d1.cls.cache.put r (l1 ++ [c]) } }

/-- The rule that a key meets in a sheet, through the region's cache. -/
def Dev.ruleFor (d : Dev) (region f : Nat) (sh : Sheet) (key : Nat) : Option Nat × Dev :=
  match (d.cls.cache.getD region []).find? fun c => c.fn == f && c.sheet == sh.num && c.key == key with
  | some c => (c.result, d)
  | none =>
    let (v, d1) := d.matchProfiles f sh.num key sh.profiles.cells
    (v, d1.cachePut region { fn := f, sheet := sh.num, key := key, result := v })

/-- CLASS, QUEUE and COLOUR of a result written into a legend, and the class map applied (R122). -/
def Dev.applyResult (d : Dev) (t id : Nat) (w : Word) : Dev :=
  d.updFrame id fun f =>
    let lg1 := lgSet (lgSet (lgSet f.lg lgClass (bitsOf w 31 20)) lgQueue (bitsOf w 19 6)) lgColour (bitsOf w 5 4)
    let lg2 := match d.classBind (d.thread t) (lgGet f.lg lgFunction) (bitsOf w 31 20) with
      | some b =>
        let l := if b.stream = 0xFFFF then lg1 else lgSet lg1 lgStream b.stream
        if b.toSlow then lgSet l lgSlowPath 1 else l
      | none => lg1
    { f with lg := lg2 }

/-- An exception that the library or the classifier raises stays out when one stands already (R117). -/
def raiseExc (lg : List Word) (code : Nat) : List Word := if lgGet lg lgException = 0 then lgSet lg lgException code else lg

/-- The reply of the classifier to a request: it goes on to the slot, or lets LIB_CLASSIFY go on. -/
def Dev.classDone (d : Dev) (n : Nat) (r : LookReq) (outcome result : Nat) : Dev :=
  let d1 := d.setReqs fun x => x.erase n
  if r.slot < 4 then d1.fillSlot r n outcome 0 result
  else
    let x := d1.thread r.thread
    if x.pend = .libClassify n then d1.setThread r.thread { x with pend := .none } else d1.retryLook r.thread

/-- CLASSIFY_REPLY (R122): DENIED when the frame's FUNCTION is not its owner (R129), TARGET_RESET when the block or the
function has been reset (R320, R315); a sheet that is no longer held counts as none (log entry 23). -/
def Dev.classifyReply (d : Dev) (n : Nat) : Dev :=
  match d.pca.reqs.look? n with
  | none => d
  | some r =>
    if r.kind ≠ 3 || d.rising 10 then d
    else
      match d.frame? r.frame with
      | none => d.setReqs fun x => x.erase n
      | some f =>
        if r.blockGen ≠ d.blockGen 10 || !d.available 10 || d.gen r.function ≠ r.fnGen then d.classDone n r 3 0
        else if r.function ≠ f.owner then d.classDone n r 2 0
        else
          match d.liveSheet f.owner (lgGet f.lg lgSheet) with
          | none =>
            let d1 := d.applyResult r.thread r.frame 0
            (d1.updFrame r.frame fun x => { x with lg := raiseExc x.lg 7 }).classDone n r 1 0
          | some sh =>
            match d.ruleFor (regionOf r.thread) f.owner sh r.key with
            | (some v, e) => (e.applyResult r.thread r.frame (toWord v)).classDone n r 0 v
            | (none, e) => (e.applyResult r.thread r.frame sh.dflt).classDone n r 1 sh.dflt.toNat

/-! ## Sheet commands (R125, R126, R128) -/

/-- The sheet commands need the classifier and the table engine, and wait while the RULE table is being cleared. -/
def Dev.onSheets (d : Dev) (n : Nat) (k : Dev → Dev) : Dev :=
  d.needBlock 10 n fun e => e.needBlock 9 n fun x => if x.tblClearing 1 then x.wait n else k x

/-- The staged sheet of a function, to `k`, or BAD_STATE. -/
def Dev.withStaged (d : Dev) (n f : Nat) (k : Sheet → Dev → Dev) : Dev :=
  match (d.banks f).other with
  | .staged sh => k sh d
  | _ => d.reply n .badState

/-- Replaces the staged sheet. -/
def Dev.setStaged (d : Dev) (f : Nat) (sh : Sheet) : Dev := d.setBanks f { d.banks f with other := .staged sh }

/-- Copies rules into sheet `num`, until one finds no room. -/
def Dev.copyRules (d : Dev) (num : Nat) : List (Place × Entry) → Option Dev
  | [] => some d
  | (_, e) :: rest =>
    match d.insertEntry { e with qual := ruleQual num (e.qual % 8) } false with
    | some (_, d1) => d1.copyRules num rest
    | none => none

/-- Stages a new sheet, with the active one's contents for COPY; a copy that does not fit is discarded and uses up its number
(R124, R125; log entry 23). -/
def Dev.stageSheet (d : Dev) (n f : Nat) (copy : Bool) : Dev :=
  let b := d.banks f
  let num := b.lastNum % 65535 + 1
  let b1 : Banks := { b with lastNum := num, openWait := none }
  match (if copy then b.active else none) with
  | none => (d.setBanks f { b1 with other := .staged { num := num } }).replyOk n [toWord num]
  | some a =>
    match (d.setBanks f { b1 with other := .staged { num := num, dflt := a.dflt, profiles := a.profiles } }).copyRules num
        (d.sheetRules f a.num) with
    | some d1 => d1.replyOk n [toWord num]
    | none => (d.setBanks f { b1 with other := .empty }).reply n .tableFull

/-- SHEET_OPEN (R125, R341). -/
def Dev.sheetOpen (d : Dev) (n f : Nat) (p : Bytes) : Dev :=
  let w := le32 p 0
  d.onSheets n fun d =>
    match (d.banks f).other with
    | .empty => d.stageSheet n f (w.getLsbD 31)
    | .staged _ => d.reply n .sheetBusy
    | .draining _ =>
      if w.getLsbD 30 then
        d.setBanks f { d.banks f with openWait := some (d.ref + 1000 * bitsOf w 23 0, w.getLsbD 31, n) }
      else d.reply n .sheetBusy

/-- A SHEET_OPEN has waited for its timeout (R341). -/
def Dev.sheetOpenTimeout (d : Dev) (f : Nat) : Dev :=
  match (d.banks f).openWait with
  | some (limit, _, n) =>
    if limit ≤ d.ref then (d.setBanks f { d.banks f with openWait := none }).reply n .sheetBusy else d
  | none => d

/-- SHEET_PROFILE (R125). -/
def Dev.sheetProfile (d : Dev) (n f : Nat) (p : Bytes) : Dev :=
  let w := le32 p 0
  let i := bitsOf w 2 0
  d.onSheets n fun d => d.withStaged n f fun sh d =>
    if (d.sheetRules f sh.num).any fun x => x.2.qual % 8 == i then d.reply n .badState
    else
      (d.setStaged f { sh with profiles := if w.getLsbD 31 then sh.profiles.put i (paramKey p 4) else sh.profiles.erase i }).replyOk n

/-- SHEET_DEFAULT (R125). -/
def Dev.sheetDefault (d : Dev) (n f : Nat) (p : Bytes) : Dev :=
  let w := le32 p 0
  d.onSheets n fun d => d.withStaged n f fun sh d =>
    if bitsOf w 3 0 ≠ 0 || bitsOf w 5 4 = 3 then d.reply n .badParam else (d.setStaged f { sh with dflt := w }).replyOk n

/-- A rule record that a staged sheet takes (R121). -/
def ruleRecordOk (sh : Sheet) (r : Bytes) : Bool :=
  let w := le32 r 16
  match sh.profiles.look? (bitsOf w 2 0) with
  | none => false
  | some mask => !w.getLsbD 3 && bitsOf w 5 4 != 3 && le32 r 24 == 0 && le32 r 28 == 0 && (paramKey r 0 &&& mask) == paramKey r 0

/-- Applies rule records in order up to the first one refused; answers how many and the status (R125). -/
def Dev.addRules (d : Dev) (f : Nat) (sh : Sheet) : List Bytes → Nat × Status × Dev
  | [] => (0, .ok, d)
  | r :: rest =>
    if !ruleRecordOk sh r then (0, .badParam, d)
    else
      let w := le32 r 16
      let m := ruleMatch f sh.num (bitsOf w 2 0) (paramKey r 0)
      let res := w.toNat + 2 ^ 32 * (le32 r 20).toNat
      let go : Option Dev :=
        match d.findEntry m with
        | some (q, e) => some (d.putEntry q { e with result := res })
        | none =>
          (d.insertEntry { key := m.key, result := res, static := true, ageEn := false, table := 1, fn := f, qual := m.qual } false).map
            (·.2)
      match go with
      | none => (0, .tableFull, d)
      | some d1 =>
        let (k, st, d2) := d1.addRules f sh rest
        (k + 1, st, d2)

/-- Records of `size` bytes. -/
def records (p : Bytes) (start size count : Nat) : List Bytes := (List.range count).map fun i => slice p (start + size * i) size

/-- RULE_ADD. -/
def Dev.ruleAdd (d : Dev) (n f : Nat) (p : Bytes) : Dev :=
  d.onSheets n fun d => d.withStaged n f fun sh d =>
    let (k, st, d1) := d.addRules f sh (records p 8 32 (le32 p 0).toNat)
    d1.reply n st (wordBytes [toWord k])

/-- Removes rules by profile and key, in order (R125). -/
def Dev.delRules (d : Dev) (f : Nat) (sh : Sheet) : List Bytes → Nat × Status × Dev
  | [] => (0, .ok, d)
  | r :: rest =>
    if le32 r 0 &&& 0xFFFFFFF8 ≠ 0 then (0, .badParam, d)
    else
      match d.findEntry (ruleMatch f sh.num (bitsOf (le32 r 0) 2 0) (paramKey r 4)) with
      | some (q, _) =>
        let (k, st, d1) := (d.dropEntry q).delRules f sh rest
        (k + 1, st, d1)
      | none => d.delRules f sh rest

/-- RULE_DEL. -/
def Dev.ruleDel (d : Dev) (n f : Nat) (p : Bytes) : Dev :=
  d.onSheets n fun d => d.withStaged n f fun sh d =>
    let (k, st, d1) := d.delRules f sh (records p 4 20 (le32 p 0).toNat)
    d1.reply n st (wordBytes [toWord k])

/-- SHEET_SWAP (R126): the commit stamp is 4,000 ns after acceptance. -/
def Dev.sheetSwap (d : Dev) (n f : Nat) (a : Accepted) : Dev :=
  d.needBlock 10 n fun d => d.withStaged n f fun _ d =>
    d.setBanks f { d.banks f with swapAt := some (a.stamp + 4000 * 256, n) }

/-- The commit of a swap at T (R126). -/
def Dev.sheetSwapCommit (d : Dev) (f : Nat) : Dev :=
  let b := d.banks f
  match b.other, b.swapAt with
  | .staged sh, some (t, n) =>
    if t ≤ d.now then
      let old := match b.active with
        | some x => OtherBank.draining x
        | none => OtherBank.empty
      let d1 := d.setBanks f { b with active := some { sh with since := t }, other := old, swapAt := none,
                                      drainAfter := t + 2000000 * 256 }
      (d1.commit n).replyOk n (toWord sh.num :: stampWords t)
    else d
  | _, _ => d

/-- SHEET_DISCARD (R125). -/
def Dev.sheetDiscard (d : Dev) (n f : Nat) : Dev :=
  d.onSheets n fun d => d.withStaged n f fun sh d =>
    ((d.removeSheet f sh.num).setBanks f { d.banks f with other := .empty }).replyOk n

/-- PINNED: frames charged to the draining sheet (R127, R134). -/
def Dev.pinned (d : Dev) (f : Nat) : Nat :=
  match (d.banks f).other with
  | .draining sh => d.frames.countP fun _ x => x.owner == f && x.charge == some sh.num
  | _ => 0

/-- The release of a draining bank (R128); a SHEET_OPEN that waits for it goes on. -/
def Dev.sheetRelease (d : Dev) (f : Nat) : Dev :=
  let b := d.banks f
  match b.other with
  | .draining sh =>
    if d.pinned f = 0 && b.drainAfter ≤ d.now then
      let d1 := (d.removeSheet f sh.num).setBanks f { b with other := .empty, openWait := none }
      match b.openWait with
      | some (_, copy, n) => d1.stageSheet n f copy
      | none => d1
    else d
  | _ => d

/-- Empties both banks of a function (R130); commands of it that wait end with TARGET_RESET (R471). -/
def Dev.clsFuncReset (d : Dev) (f : Nat) : Dev :=
  let b := d.banks f
  let nums := (b.active.toList.map (·.num)) ++ (match b.other with
    | .empty => []
    | .staged sh => [sh.num]
    | .draining sh => [sh.num])
  ((nums.foldl (fun x k => x.removeSheet f k) d).setBanks f {})

/-! ## Legends -/

/-- Region of a legend by a word of PCA_PORT_REGION or PCA_HOST_REGION (R63, R84). -/
def regionFor (w hash : Word) : Nat := if w.getLsbD 31 then bitsOf hash 1 0 else bitsOf w 1 0

/-- Frames in flight that a slot of the order tracker tracks (R50). -/
def Dev.slotLoad (d : Dev) (s : Nat) : Nat := d.frames.countP fun id f => f.slot == some s && d.inFlight id f

/-- The legend of a frame before any microcode runs (R19): STREAM names none, every other field not named here is 0
(log entry 23). -/
def newLegend (f : Frame) (fn gen : Nat) (hash : Word) : List Word :=
  lgChain [toWord f.stamp, toWord (2 ^ 28 + f.stamp / 2 ^ 32 % 2 ^ 24), toWord gen,
    toWord (fn * 2 ^ 22 + f.inPort * 2 ^ 17 + f.bytes.length), 0, hash, 0,
    toWord (b2n f.traversed * 2 ^ 13 + b2n ((f.host.bind (·.ctx)).isSome) * 2 ^ 7), 0, 0x0000FFFF, 0, 0, 0, 0, 0, 0] f.chain

/-- The default function of a port, or that of the frame's queue pair (R365). -/
def Dev.ownerFor (d : Dev) (f : Frame) : Nat := if srcIsPort f.inPort then d.get Fld.PRT_DEF_FUNC_FUNCTION f.inPort else f.owner

/-- The ingress front end diverts a frame to the firmware (R335): it comes by a port of the management transport, with a tag of
its VID, its destination address and its EtherType. -/
def Dev.diverts (d : Dev) (f : Frame) : Bool :=
  d.on? Fld.VCL_MGMT_CFG_ENABLE && srcIsPort f.inPort && bitN (d.get Fld.VCL_MGMT_CFG_PORTS) f.inPort
    && be f.bytes 0 6 == (d.rd .VCL_MGMT_MAC_HI).toNat * 2 ^ 16 + d.get Fld.VCL_MGMT_MAC_LO_MAC
    && (be f.bytes 12 2 == 0x8100 || be f.bytes 12 2 == 0x88A8) && be f.bytes 14 2 % 4096 == d.get Fld.VCL_MGMT_CFG_VID
    && be f.bytes 16 2 == 0x88B5

/-- LEGEND_MAKE: the ingress front end builds a legend and sends it to its region. -/
def Dev.legendMake (d : Dev) (id : Nat) : Dev :=
  match d.frame? id with
  | none => d
  | some f =>
    if f.stage ≠ .legend || d.diverts f then d
    else
      let fn := d.ownerFor f
      let gen := d.gen fn
      if srcIsPort f.inPort && !d.exists? fn then (d.bump .PRT_RX_NOFUNC f.inPort).endFrame id
      else if !srcIsPort f.inPort && gen ≠ f.gen then d.endFrame id
      else
        let hash := flowHash f.bytes
        let slot := orderSlot fn hash
        let full := d.slotLoad slot ≥ 64
        let sheet := d.pinFor fn f.stamp
        let g : Frame :=
          { f with lg := newLegend f fn gen hash, owner := fn, gen := gen, slot := if full then none else some slot,
                   charge := if sheet = 0 then none else some sheet }
        let d1 := d.updFrame id fun _ => g
        let d2 := (if full then d1.bump .TMG_RESEQ_UNTRACKED else d1).logGen 0x01 f.inPort (some (fn, gen)) f.stamp
          (toWord (f.inPort * 2 ^ 24 + f.bytes.length)) hash (toWord (f.chain.headD 0))
        let ok : Bool := match d2.vlanOf g f.inPort fn with
          | some (_, v) => v.hasSource f.inPort fn
          | none => false
        if !ok then
          (if srcIsPort f.inPort then d2.bump .VSW_PORT_VLAN_DROP f.inPort else d2.bump .VSW_FUNC_VLAN_DROP fn).dropFrame id 42
            (Config.dropReason 9)
        else
          d2.enqueueLegend id (regionFor (if srcIsPort f.inPort then d2.rd .PCA_PORT_REGION f.inPort else d2.rd .PCA_HOST_REGION) hash)

end Sys2Proof.Machine
end

