-- ==== Sys2Proof/Machine/LibOps.lean ====
section
/-!
DEFINITION. The vendor library (R109, R110), returns (R96 RET), the end instructions (R100), BRK, and the debug controls of a
thread (R80 to R82, R90). What the manual says of a library entry is carried out in one step (log entry 14).
-/
namespace Sys2Proof.Machine

/-! ## Returns -/

/-- Leaves the top record of the return stack. -/
def Dev.popRet (d : Dev) (t : Nat) (x : Thread) : Dev :=
  match x.rets with
  | r :: rest => d.setThread t ({ x with rets := rest, insetMode := r.inset }.goSeq r.pc)
  | [] => d.setThread t x

/-- What a library entry leaves in g1 to g7: values the manual does not give, with its results over them (R109). -/
def Dev.libResults (d : Dev) (x : Thread) (ws : List Word) : Thread × Dev :=
  let (y, e) := (List.range 7).foldl (fun (acc : Thread × Dev) i =>
    let (w, e) := acc.2.drawWord
    (acc.1.setReg (i + 1) w, e)) (x, d)
  (y.setRegs 1 ws, e)

/-- A library entry returns to its caller. -/
def Dev.libReturn (d : Dev) (t : Nat) (x : Thread) (ws : List Word := []) : Dev :=
  let (y, e) := d.libResults x ws
  e.popRet t y

/-! ## The parse with hooks -/

/-- The hooks that a thread's parse calls: hook number, UDP or EtherType, key (R110). -/
def Dev.hookList (d : Dev) (f : Nat) (x : Thread) : List (Nat × Bool × Nat) :=
  (List.range 4).filterMap fun n =>
    (d.hookBind x f n).bind fun h =>
      (d.insetOf x).bind fun i => (i.entries.find? fun e => e.1 == 3 && e.2.1 == h.entry).map fun _ => (n, h.udp, h.key)

/-- Offset in the inset's text of the program of hook `n`. -/
def Dev.hookOffset (d : Dev) (f n : Nat) (x : Thread) : Nat :=
  ((d.hookBind x f n).bind fun h =>
    (d.insetOf x).bind fun i => (i.entries.find? fun e => e.1 == 3 && e.2.1 == h.entry).map (·.2.2)).getD 0

/-- The legend after a vendor parse (R113, R116, R117, R473). -/
def parsedLegend (lg : List Word) (p : ParseSt) : List Word :=
  let a := lgSet (lgSet (lgSet (lgSet (lgSet lg lgL3 p.l3) lgL4 p.l4) lgInner p.innerOff) lgPayload (p.payload.getD 0)) lgHeaders p.headers
  let b := if p.fragment then lgSet a lgFragment 1 else a
  if p.exc = 0 then b else raiseExc b p.exc

/-- The frame a thread holds. -/
def Dev.held (d : Dev) (x : Thread) : Option Frame := x.frame.bind d.frame?

/-- Changes the legend of the frame a thread holds. -/
def Dev.updLegend (d : Dev) (x : Thread) (f : List Word → List Word) : Dev :=
  match x.frame with
  | some id => d.updFrame id fun fr => { fr with lg := f fr.lg }
  | none => d

/-- Length of the frame a thread holds. -/
def Dev.heldLen (d : Dev) (x : Thread) : Nat := ((d.held x).map fun f => f.bytes.length).getD 0

/-- A thread fault within the library: the thread is in vendor mode, at an instruction of vendor text that the manual does not
give (R95, R103; log entry 2). -/
def Dev.libFault (d : Dev) (t : Nat) (x : Thread) (cause : Nat) : Dev :=
  let (n, d1) := d.drawNat
  (d1.setThread t { x with insetMode := false, pc := n % 0x1000 }).threadFault t cause

/-- LIB_PARSE_FULL goes on from a parse state: to its end, or into a hook (R110). -/
def Dev.parseOn (d : Dev) (t : Nat) (x : Thread) (p : ParseSt) : Dev :=
  let f := ((d.held x).map fun fr => lgGet fr.lg lgFunction).getD 0
  let q := ParseSt.run x.pw (d.heldLen x) (d.hookList f x) 20 p
  match q.payload, q.next with
  | none, .hook n =>
    if x.rets.length < 8 then
      d.setThread t { x.setReg 1 (toWord q.pos) with rets := { pc := x.pc, inset := false, parse := some q } :: x.rets
                                                     insetMode := true, pc := (d.insetBase t x + d.hookOffset f n x) % 16384 }
    else d.libFault t x 0x08
  | _, _ => (d.updLegend x fun lg => parsedLegend lg q).libReturn t { x with parsed := some q }

/-- RET (R96, R110): to the caller, or back into the parse that called a hook. -/
def Dev.retInsn (d : Dev) (t : Nat) (rsv : BitVec 10) (target : BitVec 14) : Dev :=
  d.instr t (encJump 2 rsv target) (rsv == 0 && target == 0) fun x e =>
    match x.rets with
    | [] => e.threadFault t 0x08
    | r :: rest =>
      match r.parse with
      | none => e.popRet t x
      | some p => e.parseOn t { x with rets := rest, insetMode := false } (p.hooked p.pos (x.reg 1).toNat (x.reg 2).toNat)

/-! ## Library entries -/

/-- Most instructions of an entry (R109); none for a number that is no entry. -/
def libMax (n : Nat) : Option Nat :=
  match n with
  | 0x00 => some 22 | 0x01 => some 64 | 0x02 => some 14 | 0x03 => some 48 | 0x04 => some 150 | 0x08 => some 20 | 0x09 => some 24
  | 0x0A => some 40 | 0x0B => some 16 | 0x0C => some 10 | 0x10 => some 8 | _ => none

/-- The parse of the window without hooks, for the entries that do a part of it. -/
def Dev.windowParse (d : Dev) (x : Thread) : ParseSt := ParseSt.run x.pw (d.heldLen x) [] 20 {}

/-- LIB_CLASSIFY: the key from what the last parse found, and the request (R119). -/
def Dev.libClassify (d : Dev) (t : Nat) (x : Thread) : Dev :=
  match d.held x with
  | none => d.libReturn t x
  | some f =>
    let p := x.parsed.getD (d.windowParse x)
    let inner := lgGet f.lg lgInner ≠ 0 && d.on? Fld.CLS_FUNC_CFG_INNER_KEY (lgGet f.lg lgFunction)
    let key := ruleKey (lgGet f.lg lgInPort) (if inner then p.innerLv else p.outerLv)
    let r := d.makeReq t x 4 3 0 key false
    (d.libReturn t { x with pend := .relook r }).retryLook t

/-- LIB_FWD_L2 (R148; "Switching"): the MAC lookups in the FID of the frame's VLAN, DEST and LEARN. A multicast entry counts when a
host installed it, which SRC_PORT 31 tells (R139, R154, R162). -/
def Dev.libFwdL2 (d : Dev) (t : Nat) (x : Thread) : Dev :=
  match d.held x with
  | none => d.libReturn t x
  | some f =>
    let fn := lgGet f.lg lgFunction
    let inPort := lgGet f.lg lgInPort
    let now : Frame := { f with bytes := overwrite f.bytes 0 (x.pw.take 256) }
    let fid := ((d.vlanOf now inPort fn).map fun v => v.2.fid).getD 0
    let m (mac : Nat) : Match := { table := 0, key := macKey fid mac, fn := fn, qual := 0 }
    let dst := m (be x.pw 0 6)
    let src := m (be x.pw 6 6)
    let multi := (byteAt x.pw 0).getLsbD 0
    let installed := ((d.findEntry dst).map fun e => srcPort e.2.result == 31).getD false
    let own : LearnReq := { fid := fid, mac := 0, inPort := inPort, fn := fn, gen := 0, stamp := 0, tunnel := f.decap.map (· / 4096) }
    let (hit, d1) := d.exact dst
    let (from_, d2) := d1.exact src
    let dest := match hit with
      | some v => if multi && !installed then 1 else v / 2 ^ 48
      | none => 1
    let learn := match from_ with
      | some v => v / 2 ^ 48 ≠ own.dest
      | none => true
    (d2.updLegend x fun lg => lgSet (lgSet lg lgDest dest) lgLearn (b2n learn)).libReturn t x

/-- The Internet checksum after one 16-bit word changes (RFC 1624). -/
def sumUpdate (sum old new : Nat) : Nat :=
  let s := (65535 - sum) + (65535 - old) + new
  let f (v : Nat) : Nat := v % 65536 + v / 65536
  65535 - f (f s)

/-- The routed frame's window: next hop, router MAC, TTL and checksum ("Routing and VRFs"). -/
def routedWindow (pw : Bytes) (l3 : Nat) (v6 : Bool) (hop router : Nat) : Bytes :=
  let a := overwrite (overwrite pw 0 (bytesBE 6 hop)) 6 (bytesBE 6 router)
  if v6 then overwrite a (l3 + 7) [BitVec.ofNat 8 ((byteAt pw (l3 + 7)).toNat - 1)]
  else
    let old := be pw (l3 + 8) 2
    let b := overwrite a (l3 + 8) (bytesBE 2 (old - 256))
    overwrite b (l3 + 10) (bytesBE 2 (sumUpdate (be pw (l3 + 10) 2) old (old - 256)))

/-- LIB_FWD_L3 ("Routing and VRFs", R117): the route of the header at L3_OFF in the VRF of FUNCTION. -/
def Dev.libFwdL3 (d : Dev) (t : Nat) (x : Thread) : Dev :=
  match d.held x with
  | none => d.libReturn t x
  | some f =>
    let l3 := lgGet f.lg lgL3
    let fn := lgGet f.lg lgFunction
    let ver := (byteAt x.pw l3).toNat / 16
    let v6 := ver == 6
    if l3 = 0 || !(ver == 4 || ver == 6) then d.libReturn t x
    else
      let ttl := (byteAt x.pw (if v6 then l3 + 7 else l3 + 8)).toNat
      match d.route v6 fn (if v6 then be x.pw (l3 + 24) 16 else be x.pw (l3 + 16) 4) with
      | (none, e) => e.libReturn t x
      | (some (_, v), e) =>
        if ttl ≤ 1 then (e.updLegend x fun lg => raiseExc lg 5).libReturn t x
        else
          (e.updLegend x fun lg => lgSet lg lgDest (v / 2 ^ 48)).libReturn t
            { x with pw := routedWindow x.pw l3 v6 (v % 2 ^ 48) (e.vsw.routerMac.getD fn 0) }

/-- LIB_FLOW (R117): which table and key, the manual does not say, so whether it hits is open (log entry 14). -/
def Dev.libFlow (d : Dev) (t : Nat) (x : Thread) : Dev :=
  let (h, d1) := d.drawNat
  let f := ((d.held x).map fun fr => lgGet fr.lg lgFunction).getD 0
  if h % 2 = 0 && d.on? Fld.CLS_FUNC_CFG_FLOW_MISS_EXC f then (d1.updLegend x fun lg => raiseExc lg 6).libReturn t x else d1.libReturn t x

/-- Offset of the PTP header of a window: over Ethernet, or over UDP port 319 (R44; IEEE 1588). -/
def ptpAt (p : ParseSt) (pw : Bytes) : Option (Bool × Nat) :=
  if p.outerLv.etherType = some 0x88F7 then some (true, typeOffset pw + 2)
  else if p.l4 ≠ 0 && p.outerLv.dport = 319 then some (false, p.l4 + 8) else none

/-- LIB_PTP (R109): event messages are the message types 0 to 3; over Ethernet L3_OFF is where R44 looks for the header. -/
def Dev.libPtp (d : Dev) (t : Nat) (x : Thread) : Dev :=
  match ptpAt (d.windowParse x) x.pw with
  | some (l2, o) =>
    if (byteAt x.pw o).toNat % 16 < 4 then
      (d.updLegend x fun lg => lgSet (if l2 then lgSet lg lgL3 o else lg) lgPtp 1).libReturn t x
    else d.libReturn t x
  | none => d.libReturn t x

/-- One library entry; `x` has the caller on top of its return stack. -/
def Dev.library (d : Dev) (t : Nat) (x : Thread) (n : Nat) : Dev :=
  match n with
  | 0x01 =>
    let p := d.windowParse x
    (d.updLegend x fun lg =>
      let a := lgSet lg lgL3 p.l3
      if p.fragment && p.inner.isNone then lgSet a lgFragment 1 else a).libReturn t x
  | 0x02 => (d.updLegend x fun lg => lgSet lg lgL4 (d.windowParse x).l4).libReturn t x
  | 0x03 => (d.updLegend x fun lg => lgSet lg lgInner (d.windowParse x).innerOff).libReturn t x
  | 0x04 => d.parseOn t x {}
  | 0x08 => d.libClassify t x
  | 0x09 => d.libFwdL2 t x
  | 0x0A => d.libFwdL3 t x
  | 0x0B => d.libFlow t x
  | 0x0C => d.libPtp t x
  | 0x10 => (d.setThread t x).endEmit t
  | _ => d.libReturn t x

/-- LIBCALL (R96, R101, R109): its instructions count against the budget, at most the figure of R109. An entry that R109 does not
list is an illegal instruction (DESIGN CHOICE, log entry 44). -/
def Dev.libcall (d : Dev) (t : Nat) (entry : BitVec 8) (rsv : BitVec 18) : Dev :=
  d.instr t (encLibcall entry rsv) (rsv == 0 && (libMax entry.toNat).isSome) fun x e =>
    let c := min ((libMax entry.toNat).getD 0) (Config.libCost entry.toNat e.fresh)
    let e1 : Dev := { e with fresh := e.fresh + 1 }
    e1.push t x { pc := x.pc + 1, inset := x.insetMode } fun y g =>
      if x.budget + c > x.limit then g.libFault t y 0x07
      else g.library t { y with budget := x.budget + c, insetMode := false } entry.toNat

/-! ## END, BRK, JR -/

/-- END (R100): REASON is 0 for EMIT and RECIRC. -/
def Dev.endInsn (d : Dev) (t kind : Nat) (reason : BitVec 8) (rsv : BitVec 16) (body : Dev → Dev) : Dev :=
  d.instr t (encEnd kind reason rsv) (rsv == 0 && (kind == 1 || kind == 3 || reason == 0)) fun x e => body (e.setThread t x)

/-- BRK (R96): illegal in inset mode; halts the thread as a HALT write does. -/
def Dev.brkInsn (d : Dev) (t : Nat) (rsv : BitVec 26) : Dev :=
  d.instr t (encBrk rsv) (rsv == 0) fun x e =>
    if x.insetMode then e.threadFault t 0x01 else (e.done t x).haltThread t

/-! ## Debug controls (R80 to R82, R90) -/

/-- HALT of a thread that is not halted. One that is halted already is left as it is, as RESUME and STEP leave one that is not
halted, with no record (DESIGN CHOICE, log entry 44). -/
def Dev.haltWrite (d : Dev) (t : Nat) : Dev := if (d.thread t).halted then d else d.haltThread t

/-- RESUME. -/
def Dev.resumeWrite (d : Dev) (t : Nat) : Dev :=
  if (d.thread t).halted then
    ((d.updThread t fun x => { x with halted := false, stepping := false }).logExc t 0x101 (toWord t) 0).resumeReserve t
  else d

/-- STEP: the thread runs until it has executed one instruction. -/
def Dev.stepWrite (d : Dev) (t : Nat) : Dev :=
  if (d.thread t).halted then
    ((d.updThread t fun x => { x with halted := false, stepping := true }).logExc t 0x102 (toWord t) 0).resumeReserve t
  else d

/-- ABANDON. -/
def Dev.abandonWrite (d : Dev) (t : Nat) : Dev :=
  if (d.thread t).halted then (d.abandonHeld t).logExc t 0x103 (toWord t) 0 else d

/-- POKE raises DEBUG. -/
def Dev.pokeWrite (d : Dev) (t : Nat) : Dev := d.raise t 62

/-- What a write of DBG_THREAD_CTRL[n] does (R90, R4), its ones taken in the order of the bits (DESIGN CHOICE, log entry 44). -/
def Dev.threadCtrlWrite (d : Dev) (t : Nat) (w : Word) : Dev :=
  let step (x : Dev) (bit : Nat) (f : Dev → Dev) : Dev := if w.getLsbD bit then f x else x
  let a := step d 0 (·.haltWrite t)
  let b := step a 1 (·.resumeWrite t)
  let c := step b 2 (·.stepWrite t)
  let e := step c 3 (·.abandonWrite t)
  step e 4 (·.pokeWrite t)

/-- A frame held by a thread halted for 2^44 ns is dropped (R82). -/
def Dev.haltFrameTimeout (d : Dev) (t : Nat) : Dev :=
  let x := d.thread t
  match x.frame with
  | some id =>
    if x.halted && x.haltAt + 2 ^ 44 ≤ d.ref then
      ((d.bump .PCA_REGION_DROP (regionOf t)).dropFrame id (32 + regionOf t) (Config.dropReason 10)).freeThread t
    else d
  | none => d

end Sys2Proof.Machine
end

