-- ==== Sys2Proof/Machine/InsetOps.lean ====
section
/-!
DEFINITION. Tlamond objects and insets (R104 to R110): the loader's checks, placement, commit, drain, and the bindings.
-/
namespace Sys2Proof.Machine

/-! ## Instructions as the loader sees them -/

/-- Where control goes after an instruction of inset text. -/
inductive Flow where
  | stop
  /-- The library entry that never returns. -/
  | emit
  | ret
  | br (target : Int)
  | jmp (target : Nat)
  | call (target : Nat)
  | lib (entry : Nat)
  | jclass
  | loop (count body : Nat)
  | next
  deriving DecidableEq, Repr

/-- The flow of the word at index `i` (R96, R100, R109). -/
def flowOf (i : Nat) (w : Word) : Flow :=
  match bitsOf w 31 26 with
  | 0x08 => .br ((i : Int) + signedOf 13 (bitsOf w 12 0))
  | 0x09 =>
    match bitsOf w 25 24 with
    | 0 => .jmp (bitsOf w 13 0)
    | 1 => .call (bitsOf w 13 0)
    | 2 => .ret
    | _ => .jclass
  | 0x0B => .loop (bitsOf w 25 18) (bitsOf w 17 8)
  | 0x1D => if bitsOf w 25 18 = 0x10 then .emit else .lib (bitsOf w 25 18)
  | 0x1E => .stop
  | _ => .next

/-! ## Objects (R107) -/

/-- A Tlamond object, taken apart. -/
structure Tlamond where
  bytes : Bytes
  textLen : Nat
  entryCount : Nat
  handleCount : Nat
  importCount : Nat
  priv : Nat
  rgn : Nat
  chanMask : Nat
  softMask : Nat
  bound : Nat
  /-- (KIND, ENTRY_ID, OFFSET, MAX_PATH). -/
  entries : List (Nat × Nat × Nat × Nat)
  /-- (HANDLE, KIND, SYMBOL). -/
  handles : List (Nat × Nat × Nat)
  /-- (ENTRY, minimum version). -/
  imports : List (Nat × Nat)
  text : List Word
  deriving DecidableEq, Repr

/-- The parts of an object file. -/
def tlamond (b : Bytes) : Tlamond :=
  let tl := le b 8 4
  let ec := le b 12 2
  let hc := le b 14 2
  let ic := le b 16 2
  let eo := 64
  let ho := eo + 8 * ec
  let io := ho + 8 * hc
  let tx := io + 4 * ic
  { bytes := b, textLen := tl, entryCount := ec, handleCount := hc, importCount := ic, priv := le b 20 4, rgn := le b 24 4,
    chanMask := le b 28 1, softMask := le b 32 4, bound := le b 36 4,
    entries := (List.range ec).map fun i => (le b (eo + 8 * i) 1, le b (eo + 8 * i + 1) 1, le b (eo + 8 * i + 4) 2, le b (eo + 8 * i + 6) 2),
    handles := (List.range hc).map fun i => (le b (ho + 8 * i) 1, le b (ho + 8 * i + 1) 1, le b (ho + 8 * i + 4) 4),
    imports := (List.range ic).map fun i => (le b (io + 4 * i) 1, le b (io + 4 * i + 2) 2),
    text := (List.range (min tl 4096)).map fun i => le32 b (tx + 4 * i) }

/-- Entries of a KIND. -/
def Tlamond.ofKind (o : Tlamond) (k : Nat) : List (Nat × Nat × Nat × Nat) := o.entries.filter fun e => e.1 == k

/-- Reserved fields and record forms of R107 (detail 0x01). -/
def Tlamond.headerOk (o : Tlamond) : Bool :=
  let b := o.bytes
  let ho := 64 + 8 * o.entryCount
  let io := ho + 8 * o.handleCount
  le b 0 4 == 0x444D4C54 && le b 4 2 == 1 && le b 6 1 == 1 && le b 18 2 == 0 && le b 29 3 == 0 && le b 40 8 == 0
    && ((List.range (min o.entryCount 16)).all fun i => le b (64 + 8 * i + 2) 2 == 0)
    && ((List.range (min o.handleCount 16)).all fun i => le b (ho + 8 * i + 2) 2 == 0)
    && ((List.range (min o.importCount 64)).all fun i => le b (io + 4 * i + 1) 1 == 0)

/-- Counts and sizes in range (detail 0x04). Entries and handles that break R107 have the same detail: the table of R108 names none
for them (DESIGN CHOICE, log entry 44). -/
def Tlamond.sizesOk (o : Tlamond) : Bool :=
  1 ≤ o.textLen && o.textLen ≤ 4096 && 1 ≤ o.entryCount && o.entryCount ≤ 16 && o.handleCount ≤ 16 && o.importCount ≤ 64
    && o.priv ≤ 1024 && o.priv % 64 == 0 && o.rgn ≤ 65536 && o.rgn % 1024 == 0
    && (o.entries.all fun e => 1 ≤ e.1 && e.1 ≤ 3 && e.2.1 ≤ 15 && (o.entries.countP fun x => x.2.1 == e.2.1) == 1)
    && (o.ofKind 1).length ≤ 1
    && (List.range o.handleCount).all fun i => (o.handles.getD i (0, 0, 0)).1 == i && (o.handles.getD i (0, 0, 0)).2.1 ≤ 2

/-- The text with its flow. -/
def Tlamond.flows (o : Tlamond) : List Flow := (List.range o.text.length).map fun i => flowOf i (o.text.getD i 0)

/-- Explicit targets of an instruction. -/
def Flow.targets : Flow → List Int
  | .br t => [t]
  | .jmp t => [t]
  | .call t => [t]
  | _ => []

/-- The first index that satisfies a test. -/
def firstAt {α : Type} (l : List α) (p : Nat → α → Bool) : Option Nat := (List.range l.length).find? fun i => (l[i]?.map (p i)).getD false

/-- Loops whose body holds an index. -/
def loopsAround (fs : List Flow) (j : Nat) : List (Nat × Nat) :=
  (List.range fs.length).filterMap fun i =>
    match (fs[i]? : Option Flow) with
    | some (.loop _ b) => if i < j && j ≤ i + b then some (i, b) else none
    | _ => none

/-- Detail 0x08: a body past the text, nesting beyond 2, or a branch into a body from outside. -/
def badLoop (fs : List Flow) (i : Nat) (f : Flow) : Bool :=
  (match f with
   | .loop _ b => decide (i + b ≥ fs.length) || decide ((loopsAround fs i).length ≥ 2)
   | _ => false)
  || f.targets.any fun t => (loopsAround fs t.toNat).any fun l => !(l.1 < i && i ≤ l.1 + l.2)

/-- Return-stack entries in use on arrival at each index, propagated forward (detail 0x09). -/
def arriveWith (ds : List (Option Nat)) (j v : Nat) : List (Option Nat) := ds.set j (some (max v ((ds.getD j none).getD 0)))

/-- One forward pass over the text. -/
def depthPass (fs : List Flow) (ds : List (Option Nat)) : List (Option Nat) :=
  (List.range fs.length).foldl (fun acc i =>
    match acc.getD i none, fs[i]? with
    | some v, some f =>
      match f with
      | .stop => acc
      | .emit => acc
      | .ret => acc
      | .jclass => acc
      | .br t => arriveWith (arriveWith acc (i + 1) v) t.toNat v
      | .jmp t => arriveWith acc t v
      | .call t => arriveWith (arriveWith acc (i + 1) v) t (v + 1)
      | _ => arriveWith acc (i + 1) v
    | _, _ => acc) ds

/-- Depth on arrival, with the ACTION entries reached by JCLASS at the depth of the deepest one. -/
def Tlamond.depths (o : Tlamond) : List (Option Nat) :=
  let fs := o.flows
  let seed (k v : Nat) (ds : List (Option Nat)) : List (Option Nat) := (o.ofKind k).foldl (fun acc e => arriveWith acc e.2.2.1 v) ds
  let start := seed 1 0 (seed 3 5 (seed 2 0 (List.replicate fs.length none)))
  let one := depthPass fs start
  let jc := (List.range fs.length).foldl (fun m i => match (fs[i]? : Option Flow), one.getD i none with
    | some .jclass, some v => max m v
    | _, _ => m) 0
  depthPass fs (seed 2 jc one)

/-- Detail 0x0A: a window access with A = 0 outside its window; a BUF offset always lies in some frame (log entry 28). -/
def badWindow (priv : Nat) (w : Word) : Bool :=
  let n := if bitsOf w 14 13 = 3 then 4 else 2 ^ bitsOf w 14 13
  bitsOf w 20 16 == 0 &&
    match bitsOf w 31 26 with
    | 0x10 => decide (bitsOf w 7 0 + n > 256)
    | 0x12 => decide (bitsOf w 12 0 + n > priv)
    | _ => false

/-- Detail 0x0B: an LG store beyond what an inset may write (R98). -/
def badLgStore (w : Word) : Bool :=
  bitsOf w 31 26 == 0x11 && w.getLsbD 20 &&
    (fieldMask (bitsOf w 15 11 + bitsOf w 10 6) (bitsOf w 15 11) &&& ~~~ insetMask (bitsOf w 19 16)) != 0

/-- Detail 0x0C at an instruction: a handle not in the object, or of another KIND. -/
def Tlamond.badHandle (o : Tlamond) (w : Word) : Bool :=
  bitsOf w 31 26 == 0x18 && bitsOf w 23 22 != 3 &&
    match o.handles[bitsOf w 21 16]? with
    | some h => h.2.1 != bitsOf w 23 22
    | none => true

/-- The table that a SYMBOL maps to, when the function holds it and its kind is the handle's (R136). -/
def Dev.handleTable (d : Dev) (f kind : Nat) (maps : List (Nat × Nat)) (symbol : Nat) : Option Nat :=
  (maps.find? fun m => m.1 == symbol).bind fun m =>
    let t := m.2
    if kind = 1 then (if t = 2 then some t else none)
    else if kind = 2 then (if t = 3 then some t else none)
    else if (t = 0 || (4 ≤ t && t < 64)) && d.tblGranted f t then some t else none

/-- Detail 0x0D: an entry not imported; imports are checked beside. -/
def Tlamond.badImport (o : Tlamond) (w : Word) : Bool :=
  bitsOf w 31 26 == 0x1D && !(o.imports.any fun m => m.1 == bitsOf w 25 18)

/-- Detail 0x0E: a channel or SOFT event that is not requested. -/
def Tlamond.badGrant (o : Tlamond) (w : Word) : Bool :=
  (bitsOf w 31 26 == 0x1A && !o.chanMask.testBit (bitsOf w 23 21))
    || (bitsOf w 31 26 == 0x1B && bitsOf w 25 24 == 1 && !o.softMask.testBit (bitsOf w 16 12))

/-- Indices reached from one entry at its own call level, and inside calls. -/
def reachPass (fs : List Flow) (start : Nat) : List Bool × List Bool :=
  let none_ := List.replicate (fs.length + 1) false
  (List.range fs.length).foldl (fun (acc : List Bool × List Bool) i =>
    let go (top : Bool) (a : List Bool × List Bool) (j : Nat) : List Bool × List Bool :=
      let k := min j fs.length
      if top then (a.1.set k true, a.2) else (a.1, a.2.set k true)
    let at_ (top : Bool) (a : List Bool × List Bool) : List Bool × List Bool :=
      match (fs[i]? : Option Flow) with
      | none => a
      | some .stop => a
      | some .emit => a
      | some .ret => a
      | some .jclass => a
      | some (.br t) => go top (go top a (i + 1)) t.toNat
      | some (.jmp t) => go top a t
      | some (.call t) => go false (go top a (i + 1)) t
      | some _ => go top a (i + 1)
    let a1 := if acc.1.getD i false then at_ true acc else acc
    if acc.2.getD i false then at_ false a1 else a1) (none_.set start true, none_)

/-- Detail 0x10: the index at which an entry's path runs off the text, or at which an ACTION or PARSE path ends in RET. -/
def noEnd (fs : List Flow) (e : Nat × Nat × Nat × Nat) : Option Nat :=
  let r := reachPass fs e.2.2.1
  match if e.1 = 3 then none else (List.range fs.length).find? fun i => r.1.getD i false && fs.getD i .next == .ret with
  | some i => some i
  | none => if r.1.getD fs.length false || r.2.getD fs.length false then some (fs.length - 1) else none

/-! ## Path costs (R107, R108) -/

/-- The greater of two costs, where there are any. -/
def maxCost (a b : Option Nat) : Option Nat :=
  match a, b with
  | some x, some y => some (max x y)
  | some x, none => some x
  | none, y => y

/-- Costs of the instructions of a stretch of text that begins at index `i`: up to END or RET, or up to arrival at `stop`.
`top` gives the whole cost of a call target, `jc` what JCLASS adds, `hook` the largest hook cost. -/
def costs (jc hook : Nat) (top : Option (Nat → Option Nat)) (stop : Nat) : Nat → Nat → List Flow → List (Option Nat)
  | 0, _, _ => []
  | _, _, [] => []
  | fuel + 1, i, f :: rest =>
    let later := costs jc hook top stop fuel (i + 1) rest
    let here (j : Nat) : Option Nat := if j = stop then some 0 else if j ≤ i then none else (later.getD (j - i - 1) none)
    let full := top.getD here
    let ends : Option Nat := if top.isNone then some 1 else none
    let c : Option Nat :=
      match f with
      | .stop => ends
      | .emit => ends.map (· + (libMax 0x10).getD 0)
      | .ret => ends
      | .br t => (maxCost (here (i + 1)) (here t.toNat)).map (· + 1)
      | .jmp t => (here t).map (· + 1)
      | .call t => (full t).bind fun a => (here (i + 1)).map fun b => 1 + a + b
      | .lib n => (here (i + 1)).map fun b => 1 + (libMax n).getD 0 + (if n = 0x04 then hook else 0) + b
      | .jclass => if top.isNone then some (1 + jc) else none
      | .loop k b =>
        let body := (costs jc hook (some full) (i + b + 1) fuel (i + 1) (rest.take b)).headD none
        (here (i + 1)).map fun x => 1 + (k - 1) * body.getD 0 + x
      | .next => (here (i + 1)).map (· + 1)
    c :: later

/-- Costs of every index of the text. -/
def Tlamond.costTable (o : Tlamond) (jc hook : Nat) : List (Option Nat) :=
  costs jc hook none (o.text.length + 1) o.text.length 0 o.flows

/-- Largest cost of the entries of a KIND. -/
def Tlamond.largest (o : Tlamond) (t : List (Option Nat)) (k : Nat) : Nat :=
  (o.ofKind k).foldl (fun m e => max m ((t.getD e.2.2.1 none).getD 0)) 0

/-- The largest costs of HOOK and ACTION entries, from those that an earlier round gave. -/
def Tlamond.round (o : Tlamond) (x : Nat × Nat) : Nat × Nat :=
  let t := o.costTable (max 96 x.2) x.1
  (o.largest t 3, o.largest t 2)

/-- The loader's figures: cost of every index, and the frame bound. The cost of a HOOK entry may depend on those of ACTION
entries, through JCLASS, or these on that, through LIB_PARSE_FULL, so that two rounds settle both; none when they do not, as one
leads back to itself and no bound exists (log entry 28). -/
def Tlamond.figures (o : Tlamond) : Option (List (Option Nat) × Nat) :=
  let (h, a) := o.round (o.round (o.round (0, 0)))
  let t := o.costTable (max 96 a) h
  if o.largest t 3 ≠ h || o.largest t 2 ≠ a then none
  else
    let bound := match o.ofKind 1 with
      | e :: _ => (t.getD e.2.2.1 none).getD 0
      | [] => 173 + h + max 96 a
    some (t, bound)

/-! ## Placement -/

/-- The cluster accepts a dispatch group. -/
def Dev.clusterAccepts (d : Dev) (g c : Nat) : Bool :=
  (List.range 32).any fun i => d.on? Fld.PCA_THREAD_CTRL_ENABLE (32 * c + i) && d.acceptsGroup (32 * c + i) g

/-- Clusters that take a function's text. -/
def Dev.groupClusters (d : Dev) (f : Nat) : List Nat :=
  (List.range 16).filter (d.clusterAccepts (d.get Fld.PCA_FUNC_GROUP_GROUP f))

/-- Clusters in which every thread that accepts the group accepts no other (R106). -/
def Dev.exclusive (d : Dev) (f : Nat) : List Nat :=
  let g := d.get Fld.PCA_FUNC_GROUP_GROUP f
  (d.groupClusters f).filter fun c =>
    (List.range 32).all fun i => !d.acceptsGroup (32 * c + i) g || bitsOf (d.rd .PCA_THREAD_CTRL (32 * c + i)) 15 0 == 2 ^ g

/-- A base for `n` units from `lo` up to `hi` that overlaps nothing of `used`, in steps; which of the free ones, the manual
leaves open (log entry 28). -/
def Dev.place (d : Dev) (lo hi step n : Nat) (used : List (Nat × Nat)) : Option Nat × Dev :=
  let free := ((List.range ((hi - lo) / step)).map fun k => lo + step * k).filter fun b =>
    b + n ≤ hi && used.all fun u => b + n ≤ u.1 || u.1 + u.2 ≤ b
  let (k, d1) := d.drawNat
  (free[k % max 1 free.length]?, d1)

/-- Bases of an inset in each place of a list; none when one place has no room. -/
def Dev.placeAll (d : Dev) (lo hi step n : Nat) (used : Nat → List (Nat × Nat)) : List Nat → Option (Tbl Nat) × Dev
  | [] => (some ⟨[]⟩, d)
  | c :: rest =>
    match d.place lo hi step n (used c) with
    | (none, d1) => (none, d1)
    | (some b, d1) =>
      match d1.placeAll lo hi step n used rest with
      | (some t, d2) => (some (t.put c b), d2)
      | (none, d2) => (none, d2)

/-- Text already placed in a cluster, and windows already placed in a region. -/
def Dev.textUsed (d : Dev) (c : Nat) : List (Nat × Nat) :=
  d.pca.insets.vals.filterMap fun i => (i.base.look? c).map fun b => (b, i.text.length)
def Dev.rgnUsed (d : Dev) (r : Nat) : List (Nat × Nat) :=
  (d.pca.insets.vals.filter fun i => i.rgn != 0).filterMap fun i => (i.rgnBase.look? r).map fun b => (b, i.rgn)

/-- The first check of R108 that refuses an object: detail and index; none when every check passes. -/
def Dev.loaderRefuses (d : Dev) (f : Nat) (o : Tlamond) (maps : List (Nat × Nat)) : Option (Nat × Nat) :=
  let fs := o.flows
  let n := o.text.length
  let words (p : Word → Bool) : Option Nat := firstAt o.text fun _ w => p w
  let flows (p : Nat → Flow → Bool) : Option Nat := firstAt fs p
  let no : Nat := 0xFFFFFFFF
  let at_ (detail : Nat) (x : Option Nat) : Option (Nat × Nat) := x.map fun i => (detail, i)
  let when_ (detail : Nat) (b : Bool) : Option (Nat × Nat) := if b then some (detail, no) else none
  let ds := o.depths
  let checks : List (Unit → Option (Nat × Nat)) :=
    [fun _ => when_ 0x01 (!o.headerOk),
     fun _ => when_ 0x02 (le o.bytes 7 1 != 0xB0),
     fun _ => when_ 0x03 (o.bytes.length != 64 + 8 * o.entryCount + 8 * o.handleCount + 4 * o.importCount + 4 * o.textLen),
     fun _ => when_ 0x04 (!o.sizesOk),
     fun _ => at_ 0x05 (words fun w => !insetLegal w),
     fun _ => at_ 0x06 (flows fun _ x => x.targets.any fun t => t < 0 || t ≥ n),
     fun _ => when_ 0x06 (o.entries.any fun e => e.2.2.1 ≥ n),
     fun _ => at_ 0x07 (flows fun i x => x.targets.any fun t => t ≤ i),
     fun _ => at_ 0x08 (flows (badLoop fs)),
     fun _ => at_ 0x09 (flows fun i x =>
       match x, ds.getD i none with
       | .call _, some v => decide (v + 1 > 8)
       | .lib _, some v => decide (v + 3 > 8)
       | .emit, some v => decide (v + 3 > 8)
       | _, _ => false),
     fun _ => at_ 0x0A (words (badWindow o.priv)),
     fun _ => at_ 0x0B (words badLgStore),
     fun _ => at_ 0x0C (words o.badHandle),
     fun _ => when_ 0x0C (o.handles.any fun h => (d.handleTable f h.2.1 maps h.2.2).isNone),
     fun _ => at_ 0x0D (words o.badImport),
     fun _ => when_ 0x0D (o.imports.any fun m => (libMax m.1).isNone || decide (m.2 > Config.libVersion)),
     fun _ => at_ 0x0E (words o.badGrant),
     fun _ => when_ 0x0F ((o.chanMask ≠ 0 || o.softMask ≠ 0) && (d.exclusive f).isEmpty),
     fun _ => at_ 0x10 (o.entries.filterMap (noEnd fs)).min?,
     fun _ => when_ 0x11 (decide (o.bound > 512) || match o.figures with
       | none => true
       | some (t, b) => decide (b > 512) || decide (o.bound < b) || o.entries.any fun e => decide (e.2.2.2 < (t.getD e.2.2.1 none).getD 0))]
  checks.findSome? fun c => c ()

/-! ## Loading (R104 to R106) -/

/-- Replaces the packet core array's state. -/
def Dev.setPca (d : Dev) (g : Pca → Pca) : Dev := { d with pca := g d.pca }

/-- The inset in force for a function, by the region that applied it last; none without one. -/
def Dev.insetInForce (d : Dev) (f : Nat) : Option Nat :=
  match d.pca.changes.look? f with
  | some c => c.new
  | none => (List.range 4).findSome? fun r => d.pca.insetAt.look? (4 * f + r)

/-- The firmware sets the group masks of the clusters into which it loads an inset (R66). The rule gives no value: groups other than
the tenant's may be taken out of the masks of the threads that accept it, and which, is free (log entry 44). -/
def Dev.setGroupMasks (d : Dev) (f : Nat) (cs : List Nat) : Dev :=
  let g := d.get Fld.PCA_FUNC_GROUP_GROUP f
  (cs.flatMap fun c => (List.range 32).map (32 * c + ·)).foldl (fun x t =>
    if x.acceptsGroup t g then
      let (w, y) := x.drawWord
      y.wr .PCA_THREAD_CTRL t 0 (y.rd .PCA_THREAD_CTRL t &&& (w ||| toWord (0xFFFF0000 + 2 ^ g)))
    else x) d

/-- Grants channels and SOFT events in the exclusive clusters to the threads that accept the group (R106). -/
def Dev.grantInset (d : Dev) (f : Nat) (o : Tlamond) (cs : List Nat) : Dev :=
  let g := d.get Fld.PCA_FUNC_GROUP_GROUP f
  cs.foldl (fun x c =>
    let mask := toWord (((List.range 32).filter fun i => d.acceptsGroup (32 * c + i) g).foldl (fun m i => m + 2 ^ i) 0)
    let y := (List.range 8).foldl (fun y ch =>
      if o.chanMask.testBit ch then (y.wr .PCA_CHAN_WRITERS (8 * c + ch) 0 mask).wr .PCA_CHAN_READERS (8 * c + ch) 0 mask else y) x
    (List.range 32).foldl (fun y ev => if o.softMask.testBit ev then y.wr .PCA_EVT_SRC (32 * c + ev) 0 mask else y) y) d

/-- Zeroes the region windows of an inset. -/
def Dev.zeroWindows (d : Dev) (i : Inset) : Dev :=
  d.setPca fun p => { p with rstore := p.rstore.keep fun k _ =>
    !(match i.rgnBase.look? (k / 0x80000) with
      | some b => decide (b ≤ k % 0x80000) && decide (k % 0x80000 < b + i.rgn)
      | none => false) }

/-- The commit of a change begins: every region's dispatcher is to apply it. -/
def Dev.startChange (d : Dev) (f : Nat) (new : Option Nat) (bound : Nat) (cmd : Option Nat) : Dev :=
  let d1 := d.setPca fun p => { p with changes := p.changes.put f { new := new, regions := [0, 1, 2, 3], cmd := cmd } }
  let seq := d.get Fld.FNC_INSET_STAT_LOAD_SEQ f
  let d2 := if new.isSome then d1.set Fld.FNC_INSET_STAT_LOAD_SEQ f ((seq + 1) % 65536) else d1
  let d3 := (d2.set Fld.FNC_INSET_STAT_LOADED f (b2n new.isSome)).set Fld.FNC_INSET_STAT_BOUND f bound
  let d4 := d3.set Fld.FNC_INSET_STAT_DRAINING f (b2n ((d.insetInForce f).isSome || (d.pca.changes.look? f).isSome))
  match cmd with
  | some n => d4.commit n
  | none => d4

/-- INSET_LOAD (R105 to R108). -/
def Dev.insetLoad (d : Dev) (n f : Nat) (p : Bytes) (obj : Option Bytes) : Dev :=
  if (d.pca.changes.look? f).isSome then d.reply n .insetBusy
  else
    d.withData n (le p 0 8) (le32 p 8).toNat obj fun bytes d =>
      let o := tlamond (slice bytes 0 (le32 p 8).toNat)
      let maps := (List.range (le32 p 12).toNat).map fun i => ((le32 p (16 + 8 * i)).toNat, (byteAt p (20 + 8 * i)).toNat)
      let reject (x : Nat × Nat) (e : Dev) : Dev :=
        e.reply n .insetReject (wordBytes [toWord (x.1 * 2 ^ 24), toWord x.2] ++ List.replicate 32 0)
      if (le32 p 12).toNat > 16 then d.reply n .badParam
      else
        match d.loaderRefuses f o maps with
        | some x => reject x d
        | none =>
          let cs := d.groupClusters f
          let rs := (cs.map (· / 4)).eraseDups
          match d.placeAll 0x1000 0x4000 1 o.text.length d.textUsed cs with
          | (none, d1) => reject (0x12, 0xFFFFFFFF) d1
          | (some bases, d1) =>
            match d1.placeAll 0x40000 0x80000 1024 o.rgn d1.rgnUsed rs with
            | (none, d2) => reject (0x12, 0xFFFFFFFF) d2
            | (some wins, d2) =>
              let bound := (o.figures.map (·.2)).getD 0
              let ex := if o.chanMask ≠ 0 || o.softMask ≠ 0 then d.exclusive f else []
              let i : Inset :=
                { function := f, text := o.text, base := bases, rgnBase := wins, priv := o.priv, rgn := o.rgn,
                  entries := o.entries.map fun e => (e.1, e.2.1, e.2.2.1),
                  handles := o.handles.map fun h => (d.handleTable f h.2.1 maps h.2.2).getD 0,
                  handleKinds := o.handles.map (·.2.1), chanMask := o.chanMask, softMask := o.softMask, granted := ex, bound := bound }
              let k := d2.pca.insets.nextKey
              let d3 := (((d2.setPca fun q => { q with insets := q.insets.put k i }).zeroWindows i).setGroupMasks f cs).grantInset f o ex
              d3.startChange f (some k) bound (some n)

/-- The reply of an accepted load: the frame bound and the digest of the text (R108). Its index is 0, and a refusal has bound and
digest 0 (DESIGN CHOICE, log entry 44). -/
def Dev.loadReply (d : Dev) (n k : Nat) : Dev :=
  match d.pca.insets.look? k with
  | some i => d.reply n .ok (wordBytes [toWord i.bound, 0] ++ shake256 (wordBytes i.text) 32)
  | none => d.replyOk n

/-- INSET_UNLOAD (R105); with nothing loaded it has nothing to drain. -/
def Dev.insetUnload (d : Dev) (n f : Nat) : Dev :=
  if (d.pca.changes.look? f).isSome then d.reply n .insetBusy
  else if (d.insetInForce f).isNone then d.replyOk n
  else d.startChange f none 0 (some n)

/-- A region's dispatcher applies a commit between two dispatches (R105). -/
def Dev.insetCommitApply (d : Dev) (f r : Nat) : Dev :=
  match d.pca.changes.look? f with
  | some c =>
    if c.regions.contains r then
      let at_ := match c.new with
        | some k => d.pca.insetAt.put (4 * f + r) k
        | none => d.pca.insetAt.erase (4 * f + r)
      d.setPca fun p => { p with insetAt := at_, changes := p.changes.put f { c with regions := c.regions.filter (· ≠ r) } }
    else d
  | none => d

/-- Some thread runs an inset of the function other than `new`. -/
def Dev.oldInsetRuns (d : Dev) (f : Nat) (new : Option Nat) : Bool :=
  (d.pca.threads.first? fun _ x =>
    match x.inset with
    | some k => some k != new && ((d.pca.insets.look? k).map fun i => i.function == f).getD false
    | none => false).isSome

/-- No thread runs the old inset any more: it is freed, and the command replies (R105). -/
def Dev.insetDrainEnd (d : Dev) (f : Nat) : Dev :=
  match d.pca.changes.look? f with
  | some c =>
    if c.regions.isEmpty && !d.oldInsetRuns f c.new then
      let d1 := d.setPca fun p => { p with changes := p.changes.erase f, insets := p.insets.keep fun k i => i.function != f || some k == c.new }
      let d2 := d1.set Fld.FNC_INSET_STAT_DRAINING f 0
      match c.cmd, c.new with
      | some n, some k => d2.loadReply n k
      | some n, none => d2.replyOk n
      | none, _ => d2
    else d
  | none => d

/-- One record of INSET_BIND: its refusal. -/
def Dev.bindRefuses (d : Dev) (f : Nat) (w : Word) : Option Status :=
  let inst := (d.insetInForce f).bind d.pca.insets.look?
  let has (k : Nat) : Bool := (inst.map fun i => i.entries.any fun e => e.1 == k && e.2.1 == bitsOf w 27 24).getD false
  match bitsOf w 31 30 with
  | 1 =>
    if w.getLsbD 28 then none
    else if inst.isNone then some .badState
    else if has 2 then none else some .badParam
  | 2 => if w.getLsbD 28 || has 3 then none else some .badParam
  | _ => some .badParam

/-- One record applied. -/
def Dev.bindRecord (d : Dev) (f seq : Nat) (w v : Word) : Dev :=
  if bitsOf w 31 30 = 1 then
    let b : ClassBind :=
      { entry := if w.getLsbD 28 then none else some (bitsOf w 27 24), stream := bitsOf v 15 0, toSlow := w.getLsbD 29 }
    let k := 4096 * f + bitsOf w 11 0
    d.setPca fun p => { p with classMap := p.classMap.put k ((seq, b) :: p.classMap.getD k []) }
  else
    let h : Option Hook :=
      if w.getLsbD 28 then none else some { udp := w.getLsbD 29, key := bitsOf w 15 0, entry := bitsOf w 27 24 }
    let k := 4 * f + bitsOf w 17 16
    d.setPca fun p => { p with hooks := p.hooks.put k ((seq, h) :: p.hooks.getD k []) }

/-- INSET_BIND (R104, R110, R341): its records together, for legends dispatched from now on. -/
def Dev.insetBind (d : Dev) (n f : Nat) (p : Bytes) : Dev :=
  let rs := (List.range (le32 p 0).toNat).map fun i => (le32 p (4 + 8 * i), le32 p (8 + 8 * i))
  match rs.findSome? fun r => d.bindRefuses f r.1 with
  | some st => d.reply n st
  | none =>
    let seq := d.pca.binds + 1
    (rs.foldl (fun x r => x.bindRecord f seq r.1 r.2) (d.setPca fun q => { q with binds := seq })).replyOk n

/-- The part of a FUNCTION reset in the packet core array (R105, R317): bindings are cleared and the inset is unloaded; threads
that still run it on frames of another owner end first. A load or unload that has passed its commit has had its reply. -/
def Dev.insetFuncReset (d : Dev) (f : Nat) : Dev :=
  let change := d.pca.changes.look? f
  let d1 := match change with
    | some { cmd := some n, new := some k, .. } => d.loadReply n k
    | some { cmd := some n, new := none, .. } => d.replyOk n
    | _ => d
  let d2 := d1.setPca fun p => { p with classMap := p.classMap.keep fun k _ => k / 4096 != f, hooks := p.hooks.keep fun k _ => k / 4 != f }
  if change.isNone && (d2.insetInForce f).isNone then d2
  else
    let d3 := d2.startChange f none 0 none
    d3.setPca fun p => { p with insetAt := p.insetAt.keep fun k _ => k / 4 != f,
                                changes := p.changes.put f { new := none, regions := [], cmd := none } }

end Sys2Proof.Machine
end

