-- ==== Sys2Proof/Machine/CipherOps.lean ====
section
/-!
DEFINITION. The cipher engine (R181 to R204): key slots and their records, counters, MACsec and ESP transformations, admission
and completion, erasing, and the key commands.
-/
namespace Sys2Proof.Machine

/-! ## Slots and records -/

/-- Further fields of a key record (R188). -/
def krKey256 (r : List Word) : Bool := (krWord r 0).getLsbD 27
def krExt (r : List Word) : Bool := (krWord r 0).getLsbD 26
def krTunnel (r : List Word) : Bool := (krWord r 0).getLsbD 25
def krConf (r : List Word) : Bool := (krWord r 0).getLsbD 23
def krOffset (r : List Word) : Nat := [0, 30, 50].getD (bitsOf (krWord r 0) 22 21) 0
def krV6 (r : List Word) : Bool := (krWord r 0).getLsbD 20
def krAn (r : List Word) : Nat := bitsOf (krWord r 0) 19 18
def krReplay (r : List Word) : Bool := (krWord r 0).getLsbD 17
def krWin (r : List Word) : Nat := (krWord r 1).toNat
def krNext (r : List Word) : Nat := (krWord r 2).toNat * 2 ^ 32 + (krWord r 3).toNat
def krLimit (r : List Word) : Nat := (krWord r 4).toNat * 2 ^ 32 + (krWord r 5).toNat
def krSpi (r : List Word) : Nat := (krWord r 6).toNat
def krSci (r : List Word) : Nat := (krWord r 8).toNat * 2 ^ 32 + (krWord r 9).toNat
/-- Words of a record, each most significant byte first. -/
def krNet (r : List Word) (i n : Nat) : Bytes := (List.range n).flatMap fun k => bytesBE 4 (krWord r (i + k)).toNat
def krKeyBytes (r : List Word) : Bytes := wordBytes ((List.range (if krKey256 r then 8 else 4)).map fun i => krWord r (24 + i))

/-- Last counter value of a transmit slot (R191). -/
def krLast (r : List Word) : Nat := if krType r = 5 || krExt r then 2 ^ 64 - 1 else 2 ^ 32 - 1

/-- The record meets R188 and R191. -/
def recordOk (r : List Word) : Bool :=
  let t := krType r
  let esp := t == 3 || t == 4
  let tls := t == 5 || t == 6
  let mac := t == 1 || t == 2
  1 ≤ t && t ≤ 6 && bitsOf (krWord r 0) 16 10 == 0 && bitsOf (krWord r 7) 29 0 == 0 && bitsOf (krWord r 13) 17 0 == 0
    && krWord r 14 == 0 && krWord r 15 == 0 && bitsOf (krWord r 0) 22 21 != 3
    && (krKey256 r || (krWord r 28 == 0 && krWord r 29 == 0 && krWord r 30 == 0 && krWord r 31 == 0))
    && !(tls && krExt r) && (mac || krConf r) && (!krShared r || (esp && decide (krOwner r < 4)))
    && (!esp || (decide (krWin r ≤ 1024) && krWord r 11 == 0 && krWord r 12 == 0))
    && (esp || (mac && krExt r) || krSpi r == 0)
    && (!(t == 1 || t == 3) || (1 ≤ krNext r && krNext r ≤ krLast r))

/-- The slot state on which an operation works: that of the record it copied, which a rewrite may have replaced (R181, R202). -/
def Dev.opSlot (d : Dev) (o : CipOp) : KeySlot :=
  if (d.slot o.slot).epoch = o.epoch then d.slot o.slot else d.cip.retired.getD o.epoch {}

/-- Replaces it; the record that has replaced an operation's own is left alone. -/
def Dev.setOpSlot (d : Dev) (o : CipOp) (s : KeySlot) : Dev :=
  if (d.slot o.slot).epoch = o.epoch then d.setSlot o.slot s else d.setCip fun c => { c with retired := c.retired.put o.epoch s }

/-- A record comes into a slot; the one before it stays for the operations that copied it (R202). NEXT of an ESP receive slot is
the highest value received, so that value is marked received; what lay below it is not known (log entry 46). -/
def Dev.putKey (d : Dev) (k state : Nat) (r : List Word) : Dev :=
  let s := d.slot k
  let running := (d.cip.cores.first? fun _ o => o.slot == k && o.epoch == s.epoch).isSome
  let d1 := d.setCip fun c => { c with retired := if running then c.retired.put s.epoch s else c.retired, writes := c.writes + 1 }
  d1.setSlot k { state := state, record := r, next := krNext r, window := 1, epoch := d1.cip.writes }

/-- An operation has started on the slot at the present stamp. The stamp at which a rewrite or an erase of the slot commits is the
device's own to take: it takes a later one, so that no operation starts at it with the old record (R60, R202, R203). -/
def Dev.startedNow (d : Dev) (k : Nat) : Bool := (d.slot k).lastStart == some d.now

/-- Takes the counter value of a transmit operation, with the events of R191. -/
def Dev.takeValue (d : Dev) (k : Nat) : Nat × Dev :=
  let s := d.slot k
  let v := s.next
  let owner := krOwner s.record
  let hit := krLimit s.record ≠ 0 && decide (v ≥ krLimit s.record) && !s.thresholdHit
  let last := v == krLast s.record
  let d1 := d.setSlot k
    { s with next := v + 1, thresholdHit := s.thresholdHit || hit, state := if last then 2 else s.state }
  let d2 := if hit then d1.event owner 0x8001 (wordBytes [toWord k]) else d1
  (v, if last then d2.event owner 0x8002 (wordBytes [toWord k]) else d2)

/-! ## MACsec (R192 to R196) -/

/-- Settings of a port. -/
def Dev.txMacsec (d : Dev) (p : Nat) : Bool := d.on? Fld.CIP_PORT_MACSEC_TX_EN p
def Dev.rxMacsec (d : Dev) (p : Nat) : Bool := d.on? Fld.CIP_PORT_MACSEC_RX_EN p

/-- Nonce of a MACsec operation (IEEE 802.1AE): SCI and PN, or SSCI and PN mixed with the salt under XPN. -/
def macsecNonce (r : List Word) (pn : Nat) : Bytes :=
  if krExt r then
    List.zipWith (· ^^^ ·) (bytesBE 4 (krSpi r) ++ bytesBE 8 pn) (krNet r 10 3)
  else bytesBE 8 (krSci r) ++ bytesBE 4 pn

/-- A protected frame (R194): SecTAG after the source address, ICV at the end. -/
def macsecProtect (r : List Word) (pn : Nat) (bs : Bytes) : Bytes :=
  let sci := (krWord r 7).getLsbD 31
  let es := (krWord r 7).getLsbD 30
  let conf := krConf r
  let data := bs.drop 12
  let tci := b2n es * 64 + b2n sci * 32 + b2n conf * 12 + krAn r
  let sl := if data.length < 48 then data.length else 0
  let tag : Bytes := bytesBE 2 0x88E5 ++ [BitVec.ofNat 8 tci, BitVec.ofNat 8 sl] ++ bytesBE 4 pn ++ (if sci then bytesBE 8 (krSci r) else [])
  let clear := if conf then krOffset r else data.length
  let aad := bs.take 12 ++ tag ++ data.take clear
  let key := krKeyBytes r
  let ct := gcmSeal key (macsecNonce r pn) aad (data.drop clear)
  aad ++ ct ++ gcmTag key (macsecNonce r pn) aad ct

/-- What a received SecTAG says: TCI and AN octet, SL, low PN, length of the tag. -/
structure SecTag where
  tci : Nat
  sl : Nat
  pn : Nat
  len : Nat
  deriving DecidableEq, Repr

/-- The SecTAG of a frame of EtherType 0x88E5. -/
def secTag (bs : Bytes) : SecTag :=
  let tci := (byteAt bs 14).toNat
  { tci := tci, sl := (byteAt bs 15).toNat, pn := be bs 16 4, len := if tci.testBit 5 then 16 else 8 }

/-- The SCI to which a frame belongs (R195). -/
def Dev.frameSci (d : Dev) (p : Nat) (bs : Bytes) : Nat :=
  let t := secTag bs
  if t.tci.testBit 5 then be bs 20 8 else if t.tci.testBit 6 then be bs 6 6 * 2 ^ 16 + 1 else d.cip.sci.getD p 0

/-- The slot of a received frame: its channel's, for its AN. -/
def Dev.rxSlot (d : Dev) (p : Nat) (bs : Bytes) : Option Nat :=
  ((d.cip.rxsc.getD p []).find? fun c => c.sci == d.frameSci p bs).bind fun c => (c.slots[(secTag bs).tci % 4]?).bind id

/-- A well-formed SecTAG (IEEE 802.1AE): V 0, SC without ES and SCB, SL below 48 and enough data for it. -/
def secTagOk (t : SecTag) (bs : Bytes) : Bool :=
  let data := bs.length - 12 - t.len - 16
  !t.tci.testBit 7 && !(t.tci.testBit 5 && (t.tci.testBit 6 || t.tci.testBit 4)) && decide (t.sl < 48)
    && decide (12 + t.len + 16 ≤ bs.length) && (if t.sl = 0 then decide (48 ≤ data) else decide (t.sl ≤ data))

/-- The PN of a received frame, its upper half recovered under XPN. -/
def recoverPn (ext : Bool) (next low : Nat) : Nat :=
  if ext then
    let hi := next / 2 ^ 32
    (if (next % 2 ^ 32).testBit 31 && !low.testBit 31 then hi + 1 else hi) * 2 ^ 32 + low
  else low

/-- The frame after protection is removed: none when a check other than replay fails (R196). -/
def macsecOpen (r : List Word) (pn : Nat) (bs : Bytes) : Option Bytes :=
  let t := secTag bs
  let start := 12 + t.len
  let n := if t.sl = 0 then bs.length - start - 16 else t.sl
  let data := slice bs start n
  let clear := if krConf r then krOffset r else n
  let aad := bs.take start ++ data.take clear
  let key := krKeyBytes r
  let ct := data.drop clear
  if !secTagOk t bs || t.tci.testBit 3 ≠ krConf r || t.tci.testBit 2 ≠ krConf r then none
  else if gcmTag key (macsecNonce r pn) aad ct ≠ slice bs (start + n) 16 then none
  else some (bs.take 12 ++ data.take clear ++ gcmOpen key (macsecNonce r pn) aad ct ++ bs.drop (start + n + 16))

/-! ## ESP (R197, R198) -/

/-- Padding of ESP: payload plus 2 to a multiple of 4. -/
def espPad (n : Nat) : Bytes := (List.range ((4 - (n + 2) % 4) % 4)).map fun i => BitVec.ofNat 8 (i + 1)

/-- Nonce and additional data of an ESP operation (RFC 4106). -/
def espNonce (r : List Word) (iv : Bytes) : Bytes := krNet r 10 1 ++ iv
def espAad (r : List Word) (seq : Nat) : Bytes := bytesBE 4 (krSpi r) ++ (if krExt r then bytesBE 8 seq else bytesBE 4 seq)

/-- ESP header, IV, ciphertext and ICV over a payload with its next header. -/
def espSeal (r : List Word) (seq : Nat) (payload : Bytes) (next : Nat) : Bytes :=
  let pad := espPad payload.length
  let pt := payload ++ pad ++ [BitVec.ofNat 8 pad.length, BitVec.ofNat 8 next]
  let iv := bytesBE 8 seq
  let key := krKeyBytes r
  let ct := gcmSeal key (espNonce r iv) (espAad r seq) pt
  bytesBE 4 (krSpi r) ++ bytesBE 4 seq ++ iv ++ ct ++ gcmTag key (espNonce r iv) (espAad r seq) ct

/-- Offset of the Next Header byte that names what stands behind an IPv6 header with its extension headers: `at_` is the byte that
names the header at `pos`. -/
def lastNext (hdr : Bytes) : Nat → Nat → Nat → Nat
  | 0, at_, _ => at_
  | fuel + 1, at_, pos =>
    if pos + 2 > hdr.length then at_
    else lastNext hdr fuel pos (pos + (if byteAt hdr at_ = 44 then 8 else 8 * ((byteAt hdr (pos + 1)).toNat + 1)))

/-- An IP header, with its extension headers, that names another protocol behind it; its length is changed, the IPv4 checksum made
anew. -/
def ipPatch (hdr : Bytes) (v6 : Bool) (proto : Nat) (grow : Int) : Bytes :=
  if v6 then
    overwrite (overwrite hdr 4 (bytesBE 2 (((be hdr 4 2 : Nat) : Int) + grow).toNat)) (lastNext hdr hdr.length 6 40) [BitVec.ofNat 8 proto]
  else
    let a := overwrite (overwrite hdr 2 (bytesBE 2 (((be hdr 2 2 : Nat) : Int) + grow).toNat)) 9 [BitVec.ofNat 8 proto]
    let b := overwrite a 10 [0, 0]
    overwrite b 10 (bytesBE 2 (inetSum b))

/-- Where the IP datagram at `l3` ends. -/
def ipEnd (bs : Bytes) (l3 : Nat) (v6 : Bool) : Nat := if v6 then l3 + 40 + be bs (l3 + 4) 2 else l3 + be bs (l3 + 2) 2

/-- Transport mode out: none where R198 does not allow it. -/
def espTransport (r : List Word) (seq l3 l4 : Nat) (bs : Bytes) : Option Bytes :=
  let v6 := (byteAt bs l3).toNat / 16 == 6
  let e := ipEnd bs l3 v6
  if l3 = 0 || l4 ≤ l3 || (v6 && l4 ≠ l3 + 40) || e > bs.length || l4 > e then none
  else
    let hdr := slice bs l3 (l4 - l3)
    let proto := (byteAt hdr (if v6 then 6 else 9)).toNat
    let body := espSeal r seq (slice bs l4 (e - l4)) proto
    let grow : Int := (body.length : Int) - ((e - l4 : Nat) : Int)
    some (bs.take l3 ++ ipPatch hdr v6 50 grow ++ body ++ bs.drop e)

/-- Tunnel mode out: every byte from L3_OFF on under an outer header. -/
def espTunnel (r : List Word) (seq l3 : Nat) (bs : Bytes) : Option Bytes :=
  if l3 < 14 || l3 > bs.length then none
  else
    let inner := bs.drop l3
    let next := if (byteAt bs l3).toNat / 16 = 6 then 41 else 4
    let body := espSeal r seq inner next
    let ttl := bitsOf (krWord r 13) 31 24
    let dscp := bitsOf (krWord r 13) 23 18
    let outer :=
      if krV6 r then ip6Header body.length ttl dscp 0 50 (krNet r 16 4) (krNet r 20 4)
      else ip4Header (20 + body.length) ttl dscp 50 (krNet r 19 1) (krNet r 23 1)
    some (bs.take (l3 - 2) ++ bytesBE 2 (if krV6 r then 0x86DD else 0x0800) ++ outer ++ body)

/-- Offsets of the network and transport headers of a copy: those of the legend moved by the tag edit, or those of the outer
headers of an encapsulated one. -/
def copyOffsets (c : Copy) (frameLen : Nat) : Nat × Nat :=
  if c.encap then
    let l3 := c.tagEnd + 2
    (l3, l3 + (if (byteAt c.bytes l3).toNat / 16 = 6 then 40 else 20))
  else
    let move (o : Nat) : Nat := if o = 0 then 0 else (((o + c.bytes.length : Nat) : Int) - frameLen).toNat
    (move (lgGet c.lg lgL3), move (lgGet c.lg lgL4))

/-- A copy protected by ESP. -/
def espOut (r : List Word) (seq : Nat) (c : Copy) (frameLen : Nat) : Option Bytes :=
  let (l3, l4) := copyOffsets c frameLen
  if krTunnel r then espTunnel r seq l3 c.bytes else espTransport r seq l3 l4 c.bytes

/-- The sequence number of a received packet, its upper half recovered with extended numbers (RFC 4303, appendix A); none where the
upper half would lie below 0. -/
def recoverSeq (r : List Word) (highest low : Nat) : Option Nat :=
  if krExt r then
    let w := max 1 (krWin r)
    let tl := highest % 2 ^ 32
    let th := highest / 2 ^ 32
    if tl + 1 ≥ w then some ((if low + w > tl then th else th + 1) * 2 ^ 32 + low)
    else if low < (tl + 2 ^ 32 + 1 - w) % 2 ^ 32 then some (th * 2 ^ 32 + low)
    else if th = 0 then none
    else some ((th - 1) * 2 ^ 32 + low)
  else some low

/-- The replay check of RFC 4303 (R198). -/
def replayOk (s : KeySlot) (seq : Nat) : Bool :=
  !krReplay s.record || decide (seq > s.next) ||
    (decide (s.next - seq < krWin s.record) && !s.window.testBit (s.next - seq) && seq ≠ 0)

/-- The replay state after a packet has passed. -/
def replayMark (s : KeySlot) (seq : Nat) : KeySlot :=
  if seq > s.next then { s with next := seq, window := (s.window * 2 ^ (seq - s.next) + 1) % 2 ^ 1024 }
  else if s.next - seq < 1024 then { s with window := s.window ||| 2 ^ (s.next - seq) } else s

/-- An ESP packet opened: sequence number and the frame after it; none when a check other than replay fails. -/
def espIn (r : List Word) (highest l3 esp : Nat) (bs : Bytes) : Option (Nat × Bytes) :=
  let v6 := (byteAt bs l3).toNat / 16 == 6
  let e := ipEnd bs l3 v6
  if l3 < 14 || esp ≤ l3 || e > bs.length || e < esp + 34 || be bs esp 4 ≠ krSpi r then none
  else
    match recoverSeq r highest (be bs (esp + 4) 4) with
    | none => none
    | some seq =>
      let iv := slice bs (esp + 8) 8
      let ct := slice bs (esp + 16) (e - esp - 32)
      let key := krKeyBytes r
      if gcmTag key (espNonce r iv) (espAad r seq) ct ≠ slice bs (e - 16) 16 then none
      else
        let pt := gcmOpen key (espNonce r iv) (espAad r seq) ct
        let n := pt.length
        let next := (byteAt pt (n - 1)).toNat
        let k := (byteAt pt (n - 2)).toNat
        if n < 2 || k + 2 > n || slice pt (n - 2 - k) k ≠ (List.range k).map (fun i => BitVec.ofNat 8 (i + 1)) then none
        else
          let payload := pt.take (n - 2 - k)
          if krTunnel r then
            some (seq, bs.take (l3 - 2) ++ bytesBE 2 (if (byteAt payload 0).toNat / 16 = 6 then 0x86DD else 0x0800) ++ payload)
          else
            let grow : Int := (payload.length : Int) - ((e - esp : Nat) : Int)
            some (seq, bs.take l3 ++ ipPatch (slice bs l3 (esp - l3)) v6 next grow ++ payload ++ bs.drop e)

/-! ## Queues -/

/-- The MACsec row of R363 decides about a frame received on a port (R195). -/
def Dev.macsecRow (d : Dev) (p : Nat) (bs : Bytes) : Bool :=
  d.rxMacsec p && d.on? Fld.CIP_PORT_MACSEC_STRICT p &&
    !(be bs 12 2 == 0x888E && d.on? Fld.CIP_PORT_MACSEC_EXEMPT_EAPOL p)

/-- A received frame that has its buffers: MACsec ingress (R193, R195), or on to the front end. -/
def Dev.macsecRx (d : Dev) (id : Nat) : Dev :=
  match d.frame? id with
  | none => d
  | some f =>
    let p := f.inPort
    let et := be f.bytes 12 2
    let strict := d.on? Fld.CIP_PORT_MACSEC_STRICT p
    let on_ := d.updFrame id fun x => { x with stage := .legend, since := d.ref }
    let drop : Dev := (d.bump .CIP_MACSEC_RX_DROP p).endFrame id
    if !d.rxMacsec p || !strict then on_
    else if et = 0x88E5 then
      match d.rxSlot p f.bytes with
      | none => drop
      | some k =>
        if !d.cipTakes then (d.cipRefused).endFrame id
        else if d.cip.rxQ.length ≥ 1024 then drop
        else
          ((d.updFrame id fun x => { x with stage := .macsec, since := d.ref }).moveFrame id 97).setCip fun c => { c with rxQ := c.rxQ ++ [(id, d.ref, k)] }
    else if et = 0x888E && d.on? Fld.CIP_PORT_MACSEC_EXEMPT_EAPOL p then on_ else drop

/-- A frame has waited 500 µs in the RX queue (R185). -/
def Dev.macsecRxTimeout (d : Dev) (id : Nat) : Dev :=
  match d.cip.rxQ.find? fun e => e.1 == id with
  | none => d
  | some (_, since, _) =>
    if since + 500000 ≤ d.ref then
      let p := ((d.frame? id).map (·.inPort)).getD 0
      ((d.setCip fun c => { c with rxQ := c.rxQ.filter fun e => e.1 != id }).bump .CIP_MACSEC_RX_DROP p).endFrame id
    else d

/-- ENABLE of CIP_CTRL goes to 0: the frames that wait are dropped (R185). -/
def Dev.cipDisable (d : Dev) : Dev :=
  let subjects := d.cip.txQ.map CipSubject.tx ++ d.cip.rxQ.map (fun e => CipSubject.rx e.1) ++ d.cip.espQ.map (·.2)
  let d1 := d.setCip fun c => { c with txQ := [], rxQ := [], espQ := [] }
  subjects.foldl (fun x s => x.cipRefused.dropSubject s (Config.dropReason 11)) d1

/-- After a write of CIP_CTRL. -/
def Dev.cipCtrlWritten (d : Dev) (old : Word) : Dev :=
  if old.getLsbD 31 && !d.on? Fld.CIP_CTRL_ENABLE then d.cipDisable else d

/-! ## Admission (R181, R185, R190) -/

/-- RESERVE_TX, and the weights (R207). -/
def Dev.reserveTx (d : Dev) : Nat := min 6 (d.get Fld.CIP_SCHED_CFG_RESERVE_TX)
def Dev.cipWeight (d : Dev) (cls : Nat) : Nat :=
  max 1 (if cls = 0 then d.get Fld.CIP_SCHED_CFG_WEIGHT_ESP else d.get Fld.CIP_SCHED_CFG_WEIGHT_TLS)

/-- An operation is ESP or TLS work. -/
def CipSubject.weighted : CipSubject → Bool
  | .espOut _ => true
  | .espIn _ => true
  | .tls _ => true
  | _ => false

/-- A function may have another operation in the cores (R185). -/
def Dev.cipEligible (d : Dev) (f : Nat) : Bool :=
  (d.cip.cores.countP fun _ o => o.subject.weighted && o.fn == f) < clampTo 1 12 (d.get Fld.CIP_FUNC_LIMIT_MAX_INFLIGHT f)

/-- The eligible operations of a class by function, oldest first within one. -/
def Dev.cipWaiting (d : Dev) (cls : Nat) : List (Nat × CipSubject) :=
  (if cls = 0 then d.cip.espQ else d.cip.tlsQ.map fun e => (e.1, .tls e.2)).filter fun e => d.cipEligible e.1

/-- The next operation of a class, functions in round robin. -/
def Dev.cipPick (d : Dev) (cls : Nat) : Option (Nat × CipSubject) :=
  let l := d.cipWaiting cls
  let start := match d.cip.lastFn.look? cls with
    | some f => f + 1
    | none => 0
  (roundRobin 1024 start fun f => l.any fun e => e.1 == f).bind fun f => l.find? fun e => e.1 == f

/-- The weighted turn: the operation and the turn state after it. -/
def Dev.cipTurn (d : Dev) : Option ((Nat × CipSubject) × Nat × Nat) :=
  let c := d.cip.turnClass
  let o := 1 - c
  match (if d.cip.turnsLeft > 0 then d.cipPick c else none) with
  | some x => some (x, c, d.cip.turnsLeft - 1)
  | none =>
    match d.cipPick o with
    | some x => some (x, o, d.cipWeight o - 1)
    | none => (if d.cip.turnsLeft = 0 then d.cipPick c else none).map fun x => (x, c, d.cipWeight c - 1)

/-- Puts an operation into a core. -/
def Dev.startOp (d : Dev) (core : Nat) (s : CipSubject) (k value fn port : Nat) : Dev :=
  let sl := d.slot k
  let o : CipOp :=
    { subject := s, slot := k, record := sl.record, value := value, fn := fn, start := d.now, port := port, seq := d.cip.nextSeq,
      epoch := sl.epoch }
  (d.setSlot k { sl with ops := (sl.ops + 1) % 2 ^ 32, lastStart := some d.now }).setCip fun c =>
    { c with cores := c.cores.put core o, nextSeq := c.nextSeq + 1 }

/-- A slot takes work of a TYPE (R190). -/
def KeySlot.takes (s : KeySlot) (t : Nat) : Bool := s.state == 1 && krType s.record == t

/-- Admission of a MACsec egress copy: the slot bound to the port at this moment (R194). -/
def Dev.admitTx (d : Dev) (core id : Nat) : Dev :=
  let d0 := d.setCip fun c => { c with txQ := c.txQ.filter (· ≠ id) }
  match d0.copy? id with
  | none => d0
  | some c =>
    let k := d.get Fld.CIP_PORT_MACSEC_TX_SLOT c.dest
    if !(d.slot k).takes 1 then
      ((d0.bump .CIP_SLOT_DROP).bump .CIP_MACSEC_TX_DROP c.dest).dropCopy id 43 (Config.dropReason 12)
    else
      let (v, d1) := d0.takeValue k
      d1.startOp core (.tx id) k v (d.ownerOf c) c.dest

/-- Admission of a MACsec ingress frame. -/
def Dev.admitRx (d : Dev) (core id k : Nat) : Dev :=
  let d0 := d.setCip fun c => { c with rxQ := c.rxQ.filter fun e => e.1 != id }
  match d0.frame? id with
  | none => d0
  | some f =>
    if !(d.slot k).takes 2 then (d0.bump .CIP_SLOT_DROP).endFrame id else d0.startOp core (.rx id) k 0 f.owner f.inPort

/-- Admission of an outbound ESP copy; the chain for its output is requested (R238). -/
def Dev.admitEspOut (d : Dev) (core id fn : Nat) : Dev :=
  match d.copy? id with
  | none => d
  | some c =>
    let k := lgGet c.lg lgKeySlot
    let stale := ((d.frame? c.frame).map d.staleFrame).getD false
    if stale then d.dropCopy id 43 (d.staleReason (d.ownerOf c))
    else if !d.espAdmits k fn 3 then (d.espRefused k fn 3).1.dropCopy id 43 (d.espRefused k fn 3).2
    else
      let (v, d1) := d.takeValue k
      let n := ((espOut (d.slot k).record v c (((d.frame? c.frame).map (·.bytes.length)).getD 0)).map (·.length)).getD c.bytes.length
      (d1.startOp core (.espOut id) k v fn c.dest).askBuffers 97 n (.cipher core)

/-- Admission of an inbound ESP frame. -/
def Dev.admitEspIn (d : Dev) (core id fn : Nat) : Dev :=
  match d.frame? id with
  | none => d
  | some f =>
    let k := lgGet f.lg lgKeySlot
    if d.staleFrame f then d.dropFrame id 43 (d.staleReason f.owner)
    else if !d.espAdmits k fn 4 then (d.espRefused k fn 4).1.dropFrame id 43 (d.espRefused k fn 4).2
    else (d.startOp core (.espIn id) k 0 fn f.inPort).askBuffers 97 f.bytes.length (.cipher core)

/-- Admission of a weighted operation; TLS records by `tls`. -/
def Dev.admitWeighted (d : Dev) (core : Nat) (tls : Nat → Dev → Dev) : Dev :=
  match d.cipTurn with
  | none => d
  | some ((fn, s), cls, left) =>
    let d1 := d.setCip fun c => { c with turnClass := cls, turnsLeft := left, lastFn := c.lastFn.put cls fn,
                                         espQ := c.espQ.filter fun e => e.2 != s,
                                         tlsQ := c.tlsQ.filter fun e => CipSubject.tls e.2 != s }
    match s with
    | .espOut id => d1.admitEspOut core id fn
    | .espIn id => d1.admitEspIn core id fn
    | .tls r => tls r d1
    | _ => d1

/-- CIPHER_ADMIT: a free core takes its next operation (R185, R12). -/
def Dev.cipherAdmit (d : Dev) (core : Nat) (tls : Nat → Dev → Dev) : Dev :=
  if !d.cipOn || core ≥ 12 || (core ≥ 6 && !d.available 5) || (d.cip.cores.look? core).isSome then d
  else
    match d.cip.txQ, d.cip.rxQ with
    | id :: _, _ => d.admitTx core id
    | [], (id, _, k) :: _ => if core < d.reserveTx then d else d.admitRx core id k
    | [], [] => if core < d.reserveTx then d else d.admitWeighted core tls

/-! ## Completion (R182, R183) -/

/-- The AES blocks of an operation, by its charge (R183, R187). -/
def chargeBlocks (len : Nat) : Nat := 3 + (len + 15) / 16

/-- A core is free again; a replaced record on which no operation runs any more is gone. -/
def Dev.freeCore (d : Dev) (core len : Nat) : Dev :=
  d.setCip fun c =>
    let cores := c.cores.erase core
    { c with cores := cores, blocks := c.blocks.put core (c.blocks.getD core 0 + chargeBlocks len),
             retired := c.retired.keep fun e _ => (cores.first? fun _ o => o.epoch == e).isSome }

/-- An operation is a receive operation. -/
def CipSubject.isTx : CipSubject → Bool
  | .tx _ => true
  | _ => false
def CipSubject.isRx : CipSubject → Bool
  | .rx _ => true
  | .espIn _ => true
  | _ => false

/-- The order of R182 lets the operation leave: earlier MACsec egress of its port, or earlier operations of its receive slot,
have left. -/
def Dev.mayLeave (d : Dev) (o : CipOp) : Bool :=
  (d.cip.cores.first? fun _ x => x.seq < o.seq &&
    ((o.subject.isTx && x.subject.isTx && x.port == o.port) || (o.subject.isRx && x.subject.isRx && x.slot == o.slot))).isNone

/-- A MACsec egress operation ends: the frame goes to its launch slot (R194). -/
def Dev.doneTx (d : Dev) (core id : Nat) (o : CipOp) : Dev :=
  match d.copy? id with
  | none => d.freeCore core 0
  | some c =>
    let out := macsecProtect o.record o.value c.bytes
    let d1 := d.freeCore core c.bytes.length
    if out.length > d.portMaxLen c.dest then (d1.bump .CIP_MACSEC_TX_DROP c.dest).dropCopy id 43 (Config.dropReason 14)
    else
      (d1.updCopy id fun x =>
        { x with bytes := out, lg := lgSet x.lg lgFrameLen out.length,
                 stage := match x.stage with
                   | .macsec q s => .launch q s
                   | st => st }).moveCopy id c.dest

/-- A MACsec ingress operation ends (R195, R196). -/
def Dev.doneRx (d : Dev) (core id : Nat) (o : CipOp) : Dev :=
  match d.frame? id with
  | none => d.freeCore core 0
  | some f =>
    let s := d.opSlot o
    let pn := recoverPn (krExt o.record) s.next (secTag f.bytes).pn
    match macsecOpen o.record pn f.bytes with
    | none =>
      (((d.setOpSlot o { s with tagFails := inc32 s.tagFails }).freeCore core f.bytes.length).bump .CIP_MACSEC_RX_DROP f.inPort).endFrame id
    | some out =>
      if krReplay o.record && pn + krWin o.record < s.next then
        (((d.setOpSlot o { s with replayDrops := inc32 s.replayDrops }).freeCore core f.bytes.length).bump .CIP_MACSEC_RX_DROP
          f.inPort).endFrame id
      else
        (((((d.setOpSlot o (if pn ≥ s.next then { s with next := pn + 1 } else s)).freeCore core f.bytes.length).updFrame id fun x =>
          { x with bytes := out, traversed := true, stage := .legend, since := d.ref }).fill f.chain out).moveFrame id f.inPort).bump
          .PRT_RX_FRAMES f.inPort

/-- An outbound ESP operation ends, once it has its output chain (R198, R243). -/
def Dev.doneEspOut (d : Dev) (core id : Nat) (o : CipOp) (chain : List Nat) : Dev :=
  match d.copy? id with
  | none => (d.freeShare chain 97).freeCore core 0
  | some c =>
    let d1 := d.freeCore core c.bytes.length
    let frameLen := ((d.frame? c.frame).map (·.bytes.length)).getD 0
    match espOut o.record o.value c frameLen with
    | none => ((d1.freeShare chain 97).bump .CIP_ESP_DROP).dropCopy id 43 (Config.dropReason 13)
    | some out =>
      if out.length > d.portMaxLen c.dest then ((d1.freeShare chain 97).bump .CIP_ESP_DROP).dropCopy id 43 (Config.dropReason 13)
      else
        let d2 := (d1.freeShare c.hdr c.party).updCopy id fun x =>
          { x with bytes := out, bare := x.bare.bind fun b => espOut o.record o.value { x with bytes := b } frameLen,
                   lg := lgChain (lgSet x.lg lgFrameLen out.length) chain, hdr := chain, own := true, stage := .admitting }
        ((if c.own then d2 else d2.dropShare c.frame c.party).moveCopy id 104).fill chain out

/-- An inbound ESP operation ends, once it has its output chain (R198). -/
def Dev.doneEspIn (d : Dev) (core id : Nat) (o : CipOp) (chain : List Nat) : Dev :=
  match d.frame? id with
  | none => (d.freeShare chain 97).freeCore core 0
  | some f =>
    let s := d.opSlot o
    let after (s1 : KeySlot) : Dev := (d.setOpSlot o s1).freeCore core f.bytes.length
    let region := match f.stage with
      | .espIn r => r
      | _ => 0
    match espIn o.record s.next (lgGet f.lg lgL3) (lgGet f.lg lgPayload) f.bytes with
    | none =>
      (((after { s with tagFails := inc32 s.tagFails }).freeShare chain 97).bump .CIP_ESP_DROP).dropFrame id 43 (Config.dropReason 13)
    | some (seq, out) =>
      if !replayOk s seq then
        (((after { s with replayDrops := inc32 s.replayDrops }).freeShare chain 97).bump .CIP_ESP_DROP).dropFrame id 43
          (Config.dropReason 13)
      else
        let d2 := (after (replayMark s seq)).freeShare f.chain f.party
        let d3 := (d2.updFrame id fun x =>
          { x with bytes := out, chain := chain, traversed := true,
                   lg := lgChain (lgSet (lgSet (lgSet x.lg lgFrameLen out.length) lgDecrypted 1) lgEncrypt 0) chain }).fill chain out
        if lgGet f.lg lgDest = 2 then
          match d3.frame? id with
          | some g => d3.terminate id region g
          | none => d3
        else d3.recirculate id region

/-- CIPHER_OP_COMPLETE; a TLS record by `tls`. -/
def Dev.cipherComplete (d : Dev) (core : Nat) (tls : Nat → CipOp → Dev → Dev) : Dev :=
  match d.cip.cores.look? core with
  | none => d
  | some o =>
    if !d.mayLeave o then d
    else
      match o.subject, o.chain with
      | .tx id, _ => d.doneTx core id o
      | .rx id, _ => d.doneRx core id o
      | .espOut id, some ch => d.doneEspOut core id o ch
      | .espIn id, some ch => d.doneEspIn core id o ch
      | .tls r, _ => tls r o d
      | _, none => d

/-- The outcome of a buffer request of the engine: the output chain, or the frame is dropped and counted (R242). -/
def Dev.cipherBuffers (d : Dev) (core : Nat) (chain : Option (List Nat)) : Dev :=
  match d.cip.cores.look? core, chain with
  | some o, some ch => d.setCip fun c => { c with cores := c.cores.put core { o with chain := some ch } }
  | some o, none => ((d.freeCore core 0).cipRefused).dropSubject o.subject (Config.dropReason 11)
  | none, some ch => d.freeShare ch 97
  | none, none => d

/-- A core's generator is reseeded every 2^20 blocks with 32 bytes of the DRBG (R187); while TRNG_FAIL is 1 it runs on from its last
seed (R445). -/
def Dev.coreReseed (d : Dev) (core : Nat) : Dev :=
  if d.cip.blocks.getD core 0 ≥ 2 ^ 20 && !d.on? Fld.SEC_STAT_TRNG_FAIL then
    let (seed, d1) := d.drawBytes 32
    d1.setCip fun c => { c with blocks := c.blocks.put core (c.blocks.getD core 0 - 2 ^ 20), seeds := c.seeds.put core seed }
  else d

/-! ## Erasing (R203, R204) -/

/-- A slot becomes ERASING; a FREE one has nothing to erase. -/
def Dev.eraseSlot (d : Dev) (k : Nat) : Dev := if (d.slot k).state = 0 then d else d.setSlot k { d.slot k with state := 4 }

/-- Slots whose erases a command waits for. -/
def erasing (a : Accepted) : List Nat :=
  let p := a.params
  if a.opcode = 0x0703 then [bitsOf (le32 p 0) 13 0]
  else if a.opcode = 0x0701 && !(le32 p 0).getLsbD 31 then
    (List.range (bitsOf (le32 p 8) 14 0)).map (bitsOf (le32 p 4) 13 0 + ·)
  else []

/-- Commands whose erases have all ended reply; a slot of the range that was not granted is left as it is (R190). -/
def Dev.eraseReplies (d : Dev) : Dev :=
  d.vcl.cmds.cells.foldl (fun x c =>
    let l := erasing c.2
    if c.2.started && c.2.committed && (c.2.opcode = 0x0703 || c.2.opcode = 0x0701) && l.all fun k => (x.slot k).state ≠ 4 then
      x.replyOk c.1
    else x) d

/-- No operation that started earlier runs on the slot: its record is zeroed and it is FREE (R203). -/
def Dev.keyEraseDone (d : Dev) (k : Nat) : Dev :=
  if (d.slot k).state = 4 && (d.cip.cores.first? fun _ o => o.slot == k).isNone then (d.setSlot k {}).eraseReplies else d

/-- The part of a FUNCTION reset in the cipher engine (R204). -/
def Dev.cipFuncReset (d : Dev) (f : Nat) : Dev :=
  (d.cip.slots.keys.filter fun k => krOwner (d.slot k).record == f && (d.slot k).state != 0).foldl (fun x k => x.eraseSlot k) d

/-- Some slot of the function is still being erased. -/
def Dev.cipDrained (d : Dev) (f : Nat) : Bool :=
  (d.cip.slots.first? fun _ s => s.state == 4 && krOwner s.record == f).isNone

/-! ## Commands (R190) -/

/-- A function holds a slot for KEY_ERASE and KEY_STATE (R189): a virtual function one granted to it that is FREE or holds an ESP or
TLS record with OWNER itself, a physical function a slot granted to nobody, to itself or to a function of its own. That a virtual
function may name a FREE slot of its grant is the model's reading (log entry 46). -/
def Dev.holdsSlot (d : Dev) (f k : Nat) : Bool :=
  match d.cip.grants.look? k with
  | none => decide (f < 4)
  | some g =>
    if f < 4 then g == f || pfOf g == f
    else g == f && ((d.slot k).state == 0 || (decide (3 ≤ krType (d.slot k).record) && krOwner (d.slot k).record == f))

/-- KEY_GRANT: FUNCTION names the grantee (R341). -/
def Dev.keyGrant (d : Dev) (n f : Nat) (p : Bytes) : Dev :=
  let first := bitsOf (le32 p 4) 13 0
  let count := bitsOf (le32 p 8) 14 0
  let ks := (List.range count).map (first + ·)
  let other := ks.any fun k => match d.cip.grants.look? k with
    | some g => g ≠ f
    | none => false
  if first + count > 16384 || other then d.reply n .badParam
  else
    d.needBlock 4 n fun d =>
      if (le32 p 0).getLsbD 31 then
        (d.setCip fun c => { c with grants := ks.foldl (fun t k => t.put k f) c.grants }).replyOk n
      else
        let mine := ks.filter fun k => (d.cip.grants.look? k).isSome
        if mine.any d.startedNow then d.wait n
        else
          let d1 := d.setCip fun c => { c with grants := ks.foldl (fun t k => t.erase k) c.grants }
          ((mine.foldl (fun x k => x.eraseSlot k) d1).commit n).eraseReplies

/-- KEY_WRITE (R188, R189, R202). -/
def Dev.keyWrite (d : Dev) (n f : Nat) (p : Bytes) : Dev :=
  let k := bitsOf (le32 p 0) 13 0
  let r := wordsOf (p.drop 4) 32
  let owner : Bool :=
    match d.cip.grants.look? k with
    | none => decide (f < 4) && krOwner r == f
    | some g => g == f && krOwner r == f && (decide (f < 4) || decide (3 ≤ krType r))
  if !recordOk r then d.reply n .badParam
  else if !owner then d.reply n .denied
  else
    d.needBlock 4 n fun d =>
      if (d.slot k).state = 4 then d.reply n .badState
      else if d.startedNow k then d.wait n
      else ((d.putKey k 1 r).commit n).replyOk n (stampWords d.now)

/-- KEY_ERASE (R203). -/
def Dev.keyErase (d : Dev) (n f : Nat) (p : Bytes) : Dev :=
  let k := bitsOf (le32 p 0) 13 0
  if !d.holdsSlot f k then d.reply n .denied
  else d.needBlock 4 n fun d => if d.startedNow k then d.wait n else ((d.eraseSlot k).commit n).eraseReplies

/-- CIP_KEY_SLOT[k] (R209): OWNER is the grantee while FREE. -/
def Dev.keySlotWord (d : Dev) (k : Nat) : Word :=
  let s := d.slot k
  let owner := if s.state = 0 then d.cip.grants.getD k 0 else krOwner s.record
  toWord (s.state * 2 ^ 29 + (if s.state = 0 then 0 else krType s.record) * 2 ^ 25 + b2n s.thresholdHit * 2 ^ 24 + owner)

/-- KEY_STATE. -/
def Dev.keyState (d : Dev) (n f : Nat) (p : Bytes) : Dev :=
  let k := bitsOf (le32 p 0) 13 0
  let s := d.slot k
  if !d.holdsSlot f k then d.reply n .denied
  else
    d.needBlock 4 n fun d =>
      d.replyOk n [d.keySlotWord k, toWord s.next, toWord (s.next / 2 ^ 32), toWord s.ops, toWord s.tagFails, toWord s.replayDrops]

/-- MACSEC_PORT_SET (R193). -/
def Dev.macsecPortSet (d : Dev) (n : Nat) (p : Bytes) : Dev :=
  let w := le32 p 0
  let port := bitsOf w 4 0
  if port ≥ 18 then d.reply n .badParam
  else
    d.needBlock 4 n fun d =>
      let old := d.rd .CIP_PORT_MACSEC port
      ((d.wr .CIP_PORT_MACSEC port 0 ((w &&& 0xF0000000) ||| (old &&& 0x00003FFF))).setCip fun c =>
        { c with sci := c.sci.put port (le p 4 8) }).replyOk n

/-- MACSEC_TX_SWITCH (R194). Its stamp is one at which no operation starts on the slot it replaces (log entry 46). -/
def Dev.macsecTxSwitch (d : Dev) (n : Nat) (p : Bytes) : Dev :=
  let port := bitsOf (le32 p 0) 4 0
  if port ≥ 18 then d.reply n .badParam
  else
    d.needBlock 4 n fun d =>
      if d.startedNow (d.get Fld.CIP_PORT_MACSEC_TX_SLOT port) then d.wait n
      else ((d.set Fld.CIP_PORT_MACSEC_TX_SLOT port (bitsOf (le32 p 4) 13 0)).commit n).replyOk n (stampWords d.now)

/-- MACSEC_RXSC_SET (R195, R196). -/
def Dev.macsecRxscSet (d : Dev) (n : Nat) (p : Bytes) : Dev :=
  let w := le32 p 0
  let port := bitsOf w 4 0
  let sci := le p 4 8
  let slots := (List.range 4).map fun i => le p (12 + 2 * i) 2
  let l := d.cip.rxsc.getD port []
  let has := l.any fun c => c.sci == sci
  let slotOk (i : Nat) : Bool :=
    let k := slots.getD i 0xFFFF
    k == 0xFFFF || (k < 16384 && krType (d.slot k).record == 2 && krAn (d.slot k).record == i)
  if port ≥ 18 then d.reply n .badParam
  else
    d.needBlock 4 n fun d =>
      if w.getLsbD 31 then
        if has then (d.setCip fun c => { c with rxsc := c.rxsc.putD [] port (l.filter fun x => x.sci != sci) }).replyOk n
        else d.reply n .badParam
      else if !(List.range 4).all slotOk then d.reply n .badParam
      else if !has && l.length ≥ 32 then d.reply n .tableFull
      else
        let c1 : RxSc := { sci := sci, slots := slots.map fun k => if k = 0xFFFF then none else some k }
        (d.setCip fun c => { c with rxsc := c.rxsc.put port ((l.filter fun x => x.sci != sci) ++ [c1]) }).replyOk n

end Sys2Proof.Machine
end

