-- ==== Sys2Proof/Machine/LineOps.lean ====
section
/-!
DEFINITION. What the traffic manager and the ports share: stops (R367, R368), gate lists as functions of time (R222 to R227),
fault injectors (R377 to R380), and precision-time edits at egress (R44 to R48).
-/
namespace Sys2Proof.Machine

/-! ## Stops -/

/-- The transmitter (8), or a priority of it, is stopped (R367, R368). -/
def Dev.stopped (d : Dev) (p prio : Nat) : Bool := (((d.port p).stops.look? prio).map (·.inForce)).getD false

/-- A frame of class `tc` may be selected or started on the port (R361, R367, R368). -/
def Dev.canSend (d : Dev) (p tc : Nat) : Bool := d.linkUp? p && !d.stopped p 8 && !d.stopped p tc

/-- Frames leave a port padded to 60 bytes (R364). -/
def padded (n : Nat) : Nat := max 60 n

/-! ## Gate lists -/

/-- The gates of a port. -/
def Dev.gate (d : Dev) (p : Nat) : GatePort := d.tm.gates.getD p {}

/-- Replaces the gates of a port. -/
def Dev.setGate (d : Dev) (p : Nat) (g : GatePort) : Dev := d.setTm fun t => { t with gates := t.gates.putD {} p g }

/-- GATES of an entry. -/
def GateList.mask (l : GateList) (i : Nat) : Nat := (l.entries.getD i (0, 0, 0)).2.2

/-- OP of an entry. -/
def GateList.op (l : GateList) (i : Nat) : Nat := (l.entries.getD i (0, 0, 0)).2.1

/-- The entry that holds `phase` of a cycle, with the phase at which it ends; the last one lasts until the cycle ends (R222). -/
def entryAt (cycle phase : Nat) : Nat → Nat → List (Nat × Nat × Nat) → Nat × Nat
  | i, _, [] => (i - 1, cycle)
  | i, _, [_] => (i, cycle)
  | i, s, (len, _) :: rest => if phase < s + len then (i, s + len) else entryAt cycle phase (i + 1) (s + len) rest

/-- Where a list stands at `x` ns: cycle number since T, entry, and the ns at which the entry ends. -/
def GateList.pos (l : GateList) (x : Nat) : Int × Nat × Nat :=
  let off : Int := (x : Int) - l.t
  let k := off / (l.cycle : Int)
  let phase := (off % (l.cycle : Int)).toNat
  let (i, e) := entryAt l.cycle phase 0 0 l.entries
  (k, i, x + (e - phase))

/-- A stretch of time over which a port's gates do not change. -/
structure GateSeg where
  gates : Nat
  /-- A list opens them, not the hold before a first list or the absence of a list. -/
  listed : Bool
  /-- ns at which the stretch ends, and at which the list or hold ends. -/
  till : Option Nat
  listEnd : Option Nat
  /-- Gate states of every entry of the list. -/
  all : List Nat
  deriving DecidableEq, Repr

/-- The change of R224 from an old list to a new one: the boundary of the old list from which its last entry is held until T,
if the new CYCLE_EXT allows it. A cycle that begins with the old list itself has no earlier one to extend. -/
def extension (old new : GateList) : Option Nat :=
  let b := old.t + (new.t - old.t) / old.cycle * old.cycle
  if old.t < b && b < new.t && new.t - b < new.ext then some b else none

/-- The moment from which the last entry of the old list is held until T, while a change waits (R224). -/
def GatePort.heldFrom (g : GatePort) : Option Nat := g.pending.bind fun n => g.oper.bind fun o => extension o n

/-- Where the operational list stands at `x` ns: cycle number and entry, with the extension of its last cycle. -/
def GatePort.place (g : GatePort) (l : GateList) (x : Nat) : Int × Nat :=
  match g.heldFrom with
  | some b => if b ≤ x then ((l.pos (b - 1)).1, l.entries.length - 1) else ((l.pos x).1, (l.pos x).2.1)
  | none => ((l.pos x).1, (l.pos x).2.1)

/-- The first SET_AND_HOLD entry of a list that begins after `x`. -/
def GateList.nextHold (l : GateList) : Nat → Nat → Option Nat
  | 0, _ => none
  | fuel + 1, x =>
    let (_, _, e) := l.pos x
    let (_, i, _) := l.pos e
    if l.op i = 1 then some e else l.nextHold fuel e

/-- The ns at which the next SET_AND_HOLD entry after `x` begins: of the operational list while it runs, then of the one that
waits, whose entry 0 begins at T (R224, R229). -/
def GatePort.nextHold (g : GatePort) (x : Nat) : Option Nat :=
  let of (l : GateList) (y : Nat) : Option Nat := l.nextHold (l.entries.length + 1) y
  match g.pending with
  | none => g.oper.bind fun l => of l x
  | some n =>
    if n.t ≤ x then of n x
    else
      match (g.oper.bind fun l => of l x).filter fun e => e < g.heldFrom.getD n.t with
      | some e => some e
      | none => if n.op 0 = 1 then some n.t else of n n.t

/-- The gates of a port at `x` ns, as its lists give them (R222 to R226). -/
def GatePort.at (g : GatePort) (x : Nat) : GateSeg :=
  let inList (l : GateList) (stop : Option Nat) : GateSeg :=
    let (_, i, e) := l.pos x
    GateSeg.mk (l.mask i) true (some (match stop with
      | some s => min e s
      | none => e)) stop (l.entries.map (·.2.2))
  let flat (m : Nat) (listed : Bool) (stop : Option Nat) : GateSeg := GateSeg.mk m listed stop stop [m]
  match g.pending, g.oper with
  | some n, some o =>
    if n.t ≤ x then inList n none
    else
      match extension o n with
      | some b => if b ≤ x then flat (o.mask (o.entries.length - 1)) true (some n.t) else inList o (some b)
      | none => inList o (some n.t)
  | some n, none => if n.t ≤ x then inList n none else flat (g.hold.getD 0xFF) false (some n.t)
  | none, some o => inList o none
  | none, none => flat 0xFF false none

/-- The stretch opens some class of a mask; under `listed` only a list opens one. -/
def GateSeg.opens (s : GateSeg) (listed : Bool) (mask : Nat) : Bool := (s.gates &&& mask) ≠ 0 && (!listed || s.listed)

/-- The first ns from `x` on at which some class of a mask is open (or, for `want` false, none is). -/
def GatePort.next (g : GatePort) (listed : Bool) (mask : Nat) (want : Bool) : Nat → Nat → Option Nat
  | 0, _ => none
  | fuel + 1, x =>
    let s := g.at x
    if s.opens listed mask == want then some x
    else
      let uniform := s.all.all fun m => ((m &&& mask) ≠ 0 && (!listed || s.listed)) != want
      match (if uniform then s.listEnd else s.till) with
      | some y => g.next listed mask want fuel (max y (x + 1))
      | none => none

/-- Enough steps to pass through every entry of both lists. -/
def GatePort.fuel (g : GatePort) : Nat :=
  2 * ((g.oper.map (·.entries.length)).getD 0 + (g.pending.map (·.entries.length)).getD 0) + 8

/-- When the gates of a mask close after `x`, none for never. -/
def GatePort.closeAt (g : GatePort) (mask x : Nat) : Option Nat := g.next false mask false g.fuel x

/-- The first window of a mask that a list opens at or after `x`: opening, and closing, none for never (R251, R397). -/
def GatePort.window (g : GatePort) (mask x : Nat) : Option (Nat × Option Nat) :=
  let start : Option Nat :=
    if x = 0 || !(g.at (x - 1)).opens true mask then some x else g.next true mask false g.fuel x
  (start.bind fun s => g.next true mask true g.fuel s).map fun o => (o, g.next true mask false g.fuel o)

/-- The class is open on the port at `x` ns, and the line time at which its gate closes (R226). -/
def Dev.gateWindow (d : Dev) (p tc x : Nat) : Option (Option Nat) :=
  let g := d.gate p
  if (g.at x).opens false (2 ^ tc) then some ((g.closeAt (2 ^ tc) x).map (· * lineNs)) else none

/-- The port has preemption on, and a class of it is preemptable (R228). -/
def Dev.preemption (d : Dev) (p : Nat) : Bool := p < 16 && d.on? Fld.TMG_PREEMPT_CFG_EN p
def Dev.preemptable (d : Dev) (p tc : Nat) : Bool := d.preemption p && !(d.get Fld.TMG_PREEMPT_CFG_EXPRESS p).testBit tc

/-- The minimum fragment, with its check sequence. -/
def Dev.minFragment (d : Dev) (p : Nat) : Nat := 64 * (1 + d.get Fld.TMG_PREEMPT_CFG_ADD_FRAG p)

/-- R226: `n` frame bytes with FCS, started at line time `s`, fit the class's gate. -/
def Dev.fits (d : Dev) (p tc n s : Nat) : Bool :=
  match d.gateWindow p tc (s / lineNs) with
  | none => false
  | some none => true
  | some (some close) =>
    let frag := d.minFragment p
    decide (s + (8 + n) * d.byteTime p ≤ close) ||
      (d.preemptable p tc && decide (s + (8 + frag) * d.byteTime p ≤ close) && decide (n + 4 ≥ frag + 64))

/-! ## Fault injectors -/

/-- An injector: of a port direction, 2p + TX, or of a function. -/
def Dev.injector (d : Dev) (func : Bool) (n : Nat) : Injector :=
  if func then d.prt.funcInj.getD n {} else d.prt.portInj.getD n {}

/-- Replaces an injector. -/
def Dev.setInjector (d : Dev) (func : Bool) (n : Nat) (x : Injector) : Dev :=
  if func then { d with prt := { d.prt with funcInj := d.prt.funcInj.putD {} n x } }
  else { d with prt := { d.prt with portInj := d.prt.portInj.putD {} n x } }

/-- A word of the injector's settings (R381, R382). -/
def Dev.injWord (d : Dev) (func : Bool) (n w : Nat) : Word :=
  if func then d.rd .PRT_FAULT_FUNC n w else d.rd .PRT_FAULT_PORT n w

/-- Writes a FAULT_INJECT record, with the count of selected frames that the HITS register holds (R380). -/
def Dev.logFault (d : Dev) (func : Bool) (n : Nat) (set tx : Bool) (action : Nat) : Dev :=
  let hits := if func then d.rd .PRT_FAULT_FUNC_HITS n else d.rd .PRT_FAULT_PORT_HITS n
  let idx := if func then n else n / 2
  d.logNow 0x11 (if func then 46 else n / 2) (if func then some n else none)
    (toWord (b2n func * 2 ^ 31 + idx)) (toWord (b2n set * 2 ^ 31 + b2n tx * 4 + action)) hits

/-- An injector sees a frame of a direction, with the stamp that WINDOW uses in ns: the action, if it selects it (R378 to
R380). What the generator of a PROB injector draws from its seed is open (log entry 38). -/
def Dev.inject (d : Dev) (func : Bool) (n : Nat) (tx : Bool) (ns : Nat) : Option Nat × Dev :=
  let w := d.injWord func n 0
  if !w.getLsbD 31 || w.getLsbD 29 != tx then (none, d)
  else
    let k := (d.injWord func n 1).toNat
    let x := d.injector func n
    let start := (d.injWord func n 2).toNat + 2 ^ 32 * (d.injWord func n 3).toNat
    let sel : Bool :=
      match bitsOf w 28 27 with
      | 0 => Config.injectorDraw x.seed x.seen % 2 ^ k == 0
      | 1 => (x.seen + 1) % max 1 k == 0
      | _ => decide (start ≤ ns) && decide (ns < start + k)
    let d1 := d.setInjector func n { x with seen := x.seen + 1 }
    if sel then
      let d2 := if func then d1.bump .PRT_FAULT_FUNC_HITS n else d1.bump .PRT_FAULT_PORT_HITS n
      (some (bitsOf w 26 25), d2.logFault func n false tx (bitsOf w 26 25))
    else (none, d1)

/-- COUNT, and FCS_FIX, of an injector. -/
def Dev.injCount (d : Dev) (func : Bool) (n : Nat) : Nat := bitsOf (d.injWord func n 0) 21 16
def Dev.injFcsFix (d : Dev) (func : Bool) (n : Nat) : Bool := (d.injWord func n 0).getLsbD 24

/-- Inverts bit `i` of a byte string. -/
def flipBit (bs : Bytes) (i : Nat) : Bytes := bs.set (i / 8) (byteAt bs (i / 8) ^^^ BitVec.ofNat 8 (2 ^ (i % 8)))

/-- Chooses `k` different bits out of `n`; which ones, the manual leaves to chance. -/
def Dev.chooseBits (d : Dev) (n : Nat) : Nat → List Nat → List Nat × Dev
  | 0, got => (got, d)
  | k + 1, got =>
    let (r, d1) := d.drawNat
    match ((List.range n).map fun i => (r + i) % n).find? fun i => !got.contains i with
    | some i => d1.chooseBits n k (i :: got)
    | none => (got, d1)

/-- CORRUPT: bits between byte 14 and the end of the payload are inverted (R379). -/
def Dev.corrupt (d : Dev) (func : Bool) (n : Nat) (bs : Bytes) : Bytes × Dev :=
  let (bits, d1) := d.chooseBits (8 * (bs.length - 14)) (clampTo 1 32 (d.injCount func n)) []
  (bits.foldl (fun b i => flipBit b (112 + i)) bs, d1)

/-- An injector holds a frame or copy back (R379). -/
def Dev.holdBack (d : Dev) (func : Bool) (n id : Nat) : Dev :=
  let x := d.injector func n
  d.setInjector func n { x with held := x.held ++ [(id, max 1 (d.injCount func n), d.ref + 1000000)] }

/-- A further frame of the direction has passed: those whose count is reached, and the injector after it. -/
def Dev.passInjector (d : Dev) (func : Bool) (n : Nat) : List Nat × Dev :=
  let x := d.injector func n
  let down := x.held.map fun h => (h.1, h.2.1 - 1, h.2.2)
  ((down.filter fun h => h.2.1 == 0).map (·.1), d.setInjector func n { x with held := down.filter fun h => h.2.1 != 0 })

/-! ## Precision time at egress -/

/-- A UDP checksum after a change of bytes at an even place in its datagram (R46). -/
def udpPatch (c : Nat) (old new : Bytes) : Nat :=
  let s := onesSum (bytesBE 2 (65535 - c) ++ bytesBE 2 (65535 - onesSum old) ++ bytesBE 2 (onesSum new))
  if 65535 - s = 0 then 65535 else 65535 - s

/-- Where the PTP header of a frame or copy lies, with the place of its UDP header (R44). A frame with L4_OFF whose EtherType is
not 0x88F7 is taken as UDP, whatever protocol its L3 header names (DESIGN CHOICE, log entry 43). -/
def ptpHeader (bs : Bytes) (l3 l4 : Nat) : Option (Nat × Option Nat) :=
  if l3 ≥ 2 && be bs (l3 - 2) 2 = 0x88F7 then some (l3, none)
  else if l4 ≠ 0 then some (l4 + 8, some l4) else none

/-- Bytes replaced in a frame, with its UDP checksum brought up to date; a zero checksum stays zero. -/
def ptpWrite (bs : Bytes) (udp : Option Nat) (at_ : Nat) (new : Bytes) : Bytes :=
  let out := overwrite bs at_ new
  match udp with
  | some u =>
    let c := be bs (u + 6) 2
    if c = 0 then out else overwrite out (u + 6) (bytesBE 2 (udpPatch c (slice bs at_ new.length) new))
  | none => out

/-- correctionField raised by `n` units of 2^-16 ns. -/
def addCorrection (bs : Bytes) (udp : Option Nat) (h n : Nat) : Bytes :=
  ptpWrite bs udp (h + 8) (bytesBE 8 ((be bs (h + 8) 8 + n) % 2 ^ 64))

/-- The device never modifies the copy: it is encrypted or encapsulated, or its port's egress MACsec is on (R47). -/
def Dev.ptpUntouched (d : Dev) (p : Nat) (c : Copy) : Bool :=
  lgOn c.lg lgEncrypt || lgOn c.lg lgEncap || c.encap || d.txMacsec p

/-- The bytes in which the event message of a copy is found, with its header's place: the frame as it was before encryption,
encapsulation and MACsec for a copy that goes through one of these, else the copy. -/
def Dev.ptpFind (d : Dev) (p : Nat) (c : Copy) (frameLen : Nat) : Bytes × Option (Nat × Option Nat) :=
  let (bs, l3, l4) :=
    match if d.ptpUntouched p c then d.frame? c.frame else none with
    | some f => (f.bytes, lgGet f.lg lgL3, lgGet f.lg lgL4)
    | none => (c.bytes, copyOffsets c frameLen)
  (bs, ptpHeader bs l3 l4)

/-- What the device does to an event message at egress (R45 to R47): its bytes, or a downgrade to count. -/
def Dev.ptpEdit (d : Dev) (p : Nat) (c : Copy) (frameLen inPort : Nat) (ingress egress : Stamp) : Bytes × Bool :=
  match d.ptpFind p c frameLen with
  | (_, none) => (c.bytes, false)
  | (bs, some (h, udp)) =>
    let ty := (byteAt bs h).toNat % 16
    let two := (byteAt bs (h + 6)).getLsbD 1
    let oneStep := d.on? Fld.MER_PTP_CTRL_ONE_STEP_EN p && ty == 0 && inPort == 24 && !two
    let tc := d.on? Fld.MER_PTP_CTRL_TC_EN p && decide (ty ≤ 3) && decide (inPort < 18)
    if !(oneStep || tc) then (c.bytes, false)
    else if d.ptpUntouched p c then (c.bytes, true)
    else if oneStep then
      let ns := nsOf egress
      let b1 := ptpWrite c.bytes udp (h + 34) (bytesBE 6 (ns / 1000000000) ++ bytesBE 4 (ns % 1000000000))
      (addCorrection b1 udp h (egress % 256 * 256), false)
    else (addCorrection c.bytes udp h ((egress - ingress) * 256), false)

/-- The copy's frame came from a host with a descriptor that asks for its egress stamp (R48, R246). -/
def Dev.stampAsked (d : Dev) (c : Copy) : Bool :=
  c.stampReq || ((((d.frame? c.frame).bind (·.host)).map (·.wantStamp)).getD false)

/-- A PTP_EGRESS record (R48, R55): whether or not its class is selected, but for a host frame whose descriptor has STAMP, which
writes one where the class is selected (R468). In an event frame in which no PTP header is found its fields are read from the
first byte on (DESIGN CHOICE, log entry 43). -/
def Dev.logPtp (d : Dev) (p : Nat) (c : Copy) (frameLen owner : Nat) (ingress egress : Stamp) : Dev :=
  let (bs, at_) := d.ptpFind p c frameLen
  let h := (at_.map (·.1)).getD 0
  d.logAt 0x0F p (some owner) egress
    (toWord (be bs (h + 30) 2 * 2 ^ 16 + (byteAt bs h).toNat % 16 * 2 ^ 8 + p)) (toWord ingress) (toWord (egress - ingress))
    (!d.stampAsked c)

end Sys2Proof.Machine
end

