-- ==== Sys2Proof/Machine/TMOps.lean ====
section
/-!
DEFINITION. The traffic manager (R210 to R234): filters, meters and IEEE 802.1CB, admission to queues, credit shapers, the
resequencer (R50 to R53), the scheduler, launch, gates and preemption, and its commands.
-/
namespace Sys2Proof.Machine

/-! ## Stream filters and meters (R217 to R219) -/

/-- What the policing of a frame decides: it passes with a colour, or it is dropped with a reason. -/
inductive Policed where
  | pass (colour : Nat)
  | drop (reason : Word)
  deriving DecidableEq, Repr

/-- A count modulo 2^32 of a filter or stream. -/
def addCount (n : Nat) : Nat := min (n + 1) 0xFFFFFFFF

/-- A meter with its token counts refilled at a stamp (R219). -/
def Meter.refill (m : Meter) (now : Stamp) : Meter :=
  let dt := now - m.last
  let u := 256 * 8000000
  let cbs := bitsOf m.w2 23 0 * u
  let ebs := bitsOf m.w3 23 0 * u
  let tc := m.tc + m.cir * dt
  let spill := if m.w2.getLsbD 31 then tc - cbs else 0
  { m with tc := min tc cbs, te := min (m.te + m.eir * dt + spill) ebs, last := now }

/-- Colours of R20 as R219 uses them: 0 green, 1 yellow, 2 red. -/
def Meter.colour (m : Meter) (cIn len : Nat) : Nat × Meter :=
  let l := len * 256 * 8000000
  let blind := !m.w2.getLsbD 30
  let (out, m1) : Nat × Meter :=
    if m.w2.getLsbD 27 then (2, m)
    else if (blind || cIn == 0) && decide (l ≤ m.tc) then (0, { m with tc := m.tc - l })
    else if (blind || decide (cIn < 2)) && decide (l ≤ m.te) then (1, { m with te := m.te - l })
    else (2, m)
  (out, if out = 2 && m1.w2.getLsbD 28 then { m1 with w2 := m1.w2 ||| 0x08000000 } else m1)

/-- Step 4 of R217: the frame passes its meter. -/
def Dev.meter (d : Dev) (n cIn len : Nat) : Option Nat × Dev :=
  let m := (d.tm.meters.getD n (Meter.mk 0 0 0 0 0 0 d.now)).refill d.now
  let (out, m1) := m.colour cIn len
  let d1 := d.setTm fun t => { t with meters := t.meters.put n m1 }
  (if out = 2 || (out = 1 && m1.w2.getLsbD 29) then none else some out, d1)

/-- HISTORY and RESET_MS of a stream. -/
def CbStream.history_ (s : CbStream) : Nat := bitsOf s.w0 29 24
def CbStream.resetMs (s : CbStream) : Nat := bitsOf s.w1 31 16

/-- Sequence recovery of a frame with sequence number `seq`: it passes, and the state after it (R221). -/
def CbStream.recover (s : CbStream) (seq : Nat) : Bool × CbStream :=
  let dd := signedOf 16 ((seq + 65536 - s.recov) % 65536)
  let h := s.history_
  if s.takeAny then (true, { s with recov := seq, history := 1, takeAny := false })
  else if dd ≥ h || dd ≤ -(h : Int) then (false, { s with rogue := addCount s.rogue })
  else if dd ≤ 0 then
    if s.history.testBit dd.natAbs then (false, { s with discarded := addCount s.discarded })
    else (true, { s with history := s.history ||| 2 ^ dd.natAbs, outOfOrder := addCount s.outOfOrder })
  else (true, { s with history := (s.history * 2 ^ dd.natAbs + 1) % 2 ^ h, recov := seq })

/-- Replaces an IEEE 802.1CB stream. -/
def Dev.setCb (d : Dev) (n : Nat) (s : CbStream) : Dev := d.setTm fun t => { t with cb := t.cb.put n s }

/-- A copy without its frame's R-TAG (R221). The tag lies before the network header, which ESP leaves as it is; that of an
encapsulated frame lies behind the outer headers, and the copy without it is the one encapsulated without it. -/
def Copy.stripRtag (c : Copy) : Copy :=
  let b := c.bare.getD (if c.encap then c.bytes else untag c.bytes)
  { c with bytes := b, bare := none, lg := lgSet c.lg lgFrameLen b.length }

/-- Applies a change to every copy of a frame. -/
def Dev.updCopies (d : Dev) (frame : Nat) (f : Copy → Copy) : Dev :=
  { d with copies := d.copies.mapVals fun _ c => if c.frame = frame then f c else c }

/-- Step 5 of R217: sequence generation or recovery; false drops the frame. -/
def Dev.cbFrame (d : Dev) (id : Nat) (bs : Bytes) (mode stream : Nat) : Bool × Dev :=
  match d.tm.cb.look? stream with
  | none => (true, d)
  | some s =>
    if !s.w0.getLsbD 31 then (true, d)
    else if mode = 1 then
      (true, (d.setCb stream { s with nextSeq := (s.nextSeq + 1) % 65536 }).updFrame id fun x => { x with rtag := some s.nextSeq })
    else if mode = 2 then
      match rtagAt bs with
      | none => (true, d.setCb stream { s with tagless := addCount s.tagless, lastPass := some d.ref })
      | some i =>
        let (ok, s1) := s.recover (be bs (i + 4) 2)
        if ok then
          (true, ((d.setCb stream { s1 with lastPass := some d.ref }).updCopies id Copy.stripRtag).updFrame id fun x =>
            { x with lg := lgSet x.lg lgFrameLen (x.bytes.length - 6) })
        else (false, d.setCb stream s1)
    else (true, d)

/-- Changes the counts of a filter. -/
def Dev.updFilter (d : Dev) (n : Nat) (f : Filter → Filter) : Dev := d.setTm fun t => { t with filters := t.filters.modify n f }

/-- The policing of a frame (R217), done once before any copy. -/
def Dev.police (d : Dev) (id : Nat) (f : Frame) : Policed × Dev :=
  let s := lgGet f.lg lgStream
  let fn := lgGet f.lg lgFunction
  let colour := lgGet f.lg lgColour
  let len := f.bytes.length
  if s = 0xFFFF then (.pass colour, d)
  else
    match (if s < 8192 then d.tm.filters.look? s else none) with
    | none => (.drop (Config.dropReason 6), d.bump .FNC_ISOLATION_DROP fn)
    | some x =>
      if !x.w0.getLsbD 31 || (bitsOf x.w0 9 0 ≠ fn && !x.w0.getLsbD 30) then
        (.drop (Config.dropReason 6), d.bump .FNC_ISOLATION_DROP fn)
      else
        let d1 := d.updFilter s fun y => { y with matched := addCount y.matched }
        let max_ := bitsOf x.w1 13 0
        if x.blocked then (.drop (Config.dropReason 16), d1.updFilter s fun y => { y with oversize := addCount y.oversize })
        else if max_ ≠ 0 && len > max_ then
          (.drop (Config.dropReason 16),
            d1.updFilter s fun y => { y with oversize := addCount y.oversize, blocked := y.blocked || x.w0.getLsbD 29 })
        else
          let (c, d2) : Option Nat × Dev :=
            if x.w0.getLsbD 28 then d1.meter (bitsOf x.w1 28 16) colour (len + 4) else (some colour, d1)
          match c with
          | none => (.drop (Config.dropReason 17), d2.updFilter s fun y => { y with meterDrops := addCount y.meterDrops })
          | some c =>
            let (ok, d3) := d2.cbFrame id f.bytes (bitsOf x.w0 27 26) (bitsOf x.w0 25 14)
            if ok then (.pass c, d3.updFilter s fun y => { y with passed := addCount y.passed })
            else (.drop (Config.dropReason 18), d3)

/-! ## Queues (R210, R211, R230) -/

/-- Fields of a queue as they act. -/
def Dev.qEnable (d : Dev) (q : Nat) : Bool := d.on? Fld.TMG_QUEUE_CFG_ENABLE q
def Dev.qPort (d : Dev) (q : Nat) : Nat := d.get Fld.TMG_QUEUE_CFG_PORT q
def Dev.qClass (d : Dev) (q : Nat) : Nat := d.get Fld.TMG_QUEUE_CFG_TC q
def Dev.qGroup (d : Dev) (q : Nat) : Nat := d.get Fld.TMG_QUEUE_CFG_GROUP q
def Dev.groupPort (d : Dev) (g : Nat) : Nat := d.get Fld.TMG_GROUP_CFG_PORT g

/-- The copies of a queue, head first. -/
def Dev.queue (d : Dev) (q : Nat) : List Nat := d.tm.queues.getD q []

/-- Replaces the copies of a queue. -/
def Dev.setQueue (d : Dev) (q : Nat) (l : List Nat) : Dev := d.setTm fun t => { t with queues := t.queues.putD [] q l }

/-- Frame bytes of a copy, FRAME_LEN + 4. -/
def Copy.frameBytes (c : Copy) : Nat := c.bytes.length + 4

/-- Depth of a queue in bytes. -/
def Dev.depth (d : Dev) (q : Nat) : Nat := ((d.queue q).map fun id => ((d.copy? id).map (·.frameBytes)).getD 0).foldl (· + ·) 0

/-- TMG_QUEUE_DEPTH as it reads. -/
def Dev.depthWord (d : Dev) (q : Nat) : Word := toWord (min 4095 (d.queue q).length * 2 ^ 20 + ceilDiv (d.depth q) 16 % 2 ^ 20)

/-- The queue that takes a copy to port `p`: lg.QUEUE, or DEF_QUEUE with the copy counted as remapped; none when neither may. -/
def Dev.queueFor (d : Dev) (p : Nat) (lg : List Word) : Option Nat × Dev :=
  let q := lgGet lg lgQueue
  if d.qEnable q && d.qPort q == p && (d.get Fld.TMG_QUEUE_CFG_OWNER q == lgGet lg lgFunction || d.on? Fld.TMG_QUEUE_CFG_SHARED q)
  then (some q, d)
  else
    let d1 := d.bump .TMG_QUEUE_REMAP p
    let df := d.get Fld.TMG_PORT_CFG_DEF_QUEUE p
    if d.qEnable df && d.qPort df == p && d.groupPort (d.qGroup df) == p then (some df, d1) else (none, d1.bump .TMG_DEFQ_DROP p)

/-- LIMIT and YELLOW_LIMIT in bytes. -/
def Dev.qLimit (d : Dev) (q : Nat) : Nat := max 1 (d.get Fld.TMG_QUEUE_LIMIT_LIMIT q) * 256
def Dev.qYellow (d : Dev) (q : Nat) : Nat := d.get Fld.TMG_QUEUE_LIMIT_YELLOW_LIMIT q * 256

/-- A copy to port `p` with its R-TAG (R220). -/
def Copy.addRtag (c : Copy) (rtag : Option Nat) : Copy :=
  match rtag with
  | some seq =>
    let b := insertAt c.bytes c.tagEnd (bytesBE 2 0xF1C1 ++ bytesBE 2 0 ++ bytesBE 2 seq)
    { c with bytes := b, lg := lgSet c.lg lgFrameLen b.length }
  | none => c

/-- The copy of an on-time late-gather frame of a REPEAT context is stored with a share of its chain, and the one stored
before is given up (R254). -/
def Dev.storeCopy (d : Dev) (c : Copy) (q : Nat) : Dev :=
  match (((d.frame? c.frame).bind (·.host)).bind (·.ctx) : Option Nat) with
  | none => d
  | some k =>
    if d.on? Fld.DMA_LG_CTX_POLICY k && d.get Fld.DMA_LG_CTX_PORT k == c.dest && !c.repeated then
      let x := d.dma.ctxs.getD k {}
      let chain := if c.own then c.hdr else ((d.frame? c.frame).map (·.chain)).getD []
      let d1 := (d.freeShare ((x.stored.map (·.2.2.2.1)).getD []) 104).updOwners chain fun l => l ++ [104]
      { d1 with dma := { d1.dma with ctxs := d1.dma.ctxs.put k { x with stored := some (q, c.bytes, c.lg, chain, d.stampAsked c) } } }
    else d

/-- A mirror copy whose destination is full counts as one not made, beside the count of the destination itself (R171). -/
def Dev.mirrorFull (d : Dev) (c : Copy) : Dev := if c.mirror then d.bump .VSW_MIRROR_DROP else d

/-- A copy finds room in a queue: within LIMIT, or YELLOW_LIMIT for a yellow frame (R211). -/
def Dev.queueRoom (d : Dev) (q : Nat) (c : Copy) : Bool :=
  let colour := lgGet c.lg lgColour
  let after := d.depth q + c.frameBytes
  if colour ≥ 2 then false else if colour = 1 then decide (after ≤ d.qYellow q) else decide (after ≤ d.qLimit q)

/-- Admission of a copy to a port (R210, R211, R220). -/
def Dev.admitPort (d : Dev) (id : Nat) (c0 : Copy) (rtag : Option Nat) : Dev :=
  let p := c0.dest
  let c := c0.addRtag rtag
  match d.queueFor p c.lg with
  | (none, d1) => d1.dropCopy id 44 (Config.dropReason 20)
  | (some q, d1) =>
    if rtag.isSome && c.bytes.length > d1.portMaxLen p then (d1.bump .TMG_QUEUE_DROP q).dropCopy id 44 (Config.dropReason 22)
    else if !d1.queueRoom q c then
      let d2 := ((d1.bump .TMG_QUEUE_DROP q).mirrorFull c).setPort p { d1.port p with dropped := true }
      d2.dropCopy id 44 (Config.dropReason 19)
    else
      let d2 := (d1.updCopy id fun _ => { c with stage := .queued q, admitted := d1.ref }).storeCopy c q
      d2.setQueue q (d2.queue q ++ [id])

/-- A copy to a function is handed to the DMA engine, which reads HIF_RSS at this moment (R210, R304). -/
def Dev.handDma (d : Dev) (id : Nat) (c : Copy) : Dev :=
  let n := bitsOf (d.rd .HIF_RSS (64 * (c.dest - 1000) + (c.lg.getD 5 0).toNat % 64)) 5 0
  let d1 := (d.updCopy id fun z => { z with stage := .dma n, admitted := d.ref }).moveCopy id
    (32 + d.qpChan (d.qpBase (c.dest - 1000) + n) true)
  { d1 with dma := { d1.dma with handed := d1.dma.handed ++ [(id, n)] } }

/-- TM_FRAME_ADMIT: the frame is policed once, then each copy that has reached the traffic manager is admitted to a queue or
handed to the DMA engine (R210). Copies of a frame whose owner has been reset are dropped (R315); an unpowered traffic
manager drops what reaches it (R321). -/
def Dev.tmFrameAdmit (d : Dev) (id : Nat) : Dev :=
  match d.frame? id with
  | none => d
  | some f =>
    let ids := (d.copies.cells.filter fun c => c.2.frame == id && c.2.stage == .admitting).map (·.1)
    let dropAll (x : Dev) (r : Word) : Dev := ids.foldl (fun y c => y.dropCopy c 44 r) x
    if ids.isEmpty || d.rising 6 then d
    else if !d.available 6 then dropAll d 0x00040000
    else if d.staleFrame f then dropAll d (d.staleReason f.owner)
    else
      let (res, d1) : Policed × Dev := if f.filtered then (.pass (lgGet f.lg lgColour), d) else d.police id f
      let d2 := d1.updFrame id fun x => { x with filtered := true }
      match res with
      | .drop r => ((d2.copies.cells.filter fun c => c.2.frame == id).map (·.1)).foldl (fun y c => y.dropCopy c 44 r) d2
      | .pass colour =>
        let d3 := (d2.updCopies id fun c => { c with lg := lgSet c.lg lgColour colour }).updFrame id fun x =>
          { x with lg := lgSet x.lg lgColour colour }
        let rtag := (d3.frame? id).bind (·.rtag)
        ids.foldl (fun y c =>
          match y.copy? c with
          | none => y
          | some x => if x.dest < 1000 then y.admitPort c x rtag else y.handDma c x) d3

/-- No frame of a stream has passed for RESET_MS ms (R221). -/
def Dev.cbResetTimeout (d : Dev) (n : Nat) : Dev :=
  match d.tm.cb.look? n with
  | none => d
  | some s =>
    match s.lastPass with
    | some t =>
      if t + s.resetMs * 1000000 ≤ d.ref then d.setCb n { s with takeAny := true, resets := addCount s.resets, lastPass := none } else d
    | none => d

/-! ## Shapers (R215, R216) -/

/-- The shapers that govern a queue: its own and its group's. -/
def Dev.queueShapers (d : Dev) (q : Nat) : List Nat :=
  let own := if d.on? Fld.TMG_QUEUE_SCHED_SHAPED q then [d.get Fld.TMG_QUEUE_SCHED_SHAPER q] else []
  let g := d.qGroup q
  own ++ (if d.on? Fld.TMG_GROUP_CFG_SHAPED g then [d.get Fld.TMG_GROUP_CFG_SHAPER g] else [])

/-- A shaper's state. -/
def Dev.shaper (d : Dev) (n : Nat) : Shaper := d.tm.shapers.getD n {}

/-- Replaces a shaper's state. -/
def Dev.setShaper (d : Dev) (n : Nat) (s : Shaper) : Dev := d.setTm fun t => { t with shapers := t.shapers.put n s }

/-- A shaper is enabled. -/
def Dev.shaperOn (d : Dev) (n : Nat) : Bool := d.on? Fld.TMG_SHAPER_CTRL_ENABLE n

/-- The queue's shapers have credit (R212, R216). -/
def Dev.hasCredit (d : Dev) (q : Nat) : Bool := (d.queueShapers q).all fun n => !d.shaperOn n || decide (0 ≤ (d.shaper n).credit)

/-- IDLE_RATE in Mb/s as it acts on a port. -/
def Dev.idleRate (d : Dev) (n p : Nat) : Nat := min (max 1 (d.get Fld.TMG_SHAPER_RATE_IDLE_RATE n)) (d.portRate p)

/-- TMG_SHAPER_CREDIT as it reads, in 1/256 byte. -/
def Dev.creditWord (d : Dev) (n : Nat) : Word := toWord (unsignedOf 32 (((d.shaper n).credit * 256).tdiv 204800000))

/-- The port of a shaper: that of the queue or the group it is attached to (R215). -/
def Dev.shaperPort (d : Dev) (n : Nat) : Option Nat :=
  match (List.range 16384).find? fun q => d.on? Fld.TMG_QUEUE_SCHED_SHAPED q && d.get Fld.TMG_QUEUE_SCHED_SHAPER q == n with
  | some q => some (d.qPort q)
  | none =>
    ((List.range 2048).find? fun g => d.on? Fld.TMG_GROUP_CFG_SHAPED g && d.get Fld.TMG_GROUP_CFG_SHAPER g == n).map d.groupPort

/-- Whether an attached frame waits, and whether one waits in a class whose gate is open. -/
def Dev.shaperWaits (d : Dev) (n : Nat) : Bool × Bool :=
  let qs := d.tm.queues.keys.filter fun q => (d.queueShapers q).contains n && !(d.queue q).isEmpty
  (!qs.isEmpty, qs.any fun q => ((d.gate (d.qPort q)).at d.nowNs).opens false (2 ^ d.qClass q))

/-- Line time `t` passes over the attached frames of a shaper: the time of frame bytes, the time left, and the frames after it. A
frame that preemption has set aside only has the end of its fragment pass. -/
def shapedTime (aside : Nat → Bool) : List ShapedFrame → Nat → Nat × Nat × List ShapedFrame
  | [], t => (0, t, [])
  | f :: rest, t =>
    if aside f.copy then
      let g := min t f.gap
      let (b, left, l) := shapedTime aside rest (t - g)
      (b, left, { f with gap := f.gap - g } :: l)
    else
      let a := min t f.pre
      let b := min (t - a) f.body
      let g := min (t - a - b) f.gap
      let (b2, left, l) := shapedTime aside rest (t - a - b - g)
      (b + b2, left, if a + b + g = f.pre + f.body + f.gap then l else { f with pre := f.pre - a, body := f.body - b, gap := f.gap - g } :: l)

/-- One cycle of 2 ns of a shaper (R215): the line time of a frame's preamble, bytes and gap, then the wait. A frame set aside by
preemption waits. A shaper that is attached to nothing has no R, so nothing caps its rate (DESIGN CHOICE, log entry 49). -/
def Dev.shaperCycle (d : Dev) (n : Nat) (s : Shaper) : Shaper :=
  let own := d.shaperPort n
  let p := own.getD ((s.frames.head?.bind fun f => (d.copy? f.copy).map (·.dest)).getD 0)
  let away (id : Nat) : Bool := ((d.line p).aside.map (·.1)) == some id
  let (b, left, l) := shapedTime away s.frames (2 * lineNs)
  if !d.shaperOn n then { s with frames := l }
  else
    let (queued, listed) := d.shaperWaits n
    let waits := queued || l.any fun f => away f.copy
    let open_ := listed || l.any fun f => away f.copy && match ((d.copy? f.copy).map (·.stage) : Option CopyStage) with
      | some (.line q _) => ((d.gate p).at d.nowNs).opens false (2 ^ d.qClass q)
      | _ => false
    let rate := if own.isSome then d.idleRate n p else max 1 (d.get Fld.TMG_SHAPER_RATE_IDLE_RATE n)
    let s1 : Shaper := { credit := s.credit - b * (d.portRate p - rate), frames := l }
    let hi := (d.get Fld.TMG_SHAPER_HI_HI_LIMIT n * 204800000 : Int)
    let up := s1.credit + left * rate
    if left = 0 then s1
    else if waits then (if open_ then { s1 with credit := if up > hi then max hi s1.credit else up } else s1)
    else if s1.credit > 0 then { s1 with credit := 0 }
    else { s1 with credit := if up > 0 then 0 else up }

/-- One cycle of every shaper in use. -/
def Dev.shapersCycle (d : Dev) : Dev := d.setTm fun t => { t with shapers := t.shapers.mapVals fun n s => d.shaperCycle n s }

/-- A frame of a queue starts on the line: its shapers fall over the line time of its `len` frame bytes out of `wire` on the line.
One that is not enabled yet follows it too. -/
def Dev.shapersStart (d : Dev) (q p id len wire : Nat) : Dev :=
  (d.queueShapers q).foldl (fun x n =>
    let bt := d.byteTime p
    x.setShaper n { x.shaper n with frames := (x.shaper n).frames ++ [⟨id, 8 * bt, len * bt, (12 + wire - len) * bt⟩] }) d

/-- Changes what the shapers have of a copy. -/
def Dev.reshape (d : Dev) (id : Nat) (f : ShapedFrame → ShapedFrame) : Dev :=
  d.setTm fun t => { t with shapers := t.shapers.mapVals fun _ s =>
    { s with frames := s.frames.map fun x => if x.copy = id then f x else x } }

/-- After a write of TMG_SHAPER_CTRL[n]: ENABLE from 0 to 1 initialises the credit (R216). -/
def Dev.shaperCtrlWritten (d : Dev) (n : Nat) (old : Word) : Dev :=
  if !old.getLsbD 31 && d.shaperOn n then
    d.setShaper n { d.shaper n with
      credit := if d.on? Fld.TMG_SHAPER_CTRL_CREDIT_INIT n then d.get Fld.TMG_SHAPER_HI_HI_LIMIT n * 204800000 else 0 }
  else d

/-! ## The resequencer (R50 to R53) -/

/-- Order of two frames of a slot: descriptor order within one host queue, else ingress stamp, then IN_PORT (R51). -/
def Frame.before (a b : Frame) : Bool :=
  match a.host, b.host with
  | some x, some y => if x.qp = y.qp then x.idx < y.idx else a.stamp < b.stamp || (a.stamp == b.stamp && a.inPort < b.inPort)
  | _, _ => a.stamp < b.stamp || (a.stamp == b.stamp && (a.inPort < b.inPort || (a.inPort == b.inPort && a.seq < b.seq)))


/-- A frame of the same slot with an earlier stamp is still in flight (R51). -/
def Dev.blocked (d : Dev) (id : Nat) (f : Frame) : Bool :=
  f.slot.isSome && (d.frames.first? fun i x => i != id && x.slot == f.slot && x.before f && d.inFlight i x).isSome

/-- A RESEQ record (R55). -/
def Dev.logReseq (d : Dev) (p kind : Nat) (f : Frame) : Dev :=
  d.logNow 0x10 44 (some f.owner) (toWord p) (toWord kind) (toWord (f.slot.getD 0))

/-- MAX_FRAMES, and MAX_WAIT in ns, as they act (R53). -/
def Dev.reseqFrames (d : Dev) (p : Nat) : Nat :=
  let v := d.get Fld.TMG_RESEQ_CTRL_MAX_FRAMES p
  if 1 ≤ v ∧ v ≤ 64 then v else 64
def Dev.reseqWait (d : Dev) (p : Nat) : Nat :=
  let v := d.get Fld.TMG_RESEQ_CTRL_MAX_WAIT p
  100 * (if 1 ≤ v ∧ v ≤ 200 then v else 200)

/-- Frames held at a port, longest first. -/
def Dev.held_ (d : Dev) (p : Nat) : List (Nat × Nat) := (d.tm.held.getD p []).filter fun h => (d.copy? h.1).isSome

/-- Replaces the frames held at a port. -/
def Dev.setHeld (d : Dev) (p : Nat) (l : List (Nat × Nat)) : Dev := d.setTm fun t => { t with held := t.held.putD [] p l }

/-- A held copy is released under R52. -/
def Dev.reseqRelease (d : Dev) (p id kind : Nat) : Dev :=
  let d1 := (d.setHeld p ((d.held_ p).filter fun h => h.1 != id)).updCopy id fun c => { c with reseqDone := true }
  let d2 := d1.bump (if kind = 1 then .TMG_RESEQ_TIMEOUT else .TMG_RESEQ_FULL) p
  match (d.copy? id).bind fun c => d.frame? c.frame with
  | some f => d2.logReseq p kind f
  | none => d2

/-- A held frame reaches MAX_WAIT (R52). A frame whose predecessors have gone and which waits for its gate alone is still a held
one: it counts in TMG_RESEQ_TIMEOUT and against MAX_FRAMES (DESIGN CHOICE, log entry 43). -/
def Dev.reseqTimeout (d : Dev) (p : Nat) : Dev :=
  match (d.held_ p).find? fun h => h.2 ≤ d.ref with
  | some (id, _) => d.reseqRelease p id 1
  | none => d

/-- A selected head: it goes on, or it is held and the selection continues (R51, R52). -/
def Dev.reseqCheck (d : Dev) (p id : Nat) (c : Copy) : Bool × Dev :=
  match (if c.mirror then none else d.frame? c.frame) with
  | none => (true, d)
  | some f =>
    let key := 65536 * p + f.slot.getD 0
    let late : Bool := f.slot.isSome &&
      ((d.tm.left.look? key).map fun l => f.stamp < l.1 || (f.stamp == l.1 && decide (f.inPort < l.2))).getD false
    let on_ := d.on? Fld.TMG_RESEQ_CTRL_ENABLE p
    let isHeld := (d.held_ p).any fun h => h.1 == id
    let go (x : Dev) : Bool × Dev := (true, x.setHeld p ((x.held_ p).filter fun h => h.1 != id))
    if late && on_ && !c.repeated then go ((d.bump .TMG_RESEQ_LATE p).logReseq p 3 f)
    else if c.reseqDone || c.repeated || (!on_ && !isHeld) || !d.blocked c.frame f then go d
    else if isHeld then (false, d)
    else
      let d1 :=
        if (d.held_ p).length ≥ d.reseqFrames p then
          match d.held_ p with
          | (old, _) :: _ => d.reseqRelease p old 2
          | [] => d
        else d
      (false, d1.setHeld p (d1.held_ p ++ [(id, d.ref + d.reseqWait p)]))

/-- The frame has left a port (R52). -/
def Dev.markLeft (d : Dev) (p : Nat) (f : Frame) : Dev :=
  match f.slot with
  | none => d
  | some s =>
    let key := 65536 * p + s
    match d.tm.left.look? key with
    | some l => if l.1 < f.stamp || (l.1 == f.stamp && l.2 < f.inPort) then d.setTm fun t => { t with left := t.left.put key (f.stamp, f.inPort) } else d
    | none => d.setTm fun t => { t with left := t.left.put key (f.stamp, f.inPort) }

/-! ## The scheduler (R212, R213) -/

/-- Bytes that egress MACsec adds to a copy (R194). -/
def Dev.macsecApplies (d : Dev) (p : Nat) (c : Copy) : Bool :=
  d.txMacsec p && !(d.on? Fld.CIP_PORT_MACSEC_EXEMPT_EAPOL p && be c.bytes 12 2 == 0x888E)
def Dev.macsecGrowth (d : Dev) (p : Nat) (c : Copy) : Nat :=
  if d.macsecApplies p c then
    (if (krWord (d.slot (d.get Fld.CIP_PORT_MACSEC_TX_SLOT p)).record 7).getLsbD 31 then 32 else 24)
  else 0

/-- The charged length of R213; W of R212 is 20 bytes more. -/
def Dev.charged (d : Dev) (p : Nat) (c : Copy) : Nat := c.frameBytes + d.macsecGrowth p c

/-- lead in line units (R212, R234). -/
def Dev.lead (d : Dev) (p : Nat) : Nat := 8 * lineNs * min 250 (d.get Fld.TMG_PORT_CFG_TX_LEAD p)

/-- When the line is planned to be free for a class: express classes after express frames only (R212). -/
def Dev.planFree (d : Dev) (p tc : Nat) : Nat :=
  if d.preemption p && !d.preemptable p tc then (d.line p).tFreeX else (d.line p).tFree

/-- The head of a queue. -/
def Dev.head (d : Dev) (q : Nat) : Option (Nat × Copy) := ((d.queue q).head?).bind fun id => (d.copy? id).map fun c => (id, c)

/-- The head is held by the resequencer (R51). -/
def Dev.headHeld (d : Dev) (p id : Nat) (c : Copy) : Bool :=
  !c.reseqDone && (d.held_ p).any (fun h => h.1 == id) && ((d.frame? c.frame).map (d.blocked c.frame)).getD false

/-- A queue of class `tc` is eligible on port `p` and its head fits at `s` (R212, R226, R234). -/
def Dev.queueEligible (d : Dev) (p tc s q : Nat) : Bool :=
  d.qEnable q && d.qPort q == p && d.qClass q == tc && d.groupPort (d.qGroup q) == p && d.hasCredit q &&
    (match d.head q with
     | some (id, c) => !d.headHeld p id c && d.fits p tc (d.charged p c) s
     | none => false)

/-- A round of deficit weighted round robin: a member reached without enough deficit gains its quantum, and the first whose
deficit covers its head is chosen (R213). -/
def dwrrRound (weight need : Nat → Nat) : List Nat → Tbl Nat → Option Nat × Tbl Nat
  | [], t => (none, t)
  | m :: rest, t =>
    let t1 := if t.getD m 0 < need m then t.put m (t.getD m 0 + max 1 (weight m) * 256) else t
    if need m ≤ t1.getD m 0 then (some m, t1) else dwrrRound weight need rest t1

/-- Rounds until one chooses. -/
def dwrrRounds (weight need : Nat → Nat) (l : List Nat) : Nat → Tbl Nat → Option (Nat × Tbl Nat)
  | 0, _ => none
  | fuel + 1, t =>
    match dwrrRound weight need l t with
    | (some m, t1) => some (m, t1)
    | (none, t1) => dwrrRounds weight need l fuel t1

/-- dwrr_next of R213: the member served last goes on while its deficit covers its head; then the round goes on behind it. -/
def dwrrNext (members : List Nat) (last : Option Nat) (deficit : Tbl Nat) (weight need : Nat → Nat) : Option (Nat × Tbl Nat) :=
  let start : Nat := match last with
    | some m => if members.contains m && decide (need m ≤ deficit.getD m 0) then m else m + 1
    | none => 0
  let order := members.filter (start ≤ ·) ++ members.filter (· < start)
  dwrrRounds weight need order 64 deficit

/-- The scheduler's choice in a class at planned start `s`: group, queue, and the deficits after it. -/
def Dev.pick (d : Dev) (p tc s : Nat) : Option (Nat × Nat × Tbl Nat × Tbl Nat) :=
  let qs := d.tm.queues.keys.filter (d.queueEligible p tc s)
  let groups := (qs.map d.qGroup).eraseDups
  let needQ (q : Nat) : Nat := ((d.head q).map fun h => d.charged p h.2).getD 0
  let pickQ (g : Nat) : Option (Nat × Tbl Nat) :=
    dwrrNext (qs.filter fun q => d.qGroup q == g) (d.tm.qLast.look? (8 * g + tc)) d.tm.qDef
      (fun q => d.get Fld.TMG_QUEUE_SCHED_WEIGHT q) needQ
  let needG (k : Nat) : Nat := ((pickQ (k / 8)).map fun r => needQ r.1).getD 0
  let keys := groups.mergeSort.map (8 * · + tc)
  (dwrrNext keys ((d.tm.gLast.look? (8 * p + tc)).map (8 * · + tc)) d.tm.gDef (fun k => d.get Fld.TMG_GROUP_CFG_WEIGHT (k / 8)) needG).bind
    fun r => (pickQ (r.1 / 8)).map fun x => (r.1 / 8, x.1, r.2, x.2)

/-- Copies leave a queue other than by release; a queue or group that this empties loses its deficit (R213). -/
def Dev.emptied (d : Dev) (q : Nat) : Dev :=
  let g := d.qGroup q
  let tc := d.qClass q
  if !(d.queue q).isEmpty then d
  else
    d.setTm fun t => { t with qDef := t.qDef.erase q,
                              gDef := if (t.queues.keys.find? fun x => d.qGroup x == g && d.qClass x == tc).isNone
                                      then t.gDef.erase (8 * g + tc) else t.gDef }

/-- Takes a copy out of its queue. -/
def Dev.unqueue (d : Dev) (q id : Nat) : Dev := (d.setQueue q ((d.queue q).filter (· ≠ id))).emptied q

/-- The charged length is paid from a deficit. -/
def payDeficit (t : Tbl Nat) (k n : Nat) : Tbl Nat := t.putD 0 k (t.getD k 0 - n)

/-- The head of queue `q` is released with planned start `s` (R212 to R214, R230). -/
def Dev.release (d : Dev) (p tc s g q id : Nat) (c : Copy) (gDef qDef : Tbl Nat) : Dev :=
  let n := d.charged p c
  let d1 := d.setQueue q ((d.queue q).drop 1)
  let ends := s + (n + 20) * d.byteTime p
  let l := d1.line p
  let express := d.preemption p && !d.preemptable p tc
  let paid := (d1.setTm fun t => { t with gDef := payDeficit gDef (8 * g + tc) n, qDef := payDeficit qDef q n,
                                          gLast := t.gLast.put (8 * p + tc) g, qLast := t.qLast.put (8 * g + tc) q }).emptied q
  let d2 := paid.setLine p
    { l with tFree := if express then max l.tFree ends else ends, tFreeX := if express then ends else l.tFreeX }
  let delay := min (d.ref - c.admitted) 0xFFFFFFFF
  let d3 := if (d2.rd .TMG_QUEUE_DELAY_MAX q).toNat < delay then d2.wr .TMG_QUEUE_DELAY_MAX q 0 (toWord delay) else d2
  if d.macsecApplies p c then
    if d3.cipTakes then
      ((d3.updCopy id fun x => { x with stage := .macsec q s }).moveCopy id 97).setCip fun e => { e with txQ := e.txQ ++ [id] }
    else d3.cipRefused.dropCopy id 43 (cipReason d3 11)
  else (d3.updCopy id fun x => { x with stage := .launch q s }).moveCopy id p

/-- The selection from class `tc - 1` down (R212); a head that the resequencer holds is passed over. -/
def Dev.selectFrom (d : Dev) (p now : Nat) : Nat → Nat → Dev
  | 0, _ => d
  | _, 0 => d
  | fuel + 1, tc + 1 =>
    let free := d.planFree p tc
    let at_ := now + d.lead p
    -- a line that became free within the present 2 ns cycle is taken at the moment at which it became free (log entry 1)
    let s := if free ≤ at_ && at_ < free + 2 * lineNs then free else max free at_
    if free > at_ || !d.canSend p tc then d.selectFrom p now fuel tc
    else
      match d.pick p tc s with
      | none => d.selectFrom p now fuel tc
      | some (g, q, gDef, qDef) =>
        match d.head q with
        | none => d.selectFrom p now fuel tc
        | some (id, c) =>
          match d.reseqCheck p id c with
          | (true, d1) => d1.release p tc s g q id c gDef qDef
          | (false, d1) => d1.selectFrom p now fuel (tc + 1)

/-- Copies of a port in the MACsec TX queue (R184). -/
def Dev.txWaiting (d : Dev) (p : Nat) : Nat := (d.cip.txQ.filter fun id => ((d.copy? id).map (·.dest)) == some p).length

/-- SCHEDULER_SELECT (R212). -/
def Dev.schedulerSelect (d : Dev) (p : Nat) : Dev :=
  if p < 18 && d.available 6 && d.on? Fld.TMG_CTRL_ENABLE && d.txWaiting p < 32 then
    d.selectFrom p d.nowLine (8 + d.tm.queues.size + 1) 8
  else d

/-- A traffic manager visit discards a frame that is too old (R22). -/
def Dev.residencyDiscard (d : Dev) (id : Nat) : Dev :=
  match d.copy? id with
  | none => d
  | some c =>
    match c.stage with
    | .queued q =>
      if d.now - d.ingress c.lg ≥ 2 ^ 55 then
        ((d.unqueue q id).bump .TMG_RESIDENCY_DROP c.dest).dropCopy id 44 (Config.dropReason 21)
      else d
    | _ => d

/-- Discards the queued copies that satisfy a condition, counted in their queues (R317). -/
def Dev.discardQueued (d : Dev) (p : Dev → Copy → Bool) (reason : Dev → Copy → Word) : Dev :=
  d.copies.cells.foldl (fun x e =>
    match e.2.stage with
    | .queued q =>
      if p d e.2 then
        ((x.unqueue q e.1).bump .TMG_QUEUE_DROP q).dropCopy e.1 44 (reason d e.2)
      else x
    | _ => x) d

end Sys2Proof.Machine
end

