-- ==== Sys2Proof/Machine/LaunchOps.lean ====
section
/-!
DEFINITION. Launch and the line (R214, R226, R364, R377), preemption (R228, R229), gate events (R222 to R227) and the traffic
manager's commands (R217 to R225).
-/
namespace Sys2Proof.Machine

/-! ## Launch -/

/-- Planned start of a copy at the launch slot. -/
def Copy.launchAt (c : Copy) : Option (Nat × Nat) :=
  match c.stage with
  | .launch q s => some (q, s)
  | _ => none

/-- Copies at the launch slots of a port, by planned start. -/
def Dev.launchSlots (d : Dev) (p : Nat) : List (Nat × Copy × Nat × Nat) :=
  (d.copies.cells.filterMap fun e => if e.2.dest = p then e.2.launchAt.map fun x => (e.1, e.2, x.1, x.2) else none).mergeSort
    fun a b => a.2.2.2 ≤ b.2.2.2

/-- Frame bytes with FCS of a copy as it is on the line. -/
def Copy.wireBytes (c : Copy) : Nat := padded c.bytes.length + 4

/-- Those that the line carries of it, fewer where the store runs empty under it (R373). -/
def Copy.lineBytes (c : Copy) : Nat := (c.cutAt.map (· + 4)).getD c.wireBytes

/-- A copy may be started now: its start falls into the present 2 ns cycle, or it still fits (R214). -/
def Dev.startFits (d : Dev) (p tc s : Nat) (c : Copy) : Bool :=
  decide (s ≤ d.nowLine) && (decide (d.nowLine < s + 2 * lineNs) || d.fits p tc c.frameBytes d.nowLine)

/-- Bytes of the frame on the line that have left, and whether it may be cut here (R228). -/
def Dev.sentNow (d : Dev) (p : Nat) (b : OnLine) : Nat := (d.refLine - b.began) / d.byteTime p - 8
def Dev.canPreempt (d : Dev) (p : Nat) : Bool :=
  match (d.line p).busy with
  | none => false
  | some b =>
    match d.copy? b.copy with
    | none => false
    | some c =>
      match c.stage with
      | .line q _ =>
        let n := d.sentNow p b
        d.preemptable p (d.qClass q) && decide (n + 4 ≥ d.minFragment p) && decide (c.wireBytes ≥ b.before + n + 64)
      | _ => false

/-- Stops that waited for the frame on the line take effect (R367). -/
def Dev.stopsTakeEffect (d : Dev) (p : Nat) : Dev :=
  d.setPort p { d.port p with stops := (d.port p).stops.mapVals fun _ s => if s.inForce then s else { s with inForce := true, since := d.ref } }

/-- The frame on the line is preempted with `n` bytes of its fragment sent (R228, R229): its check sequence and the gap follow. A
stop that waited for it takes effect (R367). -/
def Dev.preemptAt (d : Dev) (p n : Nat) : Dev :=
  match (d.line p).busy with
  | none => d
  | some b =>
    (((d.setLine p { d.line p with busy := none, aside := some (b.copy, b.before + n),
                                   idleAt := b.began + (24 + n) * d.byteTime p }).bump .TMG_PREEMPT_COUNT p).reshape b.copy fun f =>
      { f with gap := 16 * d.byteTime p }).stopsTakeEffect p

/-- The frame on the line is preempted now. -/
def Dev.preempt (d : Dev) (p : Nat) : Dev :=
  match (d.line p).busy with
  | none => d
  | some b => d.preemptAt p (d.sentNow p b)

/-- Preemptable traffic of the port is held: by the entry in force, or HOLD_ADVANCE before one that will hold it (R229). -/
def Dev.holds (d : Dev) (p : Nat) : Bool :=
  let g := d.gate p
  g.holding || (d.preemption p && match g.nextHold d.nowNs with
    | some e => decide (e ≤ d.nowNs + d.get Fld.TMG_PREEMPT_CFG_HOLD_ADVANCE p)
    | none => false)

/-- Bytes of the fragment on the line when it is cut at the last point that R228 allows and that ends by line time `t`. -/
def Dev.cutBy (d : Dev) (p t : Nat) (b : OnLine) (c : Copy) : Option Nat :=
  let n := min (min ((d.refLine + t - d.nowLine - b.began) / d.byteTime p - 12) (c.wireBytes - b.before - 64)) (d.sentNow p b)
  if d.minFragment p ≤ n + 4 then some n else none

/-- The preemptable frame on the line gives it up (R229): when its class's gate has closed before it ended, at the last allowed
point that ended by the close, or else as soon as the standard allows; and while preemptable traffic is held, as soon as the
standard allows. It is looked at with every gate event, hold and launch of the port. -/
def Dev.preemptClosed (d : Dev) (p : Nat) : Dev :=
  match (d.line p).busy with
  | none => d
  | some b =>
    match d.copy? b.copy with
    | none => d
    | some c =>
      match c.stage with
      | .line q _ =>
        let mask := 2 ^ d.qClass q
        let soon := if d.canPreempt p then d.preempt p else d
        if !d.preemptable p (d.qClass q) then d
        else if ((d.gate p).at d.nowNs).opens false mask then (if d.holds p then soon else d)
        else
          match (d.gate p).closeAt mask ((d.nowLine + b.began - d.refLine) / lineNs) with
          | none => soon
          | some e =>
            if b.ends + d.nowLine ≤ d.refLine + e * lineNs then d
            else
              match d.cutBy p (e * lineNs) b c with
              | some n => d.preemptAt p n
              | none => soon
      | _ => d

/-- The line takes a frame of class `tc` now (R214, R228, R229). -/
def Dev.lineTakes (d : Dev) (p tc : Nat) : Bool :=
  let l := d.line p
  let pre := d.preemptable p tc
  !(pre && (l.aside.isSome || d.holds p)) &&
    (match l.busy with
     | none => decide (l.idleAt ≤ d.refLine)
     | some _ => d.preemption p && !pre && l.aside.isNone && d.canPreempt p)

/-- Copies whose counts are reached go back to their launch slots (R379). -/
def Dev.reorderOut (d : Dev) (ids : List Nat) : Dev :=
  ids.foldl (fun x id => x.updCopy id fun c =>
    { c with stage := match c.stage with
                      | .injector false true _ q s => .launch q s
                      | .injector true true _ q s => .launch q s
                      | st => st }) d

/-- A frame has passed the transmit side of a port and of its owner. -/
def Dev.passTx (d : Dev) (p owner : Nat) : Dev :=
  let (a, d1) := d.passInjector false (2 * p + 1)
  let (b, d2) := if (d1.injWord true owner 0).getLsbD 29 then d1.passInjector true owner else ([], d1)
  d2.reorderOut (a ++ b)

/-- Bytes of the cut-through threshold of a queue (R372), none for the whole frame. -/
def Dev.cutThrough (d : Dev) (q : Nat) : Option Nat :=
  let k := d.get Fld.TMG_QUEUE_SCHED_CT_STEP q
  if k ≤ 5 then some (256 * 2 ^ k) else none

/-- A frame longer than its threshold may find the store empty, and after how many bytes; both the manual leaves to rates (R373; log
entry 30). -/
def Dev.underrun (d : Dev) (q : Nat) (c : Copy) (macsec : Bool) : Option Nat × Dev :=
  match d.cutThrough q with
  | some n =>
    if c.bytes.length > n && !macsec then
      let (r, d1) := d.drawNat
      let (k, d2) := d1.drawNat
      (if r % 2 = 1 then some (n + k % (c.bytes.length - n)) else none, d2)
    else (none, d)
  | none => (none, d)

/-- The moment of the reference clock, in line time, at which a copy with planned start `s` goes onto an idle line: its planned start
or the end of the gap where that falls into the present 2 ns cycle, else now (R214, R226). -/
def Dev.beginAt (d : Dev) (p s : Nat) : Nat :=
  max (d.refLine - (if s ≤ d.nowLine ∧ d.nowLine < s + 2 * lineNs then d.nowLine - s else 0)) (min (d.line p).idleAt d.refLine)

/-- The frame goes onto the line: stamps, precision time, completion, records (R39, R44 to R48, R55, R226, R301, R364). One under
which the store runs empty ends there with the complement of its check sequence (R373). -/
def Dev.startFrame (d : Dev) (p id q s : Nat) (c0 : Copy) : Dev :=
  let (cut, d0) := d.underrun q c0 (d.macsecApplies p c0)
  let c : Copy := { c0 with cutAt := cut }
  let began := d0.beginAt p s
  let start := d0.nowLine - (d0.refLine - began)
  let bt := d0.byteTime p
  let phy := bitsOf (d0.rd .PRT_PORT_CFG p) 5 4 != 0
  let stamp := (start + 8 * bt) / 100 + (if phy then d0.get Fld.MER_PHY_DELAY_TX_DELAY p else 0)
  let f? := d0.frame? c.frame
  let owner := d0.ownerOf c
  let frameLen := (f?.map (·.bytes.length)).getD 0
  let inPort := lgGet c.lg lgInPort
  let ingress := d0.ingress c.lg
  let ptp := lgOn c.lg lgPtp
  let edit (x : Copy) : Bytes × Bool := if ptp then d0.ptpEdit p x frameLen inPort ingress stamp else (x.bytes, false)
  let (out, down) := edit c
  let plain := (c.plain.map fun b => (edit { c with bytes := b }).1).getD out
  let d1 := if down then d0.bump .MER_ONESTEP_DOWNGRADE p else d0
  let d2 := if ptp then d1.logPtp p c frameLen owner ingress stamp else d1
  let n := c.lineBytes
  let d4 := d2.setLine p { d2.line p with busy := some ⟨id, began, began + (8 + n) * bt, 0⟩, idleAt := began + (20 + n) * bt }
  let d5 := (d4.updCopy id fun _ => { c with stage := .line q s, bytes := out }).shapersStart q p id (min n c.frameBytes) n
  let d6 := d5.setPort p { d5.port p with bitsTx := (d5.port p).bitsTx + 8 * (n + 20) }
  let d7 := d6.emit (match cut with
    | none => .frame p (padTo out 60) (fcsOf (padTo plain 60)) stamp
    | some k => .frame p (out.take k) (~~~ fcsOf (out.take k)) stamp)
  let d8 := match f? with
    | some f => if c.repeated || c.mirror then d7 else d7.markLeft p f
    | none => d7
  let d9 := d8.logAt 0x02 p (some owner) stamp (toWord (p * 2 ^ 24 + q)) (c.lg.getD 5 0) (toWord (stamp - ingress))
  let d10 := if c.repeated || cut.isSome then d9 else d9.frameComplete c.frame (some stamp) c.bytes.length
  (d10.passTx p owner).copyLeft c

/-- A transmit injector, of the port or of the owner, acts on a copy that it has not dealt with (R377, R379): what goes on, none when
the copy is dropped or held back. Changed bytes carry the FCS of the unchanged ones, unless FCS_FIX has it computed after the change. -/
def Dev.txInjector (d : Dev) (func : Bool) (n p id q s : Nat) (c : Copy) : Option Copy × Dev :=
  if (if func then c.injFunc else c.injPort) then (some c, d)
  else
    let c1 : Copy := if func then { c with injFunc := true } else { c with injPort := true }
    let (a, d1) := d.inject func n true (s / lineNs)
    match a with
    | none => (some c1, d1)
    | some 0 => (none, d1.dropCopy id p (Config.dropReason 24))
    | some 1 =>
      let (b, d2) := d1.corrupt func n c.bytes
      (some { c1 with bytes := b, plain := if d1.injFcsFix func n then none else some (c.plain.getD c.bytes) }, d2)
    | some _ => (none, (d1.holdBack func n id).updCopy id fun _ => { c1 with stage := .injector func true n q s })

/-- The port's injector acts first, then the owner's (R377). -/
def Dev.txInjectors (d : Dev) (p id q s : Nat) (c : Copy) : Option Copy × Dev :=
  match d.txInjector false (2 * p + 1) p id q s c with
  | (none, d1) => (none, d1)
  | (some c1, d1) => d1.txInjector true (d.ownerOf c) p id q s c1

/-- A launch slot's frame is started, unless it is too long (R364) or an injector takes it. -/
def Dev.startCopy (d : Dev) (p id q s : Nat) (c : Copy) : Dev :=
  if c.bytes.length > d.portMaxLen p then (d.bump .PRT_TX_OVERSIZE p).dropCopy id p (Config.dropReason 23)
  else
    match d.txInjectors p id q s c with
    | (none, d1) => d1
    | (some c1, d1) => d1.startFrame p id q s c1

/-- Frames that have come too late for their windows are counted once (R214). -/
def Dev.countLate (d : Dev) (p : Nat) (l : List (Nat × Copy × Nat × Nat)) : Dev :=
  l.foldl (fun x e =>
    let (id, c, q, s) := e
    if decide (s ≤ d.nowLine) && !c.lateCounted && !d.startFits p (d.qClass q) s c then
      (x.bump .TMG_LATE_LAUNCH p).updCopy id fun y => { y with lateCounted := true }
    else x) d

/-- The preempted frame goes on when its class's window admits it (R229). -/
def Dev.resumeAside (d : Dev) (p : Nat) : Dev :=
  match (d.line p).aside with
  | none => d
  | some (id, sent) =>
    match d.copy? id with
    | none => d.setLine p { d.line p with aside := none }
    | some c =>
      match c.stage with
      | .line q _ =>
        let n := c.lineBytes - sent
        if (d.line p).busy.isNone && (d.line p).idleAt ≤ d.refLine && !d.holds p && d.linkUp? p && !d.stopped p 8
            && d.fits p (d.qClass q) n d.nowLine then
          (d.setLine p { d.line p with busy := some ⟨id, d.refLine, d.refLine + (8 + n) * d.byteTime p, sent⟩, aside := none,
                                       idleAt := d.refLine + (20 + n) * d.byteTime p }).reshape id fun f =>
            { f with pre := 8 * d.byteTime p, gap := 12 * d.byteTime p }
        else d
      | _ => d

/-- The first frame of each class's launch slot: a later one of the same class does not pass it (R214). -/
def Dev.launchHeads (d : Dev) (l : List (Nat × Copy × Nat × Nat)) : List (Nat × Copy × Nat × Nat) :=
  l.filter fun e => ((l.find? fun x => d.qClass x.2.2.1 == d.qClass e.2.2.1).map (·.1)) == some e.1

/-- FRAME_LAUNCH (R214): flow control that waits for a gap; then the first class's launch slot whose frame can start sends it, or
preempts the frame on the line, behind whose fragment it starts (R228); otherwise a preempted frame goes on. -/
def Dev.frameLaunch (d : Dev) (p : Nat) : Dev :=
  if p < 18 && d.linkUp? p then
    let d0 := (d.preemptClosed p).fcRetry p
    let l := (d0.launchSlots p).filter fun e => d0.canSend p (d0.qClass e.2.2.1)
    let d1 := d0.countLate p l
    match (d0.launchHeads l).find? fun e => d0.startFits p (d0.qClass e.2.2.1) e.2.2.2 e.2.1 && d0.lineTakes p (d0.qClass e.2.2.1) with
    | some (id, c, q, s) => if (d0.line p).busy.isSome then d1.preempt p else d1.startCopy p id q s c
    | none => d1.resumeAside p
  else d

/-- A frame has ended in underrun: it is counted and dropped, and the threshold is raised (R373). -/
def Dev.endUnderrun (d : Dev) (p id q : Nat) : Dev :=
  let k := d.get Fld.TMG_QUEUE_SCHED_CT_STEP q
  let d1 := d.bump .PRT_TX_UNDERRUN p
  let d2 := if k < 6 then d1.set Fld.TMG_QUEUE_SCHED_CT_STEP q (k + 1) else d1
  d2.dropCopy id p 0x00050001

/-- FRAME_TX_END: the last FCS bit has left; a frame that has been sent whole is counted (R226, R364, R367, R50). -/
def Dev.frameTxEnd (d : Dev) (p : Nat) : Dev :=
  match (d.line p).busy with
  | none => d
  | some b =>
    if b.ends ≤ d.refLine then
      let d1 := ((d.setLine p { d.line p with busy := none }).stopsTakeEffect p).fcRetry p
      match d1.copy? b.copy with
      | none => d1
      | some c =>
        match c.stage with
        | .line q _ => if c.cutAt.isSome then d1.endUnderrun p b.copy q else (d1.bump .PRT_TX_FRAMES p).endCopy b.copy
        | _ => d1.endCopy b.copy
    else d

/-! ## Gate events -/

/-- The entry of the operational list in force at the present ns, with its cycle. -/
def Dev.gateNow (d : Dev) (p : Nat) : Option (GateList × Nat × Nat) :=
  (d.gate p).oper.map fun l =>
    let (k, i) := (d.gate p).place l d.nowNs
    (l, k.toNat, i)

/-- The gates and hold of an entry apply (R222, R229). -/
def GatePort.apply (g : GatePort) (l : GateList) (k i : Nat) : GatePort :=
  { g with entry := i, gates := l.mask i, cycle := k,
           started := (g.started + (k - g.cycle)) % 2 ^ 32,
           holding := if l.op i = 1 then true else if l.op i = 2 then false else g.holding }


/-- GATE_ENTRY_CHANGE: the entry that has come into force applies (R222, R229). At the T of a list that waits, the old one has ended
(R224). -/
def Dev.gateEntryChange (d : Dev) (p : Nat) : Dev :=
  match (if (d.gate p).pending.any fun n => n.t ≤ d.nowNs then none else d.gateNow p) with
  | none => d
  | some (l, k, i) =>
    let g := d.gate p
    if g.entry = i && g.cycle = k then d else (d.setGate p (g.apply l k i)).preemptClosed p

/-- A pending list becomes operational (R223, R224), with its GATE record. A frame whose gate closes at T gives the line up as the
old list has it (R229). -/
def Dev.gateStart (d : Dev) (p : Nat) (n : GateList) (stamp : Stamp) : Dev :=
  let d0 := d.preemptClosed p
  let g := d0.gate p
  let ext := ((g.oper.bind fun o => extension o n)).isSome
  let (k, i, _) := n.pos (max n.t d.nowNs)
  let ended := ((g.oper.map fun o => (g.place o (n.t - 1)).1).getD g.cycle - (g.cycle : Int)).toNat
  let g1 : GatePort :=
    { g with oper := some n, pending := none, hold := none, entry := i, gates := n.mask i, cycle := k.toNat,
             started := (g.started + ended + k.toNat + 1) % 2 ^ 32,
             holding := if n.op i = 1 then true else if n.op i = 2 then false else g.holding }
  let d1 := ((d0.setGate p g1).set Fld.TMG_GATE_STAT_EXTENDED p (b2n ext)).logAt 0x14 44 none stamp (toWord p) (toWord n.n)
    (Config.gateFlags (b2n (n.n > 0) + 2 * b2n ext))
  d1.preemptClosed p

/-- GATE_LIST_START at T. -/
def Dev.gateListStart (d : Dev) (p : Nat) : Dev :=
  match (d.gate p).pending with
  | some n => if n.t ≤ d.nowNs then d.gateStart p n (256 * n.t) else d
  | none => d

/-- A forward step moves a port's list to the position of the new time, or applies a T that it passes (R227). -/
def Dev.gateStep (d : Dev) (p : Nat) : Dev :=
  let skip := d.set Fld.TMG_GATE_STAT_STEP_SKIP p 1
  match (d.gate p).pending.filter fun n => n.t ≤ d.nowNs with
  | some n => skip.gateStart p n d.now
  | none =>
    match d.gateNow p with
    | some (l, k, i) => (skip.setGate p ((d.gate p).apply l k i)).preemptClosed p
    | none => d

/-- Every port's list after a forward step. -/
def Dev.gatesStepped (d : Dev) : Dev := (List.range 18).foldl (fun x p => x.gateStep p) d

/-- PREEMPTABLE_HOLD: preemptable traffic is held, and the frame of it that is on the line gives it up (R229). -/
def Dev.preemptableHold (d : Dev) (p : Nat) : Dev := if d.holds p then d.preemptClosed p else d

/-! ## TMG_GATE_STAT (R233) -/

/-- The four words of TMG_GATE_STAT[p]; OPER_GATES reads 0, its reset value, until a list has been set (log entry 49). -/
def Dev.gateStat (d : Dev) (p : Nat) : List Word :=
  let g := d.gate p
  let w := d.rd .TMG_GATE_STAT p 0
  let gates := if g.oper.isSome then g.gates else g.hold.getD 0
  [setBits (setBits (setBits (setBits w 30 30 (b2n g.pending.isSome)) 29 29 (b2n g.oper.isSome)) 23 16 gates) 9 0
      (if g.oper.isSome then g.entry else 0),
   d.rd .TMG_GATE_STAT p 1, d.rd .TMG_GATE_STAT p 2, toWord g.started]

/-! ## Commands -/

/-- The entries of a GATE_SET. -/
def gateEntries (p : Bytes) (count : Nat) : List (Nat × Nat × Nat) :=
  (List.range count).map fun i =>
    let w := le32 p (0x18 + 8 * i + 4)
    ((le32 p (0x18 + 8 * i)).toNat, bitsOf w 9 8, bitsOf w 7 0)

/-- The list of a GATE_SET is one that R222 accepts. -/
def gateListOk (p : Bytes) (count cycle ext : Nat) (preempt : Bool) : Bool :=
  let es := gateEntries p count
  1 ≤ count && decide (count ≤ 1024) && decide (250 ≤ cycle) && decide (cycle ≤ 4000000000) && decide (ext ≤ cycle)
    && (List.range count).all (fun i => le32 p (0x18 + 8 * i + 4) &&& 0xFFFFFC00 == 0)
    && es.all (fun e => decide (64 ≤ e.1) && decide (e.1 ≤ 4000000000) && e.2.1 != 3 && (preempt || e.2.1 == 0))
    && decide ((es.map (·.1)).foldl (· + ·) 0 ≤ cycle)

/-- The gate list ends: every gate is open, and a running watchdog ends with it (R225, R371). -/
def Dev.gateEnd (d : Dev) (p : Nat) : Dev :=
  let d1 := d.setGate p { started := (d.gate p).started, hold := some 0xFF }
  d1.setPort p { d1.port p with holdoffs := ⟨[]⟩ }

/-- GATE_SET (R222 to R225). The acceptance ends speed step-down (R376): `stepUp` returns a stepped port. -/
def Dev.gateSet (d : Dev) (n : Nat) (a : Accepted) (p : Bytes) (stepUp : Nat → Dev → Dev) : Dev :=
  let w0 := le32 p 0
  let port := bitsOf w0 4 0
  let count := bitsOf (le32 p 4) 26 16
  let base := le p 8 8
  let cycle := (le32 p 16).toNat
  let ext := (le32 p 20).toNat
  if port ≥ 18 || !gateListOk p count cycle ext (d.preemption port) then d.reply n .badParam
  else if !w0.getLsbD 31 then (d.gateEnd port).replyOk n [0, 0, 0, 0, 0]
  else
    let need := ceilDiv (a.stamp + 2000 * 256) 256
    let k := if base ≥ need then 0 else ceilDiv (need - base) cycle
    let t := base + k * cycle
    let l : GateList :=
      { entries := gateEntries p count, base := base, cycle := cycle, ext := ext, init := bitsOf (le32 p 4) 7 0, t := t, n := k }
    let g := d.gate port
    let d1 := d.setGate port { g with pending := some l, hold := if g.oper.isSome then none else some l.init }
    let d2 := d1.set Fld.TMG_GATE_STAT_BASE_ADVANCED port (b2n (k > 0))
    let d3 := (d2.wr .TMG_GATE_STAT port 1 (toWord k)).wr .TMG_GATE_STAT port 2 (toWord (k / 2 ^ 32))
    -- a stop that runs counts from now on against the watchdog (log entry 23)
    let d4 :=
      if g.oper.isSome || g.pending.isSome then d3
      else d3.setPort port { d3.port port with stops := (d3.port port).stops.mapVals fun _ s => { s with since := d.ref } }
    (stepUp port d4).replyOk n (stampWords (256 * t) ++ [toWord k, toWord (k / 2 ^ 32)])

/-- FILTER_SET (R217, R218). -/
def Dev.filterSet (d : Dev) (n : Nat) (p : Bytes) : Dev :=
  let r := wordsOf (p.drop 4) 4
  let w0 := r.getD 0 0
  let w1 := r.getD 1 0
  if bitsOf w0 13 10 ≠ 0 || bitsOf w1 31 29 ≠ 0 || bitsOf w1 15 14 ≠ 0 || r.getD 2 0 ≠ 0 || r.getD 3 0 ≠ 0 || bitsOf w0 27 26 = 3
      || (w0.getLsbD 30 && bitsOf w0 9 0 ≥ 4) then d.reply n .badParam
  else
    let k := bitsOf (le32 p 0) 12 0
    let old := d.tm.filters.getD k { w0 := 0, w1 := 0 }
    (d.setTm fun t => { t with filters := t.filters.put k { old with w0 := w0, w1 := w1, blocked := false } }).replyOk n

/-- FILTER_STATS. -/
def Dev.filterStats (d : Dev) (n : Nat) (p : Bytes) : Dev :=
  let k := bitsOf (le32 p 0) 12 0
  let f := d.tm.filters.getD k { w0 := 0, w1 := 0 }
  let d1 :=
    if (le32 p 0).getLsbD 31 then
      d.updFilter k fun y => { y with matched := 0, passed := 0, oversize := 0, meterDrops := 0, blocked := false }
    else d
  d1.replyOk n [toWord f.matched, toWord f.passed, toWord f.oversize, toWord f.meterDrops, toWord (b2n f.blocked)]

/-- METER_SET (R219). -/
def Dev.meterSet (d : Dev) (n : Nat) (p : Bytes) : Dev :=
  let r := wordsOf (p.drop 4) 4
  let w2 := r.getD 2 0
  let w3 := r.getD 3 0
  if bitsOf w2 26 24 ≠ 0 || bitsOf w3 31 24 ≠ 0 then d.reply n .badParam
  else
    let u := 256 * 8000000
    let m : Meter :=
      { cir := (r.getD 0 0).toNat, eir := (r.getD 1 0).toNat, w2 := w2, w3 := w3, tc := bitsOf w2 23 0 * u, te := bitsOf w3 23 0 * u,
        last := d.now }
    (d.setTm fun t => { t with meters := t.meters.put (bitsOf (le32 p 0) 12 0) m }).replyOk n

/-- CB_SET (R220, R221). -/
def Dev.cbSet (d : Dev) (n : Nat) (p : Bytes) : Dev :=
  let w0 := le32 p 4
  let w1 := le32 p 8
  let h := bitsOf w0 29 24
  if w0.getLsbD 30 || bitsOf w0 23 0 ≠ 0 || bitsOf w1 15 0 ≠ 0 || h < 1 || h > 32 || bitsOf w1 31 16 = 0 then d.reply n .badParam
  else (d.setCb (bitsOf (le32 p 0) 11 0) { w0 := w0, w1 := w1 }).replyOk n

/-- CB_STATS. -/
def Dev.cbStats (d : Dev) (n : Nat) (p : Bytes) : Dev :=
  let k := bitsOf (le32 p 0) 11 0
  let s := d.tm.cb.getD k { w0 := 0, w1 := 0 }
  let d1 :=
    if (le32 p 0).getLsbD 31 && (d.tm.cb.look? k).isSome then
      d.setCb k { s with tagless := 0, rogue := 0, discarded := 0, outOfOrder := 0, resets := 0 }
    else d
  d1.replyOk n [toWord s.tagless, toWord s.rogue, toWord s.discarded, toWord s.outOfOrder, toWord s.resets]

end Sys2Proof.Machine
end

