-- ==== Sys2Proof/Machine/DmaOps.lean ====
section
/-!
DEFINITION. The buffer pool manager (R235 to R243) and the DMA engine (R245 to R258): buffer requests and frees, descriptors,
bursts, late gather, receive placement, and interrupts of queue pairs (R297 to R305).
-/
namespace Sys2Proof.Machine

/-! ## Buffer requests (R239 to R242) -/

/-- RESERVE and MAX of a party in a pool, in buffers. -/
def Dev.partyReserve (d : Dev) (i p : Nat) : Nat := 16 * d.get Fld.BPM_PARTY_CFG_RESERVE (128 * i + p)
def Dev.partyMax (d : Dev) (i p : Nat) : Nat := 16 * d.get Fld.BPM_PARTY_CFG_MAX (128 * i + p)

/-- Buffers of a pool owed to the reserves of other parties. -/
def Dev.owed (d : Dev) (i p : Nat) : Nat :=
  ((List.range 128).map fun x => if x = p then 0 else d.partyReserve i x - d.partyUsed i x).foldl (· + ·) 0

/-- The decision of R240. -/
def Dev.mayGrant (d : Dev) (i p k : Nat) : Bool :=
  let free := d.poolFree i
  if !d.on? Fld.BPM_POOL_CFG_MODE i then decide (k ≤ free)
  else
    (decide (d.partyUsed i p + k ≤ d.partyReserve i p) && decide (k ≤ free)) ||
      ((d.partyMax i p == 0 || decide (d.partyUsed i p + k ≤ d.partyMax i p)) && decide (d.owed i p + k ≤ free))

/-- A request of the pool waits for stamp order. -/
def Dev.poolWaits (d : Dev) (i : Nat) : Bool := (d.bpm.reqs.first? fun _ r => r.waiting && r.pool == i).isSome

/-- The pool decides in arrival order (R241). -/
def Dev.arrivalOrder (d : Dev) (i : Nat) : Bool :=
  !d.on? Fld.MER_CTRL_ENABLE || (decide (d.poolFree i > 16 * d.get Fld.BPM_POOL_CFG_LOW_WATER i) && !d.poolWaits i)

/-- Changes the buffer requests. -/
def Dev.setBufReqs (d : Dev) (f : Tbl BufReq → Tbl BufReq) : Dev := { d with bpm := { d.bpm with reqs := f d.bpm.reqs } }

/-- What a request comes to: undecided, granted with a chain, or POOL_EMPTY. -/
inductive BufRes where
  | waits
  | granted (chain : List Nat)
  | empty
  deriving DecidableEq, Repr

/-- A request is decided in its pool, moving up as R239 states; `now` when it need not wait in the pool it is in. -/
def Dev.decideFrom (d : Dev) (id : Nat) (r : BufReq) : Nat → Nat → Bool → BufRes × Dev
  | 0, _, _ => (.empty, d)
  | fuel + 1, pool, now =>
    if !now && !d.arrivalOrder pool then
      (.waits, d.setBufReqs fun t => t.put id { r with pool := pool, waiting := true, arrived := true })
    else if d.mayGrant pool r.party r.count then
      let (chain, d1) := d.grantChain pool r.party r.count
      (.granted chain, d1)
    else if r.count = 1 && pool < 3 && d.on? Fld.BPM_POOL_CFG_OVERFLOW_UP (pool + 1) && r.len ≤ 65536 then
      d.decideFrom id r fuel (pool + 1) false
    else (.empty, d)

/-- Counts a request that ends in POOL_EMPTY (R242). -/
def Dev.countEmpty (d : Dev) (r : BufReq) : Dev := (d.bump .BPM_PARTY_DROP (128 * r.first + r.party)).bump .BPM_POOL_EMPTY_CNT r.first

/-! ## Registering prefetchable windows -/

/-- DMA_WINDOW_SET (R258, R265). -/
def Dev.dmaWindowSet (d : Dev) (n f : Nat) (p : Bytes) : Dev :=
  let w0 := le32 p 0
  let k := 8 * f + bitsOf w0 2 0
  let base := le p 4 8
  let pages := bitsOf (le32 p 12) 19 0
  if w0.getLsbD 31 && (base % 4096 ≠ 0 || pages = 0) then d.reply n .badParam
  else
    let valid := w0.getLsbD 31
    let d1 := ((d.wr .DMA_PF_WIN k 0 (if valid then toWord base else 0)).wr .DMA_PF_WIN k 1 (if valid then toWord (base / 2 ^ 32) else 0)).wr
      .DMA_PF_WIN k 2 (if valid then toWord (2 ^ 31 + pages) else 0)
    d1.replyOk n

/-! ## Descriptors (R246, R247, R298) -/

/-- A descriptor chain as it is read: elements, the reads it took, or the fault that R247 refuses it for. -/
structure DescRead where
  ok : Bool
  late : Bool
  stamp : Bool
  barrier : Bool
  total : Nat
  txTime : Nat
  elems : List (Nat × Nat)
  /-- Address and length of each descriptor of the chain. -/
  reads : List (Nat × Nat)
  deriving DecidableEq, Repr

/-- One descriptor of a chain at offset `at_` of the bytes read: its data elements, whether its words are in order, where the
next descriptor of the chain lies with CHAIN, and its length. -/
def descPart (bs : Bytes) (at_ : Nat) : List (Nat × Nat) × Bool × Option Nat × Nat :=
  let w0 := le32 bs at_
  let n := bitsOf w0 31 24
  let chained := w0.getLsbD 21
  let el (i : Nat) : Nat × Nat × Bool :=
    let e := at_ + 16 + 16 * i
    (le bs e 8, bitsOf (le32 bs (e + 8)) 23 0, bitsOf (le32 bs (e + 8)) 31 24 == 0 && le32 bs (e + 12) == 0)
  let es := (List.range (min n 32)).map el
  let next := if chained then es.getLast? else none
  let data := if chained then es.dropLast else es
  let ok := bitsOf w0 19 0 == 0 && bitsOf (le32 bs (at_ + 4)) 31 24 == 0 && decide (1 ≤ n) && decide (n ≤ 32) && es.all (·.2.2)
    && next.all fun e => e.1 % 16 == 0 && e.2.1 == 0
  ((data.filter fun e => e.2.1 != 0).map fun e => (e.1, e.2.1), ok, next.map (·.1), 16 + 16 * min n 32)

/-- The descriptors of a chain, the first of them at host address `a`: their data elements, whether all are in order, and the
reads. Behind the bytes of each descriptor stand those that host memory holds at its chain element's ADDR. -/
def descParts (bs : Bytes) : Nat → Nat → Nat → List (Nat × Nat) × Bool × List (Nat × Nat)
  | 0, _, _ => ([], false, [])
  | fuel + 1, at_, a =>
    let (es, ok, next, len) := descPart bs at_
    match (if ok then next else none) with
    | some b =>
      let (rest, ok2, reads) := descParts bs fuel (at_ + len) b
      (es ++ rest, ok2, (a, len) :: reads)
    | none => (es, ok, [(a, len)])

/-- The descriptor at `a` whose chain's bytes are `bs`. -/
def readDesc (bs : Bytes) (a : Nat) : DescRead :=
  let w0 := le32 bs 0
  let total := bitsOf (le32 bs 4) 23 0
  let (es, ok, reads) := descParts bs (bs.length / 16 + 1) 0 a
  { ok := ok && (es.map (·.2)).foldl (· + ·) 0 == total, late := w0.getLsbD 22, stamp := w0.getLsbD 20, barrier := w0.getLsbD 23,
    total := total, txTime := le bs 8 8, elems := es, reads := reads }

/-- The enabled late-gather context that names a queue pair (R247, R251). -/
def Dev.ctxOf (d : Dev) (q : Nat) : Option Nat :=
  (List.range 1024).find? fun k => d.on? Fld.DMA_LG_CTX_ENABLE k && d.get Fld.DMA_LG_CTX_QP k == q

/-- A function fetches and issues: it is not resetting, frozen or in D3hot (R290, R317, R323). -/
def Dev.fetches (d : Dev) (f : Nat) : Bool := d.exists? f && d.fnState f == 0 && !(d.hif.cfg.getD f {}).d3hot

/-- The engine is at work. -/
def Dev.dmaOn (d : Dev) : Bool := d.available 7 && d.available 14

/-- It issues requests of its own (R262). -/
def Dev.dmaIssues (d : Dev) : Bool := d.dmaOn && d.on? Fld.DMA_CTRL_ENABLE

/-- Party of a channel (R237). -/
def chanParty (c : Nat) : Nat := 32 + c

/-! ## Prefetchable windows (R257, R265) -/

/-- Window `i` of a function: base and length in bytes. -/
def Dev.pfWindow (d : Dev) (f i : Nat) : Option (Nat × Nat) :=
  let k := 8 * f + i
  if d.on? Fld.DMA_PF_WIN_VALID k then
    some (d.get Fld.DMA_PF_WIN_BASE_LO k * 4096 + d.get Fld.DMA_PF_WIN_BASE_HI k * 2 ^ 32, 4096 * d.get Fld.DMA_PF_WIN_PAGES k)
  else none

/-- A window that holds a range wholly. -/
def Dev.inWindow (d : Dev) (f addr len : Nat) : Option (Nat × Nat) :=
  ((List.range 8).filterMap fun i => d.pfWindow f i).find? fun w => w.1 ≤ addr && addr + len ≤ w.1 + w.2

/-- Descriptor prefetch after the last valid entry of a ring of `bytes`-byte entries has been read: up to 8 entries beyond it, as
many as the manual leaves open (a free value), each where it lies inside a window (R257). What they hold is not used (R300). -/
def Dev.prefetch (d : Dev) (q f ring size bytes next tail : Nat) : Dev :=
  if !d.on? Fld.DMA_QP_CFG_PREFETCH_EN q || next ≠ tail then d
  else
    let (k, d1) := d.drawNat
    (List.range (min (k % 9) size)).foldl (fun x i =>
      let a := ring + bytes * ((tail + i) % size)
      if (x.inWindow f a bytes).isSome && x.translated f a then x.putReads f [(a, bytes)] else x) d1

/-! ## Fetching descriptors -/

/-- Completes a receive descriptor (R301, R302). -/
def Dev.rxComplete (d : Dev) (q idx : Nat) (ws : List Word) (status : Nat) : Dev :=
  match d.dma.descs.look? (descKey q true idx) with
  | none => d
  | some x =>
    let d1 : Dev := { d with dma := { d.dma with descs := d.dma.descs.erase (descKey q true idx) } }
    if d.gen x.fn = x.gen then d1.postCompletion x.path q true x.fn ws status else d1

/-- Ends a descriptor of either side with a status and no data. -/
def Dev.descFail (d : Dev) (x : Desc) (st : Status) : Dev :=
  if x.rx then d.rxComplete x.qp x.idx [0, 0, 0, toWord (x.tag * 2 ^ 16 + st.code), 0, 0, 0, toWord (x.idx % d.rxSize x.qp)] st.code
  else d.txComplete x.qp x.idx st none false 0

/-- Enters a descriptor. -/
def Dev.putDesc (d : Dev) (x : Desc) : Dev := { d with dma := { d.dma with descs := d.dma.descs.put (descKey x.qp x.rx x.idx) x } }

/-- A side of an Ethernet queue pair may fetch (R262, R296 to R300); after a restart, an entry waits while one of the same count
from before is still in flight. -/
def Dev.mayFetch (d : Dev) (q : Nat) (rx : Bool) (f : Nat) : Bool :=
  let s := d.qp q
  let (fetched, tail, written, head) := if rx then (s.rxFetched, s.rxTail, s.rxcTail, s.rxcHead) else (s.txFetched, s.txTail, s.txcTail, s.txcHead)
  d.dmaIssues && d.fetches f && d.on? Fld.HIF_QP_CTX_ENABLE q && !d.on? Fld.HIF_QP_CTX_MODE q && fetched != tail
    && decide (sub32 written head + d.descCount q rx < if rx then d.rxSize q else d.txSize q)
    && (d.dma.descs.look? (descKey q rx fetched)).isNone

/-- DESCRIPTOR_FETCH: the next entry of a ring is read with its descriptor and checked (R298, R300, R247). `entry` and `desc`
are what host memory holds there, none where the read fails. While a translation of an address is missing nothing is read, and
the fetch is tried again (R288). -/
def Dev.descriptorFetch (d : Dev) (q : Nat) (rx : Bool) (entry desc : Option Bytes) : Dev :=
  match d.qpOwner q with
  | none => d
  | some f =>
    let s := d.qp q
    let fetched := if rx then s.rxFetched else s.txFetched
    let size := if rx then d.rxSize q else d.txSize q
    if !d.mayFetch q rx f then d
    else
      let ring := if rx then d.qpAddr q 8 else d.qpAddr q 4
      let at_ := (ring + 16 * (fetched % size), 16)
      let a := match entry with
        | some e => le e 0 8
        | none => 0
      let good := match entry with
        | some e => bitsOf (le32 e 8) 31 16 == 0 && le32 e 12 == 0 && a % 16 == 0
        | none => false
      let r := (desc.map fun bs => readDesc bs a).getD
        { ok := false, late := false, stamp := false, barrier := false, total := 0, txTime := 0, elems := [], reads := [(a, 16)] }
      let x : Desc :=
        { qp := q, idx := fetched, rx := rx, fn := f, gen := d.gen f, tag := (entry.map fun e => bitsOf (le32 e 8) 15 0).getD 0,
          path := { d.qpPath q rx with desc := some fetched }, late := false, stampReq := false, total := 0, txTime := 0, elems := [],
          fetched := d.now }
      let (r1, d0) := d.reachPages f [at_]
      let (r2, d0) := if r1 = .ready && good then d0.reachPages f r.reads else (r1, d0)
      if r2 = .waits then d0
      else
        let d1 := d0.setQp q (if rx then { s with rxFetched := inc32 fetched } else { s with txFetched := inc32 fetched })
        let d2 := (if r1 = .ready then d1.putReads f [at_] else d1).prefetch q f ring size 16 (inc32 fetched) (if rx then s.rxTail else s.txTail)
        if r1 = .denied || entry.isNone then
          let (w, d3) := (d2.hostError f).drawWord
          (d3.putDesc { x with tag := bitsOf w 15 0 }).descFail { x with tag := bitsOf w 15 0 } .hostErr
        else if !good then (d2.putDesc x).descFail x .badParam
        else
          let d3 := if r2 = .ready then d2.putReads f r.reads else d2
          if r2 = .denied || desc.isNone then ((d3.hostError f).putDesc x).descFail x .hostErr
          else
            let x2 : Desc :=
              { x with path := { x.path with barrier := r.barrier }, late := r.late, stampReq := r.stamp, total := r.total, txTime := r.txTime,
                       elems := r.elems }
            let ctx := if rx then none else d.ctxOf q
            if !r.ok || (rx && (r.late || r.stamp)) || (!rx && (r.total > 9728 || r.late ≠ ctx.isSome)) then (d3.putDesc x2).descFail x2 .badParam
            else if rx || r.late then d3.putDesc x2
            else (d3.putDesc { x2 with got := List.replicate r.total 0 }).askBuffers (chanParty x.path.chan) r.total (.descriptor q fetched)

/-- A host frame enters the device with its data in the packet buffer (R246, R301). -/
def Dev.hostFrame (d : Dev) (x : Desc) (bytes : Bytes) (chain : List Nat) (stamp : Stamp) (ctx : Option Nat) : Dev :=
  let f : Frame :=
    { inPort := 24, stamp := stamp, bytes := bytes, stage := .legend, seq := d.nextFrame, chain := chain, since := d.ref,
      owner := x.fn, gen := x.gen, party := chanParty x.path.chan,
      host := some { qp := x.qp, idx := x.idx, tag := x.tag, wantStamp := x.stampReq, ctx := ctx } }
  let (_, d1) := (d.fill chain bytes).addFrame f
  if x.stampReq then d1 else d1.txComplete x.qp x.idx .ok none ctx.isSome x.total

/-- The oldest transmit descriptor of a queue pair whose frame has not been handed on. -/
def Dev.txOldest (d : Dev) (q : Nat) : Option Desc :=
  let l := (d.dma.descs.cells.map (·.2)).filter fun x => x.qp == q && !x.rx && !x.late && !x.taken
  l.foldl (fun acc x => match acc with
    | some (y : Desc) => if sub32 y.idx x.idx < 2 ^ 31 then some x else acc
    | none => some x) none

/-- Hands frames on in descriptor order, as far as their data has arrived (R51; a channel keeps the descriptor order of a
queue; log entry 31). -/
def Dev.handWhole (d : Dev) (q : Nat) : Nat → Dev
  | 0 => d
  | fuel + 1 =>
    match d.txOldest q with
    | some x =>
      if x.whole then
        let d1 : Dev := { d with dma := { d.dma with descs := d.dma.descs.put (descKey q false x.idx) { x with taken := true } } }
        (d1.hostFrame x x.got x.chain x.fetched none).handWhole q fuel
      else d
    | none => d

/-- Hands on what can be handed on. -/
def Dev.handOn (d : Dev) (q : Nat) : Dev := d.handWhole q (d.dma.descs.size + 1)

/-- All data of a transmit descriptor has arrived. -/
def Dev.gathered (d : Dev) (x : Desc) : Dev :=
  ({ d with dma := { d.dma with descs := d.dma.descs.put (descKey x.qp false x.idx) { x with whole := true } } } : Dev).handOn x.qp

/-- The reads of a descriptor's elements; answers how many bursts. -/
def Dev.readElems (d : Dev) (path : Path) (f : Nat) (who : Nat → BurstFor) : List (Nat × Nat) → Nat → Nat → Nat × Dev
  | [], _, n => (n, d)
  | (a, l) :: rest, pos, n =>
    let (k, d1) := d.queueRead path f a l pos who
    d1.readElems path f who rest (pos + l) (n + k)

/-- A transmit descriptor's buffers are granted, or not (R242). -/
def Dev.descBuffers (d : Dev) (q idx party : Nat) (chain : Option (List Nat)) : Dev :=
  match d.dma.descs.look? (descKey q false idx), chain with
  | none, some ch => d.freeShare ch party
  | none, none => d
  | some x, none => (d.descFail x .poolEmpty).handOn q
  | some x, some ch =>
    let (n, d1) := d.readElems x.path x.fn (fun pos => .gather q idx pos) x.elems 0 0
    let x1 : Desc := { x with chain := ch, reads := n }
    let d2 : Dev := { d1 with dma := { d1.dma with descs := d1.dma.descs.put (descKey q false idx) x1 } }
    if n = 0 then d2.gathered x1 else d2

/-! ## Contexts of late gather -/

/-- A context. -/
def Dev.lgCtx (d : Dev) (k : Nat) : LgCtx := d.dma.ctxs.getD k {}

/-- Replaces a context. -/
def Dev.setLg (d : Dev) (k : Nat) (x : LgCtx) : Dev := { d with dma := { d.dma with ctxs := d.dma.ctxs.putD {} k x } }

/-- Changes one window of a context. -/
def Dev.updWin (d : Dev) (k tOpen : Nat) (f : LgWin → LgWin) : Dev :=
  d.setLg k { d.lgCtx k with wins := (d.lgCtx k).wins.map fun w => if w.tOpen = tOpen then f w else w }

/-! ## Bursts (R245, R248 to R250) -/

/-- Removes a burst. -/
def Dev.dropBurst (d : Dev) (id : Nat) : Dev := { d with dma := { d.dma with bursts := d.dma.bursts.erase id } }

/-- A burst that moves data, on whose account a barrier is kept; completions and write-backs follow the data of theirs. -/
def Burst.moves (b : Burst) : Bool :=
  match b.for_ with
  | .gather _ _ _ => true
  | .late _ _ _ => true
  | .place _ _ => true
  | .storage _ _ _ => true
  | .placed _ _ _ => true
  | _ => false

/-- A late-gather read. -/
def Burst.isLate (b : Burst) : Bool :=
  match b.for_ with
  | .late _ _ _ => true
  | _ => false

/-- The write of a completion. -/
def Burst.completes (b : Burst) : Bool :=
  match b.for_ with
  | .completion _ _ _ => true
  | _ => false

/-- Work on an earlier descriptor of a path's queue than number `i`. -/
def Path.before (p : Path) (s : Nat × Bool) (i : Nat) : Bool :=
  p.queue == some s && match p.desc with
    | some j => j != i && decide (sub32 i j < 2 ^ 31)
    | none => false

/-- A barrier holds the work of a path back: the completion of an earlier descriptor, or of an earlier command entry, of its queue has not
been posted (R249). -/
def Dev.barredPath (d : Dev) (p : Path) : Bool :=
  p.barrier &&
    match p.queue, p.desc with
    | some s, some i =>
      (d.dma.descs.first? fun _ y => y.path.before s i).isSome ||
        (d.sto.conns.first? fun _ c => (c.cmds.first? fun _ k => k.txPath.before s i || k.rxPath.before s i).isSome).isSome ||
        (d.dma.bursts.first? fun _ y => y.completes && y.path.before s i).isSome
    | _, _ => false

/-- A burst of data that a barrier holds back. -/
def Dev.barred (d : Dev) (b : Burst) : Bool := b.moves && d.barredPath b.path

/-- The burst passes its checks: generation (R245, R315), state of its function (R290, R323), channel, barrier. -/
def Dev.burstReady (d : Dev) (b : Burst) : Bool :=
  !b.issued && !b.missed && d.gen b.fn == b.gen && !(d.hif.cfg.getD b.fn {}).d3hot && d.fnState b.fn != 3 &&
    d.on? Fld.DMA_CHAN_CFG_ENABLE b.path.chan && !d.barred b

/-- An earlier burst of its queue goes before it: a channel keeps the order of a queue's work, in each direction (R245, R250). One
that a barrier holds does not go before the work of an earlier descriptor, nor, in storage mode, where completions come in the
order in which commands complete (R279), before that of any other command. -/
def Dev.behind (d : Dev) (id : Nat) (b : Burst) : Bool :=
  match b.path.queue with
  | none => false
  | some s =>
    (d.dma.bursts.first? fun k y => decide (k < id) && y.path.queue == some s && y.write == b.write && !y.issued && !y.isLate
      && d.gen y.fn == y.gen && !(d.barred y && match y.path.desc with
        | some i => b.path.before s i || (d.on? Fld.HIF_QP_CTX_MODE s.1 && b.path.desc != some i)
        | none => false)).isSome

/-- The next burst of each channel in a direction, by channel: the oldest one of a channel that is ready, no burst of a queue
before an earlier one of it. -/
def Dev.nextBursts (d : Dev) (write : Bool) : List (Nat × Nat × Burst) :=
  let l := d.dma.bursts.cells.filter fun e => e.2.write == write && !e.2.issued && !e.2.isLate
  (List.range 64).filterMap fun c =>
    ((l.filter fun e => e.2.path.chan == c).find? fun e => d.burstReady e.2 && !d.behind e.1 e.2).map fun e => (c, e.1, e.2)

/-- The arbitration of R245: a channel passed over 256 times, else the highest priority, round robin within it. -/
def Dev.chooseChan (d : Dev) (write : Bool) (ready : List (Nat × Nat × Burst)) : Option (Nat × Nat × Burst) :=
  match ready.find? fun e => d.dma.passed.getD (2 * e.1 + b2n write) 0 ≥ 256 with
  | some e => some e
  | none =>
    let prio (c : Nat) : Nat := d.get Fld.DMA_CHAN_CFG_PRIO c
    let p := (ready.map fun e => prio e.1).foldl max 0
    let l := ready.filter fun e => prio e.1 == p
    let last := d.dma.lastAt.look? (2 * p + b2n write)
    (roundRobin 64 ((last.map (· + 1)).getD 0) fun c => l.any fun e => e.1 == c).bind fun c => l.find? fun e => e.1 == c

/-- The address range a read requests (R248): whole doublewords, or 64-byte blocks inside a window. -/
def Dev.readRange (d : Dev) (b : Burst) : Nat × Nat :=
  let a := b.addr / 4 * 4
  let e := (b.addr + b.len + 3) / 4 * 4
  match (if b.path.round then d.inWindow b.fn b.addr b.len else none) with
  | some (base, len) =>
    let page := b.addr / 4096 * 4096
    let a2 := max (max (b.addr / 64 * 64) base) page
    let e2 := min (min ((b.addr + b.len + 63) / 64 * 64) (base + len)) (page + 4096)
    (a2, e2 - a2)
  | none => (a, e - a)

/-- Sends the interrupt of a side and starts its holdoff. -/
def Dev.sendIrq (d : Dev) (q f : Nat) (rx : Bool) : Dev :=
  let s := d.qp q
  let ends := d.ref + 1000 * d.get Fld.HIF_QP_CTX_HOLDOFF q
  let d1 := d.setQp q (if d.irqSide q rx then { s with rxHold := ends, rxWait := false } else { s with txHold := ends, txWait := false })
  d1.interrupt f (if rx then d.get Fld.HIF_QP_CTX_RX_VEC q else d.get Fld.HIF_QP_CTX_TX_VEC q)

/-- After a write-back that advances the count: the interrupt, now or at the end of the holdoff (R305). -/
def Dev.signal (d : Dev) (q f : Nat) (rx : Bool) : Dev :=
  let s := d.qp q
  let side := d.irqSide q rx
  if !d.on? Fld.HIF_QP_CTX_IRQ_EN q then d
  else if (if side then s.rxHold else s.txHold) ≤ d.ref then d.sendIrq q f rx
  else d.setQp q (if side then { s with rxWait := true } else { s with txWait := true })

/-- IRQ_HOLDOFF_END (R305); with IRQ_EN cleared meanwhile nothing waits any more. -/
def Dev.irqHoldoffEnd (d : Dev) (q : Nat) (rx : Bool) : Dev :=
  let s := d.qp q
  let side := d.irqSide q rx
  match d.qpOwner q with
  | some f =>
    if (if side then s.rxWait else s.txWait) && (if side then s.rxHold else s.txHold) ≤ d.ref
        && d.fnState f ≠ 1 && d.fnState f ≠ 3 then
      if d.on? Fld.HIF_QP_CTX_IRQ_EN q then d.sendIrq q f rx
      else d.setQp q (if side then { s with rxWait := false } else { s with txWait := false })
    else d
  | none => d

/-- Changes a TLS record. -/
def Dev.updRec (d : Dev) (n : Nat) (f : TlsRec → TlsRec) : Dev := { d with sto := { d.sto with records := d.sto.records.modify n f } }

/-- A zeroing write of a record has been issued: after the last one its last byte is read (R201). -/
def Dev.zeroIssued (d : Dev) (k : Nat) (b : Burst) : Dev :=
  if (d.dma.bursts.first? fun _ y => y.for_ == .zero k).isSome then d
  else (d.queueRead b.path b.fn (b.addr + b.len - 1) 1 0 fun _ => .zeroRead k).2

/-- What follows the issue of a write. -/
def Dev.writeIssued (d : Dev) (b : Burst) : Dev :=
  match b.for_ with
  | .placed _ _ (some r) => d.updRec r fun y => { y with placed := y.placed ++ [(b.addr, b.len)] }
  | .zero k => d.zeroIssued k b
  | .place copy last => if last then d.endCopy copy else d
  | .completion q st _ => d.logAt 0x0A 46 (some b.fn) d.now (toWord b.path.chan) (toWord q) (toWord st)
  | .writeBack q rx => d.signal q b.fn rx
  | _ => d

/-- A burst that has missed in the translation cache waits for its translation (R288). -/
def Dev.askTranslation (d : Dev) (id : Nat) (b : Burst) : Dev :=
  let d1 := d.askPage b.fn (b.addr / 4096)
  { d1 with dma := { d1.dma with bursts := d1.dma.bursts.put id { b with missed := true } } }

/-- Completions and write-backs of the present cycle are noted: a generation change of equal stamp discards them (R60). -/
def Dev.notePosted (d : Dev) (b : Burst) (o : Out) : Dev :=
  let noted := match b.for_ with
    | .completion _ _ _ => true
    | .writeBack _ _ => true
    | _ => false
  let kept := d.dma.posted.filter fun e => e.2.1 == d.ref / 2
  if noted then { d with dma := { d.dma with posted := kept ++ [(b.fn, d.ref / 2, o)] } } else d

/-- One burst goes onto the link. -/
def Dev.issueBurst (d : Dev) (id : Nat) (b : Burst) : Dev :=
  let d1 := d.bump .DMA_CHAN_BURSTS b.path.chan
  if b.write then
    let o : Out := .hostWrite b.fn (d.hostAddr b.fn b.addr) b.data b.path.relaxed
    (((d1.dropBurst id).emit o).notePosted b o).writeIssued b
  else
    let (a, n) := d.readRange b
    ({ d1 with dma := { d1.dma with bursts := d1.dma.bursts.put id { b with issued := true } } } : Dev).emit
      (.hostRead b.fn (d.hostAddr b.fn b.addr / 4096 * 4096 + a % 4096) n)

/-- A late-gather read that is due. -/
def Dev.lateDue (d : Dev) : Option (Nat × Burst) :=
  d.dma.bursts.first? fun _ b => b.isLate && d.burstReady b

/-- A late-gather read that no window of its function holds any more is not issued: it is counted, and its window is denied (R257). -/
def Dev.denyLate (d : Dev) (id : Nat) (b : Burst) : Dev :=
  let d1 := (d.dropBurst id).bump .DMA_SPEC_DENIED
  match b.for_ with
  | .late k o _ => d1.updWin k o fun w => { w with denied := true, reads := w.reads - 1 }
  | _ => d1

/-- DMA_BURST_ISSUE: one burst of a direction is chosen and issued (R245). A burst that misses in the translation cache waits,
and the choice goes on without it. -/
def Dev.burstIssue (d : Dev) (write : Bool) : Nat → Dev
  | 0 => d
  | fuel + 1 =>
    if !d.dmaIssues then d
    else
      match (if write then none else d.lateDue) with
      | some (id, b) =>
        if (d.inWindow b.fn b.addr b.len).isNone then (d.denyLate id b).burstIssue write fuel
        else if d.translated b.fn b.addr then d.issueBurst id b
        else (d.askTranslation id b).burstIssue write fuel
      | none =>
        let ready := d.nextBursts write
        match d.chooseChan write ready with
        | none => d
        | some (c, id, b) =>
          if !d.translated b.fn b.addr then (d.askTranslation id b).burstIssue write fuel
          else
            let others := (ready.map (·.1)).filter (· ≠ c)
            let passed := others.foldl (fun (t : Tbl Nat) x => t.putD 0 (2 * x + b2n write) (t.getD (2 * x + b2n write) 0 + 1)) d.dma.passed
            let prio := d.get Fld.DMA_CHAN_CFG_PRIO c
            let d1 : Dev := { d with dma := { d.dma with passed := passed.putD 0 (2 * c + b2n write) 0,
                                                          lastAt := d.dma.lastAt.put (2 * prio + b2n write) c } }
            d1.issueBurst id b

/-- DMA_BURST_ISSUE. -/
def Dev.dmaBurstIssue (d : Dev) (write : Bool) : Dev := d.burstIssue write (d.dma.bursts.size + 1)

/-- A Translation Request completes: the page with its translation, or a denial, which ends the bursts that wait, and the next
fetch that asked for it, as host errors (R288). `fail` ends one burst. The cache holds 4,096 translations; which one gives way to
another, the manual leaves open. -/
def Dev.translationDone (d : Dev) (f page : Nat) (granted : Option Nat) (fail : Nat → Dev → Dev) : Dev :=
  let k := atcKey f (page * 4096)
  let waiting := d.dma.bursts.cells.filter fun e => e.2.missed && e.2.fn == f && e.2.addr / 4096 == page
  let asked := d.dma.asked.look? k == some false
  if waiting.isEmpty && !asked then d
  else
    let d1 : Dev :=
      { d with dma := { d.dma with bursts := waiting.foldl (fun t e => t.put e.1 { e.2 with missed := false }) d.dma.bursts,
                                   asked := if !asked then d.dma.asked else if granted.isSome then d.dma.asked.erase k else d.dma.asked.put k true } }
    match granted with
    | some p =>
      let (r, d2) := if d1.dma.atc.size ≥ 4096 then d1.drawNat else (0, d1)
      let victim := d2.dma.atc.keys[r % max 1 d2.dma.atc.size]?
      let atc := if d2.dma.atc.size ≥ 4096 then (victim.map fun k => d2.dma.atc.erase k).getD d2.dma.atc else d2.dma.atc
      ({ d2 with dma := { d2.dma with atc := atc.put k p } } : Dev).hostFlush f
    | none => (waiting.foldl (fun x e => fail e.1 x) d1).hostFlush f

/-! ## Late gather (R251 to R256) -/

/-- A window of a context. -/
def Dev.lgWin (d : Dev) (k tOpen : Nat) : Option LgWin := (d.lgCtx k).wins.find? fun w => w.tOpen == tOpen

/-- LEAD in ns. -/
def Dev.lgLead (d : Dev) (k : Nat) : Nat := 10 * clampTo 150 5000 (d.get Fld.DMA_LG_CTX_LEAD k)

/-- D of a window in stamp units (R253). -/
def Dev.lgDeadlineOf (d : Dev) (k tOpen : Nat) : Stamp :=
  256 * (tOpen - 8 * min 250 (d.get Fld.TMG_PORT_CFG_TX_LEAD (d.get Fld.DMA_LG_CTX_PORT k)) - 10 * d.get Fld.DMA_LG_CTX_PROC_BUDGET k)

/-- The window whose read time has just come: one that opens LEAD after the present cycle. -/
def Dev.lgOpening (d : Dev) (k : Nat) : Option Nat :=
  let x := d.nowNs + d.lgLead k
  let g := d.gate (d.get Fld.DMA_LG_CTX_PORT k)
  match g.window (2 ^ d.get Fld.DMA_LG_CTX_TC k) (x - 2) with
  | some (o, _) => if o ≤ x && o > (d.lgCtx k).lastOpen then some o else none
  | none => none

/-- The head descriptor of a context's queue pair: the oldest fetched one that no window has taken. -/
def Dev.lgHead (d : Dev) (q : Nat) : Option Desc :=
  let l := (d.dma.descs.cells.map (·.2)).filter fun x => x.qp == q && !x.rx && x.late && !x.taken
  l.foldl (fun acc x => match acc with
    | some (y : Desc) => if sub32 y.idx x.idx < 2 ^ 31 then some x else acc
    | none => some x) none

/-- LG_READ_TIME (R251, R252). -/
def Dev.lgReadTime (d : Dev) (k : Nat) : Dev :=
  let q := d.get Fld.DMA_LG_CTX_QP k
  match d.qpOwner q, d.lgOpening k with
  | some f, some o =>
    if k ≥ 1024 || !d.on? Fld.DMA_LG_CTX_ENABLE k || !d.dmaOn || !d.fetches f then d
    else
      let w : LgWin :=
        { tOpen := o, deadline := d.lgDeadlineOf k o, idx := none, fn := f, gen := d.gen f, elems := [], tag := 0, total := 0 }
      let c := d.lgCtx k
      let add (e : Dev) (w : LgWin) : Dev := e.setLg k { e.lgCtx k with wins := c.wins ++ [w], lastOpen := o }
      match d.lgHead q with
      | none => add d w
      | some x =>
        if x.txTime > o then add d w
        else
          let inside := x.elems.all fun e => (d.inWindow f e.1 e.2).isSome
          let place := (x.elems.foldl (fun (acc : List (Nat × Nat × Nat) × Nat) e => (acc.1 ++ [(e.1, e.2, acc.2)], acc.2 + e.2)) ([], 0)).1
          let d1 : Dev := { d with dma := { d.dma with descs := d.dma.descs.put (descKey q false x.idx) { x with taken := true } } }
          let (n, d2) := place.foldl (fun (acc : Nat × Dev) e =>
            if (d.inWindow f e.1 e.2.1).isSome then
              let (m, y) := acc.2.queueRead x.path f e.1 e.2.1 e.2.2 fun pos => .late k o pos
              (acc.1 + m, y)
            else (acc.1, acc.2.bumpBy .DMA_SPEC_DENIED 0 (d.readSplit x.path f e.1 e.2.1).length)) (0, d1)
          let w1 : LgWin :=
            { w with idx := some x.idx, elems := x.elems, tag := x.tag, total := x.total, denied := !inside, reads := n,
                     got := List.replicate x.total 0 }
          (add d2 w1).askBuffers (chanParty x.path.chan) x.total (.lateGather k o)
  | _, _ => d

/-- A window whose frame is whole and has its buffers: on time before D, it becomes a host frame (R253). -/
def Dev.lgWhole (d : Dev) (k tOpen : Nat) : Dev :=
  match d.lgWin k tOpen with
  | none => d
  | some w =>
    match w.idx with
    | none => d
    | some i =>
      let q := d.get Fld.DMA_LG_CTX_QP k
      match d.dma.descs.look? (descKey q false i) with
      | none => d
      | some x =>
        if w.reads = 0 && !w.chain.isEmpty && !w.denied && !w.failed && d.now < w.deadline && d.gen w.fn = w.gen then
          let c := d.lgCtx k
          let d1 := (d.setLg k { c with wins := c.wins.filter (·.tOpen != tOpen), repeats := 0 }).bump .DMA_LG_CTX k 5
          d1.hostFrame x w.got w.chain d.now (some k)
        else d

/-- The buffers of a window. -/
def Dev.lgBuffers (d : Dev) (k tOpen party : Nat) (chain : Option (List Nat)) : Dev :=
  match d.lgWin k tOpen, chain with
  | none, some ch => d.freeShare ch party
  | some _, some ch => (d.updWin k tOpen fun w => { w with chain := ch, party := party }).lgWhole k tOpen
  | some _, none => d.updWin k tOpen fun w => { w with noBuffer := true }
  | none, none => d

/-- CYCLES of TMG_GATE_STAT for the cycle of a window (R255). -/
def Dev.cycleAt (d : Dev) (p x : Nat) : Nat :=
  let g := d.gate p
  let of (l : GateList) (y : Nat) : Int := (l.pos y).1
  let n : Int := match g.pending, g.oper with
    | some l, o =>
      if l.t ≤ x then (g.started : Int) + ((o.map fun m => (g.place m (l.t - 1)).1 - g.cycle).getD 0) + of l x + 1
      else (g.started : Int) + ((o.map fun m => (g.place m x).1 - g.cycle).getD 0)
    | none, some m => (g.started : Int) + (of m x - g.cycle)
    | none, none => g.started
  (n % (2 ^ 32 : Int)).toNat

/-- Writes the event-log entry and the record of an outcome (R255, R55), the record with the stamp of the moment at which it is
written (DESIGN CHOICE, log entry 43). -/
def Dev.lgLogWrite (d : Dev) (k : Nat) (e : LgLog) (lateness : Word) : Dev :=
  let w3 := toWord (b2n e.repeated * 2 ^ 31 + e.outcome * 2 ^ 24 + e.qp)
  let f? := d.qpOwner e.qp
  let d1 := d.logNow 0x0B 46 f? (toWord e.qp) w3 lateness
  match f? with
  | some f =>
    if d.on? Fld.DMA_LG_CTX_EVLOG_EN k then
      let size := 2 ^ (d.get Fld.DMA_LG_CTX_EVLOG_SIZE k + 4)
      let base := d.get Fld.DMA_LG_CTX_EVLOG_BASE_LO k * 4096 + d.get Fld.DMA_LG_CTX_EVLOG_BASE_HI k * 2 ^ 32
      let p := d.get Fld.DMA_LG_CTX_EVLOG_WPTR k % size
      let d2 := d1.wr .DMA_LG_CTX k 4 (toWord ((p + 1) % size))
      d2.queueWrite (d.qpPath e.qp false).strict f (base + 32 * p)
        (wordBytes (stampWords e.deadline ++ [w3, lateness, toWord e.cycle, 0, 0])) fun _ => .plain
    else d1
  | none => d1

/-- The outcome of a window at D (R254): its code, and the status its descriptor ends with. -/
def LgWin.outcome (w : LgWin) : Nat × Status :=
  if w.idx.isNone then (2, .late) else if w.denied then (4, .denied) else if w.noBuffer then (3, .poolEmpty) else (1, .late)

/-- The stored copy of a REPEAT context is admitted again, to the queue it was admitted to and under that queue's limits; one
that finds no room is counted there and not sent (R211, R254; log entry 50). -/
def Dev.repeatCopy (d : Dev) (k : Nat) : Bool × Dev :=
  let c := d.lgCtx k
  let limit := d.get Fld.DMA_LG_CTX_REPEAT_LIMIT k
  if !d.on? Fld.DMA_LG_CTX_POLICY k then (false, d)
  else
    match c.stored with
    | none => (false, d)
    | some (q, bytes, lg, chain, stampReq) =>
      let copy : Copy :=
        { frame := d.nextFrame, dest := d.get Fld.DMA_LG_CTX_PORT k, repeated := true, stampReq := stampReq, bytes := bytes, lg := lg, stage := .queued q,
          hdr := chain, own := true, party := 104, admitted := d.ref }
      if limit ≠ 0 && c.repeats ≥ limit then (false, d.setLg k { c with repeats := 0 })
      else if !d.available 6 || !d.qEnable q || d.qPort q ≠ copy.dest || !d.queueRoom q copy then (false, d.bump .TMG_QUEUE_DROP q)
      else
        let d1 : Dev := { d.setLg k { c with repeats := c.repeats + 1 } with nextFrame := d.nextFrame + 1 }
        let (id, d2) := (d1.updOwners chain fun l => l ++ [104]).addCopy copy
        (true, d2.setQueue q (d2.queue q ++ [id]))

/-- A window ends without its frame: reads not yet issued are not made, the completions of the others will be discarded, and its
buffers are freed with the last of these, or now where there are none (R254). Answers how many are outstanding. -/
def Dev.lgCancel (d : Dev) (k : Nat) (w : LgWin) : Nat × Dev :=
  let mine (b : Burst) : Bool := match b.for_ with
    | .late k' o _ => k' == k && o == w.tOpen
    | _ => false
  let out := d.dma.bursts.countP fun _ b => mine b && b.issued
  let bursts : Tbl Burst := (d.dma.bursts.keep fun _ b => !(mine b && !b.issued)).mapVals fun _ b =>
    if mine b then { b with for_ := .cancelled (some (k, w.tOpen)) } else b
  let d1 : Dev := { d with dma := { d.dma with bursts := bursts } }
  let d2 := d1.setLg k { d1.lgCtx k with wins := (d1.lgCtx k).wins.filter (·.tOpen != w.tOpen) }
  (out, if out = 0 then d2.freeShare w.chain w.party else d2)

/-- The completion of a window's descriptor, unless a failed read has completed it (R254, R289). -/
def Dev.lgFail (d : Dev) (k : Nat) (w : LgWin) (st : Status) : Dev :=
  match w.idx with
  | some i => if w.failed then d else d.txComplete (d.get Fld.DMA_LG_CTX_QP k) i st none false 0
  | none => d

/-- A window whose reads are outstanding is remembered until they have completed. -/
def Dev.lgRemember (d : Dev) (k : Nat) (e : LgLog) : Dev :=
  if e.reads = 0 then d else d.setLg k { d.lgCtx k with logs := (d.lgCtx k).logs ++ [e] }

/-- LG_DEADLINE: a window without an on-time frame (R254). Its entry waits for the lateness of reads that are outstanding; where
none is, none arrives after D (R255). -/
def Dev.lgDeadline (d : Dev) (k : Nat) : Dev :=
  match (d.lgCtx k).wins.find? fun w => w.deadline ≤ d.now with
  | none => d
  | some w =>
    let (code, st) := w.outcome
    let (out, d1) := d.lgCancel k w
    let (rep, d2) := (d1.lgFail k w st).repeatCopy k
    let d3 := d2.bump .DMA_LG_CTX k (if code = 2 then 7 else 6)
    let e : LgLog :=
      { tOpen := w.tOpen, deadline := w.deadline, outcome := code, repeated := rep, qp := d.get Fld.DMA_LG_CTX_QP k,
        cycle := d.cycleAt (d.get Fld.DMA_LG_CTX_PORT k) w.tOpen, reads := out, chain := w.chain, party := w.party,
        written := code != 1 || out == 0 }
    (if e.written then d3.lgLogWrite k e 0xFFFFFFFF else d3).lgRemember k e

/-- A window that a forward step skips has no outcome; its descriptor, whose data can no longer be on time, ends LATE (R256;
log entry 50). -/
def Dev.lgSkip (d : Dev) (k : Nat) (w : LgWin) : Dev :=
  let (out, d1) := d.lgCancel k w
  (d1.lgFail k w .late).lgRemember k
    { tOpen := w.tOpen, deadline := w.deadline, outcome := 1, repeated := false, qp := d.get Fld.DMA_LG_CTX_QP k, cycle := 0, reads := out,
      chain := w.chain, party := w.party, written := true }

/-- After a forward step from `old` ns: the windows it has skipped are removed (R256). -/
def Dev.lgStepped (d : Dev) (old : Nat) : Dev :=
  d.dma.ctxs.keys.foldl (fun x k =>
    ((x.lgCtx k).wins.filter fun w => old < w.tOpen && w.tOpen ≤ x.nowNs).foldl (fun y w => y.lgSkip k w) x) d

/-- A context is enabled: every window that opens from now on is to come (R251). -/
def Dev.lgRewind (d : Dev) (k : Nat) : Dev := d.setLg k { d.lgCtx k with lastOpen := 0 }

/-- A cancelled read of a window has completed: with the last one the lateness is known, and the buffers are freed (R254, R255). -/
def Dev.lgArrived (d : Dev) (k tOpen : Nat) : Dev :=
  let c := d.lgCtx k
  match c.logs.find? fun e => e.tOpen == tOpen with
  | none => d
  | some e =>
    if e.reads ≤ 1 then
      let d1 := (d.setLg k { c with logs := c.logs.filter (·.tOpen != tOpen) }).freeShare e.chain e.party
      if e.written then d1 else d1.lgLogWrite k e (toWord ((d.now - e.deadline) / 256))
    else d.setLg k { c with logs := c.logs.map fun x => if x.tOpen = tOpen then { x with reads := x.reads - 1 } else x }

/-- LG_EVLOG_TIMEOUT: D + 100 µs has come (R255). -/
def Dev.lgEvlogTimeout (d : Dev) (k : Nat) : Dev :=
  let c := d.lgCtx k
  match c.logs.find? fun e => !e.written && e.deadline + 100000 * 256 ≤ d.now with
  | none => d
  | some e =>
    (d.setLg k { c with logs := c.logs.map fun x => if x.tOpen = e.tOpen then { x with written := true } else x }).lgLogWrite k e 0xFFFFFFFF

/-! ## Read completions (R248, R289) -/

/-- Cancels the reads of a transmit descriptor. -/
def Dev.cancelGather (d : Dev) (q i : Nat) : Dev :=
  let mine (b : Burst) : Bool := match b.for_ with
    | .gather q' i' _ => q' == q && i' == i
    | _ => false
  let bursts : Tbl Burst := (d.dma.bursts.keep fun _ b => !(mine b && !b.issued)).mapVals fun _ b =>
    if mine b then { b with for_ := .cancelled none } else b
  { d with dma := { d.dma with bursts := bursts } }

/-- DMA_READ_COMPLETION: the data of an issued read arrives; that of a stale or cancelled read is discarded (R248, R315, R317).
`sto` and `zero` take data of the storage engine. -/
def Dev.readCompletion (d : Dev) (id : Nat) (data : Bytes) (sto : Nat → Nat → Nat → Bytes → Dev → Dev)
    (zero : Nat → Dev → Dev) : Dev :=
  match d.dma.bursts.look? id with
  | none => d
  | some b =>
    if b.write || !b.issued then d
    else
      let d1 := d.dropBurst id
      let bytes := (padTo data b.len).take b.len
      let fresh := d.gen b.fn == b.gen
      match b.for_ with
      | .gather q i pos =>
        match d.dma.descs.look? (descKey q false i) with
        | none => d1
        | some x =>
          if !fresh then d1
          else
            let x1 : Desc := { x with got := overwrite x.got pos bytes, reads := x.reads - 1 }
            let d2 : Dev := { d1 with dma := { d1.dma with descs := d1.dma.descs.put (descKey q false i) x1 } }
            if x1.reads = 0 then d2.gathered x1 else d2
      | .late k o pos =>
        if !fresh then d1
        else (d1.updWin k o fun w => { w with got := overwrite w.got pos bytes, reads := w.reads - 1, arrived := some d.now }).lgWhole k o
      | .cancelled (some (k, o)) => d1.lgArrived k o
      | .storage conn pdu pos => if fresh then sto conn pdu pos bytes d1 else d1
      | .zeroRead r => if fresh then zero r d1 else d1
      | _ => d1

/-- A queued completion is to say HOST_ERR instead, of the descriptor that burst `b` worked for (R289, R302). -/
def Dev.spoil (d : Dev) (b : Burst) : Dev :=
  { d with dma := { d.dma with bursts := d.dma.bursts.mapVals fun _ y =>
      match y.for_ with
      | .completion q _ rx =>
        if y.path.queue == b.path.queue && y.path.desc == b.path.desc && !y.issued then
          { y with for_ := .completion q Status.hostErr.code rx,
                   data := List.replicate 12 0 ++ bytesLE 2 Status.hostErr.code ++ slice y.data 14 2 ++ List.replicate 12 0 ++ slice y.data 28 4 }
        else y
      | _ => y } }

/-- Removes the bursts not yet issued that satisfy `p`. -/
def Dev.dropBursts (d : Dev) (p : BurstFor → Bool) : Dev :=
  { d with dma := { d.dma with bursts := d.dma.bursts.keep fun _ b => b.issued || !p b.for_ } }

/-- What a burst is for places bytes of copy `copy`. -/
def BurstFor.ofCmd (conn cid : Nat) : BurstFor → Bool
  | .placed n k _ => n == conn && k == cid
  | _ => false

/-- Writes of a copy. -/
def BurstFor.places (copy : Nat) : BurstFor → Bool
  | .place c _ => c == copy
  | _ => false

/-- A host error ends the item a burst belongs to with HOST_ERR, and no more of its data moves (R289). `sto` ends a PDU of the
storage engine, `cmd` a command, `zero` the reading after zeroing. -/
def Dev.failBurst (d : Dev) (id : Nat) (sto cmd : Nat → Nat → Dev → Dev) (zero : Nat → Dev → Dev) : Dev :=
  match d.dma.bursts.look? id with
  | none => d
  | some b =>
    let d1 := (d.dropBurst id).hostError b.fn
    if d.gen b.fn ≠ b.gen then
      match b.for_ with
      | .cancelled (some (k, o)) => (d.dropBurst id).lgArrived k o
      | _ => d.dropBurst id
    else
      match b.for_ with
      | .gather q i _ =>
        match d.dma.descs.look? (descKey q false i) with
        | none => d1
        | some x => (((d1.cancelGather q i).freeShare x.chain (chanParty x.path.chan)).descFail x .hostErr).handOn q
      | .late k o _ =>
        match d.lgWin k o with
        | none => d1
        | some w => (d1.updWin k o fun w => { w with failed := true, reads := w.reads - 1, arrived := some d.now }).lgFail k w .hostErr
      | .place copy _ => ((d1.dropBursts (BurstFor.places copy)).spoil b).endCopy copy
      | .cancelled (some (k, o)) => d1.lgArrived k o
      | .zeroRead r => zero r d1
      | .storage conn pdu _ => sto conn pdu d1
      | .placed conn cid _ => cmd conn cid (d1.dropBursts (BurstFor.ofCmd conn cid))
      | .zero r => d1.zeroIssued r b
      | _ => d1

/-- HOST_READ_ERROR of a read that has been issued (R289). -/
def Dev.readError (d : Dev) (id : Nat) (sto : Nat → Nat → Dev → Dev) (zero : Nat → Dev → Dev) : Dev :=
  match d.dma.bursts.look? id with
  | none => d
  | some b => if b.write || !b.issued then d else d.failBurst id sto (fun _ _ e => e) zero

/-! ## Receive placement (R304) -/

/-- The head receive descriptor of a queue pair: the oldest fetched one. -/
def Dev.rxHead (d : Dev) (q : Nat) : Option Desc :=
  let l := (d.dma.descs.cells.map (·.2)).filter fun x => x.qp == q && x.rx && !x.taken
  l.foldl (fun acc x => match acc with
    | some (y : Desc) => if sub32 y.idx x.idx < 2 ^ 31 then some x else acc
    | none => some x) none

/-- Writes the bytes of a copy into the elements of a descriptor. -/
def Dev.writeElems (d : Dev) (path : Path) (f copy : Nat) (bs : Bytes) : List (Nat × Nat) → Nat → Dev
  | [], _ => d
  | (a, l) :: rest, pos =>
    let n := min l (bs.length - pos)
    if n = 0 then d
    else
      let d1 := d.queueWrite path f a (slice bs pos n) fun last => .place copy (last && pos + n == bs.length)
      d1.writeElems path f copy bs rest (pos + n)

/-- Words of a receive completion (R302). -/
def Dev.rxWords (d : Dev) (c : Copy) (x : Desc) : List Word :=
  stampWords (d.ingress c.lg) ++
    [toWord (x.tag * 2 ^ 16), toWord (lgGet c.lg lgInPort * 2 ^ 27 + lgGet c.lg lgDecrypted * 2 ^ 26 + lgGet c.lg lgDecap * 2 ^ 25
        + lgGet c.lg lgPtp * 2 ^ 24 + c.bytes.length % 2 ^ 14),
     c.lg.getD 5 0, 0, toWord (x.idx % d.rxSize x.qp)]

/-- Removes a copy from the hand-over order. -/
def Dev.unhand (d : Dev) (id : Nat) : Dev := { d with dma := { d.dma with handed := d.dma.handed.filter fun h => h.1 != id } }

/-- Places a copy with the head descriptor of its queue pair (R304, R250): data, then the completion. -/
def Dev.placeCopy (d : Dev) (id q f : Nat) (c : Copy) : Dev :=
  let drop (x : Dev) : Dev := (x.unhand id).dropCopy id 46 (Config.dropReason 26)
  if (d.hif.cfg.getD f {}).d3hot then drop (d.bump .HIF_QP_CTX q 14)
  else
    match d.rxHead q with
    | none => if (d.qp q).rxFetched = (d.qp q).rxTail then drop ((d.bump .HIF_QP_CTX q 14).mirrorFull c) else d
    | some x =>
      if c.bytes.length > x.total then drop (d.bump .HIF_QP_CTX q 15)
      else
        let d1 := ((d.unhand id).updCopy id fun y => { y with stage := .placing q x.idx }).copyLeft c
        let d2 := d1.writeElems x.path f id c.bytes x.elems 0
        let d3 := d2.rxComplete q x.idx (d.rxWords c x) 0
        if c.bytes.isEmpty then d3.endCopy id else d3

/-- The receive injector of a function acts once on a copy (R377, R379): the copy to place, or none. -/
def Dev.rxInjector (d : Dev) (id f : Nat) (c : Copy) : Option Copy × Dev :=
  if c.injFunc then (some c, d)
  else
    let (a, d1) := d.inject true f false (nsOf (d.ingress c.lg))
    match a with
    | none => (some { c with injFunc := true }, d1.updCopy id fun x => { x with injFunc := true })
    | some 0 => (none, (d1.unhand id).dropCopy id 46 (Config.dropReason 24))
    | some 1 =>
      let (b, d2) := d1.corrupt true f c.bytes
      (some { c with bytes := b, injFunc := true }, d2.updCopy id fun x => { x with bytes := b, injFunc := true })
    | some _ => (none, (d1.holdBack true f id).updCopy id fun x => { x with stage := .injector true false f 0 0, injFunc := true })

/-- Copies that a function's receive injector lets go. -/
def Dev.releaseRx (d : Dev) (ids : List Nat) : Dev :=
  ids.foldl (fun x id =>
    let n := ((x.dma.handed.find? fun h => h.1 == id).map (·.2)).getD 0
    x.updCopy id fun c => { c with stage := .dma n }) d

/-- RX_COPY_PLACE (R170, R304, R323). `sto` offers the copy to the storage engine (R270). -/
def Dev.rxCopyPlace (d : Dev) (id : Nat) (sto : Nat → Copy → Dev → Option Dev) : Dev :=
  match d.copy? id with
  | none => d
  | some c =>
    match c.stage with
    | .dma n =>
      let f := c.dest - 1000
      let drop (x : Dev) (r : Word) : Dev := (x.unhand id).dropCopy id 46 r
      let ownStale := ((d.frame? c.frame).map d.staleFrame).getD false
      if d.rising 7 then d
      else if !d.dmaOn then drop d 0x00040000
      else if d.gen f ≠ c.gen || !d.exists? f then drop (d.bump .VSW_REPL_DROP) (d.staleReason f)
      else if ownStale then drop d (d.staleReason (d.ownerOf c))
      else if d.fnState f ≥ 2 then drop (d.bump .FNC_FROZEN_DROP f) (Config.dropReason 27)
      else if (d.dma.handed.takeWhile fun h => h.1 != id).any fun h => h.2 == n && ((d.copy? h.1).map (·.dest)) == some c.dest
          && (match ((d.copy? h.1).map (·.stage) : Option CopyStage) with
              | some (.dma _) => true
              | _ => false) then d
      else
        match d.rxInjector id f c with
        | (none, d1) => d1
        | (some c1, d1) =>
          let (out, d2) := if c.passed || (d1.injWord true f 0).getLsbD 29 then ([], d1)
            else (d1.updCopy id fun x => { x with passed := true }).passInjector true f
          let d3 := d2.releaseRx out
          match sto id c1 d3 with
          | some d4 => d4.unhand id
          | none =>
            let q := d.qpBase f + n
            if n ≥ d.qpCount f || d.on? Fld.HIF_QP_CTX_MODE q || !d.on? Fld.HIF_QP_CTX_ENABLE q then
              drop (d3.bump .FNC_ISOLATION_DROP f) (Config.dropReason 6)
            else d3.placeCopy id q f c1
    | _ => d

/-! ## Outcomes of buffer requests -/

/-- A header buffer is chained in front of a payload that its copy shares (R236, R238). -/
def Dev.linkTo (d : Dev) (hdr shared : List Nat) : Dev :=
  match hdr.getLast? with
  | some h => { d with bpm := { d.bpm with grants := d.bpm.grants.modify h fun g => { g with next := shared.head? } } }
  | none => d

/-- The outcome of a request goes to the party that made it (R242). `sto` takes those of the storage engine. -/
def Dev.bufOutcome (d : Dev) (r : BufReq) (chain : Option (List Nat)) (sto : Nat → Option (List Nat) → Dev → Dev) : Dev :=
  let d0 := if chain.isNone then d.countEmpty r else d
  match r.for_ with
  | .frame id =>
    match chain with
    | some ch => if (d.frame? id).isSome then ((d0.updFrame id fun f => { f with chain := ch, party := r.party }).fill ch
        (((d.frame? id).map (·.bytes)).getD [])).macsecRx id
      else d0.freeShare ch r.party
    | none => d0.endFrame id
  | .copy id =>
    match chain with
    | some ch =>
      match d.copy? id with
      | some c =>
        let shared := ((d.frame? c.frame).map (·.chain)).getD []
        let outer := c.bytes.length - ((d.frame? c.frame).map (·.bytes.length)).getD 0
        ((((d0.linkTo ch shared).updCopy id fun c => { c with hdr := ch, lg := lgChain c.lg (ch ++ shared) }).fill ch (c.bytes.take outer))).copyReady
          id
      | none => d0.freeShare ch r.party
    | none => d0.dropCopy id 42 (Config.dropReason 25)
  | .lateGather k o => d0.lgBuffers k o r.party chain
  | .descriptor q i => d0.descBuffers q i r.party chain
  | .storage c => sto c chain d0
  | .cipher core => d0.cipherBuffers core chain
  | .reply id =>
    match d.copy? id, chain with
    | some c, some ch =>
      ((((d0.updFrame c.frame fun f => { f with chain := ch }).updCopy id fun x => { x with stage := .admitting }).fill ch c.bytes)).moveCopy
        id 104
    | some _, none => d0.dropCopy id 25 (Config.dropReason 25)
    | none, some ch => d0.freeShare ch r.party
    | none, none => d0

/-- Ends a request with what was decided. -/
def Dev.bufFinish (d : Dev) (id : Nat) (r : BufReq) (res : BufRes) (sto : Nat → Option (List Nat) → Dev → Dev) : Dev :=
  let gone := d.setBufReqs fun t => t.erase id
  match res with
  | .waits => d
  | .granted ch => gone.bufOutcome r (some ch) sto
  | .empty => gone.bufOutcome r none sto

/-- BUFFER_REQUEST: a request reaches the manager (R240 to R242, R321). -/
def Dev.bufferRequest (d : Dev) (id : Nat) (sto : Nat → Option (List Nat) → Dev → Dev) : Dev :=
  match d.bpm.reqs.look? id with
  | none => d
  | some r =>
    if r.arrived || d.rising 13 then d
    else if !d.available 13 || !d.on? Fld.BPM_CTRL_ENABLE then d.bufFinish id r .empty sto
    else
      let (res, d1) := d.decideFrom id r 4 r.pool false
      d1.bufFinish id r res sto

/-- BPM_CTRL has been written: while ENABLE is 0 every request that the manager has ends in POOL_EMPTY at once (R242). -/
def Dev.bpmCtrlWritten (d : Dev) (sto : Nat → Option (List Nat) → Dev → Dev) : Dev :=
  if d.on? Fld.BPM_CTRL_ENABLE then d
  else (d.bpm.reqs.cells.filter fun e => e.2.waiting).foldl (fun x e => x.bufFinish e.1 e.2 .empty sto) d

/-- The requests of a pool that wait, in the order in which they are decided (R241). -/
def Dev.waitingOf (d : Dev) (pool : Nat) : List (Nat × BufReq) :=
  (d.bpm.reqs.cells.filter fun e => e.2.waiting && e.2.pool == pool).mergeSort fun a b =>
    a.2.stamp < b.2.stamp || (a.2.stamp == b.2.stamp && a.2.party ≤ b.2.party)

/-- BUFFER_STAMP_DECIDE: the earliest waiting request of a pool whose stamp + 64 ns has passed (R241). -/
def Dev.bufferStampDecide (d : Dev) (pool : Nat) (sto : Nat → Option (List Nat) → Dev → Dev) : Dev :=
  match d.waitingOf pool with
  | [] => d
  | (id, r) :: _ =>
    if !d.available 13 || !d.on? Fld.BPM_CTRL_ENABLE then d.bufFinish id r .empty sto
    else if d.now > r.stamp + 64 * 256 || !d.on? Fld.MER_CTRL_ENABLE then
      let (res, d1) := d.decideFrom id r 4 pool true
      d1.bufFinish id r res sto
    else d

/-- The buffers of a chain from a handle on. -/
def chainFrom (t : Tbl Grant) : Nat → Nat → List Nat
  | 0, _ => []
  | fuel + 1, h =>
    match t.look? h with
    | some g => h :: ((g.next.map fun n => chainFrom t fuel n).getD [])
    | none => []

/-- BUFFER_FREE by a party: the last named owner frees its chain or share; another free changes nothing and is recorded (R243). -/
def Dev.bufferFree (d : Dev) (party h : Nat) : Dev :=
  match d.bpm.grants.look? h with
  | some g =>
    if g.owners.contains party then d.freeShare ((chainFrom d.bpm.grants 256 h).filter (d.ownsBuffer party)) party
    else d.freeDenied h party
  | none => d.freeDenied h party

end Sys2Proof.Machine
end

