-- ==== Sys2Proof/Machine/HifOps.lean ====
section
/-!
DEFINITION. The host interface: bus errors (R311), doorbells and heads (R299, R306), queue pairs and administration queues
(R296, R297, R306), their assignment (R295), privileges (R307), configuration space (R290, R292) and ATS (R288).
-/
namespace Sys2Proof.Machine

/-! ## Bus errors -/

/-- Captures and counts a bus error of a host write (R311, R416): `bar` 0 or 1, `cause` as HIF_BUS_ERR codes it. -/
def Dev.busError (d : Dev) (f bar cause off : Nat) : Dev :=
  let d1 := d.bump .HIF_BUS_ERR_COUNT
  if d.on? Fld.HIF_BUS_ERR_VALID then d1.set Fld.HIF_BUS_ERR_MULTI 0 1
  else
    (d1.wr .HIF_BUS_ERR 0 0 (toWord (2 ^ 31 + cause * 2 ^ 28 + bar * 2 ^ 27 + f * 2 ^ 16))).wr .HIF_BUS_ERR_ADDR 0 0 (toWord off)

/-! ## Queue pairs -/

/-- The queue pair that a storage connection is bound to (R268). -/
def Conn.qp (c : Conn) : Nat := bitsOf (c.record.getD 0 0) 13 0

/-- A connection that holds its state, neither FREE nor RETURNED. -/
def Conn.live (c : Conn) : Bool := c.state == .active || c.state == .paused

/-- ACTIVE of a queue pair: descriptors or entries in flight, up to the write of their completions (R296, R297). -/
def Dev.qpActive (d : Dev) (q : Nat) : Bool :=
  (d.dma.descs.first? fun _ x => x.qp == q).isSome
    || (d.dma.bursts.first? fun _ b => match b.for_ with
        | .completion q' _ _ => q' == q
        | _ => false).isSome
    || (d.sto.conns.first? fun _ c => c.qp == q && !c.cmds.cells.isEmpty).isSome

/-- ACTIVE of an administration queue. -/
def Dev.aqActive (d : Dev) (f : Nat) : Bool := decide (0 < d.aqInFlight f)

/-- A doorbell beyond the ring is dropped and captured (R299). -/
def Dev.doorbellError (d : Dev) (f off : Nat) : Dev := d.busError f 0 1 (0x03FF0000 + off)

/-- A write to HIF_TX_TAIL[n] or HIF_RX_TAIL[n] of a function reaches the host interface (R297, R299, R317). -/
def Dev.doorbell (d : Dev) (f n : Nat) (rx : Bool) (w : Word) : Dev :=
  let q := d.qpBase f + n
  let s := d.qp q
  let old := if rx then s.rxTail else s.txTail
  let size := if rx then d.rxSize q else d.txSize q
  if d.fnState f = 1 || !d.on? Fld.HIF_QP_CTX_ENABLE q then d
  else if sub32 w.toNat old ≤ size then d.setQp q (if rx then { s with rxTail := w.toNat } else { s with txTail := w.toNat })
  else d.doorbellError f (0x100 * b2n rx + 4 * n)

/-- A write to HIF_TXC_HEAD[n] or HIF_RXC_HEAD[n]. -/
def Dev.cplHead (d : Dev) (f n : Nat) (rx : Bool) (w : Word) : Dev :=
  let q := d.qpBase f + n
  let s := d.qp q
  if d.fnState f = 1 then d else d.setQp q (if rx then { s with rxcHead := w.toNat } else { s with txcHead := w.toNat })

/-- A queue pair restarts: its counts become 0, and 0 is written to both words of its write-back area (R297). -/
def Dev.qpRestart (d : Dev) (f q : Nat) : Dev :=
  let s := d.qp q
  let d1 := d.setQp q { s with txTail := 0, rxTail := 0, txFetched := 0, rxFetched := 0, txcTail := 0, rxcTail := 0, txcHead := 0,
                               rxcHead := 0 }
  let d2 := d1.queueWrite (d.qpPath q false).strict f (d.qpAddr q 12) (bytesLE 4 0) fun _ => .plain
  d2.queueWrite (d.qpPath q true).strict f (d.qpAddr q 12 + 4) (bytesLE 4 0) fun _ => .plain

/-- Receive descriptors of a queue pair that have been fetched and will take no copy go, so that ACTIVE falls (DESIGN CHOICE, log
entry 51: R297 stops receive placement and lets what has been fetched finish). -/
def Dev.dropRx (d : Dev) (q : Nat) : Dev := { d with dma := { d.dma with descs := d.dma.descs.keep fun _ x => !(x.rx && x.qp == q) } }

/-- Word +0x00 of a queue pair context has been written: ENABLE = 1 restarts the queue pair, ENABLE = 0 ends receive placement
(R297). -/
def Dev.qpCtxWritten (d : Dev) (f q : Nat) : Dev := if d.on? Fld.HIF_QP_CTX_ENABLE q then d.qpRestart f q else d.dropRx q

/-! ## Administration queues (R306) -/

/-- Ring state of an administration queue. -/
def Dev.setAq (d : Dev) (f : Nat) (q : Aq) : Dev := { d with hif := { d.hif with aqs := d.hif.aqs.putD {} f q } }

/-- A write to HIF_AQ_TAIL. -/
def Dev.aqTail (d : Dev) (f : Nat) (w : Word) : Dev :=
  let q := d.hif.aqs.getD f {}
  if d.fnState f = 1 || !d.on? Fld.HIF_AQ_CFG_ENABLE f then d
  else if sub32 w.toNat q.tail ≤ d.aqSize f then d.setAq f { q with tail := w.toNat }
  else d.doorbellError f 0x400

/-- A write to HIF_AQC_HEAD. -/
def Dev.aqcHead (d : Dev) (f : Nat) (w : Word) : Dev :=
  if d.fnState f = 1 then d else d.setAq f { d.hif.aqs.getD f {} with head := w.toNat }

/-- Word +0x00 of HIF_AQ_CFG has been written: ENABLE = 1 restarts the queue, as for a queue pair. -/
def Dev.aqCfgWritten (d : Dev) (f : Nat) : Dev :=
  if d.on? Fld.HIF_AQ_CFG_ENABLE f then
    (d.setAq f {}).hostOut f (.hostWrite f ((d.rd .HIF_AQ_CFG f 6).toNat + 2 ^ 32 * (d.rd .HIF_AQ_CFG f 7).toNat) (bytesLE 4 0))
  else d

/-! ## Assignment and privileges -/

/-- HIF_RSS of a function returns to n mod COUNT (R295, R317). -/
def Dev.rssDefault (d : Dev) (f : Nat) : Dev :=
  (List.range 64).foldl (fun x n => x.wr .HIF_RSS (64 * f + n) 0 (toWord (if d.qpCount f = 0 then 0 else n % d.qpCount f))) d

/-- A queue pair stands in the way of an assignment (R295). -/
def Dev.qpBusy (d : Dev) (q : Nat) : Bool := d.on? Fld.HIF_QP_CTX_ENABLE q || d.qpActive q

/-- Another function holds one of the queue pairs of a range. -/
def Dev.qpOverlaps (d : Dev) (f base count : Nat) : Bool :=
  (List.range 1024).any fun g => g != f && decide (0 < d.qpCount g) && decide (0 < count)
    && decide (d.qpBase g < base + count) && decide (base < d.qpBase g + d.qpCount g)

/-- QP_ASSIGN (R295). -/
def Dev.qpAssign (d : Dev) (n f : Nat) (p : Bytes) : Dev :=
  let base := bitsOf (le32 p 0) 13 0
  let count := bitsOf (le32 p 4) 6 0
  if count > 64 || base + count > 16384 || d.qpOverlaps f base count then d.reply n .badParam
  else if (List.range (d.qpCount f)).any (fun i => d.qpBusy (d.qpBase f + i)) || (List.range count).any (fun i => d.qpBusy (base + i)) then
    d.reply n .badState
  else ((d.wr .FNC_QP_MAP f 0 (toWord (count * 2 ^ 24 + base))).rssDefault f).replyOk n

/-- FUNC_PRIV_SET (R307). -/
def Dev.funcPrivSet (d : Dev) (n f : Nat) (p : Bytes) : Dev :=
  if f < 4 then d.reply n .badParam else (d.wr .FNC_PRIV f 0 (le32 p 0 &&& 3)).replyOk n

/-! ## Identity, routing IDs and BARs (R1, R286, R291, R293) -/

/-- Device ID, Revision ID and Class Code in the configuration header of a function that exists. -/
def Dev.identity (d : Dev) (f : Nat) : Option (Nat × Nat × Nat) :=
  let c := d.hif.cfg.getD f {}
  if d.exists? f then some (if f < 4 then c.deviceId else (d.hif.sriov.getD (pfOf f) {}).vfDeviceId, c.revision, c.classCode) else none

/-- The Link Capabilities register of a link, in the layout of the PCIe Base Specification: ASPM Support names L1 alone (R286); the
latencies that R290 has it report, and the rest, are open (log entry 52). -/
def Dev.linkCapabilities (_ : Dev) (link : Nat) : Word := setBits (Config.linkCapabilities link) 11 10 2

/-- Max_Payload_Size Supported of the Device Capabilities register, in its encoding: 128 bytes are 0 (R286). -/
def Dev.payloadSupported (d : Dev) (f : Nat) : Nat := ((d.hif.cfg.getD f {}).maxPayloadSupported / 128).log2

/-- First VF Offset of a physical function (R291). -/
def Dev.firstVfOffset (d : Dev) (k : Nat) : Nat :=
  if d.on? Fld.HIF_LINK_CFG_DUAL then if k % 2 = 0 then 2 else 256 else 4 + 254 * k

/-- Offset of a function's routing ID from that of its link's first physical function (R291). -/
def Dev.routingOffset (d : Dev) (f : Nat) : Nat :=
  let k := pfOf f
  let own := if d.on? Fld.HIF_LINK_CFG_DUAL then k % 2 else k
  if f < 4 then own else own + d.firstVfOffset k + (vfOf f - 1) * (d.hif.sriov.getD k {}).vfStride

/-- The requester ID under which everything goes out that `Out` names function `f` for (R291). -/
def Dev.requesterId (d : Dev) (f : Nat) : Nat :=
  (d.hif.firstRid.getD (if d.on? Fld.HIF_LINK_CFG_DUAL then pfOf f / 2 else 0) 0 + d.routingOffset f) % 65536

/-- Where the BARs of a function begin: those of virtual functions lie one behind the other (R293). -/
def Dev.bar0 (d : Dev) (f : Nat) : Nat :=
  if f < 4 then (d.hif.cfg.getD f {}).bar0 else (d.hif.sriov.getD (pfOf f) {}).vfBar0 + (vfOf f - 1) * 0x10000
def Dev.bar2 (d : Dev) (f : Nat) : Nat :=
  if f < 4 then (d.hif.cfg.getD f {}).bar2 else (d.hif.sriov.getD (pfOf f) {}).vfBar2 + (vfOf f - 1) * 0x1000

/-! ## Configuration space (R290, R292) -/

/-- SR-IOV registers of a physical function. -/
def Dev.setSriov (d : Dev) (k : Nat) (s : SrIov) : Dev := { d with hif := { d.hif with sriov := d.hif.sriov.putD {} k s } }

/-- Configuration of a function. -/
def Dev.setFnCfg (d : Dev) (f : Nat) (c : FnCfg) : Dev := { d with hif := { d.hif with cfg := d.hif.cfg.putD {} f c } }

/-- NUMVFS_WRITE: ignored while VF Enable is 1; a value above TotalVFs enables TotalVFs (R286, R292). -/
def Dev.numvfsWrite (d : Dev) (k n : Nat) : Dev :=
  let s := d.hif.sriov.getD k {}
  if k < 4 && !s.vfEnable then d.setSriov k { s with numVfs := min n 255 } else d

/-- VF_ENABLE_SET: the first NumVFs virtual functions exist, with what they hold (R292). -/
def Dev.vfEnableSet (d : Dev) (k : Nat) : Dev :=
  if k < 4 then d.setSriov k { d.hif.sriov.getD k {} with vfEnable := true } else d

/-- D3HOT_ENTER (R290). -/
def Dev.d3hotEnter (d : Dev) (f : Nat) : Dev :=
  if d.exists? f then d.setFnCfg f { d.hif.cfg.getD f {} with d3hot := true } else d

/-- PCIE_LINK_UP: what was trained is reported (R285). -/
def Dev.pcieLinkUp (d : Dev) (link rate width : Nat) : Dev :=
  if link < 2 && (link = 0 || d.on? Fld.HIF_LINK_CFG_DUAL) then
    d.wr .HIF_LINK_STAT link 0 (toWord (2 ^ 31 + rate % 16 * 2 ^ 16 + width % 64))
  else d

/-- The functions of a link (R285). -/
def Dev.linkFns (d : Dev) (link : Nat) : List Nat :=
  if d.on? Fld.HIF_LINK_CFG_DUAL then (List.range 1024).filter fun f => pfOf f / 2 == link
  else if link = 0 then List.range 1024 else []

/-! ## ATS (R288) -/

/-- An Invalidation Request: the translation is dropped; work that used it is waited for. -/
def Dev.atsInvalidation (d : Dev) (f tag page : Nat) : Dev :=
  { d with dma := { d.dma with atc := d.dma.atc.erase (atcKey f (page * 4096)), invals := d.dma.invals ++ [(f, tag, page)] } }

/-- Reads issued under a translation of the page have still to complete. -/
def Dev.invalBusy (d : Dev) (f page : Nat) : Bool :=
  (d.dma.bursts.first? fun _ b => b.issued && b.fn == f && b.addr / 4096 == page).isSome

/-- ATS_INVAL_COMPLETE: every write is on the link (the model issues a write in one step) and every read has completed. -/
def Dev.atsInvalComplete (d : Dev) (f tag : Nat) : Dev :=
  match d.dma.invals.find? fun i => i.1 == f && i.2.1 == tag with
  | none => d
  | some (_, _, page) =>
    if d.invalBusy f page then d
    else
      (({ d with dma := { d.dma with invals := d.dma.invals.erase (f, tag, page) } } : Dev).bump .HIF_ATS_INVAL).emit
        (.invalidated f tag)

end Sys2Proof.Machine
end

