-- ==== Sys2Proof/Machine/StoOps.lean ====
section
/-!
DEFINITION. The storage engine (R266 to R284): connections, TCP (RFC 5681, RFC 6298), TLS records (R199 to R201, R277, R278), the
PDUs of the NVM Express TCP Transport Specification that R266 names, commands and completions.
-/
namespace Sys2Proof.Machine

/-! ## Connection records (R268) -/

/-- Word `i` of a connection record. -/
def Conn.word (c : Conn) (i : Nat) : Word := c.record.getD i 0

/-- Fields of the record. -/
def Conn.v6 (c : Conn) : Bool := (c.word 0).getLsbD 31
def Conn.hdgst (c : Conn) : Bool := (c.word 0).getLsbD 30
def Conn.ddgst (c : Conn) : Bool := (c.word 0).getLsbD 29
def Conn.tls (c : Conn) : Bool := (c.word 0).getLsbD 28
def Conn.mss (c : Conn) : Nat := bitsOf (c.word 1) 31 16
def Conn.hpda (c : Conn) : Nat := bitsOf (c.word 1) 4 0
def Conn.rtoMin (c : Conn) : Nat := 10000 * bitsOf (c.word 5) 31 16
def Conn.retries (c : Conn) : Nat := bitsOf (c.word 6) 31 28
def Conn.maxR2t (c : Conn) : Nat := bitsOf (c.word 6) 27 24
def Conn.cmdMax (c : Conn) : Nat := bitsOf (c.word 6) 12 0
def Conn.maxH2c (c : Conn) : Nat := (c.word 7).toNat
def Conn.icdMax (c : Conn) : Nat := bitsOf (c.word 8) 16 0
def Conn.sndBuf (c : Conn) : Nat := 1024 * bitsOf (c.word 9) 15 0
/-- The header template. -/
def Conn.hdr (c : Conn) : Bytes := (wordBytes (c.record.drop 12)).take (bitsOf (c.word 0) 23 16)

/-- Offset of the network header of an Ethernet frame, after any VLAN tags, and its EtherType. -/
def netOffset (bs : Bytes) : Nat → Nat → Nat × Nat
  | 0, at_ => (at_ + 2, be bs at_ 2)
  | fuel + 1, at_ =>
    let t := be bs at_ 2
    if t = 0x8100 || t = 0x88A8 then netOffset bs fuel (at_ + 4) else (at_ + 2, t)

/-- Offset of the network header. -/
def l3Of (bs : Bytes) : Nat × Nat := netOffset bs (bs.length / 4) 12

/-- Where the TCP header lies behind the extension headers of an IPv6 packet (RFC 8200): `proto` names what stands at `at_`. A
fragment holds no whole segment. -/
def v6Tcp (bs : Bytes) : Nat → Nat → Nat → Option Nat
  | 0, _, _ => none
  | fuel + 1, proto, at_ =>
    let next := (byteAt bs at_).toNat
    let len := (byteAt bs (at_ + 1)).toNat
    if proto = 6 then some at_
    else if proto = 0 || proto = 43 || proto = 60 || proto = 135 then v6Tcp bs fuel next (at_ + 8 * (len + 1))
    else if proto = 51 then v6Tcp bs fuel next (at_ + 4 * (len + 2))
    else if proto = 44 && be bs (at_ + 2) 2 / 8 = 0 && be bs (at_ + 2) 2 % 2 = 0 then v6Tcp bs fuel next (at_ + 8)
    else none

/-- The TCP segment of a frame: IPv6 or not, addresses, offset of the TCP header, end of the IP payload. -/
def tcpOf (bs : Bytes) : Option (Bool × Nat × Nat × Nat × Nat) :=
  let (o, t) := l3Of bs
  let segment (v6 : Bool) (src dst tcp stop : Nat) : Option (Bool × Nat × Nat × Nat × Nat) :=
    if tcp + 20 ≤ stop && stop ≤ bs.length then some (v6, src, dst, tcp, stop) else none
  if t = 0x0800 && (byteAt bs o).toNat / 16 = 4 && byteAt bs (o + 9) == 6 && be bs (o + 6) 2 % 2 ^ 14 = 0 then
    let ihl := 4 * ((byteAt bs o).toNat % 16)
    if ihl < 20 then none else segment false (be bs (o + 12) 4) (be bs (o + 16) 4) (o + ihl) (o + be bs (o + 2) 2)
  else if t = 0x86DD && (byteAt bs o).toNat / 16 = 6 then
    (v6Tcp bs (bs.length / 8 + 1) (byteAt bs (o + 6)).toNat (o + 40)).bind fun tcp =>
      segment true (be bs (o + 8) 16) (be bs (o + 24) 16) tcp (o + 40 + be bs (o + 4) 2)
  else none

/-- HDR_LEN is the length of a well-formed Ethernet, IP and TCP header in the template (R268): IPv4 with or without options, IPv6
with or without extension headers, and TCP without options. -/
def templateOk (v6 : Bool) (h : Bytes) (space : Bytes) : Bool :=
  let (o, t) := l3Of space
  let tcp : Option Nat :=
    if v6 then if t = 0x86DD && (byteAt space o).toNat / 16 = 6 then v6Tcp space 12 (byteAt space (o + 6)).toNat (o + 40) else none
    else if t = 0x0800 && (byteAt space o).toNat / 16 = 4 && (byteAt space o).toNat % 16 ≥ 5 && byteAt space (o + 9) == 6 then
      some (o + 4 * ((byteAt space o).toNat % 16))
    else none
  match tcp with
  | some k => (byteAt space (k + 12)).toNat / 16 == 5 && h.length == k + 20
  | none => false

/-- Reserved bits of a connection record are 0. -/
def connReserved (r : List Word) : Bool :=
  let masks : List Word := [0x0F00C000, 0x000000E0, 0, 0, 0, 0, 0x00FFE000, 0, 0xFFFE0000, 0xFFFF0000, 0xFFFFC000, 0xFFFFC000]
  (List.range 12).all fun i => r.getD i 0 &&& masks.getD i 0 == 0

/-- Every field of a connection record is in its range. -/
def connRanges (r : List Word) : Bool :=
  let w (i : Nat) : Word := r.getD i 0
  let within (lo hi v : Nat) : Bool := decide (lo ≤ v) && decide (v ≤ hi)
  within 54 96 (bitsOf (w 0) 23 16) && within 536 9000 (bitsOf (w 1) 31 16) && within 0 14 (bitsOf (w 1) 15 12)
    && within 0 14 (bitsOf (w 1) 11 8) && decide (1 ≤ bitsOf (w 5) 31 16) && decide (bitsOf (w 5) 31 16 ≤ bitsOf (w 5) 15 0)
    && within 1 15 (bitsOf (w 6) 31 28) && within 1 4096 (bitsOf (w 6) 12 0) && decide (4096 ≤ (w 7).toNat) && (w 7).toNat % 4 == 0
    && within 0 65536 (bitsOf (w 8) 16 0) && within 16 1024 (bitsOf (w 9) 15 0)

/-! ## The table of connections -/

/-- A connection by number. -/
def Dev.conn? (d : Dev) (n : Nat) : Option Conn := d.sto.conns.look? n

/-- Changes a connection. -/
def Dev.updConn (d : Dev) (n : Nat) (f : Conn → Conn) : Dev := { d with sto := { d.sto with conns := d.sto.conns.modify n f } }

/-- Removes a TLS record. -/
def Dev.dropRec (d : Dev) (n : Nat) : Dev := { d with sto := { d.sto with records := d.sto.records.erase n } }

/-- Connections a function holds, and command contexts in use (R267, R284). -/
def Dev.connCount (d : Dev) (f : Nat) : Nat := d.sto.conns.countP fun _ c => c.fn == f
def Dev.cmdsOf (d : Dev) (p : Conn → Bool) : Nat := (d.sto.conns.vals.map fun c => if p c then c.cmds.size else 0).foldl (· + ·) 0

/-- The engine is at work: segments are sent and entries fetched (R284). -/
def Dev.stoOn (d : Dev) : Bool := d.available 8 && d.on? Fld.STO_CTRL_ENABLE

/-- STO_CONN_STAT of a connection (R284). -/
def Dev.connWord (d : Dev) (n : Nat) : Word :=
  match d.conn? n with
  | none => 0
  | some c =>
    let st := match c.state with
      | .free => 0
      | .active => 1
      | .paused => 2
      | .returned => 3
    toWord (st * 2 ^ 30 + c.fn * 2 ^ 20 + c.cmds.size)

/-! ## The cipher engine's queue (R184, R199) -/

/-- Records move into the TLS queue while it has room. -/
def Dev.tlsFeed (d : Dev) : Dev :=
  let room := 2048 - d.cip.tlsQ.length
  let go := d.sto.waitQ.take room
  let d1 := d.setCip fun c => { c with tlsQ := c.tlsQ ++ go }
  { d1 with sto := { d1.sto with waitQ := d1.sto.waitQ.drop room } }

/-- A record enters the engine's queue. -/
def Dev.addRec (d : Dev) (r : TlsRec) : Nat × Dev :=
  let k := d.sto.nextRec
  let d1 : Dev := { d with sto := { d.sto with records := d.sto.records.put k r, nextRec := k + 1, waitQ := d.sto.waitQ ++ [(r.fn, k)] } }
  (k, d1.tlsFeed)

/-- The records of a byte string, at most 16,384 bytes of content each (R277). -/
def tlsPieces : Nat → Bytes → List Bytes
  | 0, _ => []
  | fuel + 1, bs => if bs.isEmpty then [] else bs.take 16384 :: tlsPieces fuel (bs.drop 16384)

/-- Transmit records of a connection under its present TX_SLOT. -/
def Dev.sendRecords (d : Dev) (n : Nat) (inner : Nat) (bs : Bytes) : Dev :=
  (tlsPieces (bs.length + 1) bs).foldl (fun x b =>
    match x.conn? n with
    | none => x
    | some c =>
      let (k, y) := x.addRec { conn := n, fn := c.fn, gen := c.gen, slot := c.txSlot, tx := true, bytes := b, inner := inner }
      y.updConn n fun z => { z with txRecs := z.txRecs ++ [k] }) d

/-- Bytes join the stream of a connection, through TLS where it is used. -/
def Dev.stream (d : Dev) (n : Nat) (bs : Bytes) : Dev :=
  match d.conn? n with
  | none => d
  | some c => if c.tls then d.sendRecords n 23 bs else d.updConn n fun z => { z with sendQ := z.sendQ ++ bs }

/-! ## Completions (R279) -/

/-- Posts the 32-byte completion of a command or a raw record on a path. -/
def Dev.stoPost (d : Dev) (path : Path) (n : Nat) (c : Conn) (cqe : List Word) (st : Status) (placed : Nat) (synth raw : Bool) : Dev :=
  if d.gen c.fn = c.gen then
    d.postCompletion path c.qp true c.fn
      (cqe ++ [toWord st.code, toWord n, toWord placed, toWord (b2n synth * 2 ^ 31 + b2n raw * 2 ^ 30)]) st.code
  else d

/-- CQE words that no PDU has brought: CID in its place, the rest left open (log entry 32). -/
def Dev.openCqe (d : Dev) (cid : Nat) : List Word × Dev :=
  let (a, d1) := d.drawWord
  let (b, d2) := d1.drawWord
  let (c, d3) := d2.drawWord
  let (e, d4) := d3.drawWord
  ([a, b, c, setBits e 15 0 cid], d4)

/-- The completion of a command is posted: its context is released, its reads and waiting PDUs end with it. One that ends with
AUTH_FAIL has nothing placed, since what it received is zeroed (R201). -/
def Dev.stoPostCmd (d : Dev) (n cid : Nat) (c : Conn) (k : StoCmd) (cqe : Option (List Word)) (st : Status) (synth : Bool) : Dev :=
  let d1 := d.updConn n fun z => { z with cmds := z.cmds.erase cid, outQ := z.outQ.filter (·.cid != cid) }
  let placed := if st = .authFail then 0 else k.placed
  match cqe with
  | some w => d1.stoPost k.rxPath n c w st placed synth false
  | none =>
    let (w, d2) := d1.openCqe cid
    d2.stoPost k.rxPath n c w st placed synth false

/-- A command completes, once: while a barrier holds its data back it is over, and its completion follows that data (R249, R279). -/
def Dev.stoComplete (d : Dev) (n cid : Nat) (cqe : Option (List Word)) (st : Status) (synth : Bool) : Dev :=
  match d.conn? n with
  | none => d
  | some c =>
    match c.cmds.look? cid with
    | none => d
    | some k =>
      if k.ended.isSome then d
      else if d.barredPath k.rxPath then
        d.updConn n fun z => { z with cmds := z.cmds.modify cid fun y => { y with ended := some (cqe, st, synth) },
                                      outQ := z.outQ.filter (·.cid != cid) }
      else d.stoPostCmd n cid c k cqe st synth

/-- A command of a connection that is lost completes; data of it that a barrier still holds back is not written (log entry 31). -/
def Dev.stoLose (d : Dev) (n : Nat) (st : Status) (cid : Nat) : Dev :=
  match d.conn? n with
  | none => d
  | some c =>
    match c.cmds.look? cid with
    | none => d
    | some k =>
      let held := if d.barredPath k.rxPath then d.dma.bursts.cells.filter fun e => BurstFor.ofCmd n cid e.2.for_ else []
      let d1 := held.foldl (fun x e => x.dropBurst e.1) d
      let lost := (held.map (·.2.len)).foldl (· + ·) 0
      let (cqe, st1, synth) := k.ended.getD (none, st, false)
      d1.stoPostCmd n cid c { k with placed := k.placed - lost } cqe st1 synth

/-- Every outstanding command of a connection completes. -/
def Dev.stoFail (d : Dev) (n : Nat) (st : Status) : Dev :=
  match d.conn? n with
  | none => d
  | some c => c.cmds.keys.foldl (fun x cid => x.stoLose n st cid) d

/-! ## The end of a connection (R281, R282) -/

/-- Buffers, records and timers of a connection go. -/
def Dev.stoRelease (d : Dev) (n : Nat) : Dev :=
  match d.conn? n with
  | none => d
  | some c =>
    let d1 := c.segs.foldl (fun x s => x.freeShare s.2.2 98) d
    let mine (k : Nat) : Bool := ((d.sto.records.look? k).map fun r => r.conn == n).getD false
    let running (k : Nat) : Bool := (d.cip.cores.first? fun _ o => o.subject == .tls k).isSome
    let d2 := d1.setCip fun q => { q with tlsQ := q.tlsQ.filter fun e => !mine e.2 }
    { d2 with sto := { d2.sto with records := d2.sto.records.keep fun k r => r.conn != n || running k || r.zeroing,
                                   waitQ := d2.sto.waitQ.filter fun e => !mine e.2 } }

/-- Reply parameters of a return: SND_NXT, SND_UNA, RCV_NXT. -/
def Conn.seqs (c : Conn) : List Word := [toWord c.sndNxt, toWord c.sndUna, toWord c.rcvNxt]

/-- The connection is FREE, and a return replies. -/
def Dev.connFree (d : Dev) (n cmd : Nat) (c : Conn) : Dev :=
  let d1 := d.stoRelease n
  ({ d1 with sto := { d1.sto with conns := d1.sto.conns.erase n } } : Dev).replyOk cmd c.seqs

/-- A connection is lost: every command completes with CONN_LOST, the event goes out, the state is RETURNED (R281). While bytes of a
failed record are being zeroed nothing completes, and the connection is lost at their end whatever else befalls it (R201, R277). -/
def Dev.connLost (d : Dev) (n reason : Nat) : Dev :=
  match d.conn? n with
  | none => d
  | some c =>
    if !c.live || c.failing then d
    else
      let d1 := ((d.stoFail n .connLost).bump .STO_CONN_LOST_CNT).event c.fn 0x8003 (wordBytes [toWord n, toWord reason])
      let d2 := (d1.stoRelease n).updConn n fun z =>
        { z with state := .returned, sendQ := [], segs := [], want := [], retryAt := none, outQ := [], rtoAt := none, ackAt := none,
                 txRecs := [], rxRec := none, returning := none }
      match c.returning with
      | some (cmd, _) => d2.connFree n cmd c
      | none => d2

/-- A return that waits ends when no command is outstanding and nothing is unacknowledged; a connection that has sent its
H2CTermReq is lost when its bytes are acknowledged (R280, R281). -/
def Dev.stoSettle (d : Dev) (n : Nat) : Dev :=
  match d.conn? n with
  | none => d
  | some c =>
    let sent := c.sendQ.isEmpty && c.segs.isEmpty && c.txRecs.isEmpty
    if c.failing then d
    else if c.live && c.terminated && sent then d.connLost n 3
    else
      match c.returning with
      | some (cmd, _) => if c.live && sent && c.outQ.isEmpty && c.cmds.cells.isEmpty then d.connFree n cmd c else d
      | none => d

/-- Commands whose completion waited for a barrier complete (R249, R279). -/
def Dev.stoDue (d : Dev) : Dev :=
  d.sto.conns.cells.foldl (fun x e => e.2.cmds.cells.foldl (fun y a =>
    match (y.conn? e.1).bind fun c => (c.cmds.look? a.1).map fun k => (c, k) with
    | some (c, k) =>
      match k.ended with
      | some (cqe, st, synth) =>
        if y.barredPath k.rxPath then y else (y.stoPostCmd e.1 a.1 c k cqe st synth).stoSettle e.1
      | none => y
    | none => y) x) d

/-! ## PDUs out (R273, R274, R276, R280) -/

/-- `n` rounded up to a multiple of `a`. -/
def alignUp (n a : Nat) : Nat := (n + a - 1) / a * a

/-- The common header of a PDU. -/
def pduHead (typ flags hlen pdo plen : Nat) : Bytes := [BitVec.ofNat 8 typ, BitVec.ofNat 8 flags, BitVec.ofNat 8 hlen, BitVec.ofNat 8 pdo] ++ bytesLE 4 plen

/-- Everything of a PDU before its data: the header `body` completes, its digest, and padding up to the data. -/
def Conn.frontOf (c : Conn) (typ flags : Nat) (body : Bytes) (len : Nat) : Bytes :=
  let hl := 8 + body.length
  let hd := if c.hdgst then 4 else 0
  let pdo := if len = 0 then 0 else alignUp (hl + hd) (4 * (c.hpda + 1))
  let dd := if c.ddgst && len ≠ 0 then 4 else 0
  let plen := (if len = 0 then hl + hd else pdo + len) + dd
  let h := pduHead typ (flags + b2n c.hdgst + 2 * b2n (dd ≠ 0)) hl pdo plen ++ body
  padTo (if c.hdgst then h ++ bytesLE 4 (crc32c h).toNat else h) pdo

/-- A PDU as it enters the stream. -/
def Conn.pduBytes (c : Conn) (p : StoPdu) : Bytes :=
  p.head ++ p.data ++ (if c.ddgst && !p.data.isEmpty then bytesLE 4 (crc32c p.data).toNat else [])

/-- The waiting PDUs that may enter the stream, and those that stay: in their order, as far as their data is at hand. A capsule
that a barrier holds, `bar` the place of the first one, keeps back what is of no earlier command (R249, R273, R274). -/
def Dev.outGoes (d : Dev) (c : Conn) : Option ((Nat × Bool) × Nat) → List StoPdu → List StoPdu × List StoPdu
  | _, [] => ([], [])
  | bar, p :: rest =>
    let path := ((c.cmds.look? p.cid).map (·.txPath)).getD { chan := 0 }
    if bar.all fun e => path.before e.1 e.2 then
      if p.reads = 0 then
        let (go, stay) := d.outGoes c bar rest
        (p :: go, stay)
      else
        match (if d.barredPath path then path.queue else none), path.desc with
        | some s, some i =>
          let (go, stay) := d.outGoes c (some (s, i)) rest
          (go, p :: stay)
        | _, _ => ([], p :: rest)
    else
      let (go, stay) := d.outGoes c bar rest
      (go, p :: stay)

/-- PDUs whose data is at hand enter the stream in their order. -/
def Dev.stoFlush (d : Dev) (n : Nat) : Dev :=
  match d.conn? n with
  | none => d
  | some c =>
    let (go, stay) := d.outGoes c none c.outQ
    let cmds := go.foldl (fun (t : Tbl StoCmd) p => t.modify p.cid fun k =>
      { k with placed := k.placed + p.data.length, r2ts := k.r2ts - b2n p.r2tEnd }) c.cmds
    let d1 := d.updConn n fun z => { z with outQ := stay, cmds := cmds }
    if go.isEmpty then d else d1.stream n (go.flatMap c.pduBytes)

/-- The host ranges of bytes `off` to `off + len` of a scatter-gather list. -/
def sglRange : List (Nat × Nat) → Nat → Nat → List (Nat × Nat)
  | [], _, _ => []
  | (a, l) :: rest, off, len =>
    if len = 0 then []
    else if off ≥ l then sglRange rest (off - l) len
    else (a + off, min len (l - off)) :: sglRange rest 0 (len - min len (l - off))

/-- A PDU joins the queue, with reads for `len` bytes of the command's data from `off` on. -/
def Dev.queuePdu (d : Dev) (n : Nat) (k : StoCmd) (head : Bytes) (off len : Nat) (r2tEnd : Bool) : Dev :=
  match d.conn? n with
  | none => d
  | some c =>
    let num := c.nextPdu
    let (reads, d1) := d.readElems k.txPath c.fn (fun pos => .storage n num pos) (sglRange k.elems off len) 0 0
    d1.updConn n fun z =>
      { z with nextPdu := num + 1,
               outQ := z.outQ ++ [{ num := num, cid := k.cid, head := head, data := List.replicate len 0, reads := reads, r2tEnd := r2tEnd }] }

/-- Data of a PDU has been read. -/
def Dev.stoRead (d : Dev) (n pdu pos : Nat) (bs : Bytes) : Dev :=
  (d.updConn n fun z => { z with outQ := z.outQ.map fun p =>
    if p.num = pdu then { p with data := overwrite p.data pos bs, reads := p.reads - 1 } else p }).stoFlush n

/-- A read of a PDU's data has failed: its command ends with HOST_ERR, nothing of it is sent (R289). -/
def Dev.stoReadFail (d : Dev) (n pdu : Nat) : Dev :=
  match (d.conn? n).bind fun c => c.outQ.find? fun p => p.num == pdu with
  | none => d
  | some p => ((d.stoComplete n p.cid none .hostErr false).stoFlush n).stoSettle n

/-- A write of a command's data has failed: the command ends with HOST_ERR (R288, R289). -/
def Dev.stoPlaceFail (d : Dev) (n cid : Nat) : Dev := ((d.stoComplete n cid none .hostErr false).stoFlush n).stoSettle n

/-- The fatal error (R280): one H2CTermReq with the status and the header that showed it, its own header under the digest of R276;
nothing more is queued. -/
def Dev.stoFatal (d : Dev) (n fes fei : Nat) (header : Bytes) : Dev :=
  match d.conn? n with
  | none => d
  | some c =>
    if c.terminated then d
    else
      let hd := pduHead 2 (b2n c.hdgst) 24 0 (24 + 4 * b2n c.hdgst + header.length) ++ bytesLE 2 fes ++ bytesLE 4 fei ++ List.replicate 10 0
      let h := hd ++ (if c.hdgst then bytesLE 4 (crc32c hd).toNat else []) ++ header
      let d1 := d.updConn n fun z => { z with outQ := [], rxBytes := [], rxOk := 0, tlsBytes := [] }
      (((d1.stream n h).updConn n fun z => { z with terminated := true }).bump .STO_TERM_SENT).stoSettle n

/-! ## TCP out (R271) -/

/-- A segment: the template with its fields filled in. -/
def Conn.segment (c : Conn) (seq : Nat) (payload : Bytes) (psh : Bool) : Bytes :=
  let h := c.hdr
  let o := (l3Of h).1
  let t := h.length - 20
  let tcp0 := slice h t 4 ++ bytesBE 4 seq ++ bytesBE 4 c.rcvNxt ++ [0x50#8, BitVec.ofNat 8 (16 + 8 * b2n psh)]
    ++ bytesBE 2 (bitsOf (c.word 4) 15 0) ++ [0, 0, 0, 0]
  let len := 20 + payload.length
  let pseudo := if c.v6 then slice h (o + 8) 32 ++ bytesBE 4 len ++ [0, 0, 0, 6] else slice h (o + 12) 8 ++ [0, 6] ++ bytesBE 2 len
  let tcp := overwrite tcp0 16 (bytesBE 2 (inetSum (pseudo ++ tcp0 ++ payload)))
  let ip := slice h o (t - o)
  let ip1 :=
    if c.v6 then overwrite ip 4 (bytesBE 2 (ip.length - 40 + len))
    else
      let x := overwrite (overwrite ip 2 (bytesBE 2 (ip.length + len) ++ [0, 0, 0x40#8, 0])) 10 [0, 0]
      overwrite x 10 (bytesBE 2 (inetSum x))
  h.take o ++ ip1 ++ tcp ++ payload

/-- A segment leaves as a host frame of the connection's function (R271). -/
def Dev.segFrame (d : Dev) (c : Conn) (bs : Bytes) (chain : List Nat) : Dev :=
  (d.addFrame { inPort := 24, stamp := d.now, bytes := bs, stage := .legend, seq := d.nextFrame, chain := chain, party := 98, since := d.ref,
                owner := c.fn, gen := c.gen }).2

/-- Unacknowledged bytes. -/
def Conn.flight (c : Conn) : Nat := sub32 c.sndNxt c.sndUna

/-- The smallest of the three limits of R271. -/
def Conn.limit (c : Conn) : Nat := min c.sndBuf (min c.cwnd (c.sndWnd * 2 ^ bitsOf (c.word 1) 15 12))

/-- Bytes the next segment may carry. -/
def Conn.sendable (c : Conn) : Nat := min (min c.mss c.sendQ.length) (c.limit - c.flight)

/-- The first waiting segment asks for its buffer. -/
def Dev.stoAsk (d : Dev) (n : Nat) : Dev :=
  match d.conn? n with
  | none => d
  | some c =>
    if c.asking || c.retryAt.isSome || !d.stoOn then d
    else
      match c.want with
      | [] => d
      | w :: _ =>
        let len := c.hdr.length + (match w with
          | .data k => k
          | .ack => 0)
        (d.updConn n fun z => { z with asking := true }).askBuffers 98 len (.storage n)

/-- Something sent acknowledges what has been received. -/
def Conn.acked (c : Conn) : Conn := { c with unacked := 0, ackAt := none }

/-- The buffer request of a connection has been decided (R271): a segment leaves with what the limits still allow; without a
buffer, or while the engine sends nothing, the request is made again 1 µs later (R284). -/
def Dev.stoBuffers (d : Dev) (n : Nat) (chain : Option (List Nat)) : Dev :=
  match d.conn? n, chain with
  | none, some ch => d.freeShare ch 98
  | none, none => d
  | some c, none => if c.asking then d.updConn n fun z => { z with asking := false, retryAt := some (d.ref + 1000) } else d
  | some c, some ch =>
    if !c.asking then d.freeShare ch 98
    else if !d.stoOn then (d.freeShare ch 98).updConn n fun z => { z with asking := false, retryAt := some (d.ref + 1000) }
    else
      match c.want with
      | [] => (d.freeShare ch 98).updConn n fun z => { z with asking := false }
      | .ack :: rest =>
        let bs := c.segment c.sndNxt [] false
        (((d.fill ch bs).segFrame c bs ch).updConn n fun z => { z.acked with want := rest, asking := false }).stoAsk n
      | .data k :: rest =>
        let m := min k c.sendable
        if m = 0 then ((d.freeShare ch 98).updConn n fun z => { z with want := rest, asking := false }).stoAsk n
        else
          let bs := c.sendQ.take m
          let seg := c.segment c.sndNxt bs (c.sendQ.length ≤ m)
          let nxt := (c.sndNxt + bs.length) % 2 ^ 32
          let d1 := ((d.fill ch seg).shareChain ch 98 [98, 98]).segFrame c seg ch
          (d1.updConn n fun z =>
            { z.acked with want := rest, asking := false, sendQ := z.sendQ.drop m, sndNxt := nxt, segs := z.segs ++ [(z.sndNxt, bs, ch)],
                           rtoAt := some (z.rtoAt.getD (d.ref + z.rto)), timed := some (z.timed.getD (nxt, d.ref)) }).stoAsk n

/-- STO_SEGMENT_TX: a segment is sent within the limits of R271. -/
def Dev.stoSegmentTx (d : Dev) (n : Nat) : Dev :=
  match d.conn? n with
  | none => d
  | some c =>
    if !c.live || !d.stoOn || !c.want.isEmpty || c.sendable = 0 then d
    else (d.updConn n fun z => { z with want := [.data c.sendable] }).stoAsk n

/-- An acknowledgement is owed at once. -/
def Dev.stoAck (d : Dev) (n : Nat) : Dev :=
  if d.stoOn then (d.updConn n fun z => { z.acked with want := z.want ++ [.ack] }).stoAsk n
  else d.updConn n fun z => { z with ackAt := some d.ref }

/-- The oldest unacknowledged segment is sent again, by an engine that sends (R271, R284). -/
def Dev.stoResend (d : Dev) (n : Nat) : Dev :=
  match d.conn? n with
  | none => d
  | some c =>
    match (if d.stoOn then c.segs else []) with
    | [] => d
    | (seq, bs, ch) :: _ =>
      let d1 := ((d.shareChain ch 98 [98, 98]).segFrame c (c.segment seq bs false) ch).bump .STO_RETRANSMIT
      d1.updConn n fun z => { z.acked with timed := none, retransmits := inc32 z.retransmits }

/-- STO_BUFFER_RETRY (R271). -/
def Dev.stoBufferRetry (d : Dev) (n : Nat) : Dev :=
  match d.conn? n with
  | none => d
  | some c =>
    match c.retryAt with
    | some t => if t ≤ d.ref && d.stoOn then (d.updConn n fun z => { z with retryAt := none }).stoAsk n else d
    | none => d

/-- Half the flight, at least two segments (RFC 5681). -/
def Conn.halfFlight (c : Conn) : Nat := max (c.flight / 2) (2 * c.mss)

/-- STO_RTO_EXPIRY: retransmission with a doubled timeout, or the loss of the connection after RETRIES timeouts (R271, R281). -/
def Dev.stoRtoExpiry (d : Dev) (n : Nat) : Dev :=
  match d.conn? n with
  | none => d
  | some c =>
    match c.rtoAt with
    | none => d
    | some t =>
      if t > d.ref || !c.live || !d.stoOn then d
      else if c.timeouts + 1 ≥ c.retries then d.connLost n 2
      else
        let rto := min (2 * c.rto) 1000000000
        let d1 := d.updConn n fun z =>
          { z with timeouts := z.timeouts + 1, ssthresh := if z.timeouts = 0 then c.halfFlight else z.ssthresh, cwnd := z.mss, dupAcks := 0,
                   rto := rto, rtoAt := some (d.ref + rto) }
        d1.stoResend n

/-- STO_ACK_TIMER: received data is acknowledged 40 µs after it came (R272). -/
def Dev.stoAckTimer (d : Dev) (n : Nat) : Dev :=
  match d.conn? n with
  | none => d
  | some c =>
    match c.ackAt with
    | some t => if t ≤ d.ref && c.live && d.stoOn then d.stoAck n else d
    | none => d

/-! ## TCP in (R270, R272) -/

/-- A round-trip measurement (RFC 6298). -/
def Conn.measure (c : Conn) (r : Nat) : Conn :=
  let (s, v) := match c.srtt with
    | none => (r, r / 2)
    | some s => ((7 * s + r) / 8, (3 * c.rttvar + (if s > r then s - r else r - s)) / 4)
  { c with srtt := some s, rttvar := v, rto := min 1000000000 (max c.rtoMin (s + max 2 (4 * v))) }

/-- Segments after an acknowledgement of everything before `ack`; the chains given up. -/
def trimSegs (ack : Nat) : List (Nat × Bytes × List Nat) → List (Nat × Bytes × List Nat) × List (List Nat)
  | [] => ([], [])
  | (seq, bs, ch) :: rest =>
    let k := sub32 ack seq
    if k ≥ 2 ^ 31 || k = 0 then ((seq, bs, ch) :: rest, [])
    else if k ≥ bs.length then
      let (l, f) := trimSegs ack rest
      (l, ch :: f)
    else ((ack, bs.drop k, ch) :: rest, [])

/-- The acknowledgement and window of a received segment (RFC 5681, RFC 6298). -/
def Dev.stoAcks (d : Dev) (n ack wnd : Nat) (empty : Bool) : Dev :=
  match d.conn? n with
  | none => d
  | some c =>
    let k := sub32 ack c.sndUna
    if k ≠ 0 && k ≤ c.flight then
      let (segs, freed) := trimSegs ack c.segs
      let d1 := freed.foldl (fun x ch => x.freeShare ch 98) d
      let sampled := match c.timed with
        | some (e, t) => if sub32 ack e < 2 ^ 31 then { c.measure (d.ref - t) with timed := none } else c
        | none => c
      let cwnd :=
        if c.dupAcks ≥ 3 then c.ssthresh
        else if c.cwnd < c.ssthresh then c.cwnd + min k c.mss
        else c.cwnd + max 1 (c.mss * c.mss / c.cwnd)
      d1.updConn n fun _ =>
        { sampled with sndUna := ack, segs := segs, sndWnd := wnd, cwnd := cwnd, dupAcks := 0, timeouts := 0,
                       rtoAt := if segs.isEmpty then none else some (d.ref + sampled.rto) }
    else if k = 0 && empty && wnd = c.sndWnd && c.flight ≠ 0 then
      let dup := c.dupAcks + 1
      if dup = 3 then
        (d.updConn n fun z => { z with dupAcks := dup, ssthresh := c.halfFlight, cwnd := c.halfFlight + 3 * c.mss }).stoResend n
      else d.updConn n fun z => { z with dupAcks := dup, cwnd := if dup > 3 then z.cwnd + z.mss else z.cwnd }
    else if k = 0 then d.updConn n fun z => { z with sndWnd := wnd }
    else d

/-- The next whole record received goes to the cipher engine, one at a time for a connection. -/
def Dev.tlsNext (d : Dev) (n : Nat) : Dev :=
  match d.conn? n with
  | none => d
  | some c =>
    let len := 5 + be c.tlsBytes 3 2
    if c.state ≠ .active || c.terminated || c.rxRec.isSome || c.tlsBytes.length < 5 || c.tlsBytes.length < len then d
    else
      let (k, d1) := d.addRec { conn := n, fn := c.fn, gen := c.gen, slot := c.rxSlot, tx := false, bytes := c.tlsBytes.take len, inner := 0,
                                  path := (d.qpPath c.qp true).strict }
      d1.updConn n fun z => { z with tlsBytes := z.tlsBytes.drop len, rxRec := some k }

/-- Received stream bytes. -/
def Dev.stoTake (d : Dev) (n : Nat) (bs : Bytes) : Dev :=
  match d.conn? n with
  | none => d
  | some c =>
    if c.terminated then d
    else if c.tls then (d.updConn n fun z => { z with tlsBytes := z.tlsBytes ++ bs }).tlsNext n
    else d.updConn n fun z => { z with rxBytes := z.rxBytes ++ bs, rxOk := z.rxOk + bs.length }

/-- The payload of a segment: accepted in order within the window, or dropped and answered at once (R272). -/
def Dev.stoPayload (d : Dev) (n seq : Nat) (bs : Bytes) : Dev :=
  match d.conn? n with
  | none => d
  | some c =>
    let window := bitsOf (c.word 4) 15 0 * 2 ^ bitsOf (c.word 1) 11 8
    if bs.isEmpty && seq = c.rcvNxt then d
    else if c.state = .active && seq = c.rcvNxt && bs.length ≤ window then
      let full := decide (bs.length ≥ c.mss)
      let d1 := (d.updConn n fun z => { z with rcvNxt := (z.rcvNxt + bs.length) % 2 ^ 32, unacked := z.unacked + b2n full,
                                               ackAt := some (z.ackAt.getD (d.ref + 40000)) }).stoTake n bs
      if full && c.unacked ≥ 1 then d1.stoAck n else d1
    else
      let d1 := if bs.isEmpty then d else (d.bump .STO_RX_DISCARD).updConn n fun z => { z with discards := inc32 z.discards }
      d1.stoAck n

/-- A copy to a function is offered to the engine: the connection of that function whose template it answers (R270). -/
def Dev.stoOffer (d : Dev) (id : Nat) (c : Copy) (e : Dev) : Option Dev :=
  if !d.available 8 then none
  else
    match tcpOf c.bytes with
    | none => none
    | some (v6, src, dst, t, _) =>
      let hit (k : Conn) : Bool :=
        let o := (l3Of k.hdr).1
        let p := k.hdr.length - 20
        k.live && k.fn == c.dest - 1000 && k.v6 == v6
            && (if v6 then be k.hdr (o + 8) 16 == dst && be k.hdr (o + 24) 16 == src else be k.hdr (o + 12) 4 == dst && be k.hdr (o + 16) 4 == src)
            && be k.hdr p 2 == be c.bytes (t + 2) 2 && be k.hdr (p + 2) 2 == be c.bytes t 2
      (d.sto.conns.first? fun _ k => hit k).map fun k => (e.updCopy id fun x => { x with stage := .storage k.1 }).copyLeft c

/-- STO_SEGMENT_RX: a segment of a connection (R272, R281). -/
def Dev.stoSegmentRx (d : Dev) (id : Nat) : Dev :=
  match d.copy? id with
  | none => d
  | some c =>
    match c.stage with
    | .storage n =>
      match d.conn? n, tcpOf c.bytes with
      | some k, some (_, _, _, t, e) =>
        let d1 := d.endCopy id
        let flags := (byteAt c.bytes (t + 13)).toNat
        let off := 4 * ((byteAt c.bytes (t + 12)).toNat / 16)
        if !k.live || !d.available 8 || d.gen k.fn ≠ k.gen then d1
        else if bitN flags 2 || bitN flags 0 then d1.connLost n 1
        else
          let bs := slice c.bytes (t + off) (e - (t + off))
          let d2 := if bitN flags 4 then d1.stoAcks n (be c.bytes (t + 8) 4) (be c.bytes (t + 14) 2) bs.isEmpty else d1
          (d2.stoPayload n (be c.bytes (t + 4) 4) bs).stoSettle n
      | _, _ => d.endCopy id
    | _ => d

/-! ## Commands (R273) -/

/-- The reserved bits of a command entry are 0. -/
def entryOk (e : Bytes) : Bool :=
  bitsOf (le32 e 0) 31 30 != 3 && bitsOf (le32 e 0) 28 14 == 0 && le32 e 4 == 0
    && (List.range 12).all fun i => le32 e (0x10 + 4 * i) == 0

/-- A command context is available for a connection (R267, R284). -/
def Dev.ctxFree (d : Dev) (c : Conn) : Bool :=
  !c.terminated && decide (c.cmds.size < c.cmdMax) && decide (d.cmdsOf (fun k => k.fn == c.fn) < d.get Fld.STO_FUNC_QUOTA_CMD_LIMIT c.fn)
    && decide (d.cmdsOf (fun _ => true) < 65536)

/-- The ring of a storage-mode queue pair has an entry that may be fetched (R262, R284, R296 to R300). -/
def Dev.ringReady (d : Dev) (q : Nat) : Bool :=
  match d.qpOwner q with
  | none => false
  | some f =>
    let s := d.qp q
    d.stoOn && d.dmaIssues && d.fetches f && d.on? Fld.HIF_QP_CTX_ENABLE q && d.on? Fld.HIF_QP_CTX_MODE q && s.txFetched != s.txTail
      && decide (sub32 s.rxcTail s.rxcHead + d.cmdsOf (fun c => c.qp == q) < d.rxSize q)

/-- It takes part in the round of R267: a connection bound to it has a context, or none is bound to it, so that its entry ends
without one. -/
def Dev.ringTakes (d : Dev) (q : Nat) : Bool :=
  let bound := d.sto.conns.vals.filter fun c => c.qp == q && c.live
  d.ringReady q && (bound.isEmpty || bound.any d.ctxFree)

/-- A ring has its turn: rings are served in round-robin order (R267). -/
def Dev.ringTurn (d : Dev) (q : Nat) : Bool :=
  let l := d.dma.qps.keys.filter d.ringTakes
  ((l.find? fun x => decide (d.sto.lastRing < x)).or l.head?) == some q

/-- STO_CMD_FETCH: the next entry of a storage-mode ring (R273, R267, R282). `entry` and `desc` are what host memory holds of the
entry and of its scatter-gather list. An entry that can take no context stays in its ring, and the next ring has its turn. -/
def Dev.stoCmdFetch (d : Dev) (q : Nat) (entry desc : Option Bytes) : Dev :=
  match d.qpOwner q with
  | none => d
  | some f =>
    if !d.ringTurn q then d
    else
      let s := d.qp q
      let size := d.txSize q
      let idx := s.txFetched
      let at_ := (d.qpAddr q 4 + 128 * (idx % size), 128)
      let pass (x : Dev) : Dev := { x with sto := { x.sto with lastRing := q } }
      let txPath : Path := { d.qpPath q false with desc := some idx }
      let rxPath : Path := { d.qpPath q true with desc := some idx }
      let owner : Conn := { fn := f, gen := d.gen f, record := [toWord q], sndNxt := 0, sndUna := 0, rcvNxt := 0, sndWnd := 0, cwnd := 0,
                            ssthresh := 0, rto := 0, txSlot := 0, rxSlot := 0 }
      let take (x : Dev) (reads : List (Nat × Nat)) : Dev :=
        (((pass x).setQp q { s with txFetched := inc32 idx }).putReads f reads).prefetch q f (d.qpAddr q 4) size 128 (inc32 idx) s.txTail
      let (r1, d0) := d.reachPages f [at_]
      match r1, entry with
      | .waits, _ => d0
      | .denied, _ | .ready, none =>
        let (w, d2) := ((take d0 (if r1 = .ready then [at_] else [])).hostError f).drawWord
        let (cqe, d3) := d2.openCqe (bitsOf w 15 0)
        d3.stoPost rxPath (bitsOf w 29 16) owner cqe .hostErr 0 false false
      | .ready, some e =>
        let n := bitsOf (le32 e 0) 13 0
        let cid := le e 0x42 2
        let dir := bitsOf (le32 e 0) 31 30
        let fail (x : Dev) (st : Status) : Dev :=
          let (cqe, y) := x.openCqe cid
          y.stoPost rxPath n owner cqe st 0 false false
        if !entryOk e then fail (take d0 [at_]) .badParam
        else
          match d.conn? n with
          | none => fail (take d0 [at_]) .connLost
          | some c =>
            if c.fn ≠ f || c.qp ≠ q || (c.live && (c.cmds.look? cid).isSome) then fail (take d0 [at_]) .badParam
            else if !c.live then fail (take d0 [at_]) .connLost
            else if !d.ctxFree c then pass d
            else
              let go (x : Dev) (barrier : Bool) (total : Nat) (elems : List (Nat × Nat)) : Dev :=
                let k : StoCmd :=
                  { cid := cid, txPath := { txPath with barrier := barrier }, rxPath := { rxPath with barrier := barrier }, dir := dir,
                    total := total, elems := elems }
                let icd := (le32 e 0).getLsbD 29 && dir == 1 && decide (total ≤ c.icdMax)
                let len := if icd then total else 0
                ((x.updConn n fun z => { z with cmds := z.cmds.put cid k }).queuePdu n k (c.frontOf 4 0 (slice e 0x40 64) len) 0 len false).stoFlush n
              if dir = 0 then go (take d0 [at_]) false 0 []
              else
                let a := le e 8 8
                let reads := match desc with
                  | some bs => (readDesc bs a).reads
                  | none => [(a, 16)]
                let (r2, d1) := if a % 16 = 0 then d0.reachPages f reads else (.ready, d0)
                match r2, desc with
                | .waits, _ => d1
                | .denied, _ => fail ((take d1 [at_]).hostError f) .hostErr
                | .ready, none => fail ((take d1 (at_ :: reads)).hostError f) .hostErr
                | .ready, some bs =>
                  let r := readDesc bs a
                  if a % 16 ≠ 0 then fail (take d1 [at_]) .badParam
                  else
                    let d2 := take d1 (at_ :: reads)
                    if !r.ok || r.late || r.stamp then fail d2 .badParam else go d2 r.barrier r.total r.elems

/-! ## PDUs in (R266, R275 to R280) -/

/-- What the head of the received bytes is. -/
inductive PduIn where
  | more
  /-- Fatal error status, its information, bytes of the header. -/
  | bad (fes fei : Nat) (len : Nat)
  /-- Type, flags, data offset and length of the PDU. -/
  | good (typ flags pdo plen : Nat)
  deriving DecidableEq, Repr

/-- Reads the head of the received bytes (R266, R276, R280). -/
def Conn.pduIn (c : Conn) : PduIn :=
  let b := c.rxBytes
  let typ := (byteAt b 0).toNat
  let flags := (byteAt b 1).toNat
  let plen := le b 4 4
  let term := typ == 3
  let hd := if c.hdgst then 4 else 0
  if b.length < 8 then .more
  else if !(typ == 3 || typ == 5 || typ == 7 || typ == 9) then .bad 1 0 8
  else if byteAt b 2 ≠ 24 then .bad 1 2 8
  else if b.length < 24 + hd then .more
  else if hd = 4 && crc32c (b.take 24) ≠ le32 b 24 then .bad 3 (le b 24 4) 24
  else
    let datal := le b 16 4
    let pdo := (byteAt b 3).toNat
    let dd := if c.ddgst && datal ≠ 0 then 4 else 0
    let want := b2n c.hdgst
    let free := if typ = 7 then flags / 4 * 4 - flags / 16 * 16 else 0
    if typ = 7 then
      if flags ≠ want + 2 * b2n (dd ≠ 0) + free || free = 8 then .bad 1 1 24
      else if datal ≠ 0 && (pdo < 24 + hd || pdo % 4 ≠ 0) then .bad 1 3 24
      else if plen ≠ (if datal = 0 then 24 + hd else pdo + datal + dd) then .bad 1 4 24
      else if le b 10 2 ≠ 0 || le b 20 4 ≠ 0 then .bad 1 10 24
      else .good typ flags (if datal = 0 then 24 + hd else pdo) plen
    else
      if flags ≠ want then .bad 1 1 24
      else if pdo ≠ 0 then .bad 1 3 24
      else if (term && (plen < 24 + hd || plen > 152 + hd)) || (!term && plen ≠ 24 + hd) then .bad 1 4 24
      else if typ = 9 && le b 20 4 ≠ 0 then .bad 1 20 24
      else if term && le b 14 10 ≠ 0 then .bad 1 14 24
      else .good typ flags 0 plen

/-- A PDU has been handled. -/
def Dev.pduDone (d : Dev) (n plen : Nat) : Dev :=
  d.updConn n fun z => { z with rxBytes := z.rxBytes.drop plen, rxOk := z.rxOk - plen, rxPos := z.rxPos + plen, pduDone := 0 }

/-- The connection's next PDU, when it is of type `typ`; a fatal error is acted on whichever is asked for, once the record that
holds its header's last byte has verified (R277, R280). -/
def Dev.onPdu (d : Dev) (n typ : Nat) (k : Conn → Nat → Nat → Nat → Dev → Dev) : Dev :=
  match d.conn? n with
  | none => d
  | some c =>
    if c.state ≠ .active || c.terminated || !d.available 8 then d
    else
      match c.pduIn with
      | .more => d
      | .bad fes fei len =>
        if c.rxOk < len + (if fes = 3 then 4 else 0) then d
        else (if fes = 3 then d.bump .STO_HDGST_ERR else d).stoFatal n fes fei (c.rxBytes.take len)
      | .good t flags pdo plen => if t = typ then k c flags pdo plen d else d

/-- PDU_CAPSULE_RESP: the command completes, once every data PDU of it has been handled (R279). One that names no outstanding
command changes nothing. -/
def Dev.pduCapsuleResp (d : Dev) (n : Nat) : Dev :=
  d.onPdu n 5 fun c _ _ plen d =>
    let cid := le c.rxBytes 20 2
    if c.rxOk < plen || c.outQ.any (·.cid == cid) then d
    else
      let st : Status := if ((c.cmds.look? cid).map (·.failed)).getD false then .digestErr else .ok
      (((d.pduDone n plen).stoComplete n cid (some (wordsOf (slice c.rxBytes 8 16) 4)) st false).stoFlush n).stoSettle n

/-- PDU_R2T: an H2CData transfer begins, as PDUs of at most MAXH2CDATA bytes (R274, R280). -/
def Dev.pduR2t (d : Dev) (n : Nat) : Dev :=
  d.onPdu n 9 fun c _ _ plen d =>
    let cid := le c.rxBytes 8 2
    let tag := le c.rxBytes 10 2
    let off := le c.rxBytes 12 4
    let len := le c.rxBytes 16 4
    let bad (fes : Nat) : Dev := d.stoFatal n fes 0 (c.rxBytes.take 24)
    if c.rxOk < plen then d
    else
      match c.cmds.look? cid with
      | none => bad 2
      | some k =>
        if k.lastSeen || k.ended.isSome then bad 2
        else if off + len > (if k.dir = 1 then k.total else 0) then bad 4
        else if k.r2ts ≥ c.maxR2t + 1 then bad 5
        else
          let d1 := (d.pduDone n plen).updConn n fun z => { z with cmds := z.cmds.modify cid fun y => { y with r2ts := y.r2ts + 1 } }
          let count := max 1 (ceilDiv len c.maxH2c)
          ((List.range count).foldl (fun x i =>
            let o := off + i * c.maxH2c
            let m := min c.maxH2c (off + len - o)
            let last := i + 1 == count
            let body := bytesLE 2 cid ++ bytesLE 2 tag ++ bytesLE 4 o ++ bytesLE 4 m ++ bytesLE 4 0
            x.queuePdu n k (c.frontOf 6 (4 * b2n last) body m) o m last) d1).stoFlush n

/-- Writes a piece of a command's data, and notes it with the receive record that has not yet verified (R275, R277). -/
def Dev.stoPlace (d : Dev) (n cid : Nat) (c : Conn) (k : StoCmd) (off : Nat) (bs : Bytes) : Dev :=
  let ranges := sglRange k.elems off bs.length
  let d1 := (ranges.foldl (fun (acc : Dev × Nat) r =>
    (acc.1.queueWrite k.rxPath c.fn r.1 (slice bs acc.2 r.2) fun _ => .placed n cid c.rxRec, acc.2 + r.2)) (d, 0)).1
  d1.updConn n fun z => { z with cmds := z.cmds.modify cid fun y =>
    { y with placed := y.placed + bs.length, records := if c.rxRec.isSome && !y.records.contains (c.rxRec.getD 0) then y.records ++ [c.rxRec.getD 0] else y.records } }

/-- What is placed of the present C2HData PDU: verified bytes first, which no record answers for any more, then the rest. -/
def Dev.c2hPlace (d : Dev) (n cid : Nat) (c : Conn) (k : StoCmd) (pdo off datal : Nat) : Dev :=
  let avail := min datal (c.rxBytes.length - pdo)
  let sure := max c.pduDone (min avail (c.rxOk - pdo))
  if k.failed || avail ≤ c.pduDone then d.updConn n fun z => { z with pduDone := max avail c.pduDone }
  else
    let d1 := if sure > c.pduDone then
        d.stoPlace n cid { c with rxRec := none } k (off + c.pduDone) (slice c.rxBytes (pdo + c.pduDone) (sure - c.pduDone))
      else d
    let d2 := if avail > sure then d1.stoPlace n cid c k (off + sure) (slice c.rxBytes (pdo + sure) (avail - sure)) else d1
    d2.updConn n fun z => { z with pduDone := avail }

/-- PDU_C2H_DATA: data is placed as its plaintext arrives; the whole PDU, verified, has its digest checked and may complete its
command (R275 to R277, R279). -/
def Dev.pduC2hData (d : Dev) (n : Nat) : Dev :=
  d.onPdu n 7 fun c flags pdo plen d =>
    let cid := le c.rxBytes 8 2
    let off := le c.rxBytes 12 4
    let datal := le c.rxBytes 16 4
    let bad (fes : Nat) : Dev := if c.rxOk < 24 then d else d.stoFatal n fes 0 (c.rxBytes.take 24)
    match c.cmds.look? cid with
    | none => bad 2
    | some k =>
      if k.lastSeen || k.ended.isSome then bad 2
      else if off + datal > (if k.dir = 2 then k.total else 0) then bad 4
      else
        let d1 := d.c2hPlace n cid c k pdo off datal
        if c.rxOk < plen then d1
        else
          let wrong := c.ddgst && datal != 0 && crc32c (slice c.rxBytes pdo datal) != le32 c.rxBytes (pdo + datal)
          let d2 := if wrong then d1.bump .STO_DDGST_ERR else d1
          let d3 := (d2.pduDone n plen).updConn n fun z => { z with cmds := z.cmds.modify cid fun y =>
            { y with failed := y.failed || wrong, lastSeen := bitN flags 2 } }
          if bitN flags 3 then
            (((d3.stoComplete n cid (some [0, 0, 0, toWord cid]) (if k.failed || wrong then .digestErr else .ok) true)).stoFlush n).stoSettle n
          else d3

/-- PDU_C2H_TERM_REQ: the connection is lost (R266, R281). -/
def Dev.pduC2hTermReq (d : Dev) (n : Nat) : Dev := d.onPdu n 3 fun c _ _ plen d => if c.rxOk < plen then d else d.connLost n 4

/-! ## TLS records (R199 to R201, R277, R278) -/

/-- The nonce of a record (RFC 8446): the static IV and the sequence number. -/
def tlsNonce (r : List Word) (seq : Nat) : Bytes := List.zipWith (· ^^^ ·) (krNet r 10 3) (bytesBE 4 0 ++ bytesBE 8 seq)

/-- A protected record. -/
def tlsSeal (r : List Word) (seq : Nat) (inner : Nat) (bs : Bytes) : Bytes :=
  let pt := bs ++ [BitVec.ofNat 8 inner]
  let aad := [23#8, 3, 3] ++ bytesBE 2 (pt.length + 16)
  let ct := gcmSeal (krKeyBytes r) (tlsNonce r seq) aad pt
  aad ++ ct ++ gcmTag (krKeyBytes r) (tlsNonce r seq) aad ct

/-- A received record may be decrypted: its type and length are in order (R199, R200). -/
def tlsRecordOk (b : Bytes) : Bool := byteAt b 0 == 23 && decide (17 ≤ be b 3 2) && decide (be b 3 2 ≤ 16384 + 256)

/-- The plaintext of a received record before its tag is checked: content and inner type, the padding taken off. -/
def tlsOpen (r : List Word) (seq : Nat) (b : Bytes) : Bytes × Nat :=
  let aad := b.take 5
  let pt := gcmOpen (krKeyBytes r) (tlsNonce r seq) aad (slice b 5 (be b 3 2 - 16))
  let core := (pt.reverse.dropWhile (· == 0)).reverse
  (core.dropLast, (core.getLast?.map (·.toNat)).getD 0)

/-- The tag of a received record verifies. -/
def tlsTagOk (r : List Word) (seq : Nat) (b : Bytes) : Bool :=
  tlsRecordOk b && gcmTag (krKeyBytes r) (tlsNonce r seq) (b.take 5) (slice b 5 (be b 3 2 - 16)) == slice b (be b 3 2 - 11) 16

/-- A record completes without having verified: commands that received bytes of it complete with its status, and the connection is
lost (R201, R204, R277). -/
def Dev.recordEnds (d : Dev) (k : Nat) (r : TlsRec) (st : Status) : Dev :=
  let d1 := d.dropRec k
  match d1.conn? r.conn with
  | none => d1
  | some c =>
    if d1.gen c.fn ≠ r.gen || !(c.rxRec == some k || c.txRecs.contains k) then d1
    else
      let hit := (c.cmds.cells.filter fun e => e.2.records.contains k).map (·.1)
      (hit.foldl (fun x cid => x.stoComplete r.conn cid none st false) (d1.updConn r.conn fun z => { z with failing := false })).connLost
        r.conn 5

/-- A record completes with AUTH_FAIL (R201). -/
def Dev.tlsFailed (d : Dev) (k : Nat) : Dev :=
  match d.sto.records.look? k with
  | none => d
  | some r => (d.bump .CIP_TLS_AUTH_FAIL).recordEnds k r .authFail

/-- A record of the storage engine is admitted (R185, R190): a slot that is not ACTIVE or of another type refuses it, and it
completes with AUTH_FAIL at once; plaintext of a receive record is there from now on. -/
def Dev.tlsAdmit (d : Dev) (core k : Nat) : Dev :=
  match d.sto.records.look? k with
  | none => d.tlsFeed
  | some r =>
    let s := d.slot r.slot
    if d.gen r.fn ≠ r.gen then (d.dropRec k).tlsFeed
    else if !s.takes (if r.tx then 5 else 6) then ((d.bump .CIP_SLOT_DROP).tlsFailed k).tlsFeed
    else if r.tx then
      let (v, d1) := d.takeValue r.slot
      (d1.startOp core (.tls k) r.slot v r.fn 0).tlsFeed
    else
      let d1 := (d.startOp core (.tls k) r.slot s.next r.fn 0).tlsFeed
      if !tlsRecordOk r.bytes then d1
      else
        let (pt, inner) := tlsOpen s.record s.next r.bytes
        match d1.conn? r.conn with
        | none => d1
        | some c =>
          let d2 := d1.updRec k fun y => { y with inner := inner, pos := c.rxPos + c.rxBytes.length, len := pt.length }
          if inner = 23 then d2.updConn r.conn fun z => { z with rxBytes := z.rxBytes ++ pt } else d2

/-- Transmit records that are complete join the byte stream in their order. -/
def Dev.tlsOut (d : Dev) (n : Nat) : Nat → Dev
  | 0 => d
  | fuel + 1 =>
    match d.conn? n with
    | none => d
    | some c =>
      match c.txRecs with
      | [] => d
      | k :: rest =>
        match (d.sto.records.look? k).bind (·.out) with
        | none => d
        | some b => ((d.dropRec k).updConn n fun z => { z with txRecs := rest, sendQ := z.sendQ ++ b }).tlsOut n fuel

/-- What a failed record still had to write is not written; what it has written is overwritten with zeros, and after the last of
these writes the last byte is read back (R201). -/
def Dev.tlsZero (d : Dev) (k : Nat) (r : TlsRec) : Dev :=
  let d1 := d.dropBursts fun b => match b with
    | .placed _ _ (some x) => x == k
    | _ => false
  if r.placed.isEmpty then d1.tlsFailed k
  else
    r.placed.foldl (fun x p => x.queueWrite r.path r.fn p.1 (List.replicate p.2 0) fun _ => .zero k)
      (d1.updRec k fun y => { y with zeroing := true })

/-- A record leaves its core (R183, R200, R201). What its connection gets of it goes to that connection alone, not to one that has
since been offloaded under its number (R277). -/
def Dev.tlsComplete (d : Dev) (core k : Nat) (o : CipOp) : Dev :=
  match d.sto.records.look? k with
  | none => d.freeCore core 0
  | some r =>
    if r.tx then
      let out := tlsSeal o.record o.value r.inner r.bytes
      let d1 := d.freeCore core (out.length - 5)
      if (d.conn? r.conn).isNone || d.gen r.fn ≠ r.gen then d1.dropRec k
      else (d1.updRec k fun y => { y with out := some out }).tlsOut r.conn (d.sto.records.size + 1)
    else
      let d1 := d.freeCore core (be r.bytes 3 2)
      if d.gen r.fn ≠ r.gen then d1.dropRec k
      else
        let s := d.opSlot o
        let own := (d.conn? r.conn).filter fun c => c.rxRec == some k
        if tlsTagOk o.record o.value r.bytes then
          let d2 := ((d.setOpSlot o { s with next := s.next + 1 }).freeCore core (be r.bytes 3 2)).dropRec k
          match own with
          | none => d2
          | some c =>
            let d3 := d2.updConn r.conn fun z => { z with rxRec := none }
            if !c.live then d3
            else if r.inner = 23 then (d3.updConn r.conn fun z => { z with rxOk := z.rxBytes.length }).tlsNext r.conn
            else
              ((d3.updConn r.conn fun z => { z with state := .paused }).emit
                (.rawRecord c.qp r.conn r.inner (tlsOpen o.record o.value r.bytes).1)).stoPost (d3.qpPath c.qp true) r.conn c [0, 0, 0, 0] .ok 0 false true
        else
          let d2 := (d.setOpSlot o { s with state := if s.state = 1 then 3 else s.state, tagFails := inc32 s.tagFails }).freeCore core
            (be r.bytes 3 2)
          (if own.isNone then d2
           else d2.updConn r.conn fun z => if z.live then { z with terminated := true, failing := true, outQ := [] } else z).tlsZero k r

/-- The read that follows the zeroing has returned (R201). -/
def Dev.tlsZeroed (d : Dev) (k : Nat) : Dev :=
  if ((d.sto.records.look? k).map (·.zeroing)).getD false then d.tlsFailed k else d

/-- TLS_ZERO_READ_DONE: the read of a failed record's last byte returns; one that fails is a host error beside it (R201, R289). -/
def Dev.tlsZeroReadDone (d : Dev) (k : Nat) (ok : Bool) : Dev :=
  match d.dma.bursts.first? fun _ b => b.for_ == .zeroRead k && b.issued with
  | none => d
  | some (id, b) =>
    let d1 := d.dropBurst id
    if d.gen b.fn ≠ b.gen then d1.dropRec k else (if ok then d1 else d1.hostError b.fn).tlsZeroed k

/-! ## Vucel commands (R268, R278, R281, R282) -/

/-- A TLS slot a connection of the function may use. -/
def Dev.tlsSlotOk (d : Dev) (f k typ : Nat) : Bool := (d.slot k).takes typ && krOwner (d.slot k).record == f

/-- STO_CONN_OFFLOAD (R268). -/
def Dev.stoConnOffload (d : Dev) (n f : Nat) (p : Bytes) : Dev :=
  let k := bitsOf (le32 p 0) 13 0
  let r := wordsOf (p.drop 4) 36
  let c : Conn :=
    { fn := f, gen := d.gen f, record := r, sndNxt := (r.getD 2 0).toNat, sndUna := (r.getD 2 0).toNat, rcvNxt := (r.getD 3 0).toNat,
      sndWnd := bitsOf (r.getD 4 0) 31 16, cwnd := 10 * bitsOf (r.getD 1 0) 31 16, ssthresh := 2 ^ 30,
      rto := 10000 * bitsOf (r.getD 5 0) 15 0, txSlot := bitsOf (r.getD 10 0) 13 0, rxSlot := bitsOf (r.getD 11 0) 13 0 }
  let tlsBad := c.tls && !(d.tlsSlotOk f c.txSlot 5 && d.tlsSlotOk f c.rxSlot 6)
  if !connReserved r || !connRanges r || !templateOk c.v6 c.hdr (wordBytes (r.drop 12)) || d.qpOwner c.qp ≠ some f
      || !d.on? Fld.HIF_QP_CTX_MODE c.qp || tlsBad || d.connCount f ≥ d.get Fld.STO_FUNC_QUOTA_CONN_LIMIT f then d.reply n .badParam
  else if (d.conn? k).isSome then d.reply n .badState
  else ({ d with sto := { d.sto with conns := d.sto.conns.put k c } } : Dev).replyOk n

/-- A connection named by a command belongs to FUNCTION (R309). -/
def Dev.ownConn (d : Dev) (n f k : Nat) (go : Conn → Dev → Dev) : Dev :=
  match d.conn? k with
  | none => d.reply n .badState
  | some c => if c.fn ≠ f then d.reply n .badParam else go c d

/-- STO_CONN_RETURN (R281); a RETURNED connection has nothing outstanding and becomes FREE at once. -/
def Dev.stoConnReturn (d : Dev) (n f : Nat) (p : Bytes) : Dev :=
  let k := bitsOf (le32 p 0) 13 0
  d.ownConn n f k fun c d =>
    if !c.live then d.connFree k n c
    else if (le32 p 0).getLsbD 31 && c.failing then
      -- its commands complete when the zeroing has ended, and the return with them (R201)
      d.updConn k fun z => { z with returning := some (n, d.ref + 2 ^ 64) }
    else if (le32 p 0).getLsbD 31 then
      let d1 := ((d.stoFail k .connLost).bump .STO_CONN_LOST_CNT).event c.fn 0x8003 (wordBytes [toWord k, toWord 6])
      d1.connFree k n c
    else if c.returning.isSome then d.reply n .badState
    else (d.updConn k fun z => { z with returning := some (n, d.ref + 1000 * (le32 p 4).toNat) }).stoSettle k

/-- STO_RETURN_TIMEOUT (R281). -/
def Dev.stoReturnTimeout (d : Dev) (k : Nat) : Dev :=
  match (d.conn? k).bind (·.returning) with
  | some (n, t) => if t ≤ d.ref then (d.updConn k fun z => { z with returning := none }).reply n .badState else d
  | none => d

/-- STO_CONN_RESUME (R278). -/
def Dev.stoConnResume (d : Dev) (n f : Nat) (p : Bytes) : Dev :=
  let k := bitsOf (le32 p 0) 13 0
  let slot := bitsOf (le32 p 4) 13 0
  let fresh := (le32 p 0).getLsbD 31
  d.ownConn n f k fun c d =>
    if c.state ≠ .paused then d.reply n .badState
    else if fresh && !d.tlsSlotOk f slot 6 then d.reply n .badParam
    else ((d.updConn k fun z => { z with state := .active, rxSlot := if fresh then slot else z.rxSlot }).tlsNext k).replyOk n

/-- STO_CONN_REKEY: a handshake record under the old slot, the new slot for every record after it (R278). -/
def Dev.stoConnRekey (d : Dev) (n f : Nat) (p : Bytes) : Dev :=
  let k := bitsOf (le32 p 0) 13 0
  let slot := bitsOf (le32 p 4) 13 0
  let len := (le32 p 8).toNat
  d.ownConn n f k fun c d =>
    if !c.live || !c.tls || c.terminated then d.reply n .badState
    else if len < 1 || len > 64 || !d.tlsSlotOk f slot 5 then d.reply n .badParam
    else ((d.sendRecords k 22 (slice p 12 len)).updConn k fun z => { z with txSlot := slot }).replyOk n

/-- STO_CONN_STATE (R282). -/
def Dev.stoConnState (d : Dev) (n f : Nat) (p : Bytes) : Dev :=
  let k := bitsOf (le32 p 0) 13 0
  match d.conn? k with
  | none => d.replyOk n [0, 0, 0, 0, 0, 0, 0, 0]
  | some c =>
    if c.fn ≠ f then d.reply n .badParam
    else
      d.replyOk n ([d.connWord k] ++ c.seqs ++
        [toWord (c.sndWnd * 2 ^ bitsOf (c.word 1) 15 12), toWord c.cwnd, toWord c.retransmits, toWord c.discards])

/-- The part of a FUNCTION reset in the storage engine: every connection of the function is FREE at once (R282). -/
def Dev.stoFuncReset (d : Dev) (f : Nat) : Dev :=
  let mine := (d.sto.conns.cells.filter fun e => e.2.fn == f).map (·.1)
  let d1 := mine.foldl (fun x k => x.stoRelease k) d
  { d1 with sto := { d1.sto with conns := d1.sto.conns.keep fun _ c => c.fn != f,
                                 records := d1.sto.records.keep fun k r => r.fn != f || (d.cip.cores.first? fun _ o => o.subject == .tls k).isSome } }

/-! ## Host reads that fail (R289) -/

/-- HOST_READ_ERROR: what the read belongs to ends with HOST_ERR. -/
def Dev.hostReadError (d : Dev) : FailedRead → Dev
  | .burst n => d.readError n (fun n pdu e => e.stoReadFail n pdu) fun k e => e.tlsZeroed k
  | .admin pf => d.adminReadError pf

end Sys2Proof.Machine
end

