-- ==== Sys2Proof/Machine/MailOps.lean ====
section
/-!
DEFINITION. Mailboxes (R346 to R350, R355), slow-path verdicts (R345), and the SMBus and management VLAN transports (R334,
R335).
-/
namespace Sys2Proof.Machine

/-! ## Permissions -/

/-- R346 permits a send of a kind from a function to a mailbox. -/
def Dev.mayMail (d : Dev) (sender receiver kind : Nat) : Bool :=
  if receiver = 1024 then kind == 0
  else if receiver < 1024 then
    kind != 0 && ((4 ≤ sender && receiver == pfOf sender) || (sender < 4 && 4 ≤ receiver && pfOf receiver == sender && d.exists? receiver))
  else false

/-- The receiver's domain is on (R347). -/
def Dev.mailDomain (d : Dev) (receiver : Nat) : Bool :=
  if receiver < 1024 then !(d.hif.cfg.getD receiver {}).d3hot else d.powered 12

/-- A post of this sender for this receiver waits in the holding store (R348). -/
def Dev.postHeld (d : Dev) (sender receiver : Nat) : Bool :=
  d.mbx.holding.any fun p => p.sender == sender && p.receiver == receiver

/-- The message that the page's MBX_TX registers hold. -/
def Dev.txDest (d : Dev) (f : Nat) : Nat := d.get Fld.MBX_TX_CTRL_DEST f
def Dev.txKind (d : Dev) (f : Nat) : Nat := d.get Fld.MBX_TX_CTRL_KIND f
def Dev.txLen (d : Dev) (f : Nat) : Nat := d.get Fld.MBX_TX_CTRL_LEN f
def Dev.txBytes (d : Dev) (f : Nat) : Bytes := (wordBytes ((List.range 64).map fun i => d.rd .MBX_TX_BUF (64 * f + i))).take (d.txLen f)

/-- The first two refusals of R347. -/
def Dev.sendRefusal (d : Dev) (f : Nat) : Option Status :=
  if !d.mayMail f (d.txDest f) (d.txKind f) then some .denied
  else if d.txLen f % 4 ≠ 0 || d.txLen f < 4 || d.txLen f > 256 || d.txKind f > 1 then some .badParam
  else none

/-! ## Sends, posts and rings -/

/-- A read of MBX_SEND: sends the message, and answers its status (R347). -/
def Dev.mbxSend (d : Dev) (f : Nat) : Status × Dev :=
  let r := d.txDest f
  match d.sendRefusal f with
  | some st => (st, d)
  | none =>
    if !d.mailDomain r then (.domainOff, d)
    else if !d.hasRoom f r || d.postHeld f r then (.busy, d)
    else (.ok, d.send f r (d.txKind f) (d.txBytes f) false)

/-- Replaces the holding store; MBX_HOLD_LEVEL follows it. -/
def Dev.setHolding (d : Dev) (l : List HeldPost) : Dev := { d with mbx := { d.mbx with holding := l } }

/-- A write to MBX_POST (R348). -/
def Dev.mbxPost (d : Dev) (f : Nat) : Dev :=
  let r := d.txDest f
  let lost (x : Dev) : Dev := (x.bump .MBX_POST_DROP).set Fld.MBX_TX_STAT_POST_DROP f 1
  match d.sendRefusal f with
  | some _ => lost d
  | none =>
    if d.mailDomain r && d.hasRoom f r && !d.postHeld f r then d.send f r (d.txKind f) (d.txBytes f) false
    else if d.mbx.holding.length ≥ 1024 then lost d
    else
      let p : HeldPost := { sender := f, receiver := r, kind := d.txKind f, bytes := d.txBytes f, senderGen := d.mbxGen f,
                            receiverGen := d.mbxGen r }
      let d1 := d.setHolding (d.mbx.holding ++ [p])
      if r < 1024 then d1 else d1.bump .MBX_HOLD_WAKES

/-- POST_DELIVER: the oldest held post of a sender for a receiver is delivered when the receiver is on and has room (R348, R349). -/
def Dev.postDeliver (d : Dev) (sender receiver : Nat) : Dev :=
  match d.mbx.holding.find? fun p => p.sender == sender && p.receiver == receiver with
  | none => d
  | some p =>
    if d.mailDomain receiver && d.hasRoom sender receiver then
      (d.setHolding (d.mbx.holding.erase p)).deliver receiver
        { kind := p.kind, sender := sender, bytes := p.bytes, senderGen := p.senderGen, receiverGen := p.receiverGen, stamp := d.now,
          replyPlace := false }
    else d

/-- A function returns to D0: what it has held back goes out, and posts held for it are delivered in order while it has room (R290, R348). -/
def Dev.d0Enter (d : Dev) (f : Nat) : Dev :=
  if d.exists? f && (d.hif.cfg.getD f {}).d3hot then
    let d1 := (d.setFnCfg f { d.hif.cfg.getD f {} with d3hot := false }).hostFlush f
    (d1.mbx.holding.filter fun p => p.receiver == f).foldl (fun x p => x.postDeliver p.sender f) d1
  else d

/-- A write to MBX_RING (R350). -/
def Dev.mbxRing (d : Dev) (f : Nat) (w : Word) : Dev :=
  let r := d.txDest f
  if r < 1024 && d.mayMail f r 1 then
    let d1 := d.wr .MBX_DOORBELL r 0 (d.rd .MBX_DOORBELL r ||| w)
    let d2 := d1.logMail f r (d.gen f) (d.gen r) 0 d.now
    if d.on? Fld.MBX_CFG_DB_IRQ_EN r then d2.interrupt r (d.get Fld.MBX_CFG_VEC r) else d2
  else d

/-- A write to MBX_RX_POP discards the head message (R355). -/
def Dev.mbxPop (d : Dev) (f : Nat) (w : Word) : Dev := if w.getLsbD 0 then d.setBox f ((d.box f).drop 1) else d

/-- MBX_RX_STAT of a function (R349, R356). -/
def Dev.mbxRxStat (d : Dev) (f : Nat) : Word :=
  match d.box f with
  | [] => 0
  | m :: _ => toWord (2 ^ 31 + b2n (m.senderGen != d.mbxGen m.sender) * 2 ^ 30 + (d.box f).length * 2 ^ 24)

/-- MBX_RX_FROM, MBX_RX_GEN, the words of MBX_RX_STAMP and of MBX_RX_BUF: the head message, 0 with none. -/
def Dev.mbxRxFrom (d : Dev) (f : Nat) : Word :=
  match d.box f with
  | [] => 0
  | m :: _ => toWord (m.kind * 2 ^ 30 + m.sender * 2 ^ 16 + m.bytes.length)
def Dev.mbxRxGen (d : Dev) (f : Nat) : Word :=
  match d.box f with
  | [] => 0
  | m :: _ => toWord (m.senderGen * 2 ^ 16 + m.receiverGen)
def Dev.mbxRxStamp (d : Dev) (f : Nat) : Stamp := (((d.box f).head?).map (·.stamp)).getD 0
def Dev.mbxRxBuf (d : Dev) (f i : Nat) : Word :=
  match d.box f with
  | [] => 0
  | m :: _ => le32 m.bytes (4 * i)

/-! ## Slow-path verdicts (R345) -/

/-- Takes a frame out of the slow path. -/
def Dev.unslow (d : Dev) (h : Nat) : Dev := { d with vcl := { d.vcl with slow := d.vcl.slow.erase h } }

/-- A slow-path frame is dropped and counted. -/
def Dev.slowDrop (d : Dev) (h : Nat) (e : SlowEnt) (reason : Word) : Dev :=
  ((d.unslow h).bump .VCL_SLOW_DROP e.owner).dropFrame e.frame 45 reason

/-- REINJECT: the frame goes on to a further traverse with IN_PORT 25, or is counted and dropped (R131). Its region is what
PCA_HOST_REGION holds now, though the legend was made before a write that lies between (DESIGN CHOICE, log entry 44). -/
def Dev.reinject (d : Dev) (id : Nat) (f : Frame) : Dev :=
  let lg := lgSet (lgSet (lgSet f.lg lgSlowPath 0) lgException 0) lgInPort 25
  let fn := lgGet lg lgFunction
  if lgGet lg lgTraverse ≥ d.traverseMax fn then (d.bump .CLS_EXC_DROP fn).dropFrame id 45 0x00030008
  else
    let r := regionFor (d.rd .PCA_HOST_REGION) (lg.getD 5 0)
    (d.updFrame id fun x => { x with lg := lg, inPort := 25 }).recirculate id r

/-- DELIVER: the frame becomes a receive copy for a local queue pair of its owner (R304). -/
def Dev.slowDeliver (d : Dev) (id : Nat) (f : Frame) (n : Nat) : Dev :=
  let c : Copy := { frame := id, dest := 1000 + f.owner, gen := f.gen, bytes := f.bytes, lg := f.lg, stage := .dma n, reseqDone := true,
                     party := f.party }
  let (k, d1) := d.addCopy c
  let d2 := (d1.updFrame id fun x => { x with stage := .copied }).moveCopy k (chanParty (d.qpChan (d.qpBase f.owner + n) true))
  { d2 with dma := { d2.dma with handed := d2.dma.handed ++ [(k, n)] } }

/-- SLOW_VERDICT (R345): a HANDLE of another owner is an unknown one (log entry 23), and one whose SLOW_HOLD has ended is an expired
one, whose frame is dropped now if it has not been. -/
def Dev.slowVerdict (d : Dev) (n fn : Nat) (p : Bytes) : Dev :=
  let h := (le32 p 0).toNat
  let action := bitsOf (le32 p 4) 1 0
  let q := bitsOf (le32 p 4) 21 16
  match d.vcl.slow.look? h with
  | none => d.reply n .notFound
  | some e =>
    if e.owner ≠ fn then d.reply n .notFound
    else if e.deadline ≤ d.ref then (d.slowDrop h e (Config.dropReason 29)).reply n .notFound
    else if action = 3 || (action = 2 && q ≥ d.qpCount fn) then d.reply n .badParam
    else
      match d.frame? e.frame with
      | none => (d.unslow h).replyOk n
      | some f =>
        if d.staleFrame f then (d.slowDrop h e (d.staleReason f.owner)).replyOk n
        else if action = 0 then (d.slowDrop h e (Config.dropReason 28)).replyOk n
        else if action = 1 then ((d.unslow h).reinject e.frame f).replyOk n
        else ((d.unslow h).slowDeliver e.frame f q).replyOk n

/-- SLOW_HOLD_EXPIRY. -/
def Dev.slowHoldExpiry (d : Dev) (h : Nat) : Dev :=
  match d.vcl.slow.look? h with
  | none => d
  | some e => if e.deadline ≤ d.ref then d.slowDrop h e (Config.dropReason 29) else d

/-! ## SMBus (R334) -/

/-- SMB_BLOCK_WRITE: one command packet at a time; a block whose PEC fails is discarded. -/
def Dev.smbWrite (d : Dev) (bytes : Bytes) (pecOk : Bool) : Dev :=
  if d.vcl.smbBusy then d.emit .smbNack
  else if !pecOk then d.bump .VCL_SMB_PEC_ERR
  else { d with vcl := { d.vcl with smb := some (bytes.take 255), smbBusy := true, smbReply := none } }

/-- SMB_BLOCK_READ: the reply, or one byte 0x00 while none is ready. -/
def Dev.smbRead (d : Dev) : Dev := d.emit (.smbRead (d.vcl.smbReply.getD [0]))

/-! ## Management VLAN (R335, R336) -/

/-- A management frame's parts after its tag: key, counter, packet, authenticated bytes and tag; none where it is too short or
of another version. -/
def mgmtParts (bs : Bytes) : Option (Nat × Nat × Bytes × Bytes × Bytes) :=
  if bs.length < 18 + 12 + 32 + 16 then none
  else
    let w := le32 bs 18
    let pkt := (bs.drop 30).take (bs.length - 46)
    let len := min pkt.length (32 + bitsOf (le32 pkt 8) 16 0)
    if bitsOf w 31 24 ≠ 1 then none
    else some (bitsOf w 7 0, be bs 22 8, pkt.take len, bs.take (30 + len), slice bs (30 + len) 16)

/-- A frame authenticates under a key: its COUNTER is above the highest accepted one, and its tag verifies. -/
def mgmtOk (k : MgmtKey) (counter : Nat) (aad tag : Bytes) : Bool :=
  decide (k.high < counter) && gcmTag k.key ([0#8, 0, 0, 0] ++ bytesBE 8 counter) aad [] == tag

/-- The commit that an accepted COUNTER needs (R336). -/
def MgmtKey.acceptCommit (k : MgmtKey) (counter : Nat) : Nat :=
  if counter > k.highKept + 65536 then counter / 65536 * 65536 else k.highKept

/-- MGMT_FRAME_RX: a diverted frame waits as a command, or is dropped and counted; one whose COUNTER needs an MRAM commit waits
through a rail warning (R390). -/
def Dev.mgmtFrameRx (d : Dev) (id : Nat) : Dev :=
  match d.frame? id with
  | none => d
  | some f =>
    if f.stage ≠ .legend || !d.diverts f then d
    else if d.vcl.mgmtQ.length ≥ 64 then (d.bump .VCL_MGMT_DROP).endFrame id
    else
      match mgmtParts f.bytes with
      | none => (d.bump .VCL_MGMT_AUTH_FAIL).endFrame id
      | some (kid, counter, pkt, aad, tag) =>
        match (if d.mramBad 0x3000 0x4000 then none else d.mgmtKey kid) with
        | none => (d.bump .VCL_MGMT_AUTH_FAIL).endFrame id
        | some k =>
          if mgmtOk k counter aad tag then
            if !d.railsGood && k.acceptCommit counter != k.highKept then d
            else
            let d1 := d.mgmtCount kid counter k.reply (k.acceptCommit counter) k.replyKept
            let m : MgmtCmd := { port := f.inPort, src := be f.bytes 6 6, key := kid,
                                 vid := d.get Fld.VCL_MGMT_CFG_VID, packet := pkt }
            ({ d1 with vcl := { d1.vcl with mgmtQ := d1.vcl.mgmtQ ++ [m] } } : Dev).endFrame id
          else (d.bump .VCL_MGMT_AUTH_FAIL).endFrame id

end Sys2Proof.Machine
end

