-- ==== Sys2Proof/Machine/SecOps.lean ====
section
/-!
DEFINITION. The trust unit (R427 to R447): MRAM, the signing index, attestation, owner and wrapped keys, cartouches, the TRNG,
firmware images and the boot.
-/
namespace Sys2Proof.Machine

/-! ## MRAM (R442, R443) -/

/-- A command that reads regions of the MRAM outside the control area, each from its first byte up to its end: BAD_STATE if a word
there is uncorrectable. -/
def Dev.mramRead (d : Dev) (n : Nat) (ranges : List (Nat × Nat)) (k : Dev → Dev) : Dev :=
  if ranges.any fun r => d.mramBad r.1 r.2 then d.reply n .badState else k d

/-- A command that writes the MRAM waits through a rail warning (R390). -/
def Dev.mramWrite (d : Dev) (n : Nat) (k : Dev → Dev) : Dev := if d.railsGood then k d else d.wait n

/-- The copy of a cartouche in force, as a range. -/
def Dev.cartoucheRange (d : Dev) : Nat × Nat := (cartoucheAt d.sec.mram.selector, cartoucheAt d.sec.mram.selector + 1024)
def Dev.fcartoucheRange (d : Dev) (f : Nat) : Nat × Nat :=
  (fcartoucheAt f (d.sec.mram.fselector f), fcartoucheAt f (d.sec.mram.fselector f) + 64)

/-- CARTOUCHE_WRITE (R444). -/
def Dev.cartoucheWrite (d : Dev) (n : Nat) (a : Accepted) (p : Bytes) : Dev :=
  let off := bitsOf (le32 p 0) 9 0
  let len := (le32 p 4).toNat
  if off % 8 ≠ 0 || len % 8 ≠ 0 || off + len > 1024 then d.reply n .badParam
  else
    d.mramRead n [d.cartoucheRange] fun d =>
      if len = 0 then d.reply n .ok ((d.cartouche.drop off).take (a.cmd.via.largest - 32))
      else
        d.mramWrite n fun d =>
          let new := overwrite d.cartouche off ((p.drop 8).take len)
          (d.setMram fun m => m.writeCartouche new).replyOk n

/-- FCARTOUCHE_WRITE, by the physical function of the function named in the parameters (R444). -/
def Dev.fcartoucheWrite (d : Dev) (n : Nat) (a : Accepted) (p : Bytes) : Dev :=
  let f := bitsOf (le32 p 0) 9 0
  if pfOf f ≠ a.cmd.issuer then d.reply n .denied
  else if !d.exists? f then d.reply n .badParam
  else d.mramWrite n fun d => (d.setFcartouche f (slice p 4 64)).replyOk n

/-! ## Owner and wrapped keys (R432, R433) -/

/-- The message an owner's signature covers. -/
def Dev.ownerMessage (d : Dev) (before : Bytes) : Bytes := bytesLE 4 d.sec.mram.ownerSeq.toNat ++ bytesLE 16 Config.deviceId ++ before

/-- OWNER_KEY_SET. -/
def Dev.ownerKeySet (d : Dev) (n : Nat) (p : Bytes) : Dev :=
  let remove := (le32 p 0).getLsbD 31
  let len := (le32 p 4).toNat
  let pay := (p.drop 8).take len
  d.mramRead n [(0x2000, 0x3000)] fun d =>
    match d.owner?, remove with
    | none, false =>
      if len = 100 then d.mramWrite n fun d => (d.setOwner (some { pub := pay.take 68, wrap := pay.drop 68 })).replyOk n
      else d.reply n .badParam
    | some o, false =>
      if len ≠ 2928 then d.reply n .badParam
      else if !xmssVerify o.pub (d.ownerMessage (pay.take 108)) (pay.drop 108) then d.reply n .authFail
      else
        match aesUnwrap o.wrap (slice pay 68 40) with
        | none => d.reply n .authFail
        | some w => d.mramWrite n fun d => (d.setOwner (some { pub := pay.take 68, wrap := w })).replyOk n
    | some o, true =>
      if len ≠ 2820 then d.reply n .badParam
      else if !xmssVerify o.pub (d.ownerMessage []) pay then d.reply n .authFail
      else d.mramWrite n fun d => (d.setOwner none).replyOk n
    | none, true => d.reply n .badParam

/-- What MGMT_KEY_SET and MIG_DOMAIN_SET share (R433): an owner record, LEN 40, or 0 with REMOVE, and a key that unwraps; `none`
is a removal. -/
def Dev.wrappedKey (d : Dev) (n : Nat) (remove : Bool) (len : Nat) (wrapped : Bytes) (ok : Bool) (k : Option Bytes → Dev → Dev) : Dev :=
  d.mramRead n [(0x2000, 0x4000)] fun d =>
    match d.owner? with
    | none => d.reply n .badState
    | some o =>
      if !ok || len ≠ (if remove then 0 else 40) then d.reply n .badParam
      else if remove then d.mramWrite n (k none)
      else
        match aesUnwrap o.wrap wrapped with
        | none => d.reply n .authFail
        | some key => d.mramWrite n (k (some key))

/-- MGMT_KEY_SET. -/
def Dev.mgmtKeySet (d : Dev) (n : Nat) (p : Bytes) : Dev :=
  let kid := bitsOf (le32 p 0) 7 0
  d.wrappedKey n ((le32 p 0).getLsbD 31) (le32 p 4).toNat (slice p 8 40) (kid < 4) fun key d =>
    (d.setMgmtKey kid key).replyOk n

/-- MIG_DOMAIN_SET (R328): at most four domains. -/
def Dev.migDomainSet (d : Dev) (n : Nat) (p : Bytes) : Dev :=
  let dom := (le32 p 4).toNat
  d.wrappedKey n ((le32 p 0).getLsbD 31) (le32 p 8).toNat (slice p 12 40) true fun key d =>
    if key.isSome && (d.sec.mram.domains.look? dom).isNone && d.sec.mram.domains.size ≥ 4 then d.reply n .tableFull
    else (d.setDomain dom key).replyOk n

/-! ## The TRNG (R445) -/

/-- TRNG_READ. -/
def Dev.trngRead (d : Dev) (n : Nat) (p : Bytes) : Dev :=
  let c := bitsOf (le32 p 0) 6 0
  if c = 0 || c > 64 then d.reply n .badParam
  else if d.on? Fld.SEC_STAT_TRNG_FAIL then d.reply n .badState
  else
    let (bs, d1) := d.drawBytes c
    d1.reply n .ok bs

/-- DRBG_RESEED: every 1 ms, while the source is healthy. -/
def Dev.drbgReseed (d : Dev) : Dev :=
  if d.on? Fld.SEC_STAT_TRNG_FAIL || d.ref < d.sec.drbgAt + 1000000 then d
  else d.setSec fun s => { s with drbgAt := d.ref, drbgCount := s.drbgCount + 1 }

/-- TRNG_HEALTH_FAIL. -/
def Dev.trngHealthFail (d : Dev) : Dev :=
  (((d.set Fld.SEC_STAT_TRNG_FAIL 0 1).bump .SEC_TRNG_FAIL_CNT).setSec fun s => { s with trngAt := d.ref }).logNow 0x12 50 none
    0x700 0 0

/-- TRNG_RETEST: every second while failed, the start-up tests are repeated. -/
def Dev.trngRetest (d : Dev) (pass : Bool) : Dev :=
  if d.on? Fld.SEC_STAT_TRNG_FAIL && decide (d.sec.trngAt + 1000000000 ≤ d.ref) then
    (if pass then d.set Fld.SEC_STAT_TRNG_FAIL 0 0 else d).setSec fun s => { s with trngAt := d.ref }
  else d

/-! ## The signing index (R436, R437) -/

/-- The next index. -/
def Dev.nextIndex (d : Dev) : Nat := (d.rd .SEC_SIGN_INDEX).toNat

/-- A ring word of an index, and the index that a valid word holds. -/
def ringWord (i : Nat) : Nat := (2 ^ 32 - 1 - i) * 2 ^ 32 + i
def ringIndex (w : Nat) : Option Nat := if w / 2 ^ 32 + w % 2 ^ 32 = 2 ^ 32 - 1 then some (w % 2 ^ 32) else none

/-- What a ring word holds, unless it fails its ECC check or was never written. -/
def Mram.ringAt (m : Mram) (j : Nat) : Option Nat :=
  if (m.failed.look? (0x1000 + 8 * j)).isSome then none else (m.ring.look? j).bind ringIndex

/-- Reads the ring at a POWER_ON or CHIP reset (R437). A part that has never signed has no valid word and starts at 0 (log
entry 12). -/
def Dev.readRing (d : Dev) : Dev :=
  let m := d.sec.mram
  let l := (List.range 64).filterMap m.ringAt
  if l.isEmpty then d.wr .SEC_SIGN_INDEX 0 0 0
  else
    let top := l.foldl max 0
    if l.length = 64 then d.wr .SEC_SIGN_INDEX 0 0 (toWord (top + 1))
    else
      let ring := (List.range 64).foldl (fun r j => r.put ((top + 1 + j) % 64) (ringWord (top + 1 + j))) m.ring
      (d.setMram fun x => { x with ring := ring, failed := x.failed.keep fun a _ => !(0x1000 ≤ a && a < 0x1200) }).wr .SEC_SIGN_INDEX 0 0
        (toWord (top + 65))

/-- Generation of the next attestation key begins when the index has reached leaf 524,288 of the last key there is (R438). -/
def Dev.startKeygen (d : Dev) : Dev :=
  let k := d.sec.mram.keysReady - 1
  if d.sec.keygen.isNone && k < 1023 && decide (k * 2 ^ 20 + 524288 ≤ d.nextIndex) then
    (d.setSec fun s => { s with keygen := some (k + 1) }).set Fld.SEC_STAT_KEYGEN_BUSY 0 1
  else d

/-- Commits an index: its ring word is written, and the index is spent. -/
def Dev.spendIndex (d : Dev) : Nat × Dev :=
  let i := d.nextIndex
  let d1 := d.setMram fun m =>
    { m with ring := m.ring.put (i % 64) (ringWord i), failed := m.failed.erase (0x1000 + 8 * (i % 64)) }
  (i, (d1.wr .SEC_SIGN_INDEX 0 0 (toWord (i + 1))).startKeygen)

/-! ## Attestation (R435, R438 to R441) -/

/-- Digest of the inset's text (R108). -/
def Inset.digest (i : Inset) : Bytes := shake256 (wordBytes i.text) 32

/-- The running image: 0 A, 1 B. -/
def Dev.image (d : Dev) : Nat := d.get Fld.SEC_STAT_IMAGE

/-- The signed body of a report, 224 bytes (R440). -/
def Dev.reportBody (d : Dev) (a : Accepted) (p : Bytes) (index : Nat) : Bytes :=
  let w0 := le32 p 0
  let cert := w0.getLsbD 29
  let ins := if w0.getLsbD 30 then (d.insetInForce a.fn).bind fun k => d.pca.insets.look? k else none
  let flags := b2n (w0.getLsbD 30) + 2 * b2n cert + 4 * d.get Fld.SEC_STAT_JTAG_SEEN + 8 * d.get Fld.SEC_STAT_BOOT_FALLBACK
    + 16 * b2n d.owned
  bytesLE 4 0x6408A7A7 ++ bytesLE 2 1 ++ [0xB0, BitVec.ofNat 8 flags] ++ bytesLE 4 (if cert then 8500 else 3044)
    ++ bytesLE 2 a.fn ++ bytesLE 2 a.fnGen ++ wordBytes (stampWords d.now) ++ bytesLE 4 index ++ slice p 16 32
    ++ bytesLE 16 Config.deviceId ++ sized 32 d.vcl.digest ++ bytesLE 4 d.vcl.version.toNat ++ bytesLE 4 d.sec.mram.minSvn.toNat
    ++ [BitVec.ofNat 8 (d.get Fld.SEC_STAT_LIFECYCLE), BitVec.ofNat 8 d.image, 0, 0]
    ++ bytesLE 2 (if ins.isSome then d.get Fld.FNC_INSET_STAT_LOAD_SEQ a.fn else 0)
    ++ bytesLE 2 (if ins.isSome then d.get Fld.FNC_INSET_STAT_BOUND a.fn else 0)
    ++ (match d.owner? with
        | some o => sized 32 (shake256 o.pub 32)
        | none => List.replicate 32 0)
    ++ sized 32 (shake256 (d.cartouche ++ d.fcartouche a.fn) 32)
    ++ (match ins with
        | some i => sized 32 i.digest
        | none => List.replicate 32 0)

/-- The whole report: body, signature and, with CERT, the certificate chain. -/
def Dev.report (d : Dev) (a : Accepted) (p : Bytes) (index : Nat) : Bytes :=
  let body := d.reportBody a p index
  let k := index / 2 ^ 20
  let sig := sized 2820 (xmssSignBy (d.sec.mram.nodeOf k) 20 (keySeed attLabel k) (index % 2 ^ 20) body)
  body ++ sig ++ (if (le32 p 0).getLsbD 29 then attPub k ++ idSig k ++ d.sec.mram.vendorCert else [])

/-- What an ATTEST reads of the MRAM: the cartouches, the owner record, the node cache of the key, and the vendor certificate with
CERT. -/
def Dev.attestReads (d : Dev) (a : Accepted) (p : Bytes) : List (Nat × Nat) :=
  let c := 0x30000 + 0x10000 * (d.nextIndex / 2 ^ 20 % 2)
  [d.cartoucheRange, d.fcartoucheRange a.fn, (0x2000, 0x3000), (c, c + 0x10000)] ++ (if (le32 p 0).getLsbD 29 then [(0x4000, 0x5000)] else [])

/-- Tokens of a function's bucket. -/
def Dev.fnTokens (d : Dev) (f : Nat) : Nat := 16 - d.sec.fnMissing.getD f 0

/-- Bytes of a report that a reply carries from an offset. -/
def Accepted.carries (a : Accepted) (bs : Bytes) (off : Nat) : Bytes := (bs.drop off).take (a.cmd.via.largest - 32)

/-- ADDR of an ATTEST. -/
def attestAddr (p : Bytes) : Nat := (le32 p 8).toNat + 2 ^ 32 * (le32 p 12).toNat

/-- Gives a report to the issuer: written to host memory, or carried by the reply (R439). -/
def Dev.giveReport (d : Dev) (n : Nat) (a : Accepted) (p rep : Bytes) (writeOk : Bool) : Dev :=
  if attestAddr p = 0 then d.reply n .ok (a.carries rep (le32 p 4).toNat)
  else if writeOk then (d.hostPut a.cmd.issuer (attestAddr p) rep).replyOk n [toWord rep.length]
  else d.reply n .hostErr

/-- The signature can be made now: no rail in warning, SIGN_READY, and the key generated (R437, R438). -/
def Dev.mayProceed (d : Dev) : Bool :=
  d.railsGood && d.on? Fld.SEC_STAT_SIGN_READY && decide (d.nextIndex / 2 ^ 20 < d.sec.mram.keysReady)

/-- Signs a report for an accepted ATTEST and answers it. -/
def Dev.attestSign (d : Dev) (n : Nat) (a : Accepted) (p : Bytes) (writeOk : Bool) : Dev :=
  let (i, d1) := d.spendIndex
  let rep := d1.report a p i
  let d2 := (d1.bump .SEC_SIGN_COUNT).setSec fun s => { s with reports := s.reports.put a.cmd.via.code rep }
  d2.giveReport n a p rep writeOk

/-- ATTESTs that wait go on, in order, as soon as they can. -/
def Dev.attestResume (d : Dev) : Dev :=
  d.sec.attests.foldl (fun (x : Dev) w =>
    if !x.mayProceed then x
    else
      let y := x.setSec fun s => { s with attests := s.attests.filter fun v => v.1 != w.1 }
      match y.vcl.cmds.look? w.1 with
      | none => y
      | some a => if y.nextIndex ≥ 2 ^ 30 then y.reply w.1 .badState else y.attestSign w.1 a a.params w.2) d

/-- ATTEST (R439, R441, R437). -/
def Dev.attest (d : Dev) (n : Nat) (a : Accepted) (p : Bytes) (writeOk : Bool) : Dev :=
  if a.cmd.via.oob && attestAddr p ≠ 0 then d.reply n .badParam
  else if (le32 p 0).getLsbD 31 then
    d.giveReport n a p ((d.sec.reports.getD a.cmd.via.code []).drop (if attestAddr p = 0 then 0 else (le32 p 4).toNat)) writeOk
  else if d.sec.pkgTokens = 0 || d.fnTokens a.fn = 0 then d.reply n .busy
  else if d.nextIndex ≥ 2 ^ 30 then d.reply n .badState
  else
    d.mramRead n (d.attestReads a p) fun d =>
      let d1 := d.setSec fun s =>
        { s with pkgTokens := s.pkgTokens - 1, fnMissing := s.fnMissing.putD 0 a.fn (s.fnMissing.getD a.fn 0 + 1) }
      if d1.mayProceed && d1.sec.attests.isEmpty then d1.attestSign n a p writeOk
      else d1.setSec fun s => { s with attests := s.attests ++ [(n, writeOk)] }

/-- KEYGEN_DONE: the node cache is written, which a rail warning holds up (R390, R438). -/
def Dev.keygenDone (d : Dev) : Dev :=
  match d.sec.keygen with
  | none => d
  | some k =>
    if !d.railsGood then d
    else
      let d1 := (d.setSec fun s => { s with keygen := none, mram := s.mram.writeCache k }).set Fld.SEC_STAT_KEYGEN_BUSY 0 0
      d1.startKeygen.attestResume

/-- SIGN_READY: after the firmware has started, the authentication path stands again; a generation that a reset ended begins again
(log entry 37). -/
def Dev.signReady (d : Dev) : Dev := if d.vcl.up then (d.set Fld.SEC_STAT_SIGN_READY 0 1).startKeygen.attestResume else d

/-- Gain intervals of the buckets in ns (R441, R446): 0 acts as 1. -/
def Dev.pkgInterval (d : Dev) : Nat := max 1 (d.get Fld.SEC_SIGN_CFG_PKG_INTERVAL) * 1000000
def Dev.fnInterval (d : Dev) : Nat := max 1 (d.get Fld.SEC_SIGN_CFG_FUNC_INTERVAL) * 1000000000

/-- TOKEN_REFILL: an interval of the package bucket, or of a function's, has ended; a full bucket gains nothing. -/
def Dev.tokenRefill (d : Dev) (fn : Option Nat) : Dev :=
  match fn with
  | none =>
    if d.sec.pkgAt + d.pkgInterval ≤ d.ref then
      d.setSec fun s => { s with pkgAt := s.pkgAt + d.pkgInterval, pkgTokens := min 4096 (s.pkgTokens + 1) }
    else d
  | some f =>
    let since := d.sec.fnAt.getD f d.sec.fnFrom
    if f < 1024 && since + d.fnInterval ≤ d.ref then
      d.setSec fun s => { s with fnAt := s.fnAt.put f (since + d.fnInterval), fnMissing := s.fnMissing.putD 0 f (s.fnMissing.getD f 0 - 1) }
    else d

/-! ## Firmware images (R428 to R431, R352) -/

/-- The bytes of a slot of the SPI NOR device. -/
def Dev.norSlot (d : Dev) (s : Nat) : Bytes := (d.sec.nor.look? s).getD (Config.norImage s)

/-- Header fields of an image. -/
def imgBodyLen (b : Bytes) : Nat := le b 0x10 4
def imgVersion (b : Bytes) : Word := le32 b 8
def imgSvn (b : Bytes) : Nat := le b 12 4
def imgDigest (b : Bytes) : Bytes := slice b 0x20 32

/-- Every byte of a stretch is 0. -/
def zeros (b : Bytes) (i n : Nat) : Bool := (slice b i n).all (· == 0)

/-- Check 1 of R429. -/
def imgHeaderOk (b : Bytes) : Bool :=
  le b 0 4 == 0x6408F1A6 && le b 4 2 == 1 && le b 6 1 == 0xB0 && decide (le b 7 1 < 2) && decide (1 ≤ imgBodyLen b)
    && decide (imgBodyLen b ≤ 16769024) && zeros b 0x14 12 && zeros b 0x40 64 && zeros b 0x1688 (0x2000 - 0x1688)

/-- The first bytes of a slot, erased ones read as 0xFF. -/
def Dev.norRead (d : Dev) (s n : Nat) : Bytes := (d.norSlot s ++ List.replicate (n - (d.norSlot s).length) 0xFF).take n

/-- The image of a slot verifies (R429); an owner record that cannot be read verifies none (log entry 12). -/
def Dev.imageOk (d : Dev) (s : Nat) : Bool :=
  let b := d.norRead s 0x2000
  imgHeaderOk b && xmssVerify (Config.vendorKey Config.vendorRevoke) (b.take 128) (slice b 0x80 2820)
    && (match d.owner? with
        | some o => !d.mramBad 0x2000 0x3000 && le b 7 1 == 1 && xmssVerify o.pub (b.take 128) (slice b 0xB84 2820)
        | none => true)
    && decide (d.sec.mram.minSvn.toNat ≤ imgSvn b) && shake256 ((d.norRead s (0x2000 + imgBodyLen b)).drop 0x2000) 32 == imgDigest b

/-- The firmware of a slot starts: version, measurement, and MIN_SVN raised before the first command (R430, R431). -/
def Dev.startImage (d : Dev) (s : Nat) : Dev :=
  let b := d.norRead s 0x2000
  let d1 : Dev := { d with vcl := { d.vcl with up := true, version := imgVersion b, digest := imgDigest b } }
  let d2 := (d1.set Fld.SEC_STAT_IMAGE 0 s).set Fld.VCL_FW_STATE_STAGED 0 0
  if imgSvn b ≤ d2.sec.mram.minSvn.toNat then d2 else d2.setMram fun m => m.setWord 1 (imgSvn b)

/-- The firmware of a slot can start: it has no MIN_SVN to raise, or no rail is in warning (R390, R431). -/
def Dev.mayStart (d : Dev) (s : Nat) : Bool := d.railsGood || decide (imgSvn (d.norRead s 0x2000) ≤ d.sec.mram.minSvn.toNat)

/-- BOOT (R430): after POR_DONE the boot ROM starts the image of BOOT_SLOT, or the other, or enters RECOVERY. A raise of MIN_SVN waits
through a rail warning, and with it the firmware (R390). -/
def Dev.boot (d : Dev) : Dev :=
  if d.vcl.up || d.on? Fld.SEC_STAT_RECOVERY || d.inReset || !d.on? Fld.PWR_STAT_POR_DONE then d
  else
    let s := d.sec.mram.bootSlot
    if d.imageOk s then (if d.mayStart s then d.startImage s else d)
    else if d.imageOk (1 - s) then
      (if d.mayStart (1 - s) then (d.startImage (1 - s)).set Fld.SEC_STAT_BOOT_FALLBACK 0 1 else d)
    else d.set Fld.SEC_STAT_RECOVERY 0 1

/-- The slot that FW_STAGE writes: the one that does not run, A in RECOVERY. -/
def Dev.stageSlot (d : Dev) : Nat := if d.on? Fld.SEC_STAT_RECOVERY then 0 else 1 - d.image

/-- FW_STAGE (R352): `piece` is what the read of LEN bytes at ADDR brings, none when it fails. -/
def Dev.fwStage (d : Dev) (n : Nat) (p : Bytes) (piece : Option Bytes) : Dev :=
  let first := (le32 p 0).getLsbD 31
  let last := (le32 p 0).getLsbD 30
  let off := (le32 p 4).toNat
  let len := (le32 p 16).toNat
  if len > 65536 || off + len > 0x1000000 then d.reply n .badParam
  else
    d.withData n (le p 8 8) len piece fun bs d0 =>
      let s := d.stageSlot
      let old : Bytes := if first then [] else d.norSlot s
      let wide := old ++ List.replicate (off - old.length) 0xFF
      let new := wide.take off ++ sized len bs ++ wide.drop (off + len)
      let d1 := (d0.setSec fun x => { x with nor := x.nor.put s new }).set Fld.VCL_FW_STATE_STAGED 0 0
      if !last then d1.replyOk n
      else
        d1.mramRead n [(0x2000, 0x3000)] fun d1 =>
          if !d1.imageOk s then d1.reply n .verifyFail
          else if d1.on? Fld.SEC_STAT_RECOVERY then
            d1.mramWrite n fun x => ((x.setMram fun m => m.setWord 0 0).set Fld.VCL_FW_STATE_STAGED 0 1).replyOk n
          else (d1.set Fld.VCL_FW_STATE_STAGED 0 1).replyOk n

end Sys2Proof.Machine
end

