-- ==== Sys2Proof/Machine/FnOps.lean ====
section
/-!
DEFINITION. Generation changes and FUNCTION resets (R292, R313 to R319, R471), freezing, saving and restoring (R322 to
R328).
-/
namespace Sys2Proof.Machine

/-! ## Commands ended from outside -/

/-- Ends an accepted command before its commit: what it waits for is forgotten, and it replies (R354, R471). -/
def Dev.abortCmd (d : Dev) (n : Nat) (st : Status) (ps : Bytes := []) : Dev :=
  let banks := d.cls.banks.mapVals fun _ b =>
    let b1 : Banks := if (b.swapAt.map (·.2)) = some n then { b with swapAt := none } else b
    if (b1.openWait.map (·.2.2)) = some n then { b1 with openWait := none } else b1
  let conns := d.sto.conns.mapVals fun _ c => if (c.returning.map (·.1)) = some n then { c with returning := none } else c
  let d1 : Dev :=
    { d with cls := { d.cls with banks := banks }, sto := { d.sto with conns := conns },
             sec := { d.sec with attests := d.sec.attests.filter fun w => w.1 != n } }
  d1.reply n st ps

/-- The commands that name `f` and have not passed their commit end at G (R471); FUNC_RESET joins instead, and a FUNC_RESTORE
that causes the change goes on. -/
def Dev.endCommands (d : Dev) (f : Nat) (restore : Option Nat) : Dev :=
  d.vcl.cmds.cells.foldl (fun x c =>
    if c.2.fn == f && !(c.2.opcode == 0x0B01 && c.2.started) && !c.2.committed && some c.1 != restore then x.abortCmd c.1 .targetReset else x) d

/-! ## What the engines do at G (R317) -/

/-- Every word of an item of a register returns to its reset value. -/
def Dev.resetItem (d : Dev) (r : Reg) (i : Nat) : Dev := (List.range r.info.words).foldl (fun x w => x.wr r i w (r.reset i w)) d

/-- Host interface: queue pair contexts, ring state, administration queue, RSS, MSI-X; what it has held back is not sent. -/
def Dev.hifFuncReset (d : Dev) (f : Nat) : Dev :=
  let d1 := (List.range (d.qpCount f)).foldl (fun x i => (x.resetItem .HIF_QP_CTX (d.qpBase f + i)).setQp (d.qpBase f + i) {}) d
  let d2 := (d1.resetItem .HIF_AQ_CFG f).setAq f {}
  { d2.rssDefault f with hif := { (d2.rssDefault f).hif with msix := d2.hif.msix.keep fun k _ => k / 2048 != f,
                                                             deferred := d2.hif.deferred.filter (·.1 != f) } }

/-- A late-gather context loses its windows, its stored copy and its log. -/
def Dev.lgClear (d : Dev) (k : Nat) : Dev :=
  let x := d.lgCtx k
  let chains := x.wins.map (fun w => (w.chain, w.party)) ++ x.logs.map fun e => (e.chain, e.party)
  let d1 := (chains.foldl (fun y c => y.freeShare c.1 c.2) d).freeShare ((x.stored.map (·.2.2.2.1)).getD []) 104
  { d1 with dma := { d1.dma with ctxs := d1.dma.ctxs.erase k } }

/-- Late-gather contexts of a function. -/
def Dev.lgOf (d : Dev) (f : Nat) : List Nat :=
  (List.range 1024).filter fun k => d.on? Fld.DMA_LG_CTX_ENABLE k && d.qpOwner (d.get Fld.DMA_LG_CTX_QP k) == some f

/-- Buffers of descriptors whose frames have not been handed on go back. -/
def Dev.freeUntaken (d : Dev) (l : List Desc) : Dev := l.foldl (fun x e => if e.taken then x else x.freeShare e.chain (chanParty e.path.chan)) d

/-- Completions and write-backs of `f` that carry the stamp of its generation change are discarded (R60). -/
def Dev.retract (d : Dev) (f : Nat) : Dev :=
  let mine := d.dma.posted.filter fun e => e.1 == f && e.2.1 == d.ref / 2
  { d with out := (mine.foldl (fun (l : List Out) e => l.erase e.2.2) d.out.reverse).reverse,
           dma := { d.dma with posted := d.dma.posted.filter (·.1 != f) } }

/-- Copies that were being placed for `f` end: what has not been written is not written (R170, R317). -/
def Dev.placingOver (d : Dev) (f : Nat) : Dev :=
  (d.copies.cells.filter fun c => c.2.dest == 1000 + f && (match c.2.stage with
    | .placing _ _ => true
    | _ => false)).foldl (fun x c => (x.bump .VSW_REPL_DROP).dropCopy c.1 46 (x.staleReason f)) d

/-- DMA engine: nothing of the function that has not been issued is issued. Buffers of a frame that is still being gathered, or has
not been handed on, are freed; a frame handed on owns its own. -/
def Dev.dmaFuncReset (d : Dev) (f : Nat) : Dev :=
  let ks := (List.range 1024).filter fun k =>
    (d.on? Fld.DMA_LG_CTX_ENABLE k || (d.dma.ctxs.look? k).isSome) && d.qpOwner (d.get Fld.DMA_LG_CTX_QP k) == some f
  let d1 := (d.retract f).freeUntaken (d.dma.descs.vals.filter fun x => x.fn == f)
  let d2 := ks.foldl (fun x k => (x.lgClear k).set Fld.DMA_LG_CTX_ENABLE k 0) d1
  let d3 := (List.range 8).foldl (fun x i => x.set Fld.DMA_PF_WIN_VALID (8 * f + i) 0) d2
  ({ d3 with dma := { d3.dma with descs := d3.dma.descs.keep fun _ x => x.fn != f
                                  asked := d3.dma.asked.keep fun k _ => k / 2 ^ 52 != f
                                  bursts := d3.dma.bursts.keep fun _ b => b.fn != f || b.issued } } : Dev).placingOver f

/-- Packet cores: threads that are halted, stalled or waiting with a frame of the function end it at once. -/
def Dev.pcaFuncReset (d : Dev) (f : Nat) : Dev :=
  let d1 := d.pca.threads.cells.foldl (fun x c =>
    match ((x.thread c.1).frame.bind x.frame? : Option Frame) with
    | some fr =>
      if fr.owner == f && x.staleFrame fr && x.threadState c.1 != 2 then
        ((x.bump .FNC_MC_DROP (lgGet fr.lg lgFunction)).dropFrame ((x.thread c.1).frame.getD 0) (32 + regionOf c.1) (x.staleReason f)).freeThread
          c.1
      else x
    | none => x) d
  d1.insetFuncReset f

/-- Frames of the function in the slow path are dropped and counted. -/
def Dev.slowFuncReset (d : Dev) (f : Nat) : Dev :=
  d.vcl.slow.cells.foldl (fun x c => if c.2.owner == f then x.slowDrop c.1 c.2 (x.staleReason f) else x) d

/-- Messages and posts for the function are discarded and counted (R319). -/
def Dev.mbxFuncReset (d : Dev) (f : Nat) : Dev :=
  let n := (d.box f).length + (d.mbx.holding.filter fun p => p.receiver == f).length
  let d1 := (d.setBox f []).setHolding (d.mbx.holding.filter fun p => p.receiver != f)
  { d1 with fnc := { d1.fnc with resets := d1.fnc.resets.modify f fun r => { r with discarded := min n 65535 } } }

/-- A copy belongs to a frame of a function that has had a generation change. -/
def Dev.copyStale (d : Dev) (f : Nat) (c : Copy) : Bool :=
  ((d.frame? c.frame).map fun fr => fr.owner == f && d.staleFrame fr).getD false

/-- A FUNC_FREEZE that has passed its commit has its reply (R471). -/
def Dev.freezeOver (d : Dev) (f : Nat) : Dev :=
  let d1 : Dev := { d with fnc := { d.fnc with freezes := d.fnc.freezes.erase f } }
  match d.fnc.freezes.look? f with
  | some { cmd := some n, .. } => d1.replyOk n
  | _ => d1

/-- GEN_CHANGE: the generation rises at G, the function is RESETTING, each engine acts and the function's injector is disabled (R313,
R317, R380). While it is RESETTING a further change joins (R318). -/
def Dev.genChange (d : Dev) (f reason : Nat) (restore : Option Nat := none) : Dev :=
  if d.fnState f = 1 then d
  else
    let old := d.gen f
    let d1 := ((d.set Fld.FNC_FUNC_STATE_GENERATION f ((old + 1) % 65536)).set Fld.FNC_FUNC_STATE_STATE f 1).set Fld.FNC_FUNC_STATE_SAVED f 0
    let d2 : Dev := { d1 with fnc := { d1.fnc with resets := d1.fnc.resets.put f { reason := reason, stamp := d.now, cmds := [], flr := false } } }
    let d3 := d2.logAt 0x15 24 (some f) d.now (toWord f) (toWord old) (toWord reason)
    let d4 := ((d3.freezeOver f).endCommands f restore).hifFuncReset f
    let d5 := ((d4.dmaFuncReset f).pcaFuncReset f).clsFuncReset f
    let d6 := (((d5.resetItem .CLS_FUNC_CFG f).resetItem .CLS_EXC_DISP f).resetItem .VSW_FUNC_CFG f).resetItem .VSW_MIRROR_CFG f
    let d7 := ((d6.tblFuncReset f).cipFuncReset f).discardQueued (fun x c => x.copyStale f c) fun x _ => x.staleReason f
    ((((d7.stoFuncReset f).slowFuncReset f).mbxFuncReset f).wr .PRT_FAULT_FUNC f 0 (d7.rd .PRT_FAULT_FUNC f &&& 0x7FFFFFFF))

/-- Changes the reset in progress of a function. -/
def Dev.updReset (d : Dev) (f : Nat) (k : FnReset → FnReset) : Dev :=
  { d with fnc := { d.fnc with resets := d.fnc.resets.modify f k } }

/-- FUNC_RESET (R318): it starts a reset, or joins the one in progress. -/
def Dev.funcReset (d : Dev) (n f : Nat) : Dev :=
  ((d.genChange f 4).commit n).updReset f fun r => { r with cmds := r.cmds ++ [n] }

/-! ## Resets from PCIe (R285, R292) -/

/-- Configuration space of a function returns to its reset state; a physical function's VF Enable and NumVFs with it. Max
Payload Size survives an FLR, as PCIe states. -/
def Dev.cfgReset (d : Dev) (f : Nat) (flr : Bool) : Dev :=
  let mps := if flr then (d.hif.cfg.getD f {}).maxPayload else 128
  let d1 := d.setFnCfg f { maxPayload := mps }
  if f < 4 then d1.setSriov f {} else d1

/-- Virtual functions of a physical function that exist. -/
def Dev.vfsOf (d : Dev) (k : Nat) : List Nat := ((List.range 255).map fun v => 4 + 255 * k + v).filter d.exists?

/-- FLR: of a virtual function that function, of a physical one it and its virtual functions. -/
def Dev.flr (d : Dev) (f : Nat) : Dev :=
  if !d.exists? f then d
  else
    let fs := if f < 4 then f :: d.vfsOf f else [f]
    let d1 := fs.foldl (fun x g => x.genChange g 1) d
    let d2 := fs.foldl (fun x g => x.cfgReset g true) d1
    d2.updReset f fun r => { r with flr := true }

/-- VF_ENABLE_CLEAR: the virtual functions are reset and exist no more. -/
def Dev.vfEnableClear (d : Dev) (k : Nat) : Dev :=
  if k < 4 && (d.hif.sriov.getD k {}).vfEnable then
    let fs := d.vfsOf k
    let d1 := fs.foldl (fun x g => (x.genChange g 2).cfgReset g false) d
    d1.setSriov k { d1.hif.sriov.getD k {} with vfEnable := false }
  else d

/-- The loss of a link resets every function of it (R292). -/
def Dev.linkDown (d : Dev) (link : Nat) : Dev :=
  let fs := (d.linkFns link).filter d.exists?
  if fs.isEmpty then d
  else
    let d1 := fs.foldl (fun x g => x.genChange g 3) d
    (fs.foldl (fun x g => x.cfgReset g false) d1).wr .HIF_LINK_STAT link 0 0

/-- PERST_N of link 1, in DUAL mode (R285). -/
def Dev.perst1 (d : Dev) : Dev := if d.on? Fld.HIF_LINK_CFG_DUAL then d.linkDown 1 else d

/-! ## Freezing, saving and restoring (R322 to R328) -/

/-- FUNC_FREEZE (R323). -/
def Dev.funcFreeze (d : Dev) (n f : Nat) : Dev :=
  let conns := (d.sto.conns.first? fun _ c => c.fn == f && c.live).isSome
  let sheet := match (d.banks f).other with
    | .empty => false
    | _ => true
  if d.fnState f ≠ 0 || conns || sheet then d.reply n .badState
  else
    let d1 : Dev := { d with fnc := { d.fnc with freezes := d.fnc.freezes.put f { z := d.now, cmd := some n } } }
    ((d1.set Fld.FNC_FUNC_STATE_STATE f 2).set Fld.FNC_FUNC_STATE_SAVED f 0).commit n

/-- Descriptors that can still finish: a receive descriptor without a copy and a late-gather descriptor without a window cannot
while the function is frozen (log entry 34). -/
def Desc.finishes (x : Desc) : Bool := x.taken || (!x.rx && !x.late)

/-- An interrupt of one of the function's queue pairs waits for the end of its holdoff (R305, R323). -/
def Dev.irqWaits (d : Dev) (f : Nat) : Bool :=
  (List.range (d.qpCount f)).any fun i =>
    let q := d.qpBase f + i
    d.on? Fld.HIF_QP_CTX_IRQ_EN q && ((d.qp q).txWait || (d.qp q).rxWait)

/-- Something of the function is still in flight in the DMA engine (R323). -/
def Dev.dmaBusy (d : Dev) (f : Nat) : Bool :=
  d.irqWaits f ||
  (d.dma.bursts.first? fun _ b => b.fn == f).isSome || (d.dma.descs.first? fun _ x => x.fn == f && x.finishes).isSome
    || (d.lgOf f).any (fun k => !(d.lgCtx k).wins.isEmpty)
    || (d.copies.first? fun _ c => c.dest == 1000 + f && (match c.stage with
        | .placing _ _ => true
        | _ => false)).isSome

/-- Descriptors that no work can meet go back to their rings. -/
def Dev.unfetch (d : Dev) (f : Nat) : Dev :=
  let d1 : Dev := { d with dma := { d.dma with descs := d.dma.descs.keep fun _ x => x.fn != f } }
  (List.range (d.qpCount f)).foldl (fun x i =>
    let s := x.qp (d.qpBase f + i)
    x.setQp (d.qpBase f + i) { s with txFetched := s.txcTail, rxFetched := s.rxcTail }) d1

/-- FREEZE_DRAIN_END: the function is FROZEN, and the command replies. -/
def Dev.freezeDrainEnd (d : Dev) (f : Nat) : Dev :=
  if d.fnState f ≠ 2 || d.dmaBusy f then d
  else
    match d.fnc.freezes.look? f with
    | none => d
    | some z =>
      let d1 := (d.unfetch f).set Fld.FNC_FUNC_STATE_STATE f 3
      let d2 : Dev := { d1 with fnc := { d1.fnc with freezes := d1.fnc.freezes.put f { z with cmd := none } } }
      match z.cmd with
      | some n => d2.replyOk n
      | none => d2

/-- FUNC_THAW (R325): after a save, the slots that would send are EXHAUSTED. -/
def Dev.funcThaw (d : Dev) (n f : Nat) : Dev :=
  if d.fnState f ≠ 3 then d.reply n .badState
  else
    let saved := d.on? Fld.FNC_FUNC_STATE_SAVED f
    let spent (s : KeySlot) : KeySlot :=
      if krOwner s.record == f && s.state == 1 && (krType s.record == 3 || krType s.record == 5) then { s with state := 2 } else s
    let d1 := if saved then d.setCip fun c => { c with slots := c.slots.mapVals fun _ s => spent s } else d
    let d2 : Dev := { d1 with fnc := { d1.fnc with freezes := d1.fnc.freezes.erase f } }
    (((d2.set Fld.FNC_FUNC_STATE_STATE f 0).set Fld.FNC_FUNC_STATE_SAVED f 0).hostFlush f).replyOk n

/-! ### The image (R327) -/

/-- Bytes of a record, by section TYPE. -/
def sectionSize (t : Nat) : Nat := [0, 32, 96, 64, 32, 16, 144, 32, 32, 32, 32, 64, 144].getD t 0

/-- A key of four words in the order of R99 and R138, most significant word first. -/
def keyWords (k : Nat) : List Word := [toWord (k / 2 ^ 96), toWord (k / 2 ^ 64), toWord (k / 2 ^ 32), toWord k]

/-- Words of an item of a register. -/
def Dev.itemWords (d : Dev) (r : Reg) (i : Nat) : List Word := (List.range r.info.words).map fun w => d.rd r i w

/-- The two words that carry a MAC address. -/
def macWords (m : Nat) : List Word := [toWord (m / 2 ^ 16), toWord (m % 2 ^ 16 * 2 ^ 16)]

/-- The record of a queue pair: its context with the counters 0, its counts, its local number. -/
def Dev.qpRecord (d : Dev) (f i : Nat) : Bytes :=
  let q := d.qpBase f + i
  let s := d.qp q
  wordBytes ((d.itemWords .HIF_QP_CTX q).take 14 ++ [0, 0, toWord s.txTail, toWord s.txcTail, toWord s.txcHead, toWord s.rxTail,
    toWord s.rxcTail, toWord s.rxcHead, toWord i, 0])

/-- The record of a late-gather context, its queue pair local and its counters 0; EVLOG_WPTR is no counter (R264). -/
def Dev.lgRecord (d : Dev) (f k : Nat) : Bytes :=
  let w := d.rd .DMA_LG_CTX k
  wordBytes [setBits w 13 0 (d.get Fld.DMA_LG_CTX_QP k - d.qpBase f), d.rd .DMA_LG_CTX k 1, d.rd .DMA_LG_CTX k 2, d.rd .DMA_LG_CTX k 3,
    d.rd .DMA_LG_CTX k 4, 0, 0, 0]

/-- Every entry of the table engine with its place. -/
def Dev.allEntries (d : Dev) : List (Place × Entry) :=
  d.tbl.slots.cells.map (fun c => (Place.slot c.1, c.2)) ++ d.tbl.ovf.cells.map fun c => (Place.ovf c.1, c.2)

/-- Records of entries that satisfy a condition. -/
def Dev.entryRecords (d : Dev) (p : Entry → Bool) : List Bytes :=
  (d.allEntries.filter fun x => p x.2).map fun x => wordBytes (d.entryWords x.1 x.2)

/-- The default routes of a VRF, as entries of length 0. -/
def Dev.defaultRecords (d : Dev) (f : Nat) : List Bytes :=
  [false, true].filterMap fun v6 => (d.tbl.dflt.look? (2 * f + b2n v6)).map fun res =>
    wordBytes [0, 0, 0, 0, toWord res, toWord (res / 2 ^ 32), toWord (2 ^ 31 + 2 ^ 30 + (2 + b2n v6) * 2 ^ 20 + f * 2 ^ 10), toWord (f * 2 ^ 22)]

/-- A rule record of R121 with its sheet number. -/
def ruleRecord (num : Nat) (e : Entry) : Bytes :=
  wordBytes (keyWords e.key ++ [toWord e.result, toWord (e.result / 2 ^ 32), toWord num, 0])

/-- The sections of a function's image but for the keys: TYPE and records. -/
def Dev.imageSections (d : Dev) (f : Nat) : List (Nat × List Bytes) :=
  let wins := (List.range 8).filter fun i => d.on? Fld.DMA_PF_WIN_VALID (8 * f + i)
  let sheet : List Bytes := match (d.banks f).active with
    | some sh => [wordBytes ([toWord sh.num, sh.dflt, toWord (((List.range 8).filter fun i => (sh.profiles.look? i).isSome).foldl (fun m i => m + 2 ^ i) 0), 0]
        ++ (List.range 8).flatMap fun i => keyWords (sh.profiles.getD i 0))]
    | none => []
  let rules : List Bytes := match (d.banks f).active with
    | some sh => (d.sheetRules f sh.num).map fun x => ruleRecord sh.num x.2
    | none => []
  [(1, [wordBytes ([d.rd .CLS_FUNC_CFG f, d.rd .CLS_EXC_DISP f, d.rd .VSW_FUNC_CFG f] ++ macWords (d.vsw.routerMac.getD f 0) ++ [0, 0, 0])]),
   (2, (List.range (d.qpCount f)).map (d.qpRecord f)),
   (3, [(List.range 64).map fun n => BitVec.ofNat 8 (d.rd .HIF_RSS (64 * f + n)).toNat]),
   (4, (d.lgOf f).map (d.lgRecord f)),
   (5, wins.map fun i => wordBytes (d.itemWords .DMA_PF_WIN (8 * f + i))),
   (6, sheet), (7, rules),
   (8, d.entryRecords fun e => e.fn == f && ((4 ≤ e.table && d.tblGranted f e.table) || (e.table == 0 && e.static))),
   (9, d.entryRecords (fun e => e.fn == f && (e.table == 2 || e.table == 3)) ++ d.defaultRecords f),
   (10, [wordBytes ([d.rd .TBL_LPM4_FILTER f] ++ (List.range 4).map (fun w => d.rd .TBL_LPM6_FILTER (4 * f + w)) ++ [0, 0, 0])]),
   (11, [d.fcartouche f])]

/-- The records of section 12 in clear: slot number, STATE, and the record with the current NEXT. -/
def Dev.keySection (d : Dev) (f : Nat) : List Bytes :=
  (d.cip.slots.cells.filter fun c => krOwner c.2.record == f && c.2.state != 0 && c.2.state != 4).map fun c =>
    wordBytes ([toWord c.1, toWord c.2.state, 0, 0] ++ ((c.2.record.set 2 (toWord (c.2.next / 2 ^ 32))).set 3 (toWord c.2.next)))

/-- Directory entries for sections laid one after the other from an offset. -/
def directory : Nat → List (Nat × List Bytes) → List Bytes
  | _, [] => []
  | off, (t, rs) :: rest =>
    let len := rs.length * sectionSize t
    (bytesLE 2 t ++ [0, 0] ++ bytesLE 4 rs.length ++ bytesLE 4 off ++ bytesLE 4 len) :: directory (off + len) rest

/-- The header with TAG zeros. -/
def imageHeader (total sections f gen dom : Nat) (z : Stamp) (iv ident : Bytes) : Bytes :=
  bytesLE 4 0x64080D1E ++ bytesLE 2 1 ++ [0xB0, 0] ++ bytesLE 4 total ++ bytesLE 2 sections ++ [0, 0] ++ bytesLE 2 f ++ bytesLE 2 gen
    ++ bytesLE 4 dom ++ wordBytes (stampWords z) ++ sized 12 iv ++ List.replicate 16 0 ++ sized 8 ident ++ List.replicate 24 0

/-- The domain whose key an image is encrypted under: which of the provisioned ones, the manual leaves open (log entry 34). -/
def Dev.saveDomain (d : Dev) : Option (Nat × Bytes) × Dev :=
  let l := d.sec.mram.domains.cells
  let (k, d1) := d.drawNat
  (l[k % max 1 l.length]?.map fun c => (c.1, c.2.plain), d1)

/-- FUNC_SAVE. -/
def Dev.funcSave (d : Dev) (n f : Nat) (p : Bytes) : Dev :=
  if d.fnState f ≠ 3 || d.on? Fld.SEC_STAT_TRNG_FAIL || d.mramBad 0x3000 0x4000 then d.reply n .badState
  else
    let (dom, d1) := d.saveDomain
    match dom, d1.fnc.freezes.look? f, d1.vcl.cmds.look? n with
    | some (ident, key), some z, some a =>
      let clear := (d1.imageSections f).filter fun s => !s.2.isEmpty
      let keys := d1.keySection f
      let secs := clear ++ [(12, keys)]
      let body := clear.flatMap fun s => s.2.flatMap id
      let pre := 96 + 16 * secs.length
      let total := pre + body.length + 144 * keys.length
      if total > (le32 p 8).toNat then d1.reply n .badParam
      else
        let (iv, d2) := d1.drawBytes 12
        let (rnd, d3) := d2.drawBytes 8
        let head := imageHeader total secs.length f (d.gen f) ident z.z iv rnd
        let aad := head ++ (directory pre secs).flatMap id ++ body
        let sealed := sized (144 * keys.length) (gcmSeal key iv aad (keys.flatMap id))
        let tag := sized 16 (gcmTag key iv aad sealed)
        ((d3.hostPut a.cmd.issuer (le p 0 8) (overwrite (aad ++ sealed) 0x30 tag)).set Fld.FNC_FUNC_STATE_SAVED f 1).replyOk n
          [toWord total]
    | _, _, _ => d1.reply n .badState

/-- The place of a section: COUNT and OFFSET, COUNT 0 where it is omitted. -/
def imgSection (b : Bytes) (t : Nat) : Nat × Nat :=
  match (List.range (le b 0x0C 2)).find? fun i => le b (96 + 16 * i) 2 == t with
  | some i => (le b (96 + 16 * i + 4) 4, le b (96 + 16 * i + 8) 4)
  | none => (0, 0)

/-- The records of a section. -/
def imgRecords (b : Bytes) (t : Nat) : List Bytes := records b (imgSection b t).2 (sectionSize t) (imgSection b t).1

/-- The image is well laid out (detail 0x01 of R326). -/
def stateImageOk (b : Bytes) : Bool :=
  let k := le b 0x0C 2
  let total := le b 0x08 4
  let typ (i : Nat) : Nat := le b (96 + 16 * i) 2
  le b 0 4 == 0x64080D1E && le b 4 2 == 1 && le b 6 1 == 0xB0 && decide (1 ≤ k) && decide (k ≤ 12) && decide (96 + 16 * k ≤ b.length)
    && total == b.length && typ (k - 1) == 12
    && (List.range k).all fun i =>
      let o := le b (96 + 16 * i + 8) 4
      let l := le b (96 + 16 * i + 12) 4
      decide (1 ≤ typ i) && decide (typ i ≤ 12) && (i == 0 || decide (typ (i - 1) < typ i)) && l == le b (96 + 16 * i + 4) 4 * sectionSize (typ i)
        && o % 16 == 0 && decide (96 + 16 * k ≤ o) && decide (o + l ≤ total) && (i + 1 == k || decide (o + l ≤ le b (96 + 16 * (i + 1) + 8) 4))
        && (typ i != 12 || o + l == total)

/-- Section 12 of an image in clear, if the domain is provisioned and the tag verifies. -/
def Dev.openKeys (d : Dev) (b : Bytes) : Except Nat (List Bytes) :=
  match d.domainKey (le b 0x14 4) with
  | none => .error 2
  | some key =>
    let off := (imgSection b 12).2
    let aad := overwrite (b.take off) 0x30 (List.replicate 16 0)
    let iv := slice b 0x24 12
    let sealed := b.drop off
    if sized 16 (gcmTag key iv aad sealed) = slice b 0x30 16 then
      .ok (records (sized sealed.length (gcmOpen key iv aad sealed)) 0 144 (imgSection b 12).1)
    else .error 3

/-- The target is as R326 asks (detail 0x08). -/
def Dev.restoreTarget (d : Dev) (f : Nat) : Bool :=
  decide (4 ≤ f) && d.fnState f == 0 && (List.range (d.qpCount f)).all (fun i => !d.on? Fld.HIF_QP_CTX_ENABLE (d.qpBase f + i))
    && (d.banks f).active.isNone && (match (d.banks f).other with
      | .empty => true
      | _ => false)
    && (d.allEntries.all fun x => x.2.fn != f) && (d.tbl.dflt.look? (2 * f)).isNone && (d.tbl.dflt.look? (2 * f + 1)).isNone
    && (d.cip.slots.first? fun _ s => s.state != 0 && krOwner s.record == f).isNone

/-- The entry that a record of R138 restores: the target's stamp, AGE 0, the target function. -/
def Dev.restoredEntry (d : Dev) (f : Nat) (r : Bytes) : Entry :=
  let w := le32 r 24
  let t := bitsOf w 25 20
  let route := t = 2 || t = 3
  { key := if t = 0 then stampedKey d.now (paramKey r 0) else paramKey r 0, result := le r 16 8, static := w.getLsbD 30, ageEn := w.getLsbD 29,
    table := t, fn := f, qual := if route then f * 2 ^ 22 + le r 28 4 % 2 ^ 22 else le r 28 4 }

/-- A record of the ROUTE section is a default slot. -/
def isDefault (r : Bytes) : Bool := le r 28 4 % 2 ^ 22 == 0

/-- The rule that a record of R121 restores. -/
def restoredRule (f num : Nat) (r : Bytes) : Entry :=
  { key := paramKey r 0, result := le r 16 8, static := true, ageEn := false, table := 1, fn := f, qual := ruleQual num (bitsOf (le32 r 16) 2 0) }

/-- Inserts entries, until one finds no room. -/
def Dev.insertAll (d : Dev) : List Entry → Option Dev
  | [] => some d
  | e :: rest =>
    match d.insertEntry e false with
    | some (_, d1) => d1.insertAll rest
    | none => none

/-- Every entry of an image: rules, entries, routes. -/
def Dev.imageEntries (d : Dev) (f : Nat) (b : Bytes) : List Entry :=
  let num := le ((imgRecords b 6).headD []) 0 2
  (imgRecords b 7).map (restoredRule f num) ++ (imgRecords b 8).map (d.restoredEntry f)
    ++ ((imgRecords b 9).filter fun r => !isDefault r).map (d.restoredEntry f)

/-- The checks of R326, in the order 0x08, 0x01 to 0x07 (log entry 34). -/
def Dev.restoreRefuses (d : Dev) (f : Nat) (b : Bytes) : Option Nat :=
  if !d.restoreTarget f then some 8
  else if !stateImageOk b then some 1
  else
    match d.openKeys b with
    | .error e => some e
    | .ok keys =>
      if d.qpCount f < (imgRecords b 2).length then some 4
      else if (imgRecords b 8).any (fun r => let t := bitsOf (le32 r 24) 25 20; t ≠ 0 && (t < 4 || !d.tblGranted f t)) then some 5
      else if keys.any (fun r => let k := (le32 r 0).toNat; k ≥ 16384 || d.cip.grants.look? k ≠ some f || (d.slot k).state ≠ 0) then some 6
      else if (d.insertAll (d.imageEntries f b)).isNone then some 7
      else none

/-- FUNC_RESTORE: `image` is what the read of the buffer brings. The generation change comes first, and the image is installed
when its reset ends. -/
def Dev.funcRestore (d : Dev) (n f : Nat) (p : Bytes) (image : Option Bytes) : Dev :=
  d.withData n (le p 0 8) (le32 p 8).toNat image fun raw d =>
    let b := sized (le32 p 8).toNat raw
    if d.mramBad 0x3000 0x4000 then d.reply n .badState
    else
    match d.restoreRefuses f b with
    | some e => d.reply n .badParam (wordBytes [toWord e])
    | none => ((d.genChange f 6 (some n)).commit n).updReset f fun r => { r with restore := some (n, b) }

/-- A word of an image goes into a register: reserved and read-only bits stay as they are at reset (R5). -/
def Dev.wrImage (d : Dev) (r : Reg) (i w : Nat) (v : Word) : Dev :=
  d.wr r i w (v &&& ((r.access w).rw ||| (r.access w).rwd))

/-- Installs queue pairs and RSS of an image. -/
def Dev.installQps (d : Dev) (f : Nat) (b : Bytes) : Dev :=
  let d1 := (imgRecords b 2).foldl (fun (x : Dev) r =>
    let q := x.qpBase f + (le32 r 88).toNat % 64
    let y := (List.range 14).foldl (fun (y : Dev) w => y.wrImage .HIF_QP_CTX q w (le32 r (4 * w))) x
    let c (i : Nat) : Nat := le r (64 + 4 * i) 4
    y.setQp q { txTail := c 0, txFetched := c 1, txcTail := c 1, txcHead := c 2, rxTail := c 3, rxFetched := c 4, rxcTail := c 4, rxcHead := c 5 }) d
  match imgRecords b 3 with
  | r :: _ => (List.range 64).foldl (fun (x : Dev) i => x.wr .HIF_RSS (64 * f + i) 0 (toWord ((byteAt r i).toNat % 64))) d1
  | [] => d1

/-- Installs late-gather contexts, in contexts that are not in use (which ones, the manual leaves open; log entry 34), and
prefetchable windows. -/
def Dev.installDma (d : Dev) (f : Nat) (b : Bytes) : Dev :=
  let d1 := (imgRecords b 4).foldl (fun (x : Dev) r =>
    let (s, y) := x.drawNat
    match roundRobin 1024 (s % 1024) fun k => !y.on? Fld.DMA_LG_CTX_ENABLE k with
    | none => y
    | some k =>
      let w := setBits (le32 r 0) 13 0 (y.qpBase f + bitsOf (le32 r 0) 13 0)
      let z := (List.range 3).foldl (fun (z : Dev) i => z.wrImage .DMA_LG_CTX k (i + 1) (le32 r (4 * (i + 1)))) (y.wrImage .DMA_LG_CTX k 0 w)
      let size := 2 ^ (z.get Fld.DMA_LG_CTX_EVLOG_SIZE k + 4)
      [5, 6, 7].foldl (fun (u : Dev) i => u.wr .DMA_LG_CTX k i 0) ((z.wr .DMA_LG_CTX k 4 (toWord (le r 16 4 % size))).lgRewind k)) d
  ((imgRecords b 5).zip (List.range 8)).foldl (fun (x : Dev) (r : Bytes × Nat) =>
    ([0xFFFFF000, 0xFFFFFFFF, 0x800FFFFF, 0].zip (List.range 4)).foldl (fun (y : Dev) (m : Word × Nat) =>
      y.wr .DMA_PF_WIN (8 * f + r.2) m.2 (le32 r.1 (4 * m.2) &&& m.1)) x) d1

/-- Installs the configuration words, length filters, default routes and the active sheet. -/
def Dev.installCfg (d : Dev) (f : Nat) (b : Bytes) : Dev :=
  let d1 := match imgRecords b 1 with
    | r :: _ =>
      let x := ((d.wrImage .CLS_FUNC_CFG f 0 (le32 r 0)).wrImage .CLS_EXC_DISP f 0 (le32 r 4)).wrImage .VSW_FUNC_CFG f 0 (le32 r 8)
      x.setVsw fun v => { v with routerMac := v.routerMac.putD 0 f ((le32 r 12).toNat * 2 ^ 16 + bitsOf (le32 r 16) 31 16) }
    | [] => d
  let d2 := match imgRecords b 10 with
    | r :: _ => (List.range 4).foldl (fun (x : Dev) w => x.wr .TBL_LPM6_FILTER (4 * f + w) 0 (le32 r (4 + 4 * w))) (d1.wr .TBL_LPM4_FILTER f 0 (le32 r 0))
    | [] => d1
  let d3 := ((imgRecords b 9).filter isDefault).foldl (fun (x : Dev) r =>
    x.setTbl fun t => { t with dflt := t.dflt.put (2 * f + (bitsOf (le32 r 24) 25 20) % 2) (le r 16 8) }) d2
  match imgRecords b 6 with
  | r :: _ =>
    let num := le r 0 2
    let profiles := ((List.range 8).filter fun i => (le32 r 8).getLsbD i).foldl (fun (t : Tbl Nat) i => t.put i (paramKey r (16 + 16 * i))) ⟨[]⟩
    d3.setBanks f { active := some { num := num, dflt := le32 r 4, profiles := profiles, since := d3.now }, lastNum := num }
  | [] => d3

/-- Installs the key slots: records now owned by the target, with the state and NEXT of the image. -/
def Dev.installKeys (d : Dev) (f : Nat) (keys : List Bytes) : Dev :=
  keys.foldl (fun (x : Dev) r =>
    let rec0 := wordsOf (r.drop 16) 32
    let rec1 := rec0.set 0 (setBits (rec0.getD 0 0) 9 0 f)
    x.putKey (le32 r 0).toNat ((le32 r 4).toNat % 8) rec1) d

/-- Installs an image; false when the tables have no room any more. -/
def Dev.install (d : Dev) (f : Nat) (b : Bytes) : Bool × Dev :=
  match d.insertAll (d.imageEntries f b), d.openKeys b with
  | some d1, .ok keys =>
    let d2 := (((d1.installQps f b).installDma f b).installCfg f b).installKeys f keys
    match imgRecords b 11 with
    | r :: _ => (true, d2.setFcartouche f r)
    | [] => (true, d2)
  | _, _ => (false, d)

/-! ## The end of a reset (R316, R318) -/

/-- A copy still waits in the device: it has not been released to a MAC. -/
def CopyStage.waits : CopyStage → Bool
  | .macsec _ _ => false
  | .launch _ _ => false
  | .line _ _ => false
  | .injector false true _ _ _ => false
  | _ => true

/-- Every engine of R317 has drained: no frame of the function with its old generation is left, one of its own that has still to
get its legend among them, no copy to it, no request or burst (R316). -/
def Dev.resetDrained (d : Dev) (f : Nat) : Bool :=
  let oldFrame (fr : Frame) : Bool := fr.owner == f && (d.staleFrame fr || (fr.inPort == 24 && fr.gen != d.gen f))
  (d.pca.reqs.first? fun _ r => r.answer.isNone && r.function == f && r.fnGen != d.gen f).isNone &&
  (d.frames.first? fun _ fr => oldFrame fr && fr.stage != .copied).isNone
    && (d.copies.first? fun _ c => c.stage.waits && (d.copyStale f c || (c.dest == 1000 + f && c.gen != d.gen f))).isNone
    && (d.dma.bursts.first? fun _ b => b.fn == f && b.gen != d.gen f && !b.issued).isNone && d.cipDrained f
    && (d.sto.conns.first? fun _ c => c.fn == f).isNone

/-- Words of FNC_GEN_REC. -/
def Dev.writeGenRec (d : Dev) (f : Nat) (g : Stamp) (reason discarded : Nat) : Dev :=
  ((stampWords g ++ [toWord (reason * 2 ^ 28 + discarded)]).zip (List.range 4)).foldl (fun (x : Dev) (w : Word × Nat) => x.wr .FNC_GEN_REC f w.2 w.1) d

/-- A reset that restores a function cartouche writes the MRAM, and its end waits through a rail warning (R390, R443). -/
def FnReset.writesMram (r : FnReset) : Bool := (r.restore.map fun x => !(imgRecords x.2 11).isEmpty).getD false

/-- FUNC_RESET_DRAIN_END: the steps of R318 in order. -/
def Dev.funcResetDrainEnd (d : Dev) (f : Nat) : Dev :=
  match d.fnc.resets.look? f with
  | none => d
  | some r =>
    if d.fnState f ≠ 1 || !d.resetDrained f || (!d.railsGood && r.writesMram) then d
    else
      let d1 : Dev := { d with fnc := { d.fnc with resets := d.fnc.resets.erase f } }
      let d2 := d1.set Fld.FNC_FUNC_STATE_STATE f 0
      let d3 := match r.restore with
        | some (n, b) =>
          let (ok, x) := d2.install f b
          if ok then
            let y : Dev := { x with fnc := { x.fnc with freezes := x.fnc.freezes.put f { z := x.now, cmd := none } } }
            (y.set Fld.FNC_FUNC_STATE_STATE f 3).replyOk n [0]
          else x.reply n .badParam (wordBytes [7])
        | none => d2
      let d4 := (d3.set Fld.FNC_FUNC_STATE_RESET_DONE f 1).writeGenRec f r.stamp r.reason r.discarded
      let d5 := r.cmds.foldl (fun x n => x.replyOk n) d4
      let d6 := d5.event (pfOf f) 0x8004 (wordBytes [toWord f, toWord (r.reason + d.gen f * 2 ^ 16)])
      if r.flr then d6.emit (.flrDone f) else d6

end Sys2Proof.Machine
end

