-- ==== Sys2Proof/Machine/FwOps.lean ====
section
/-!
DEFINITION. The firmware image at work: FW_ACTIVATE and the switch of images (R352 to R354), DEV_INFO, FW_STATE and NOP (R341).
-/
namespace Sys2Proof.Machine

/-- The generation of a block rises by 1, modulo 256 (R320). -/
def Dev.raiseBlockGen (d : Dev) (b : Nat) : Dev := d.wr .FNC_BLOCK_GEN b 0 (toWord ((d.blockGen b + 1) % 256))

/-- A command whose reply is bytes that the manual names and does not lay out (R341; log entry 37). -/
def Dev.replyOpen (d : Dev) (n len : Nat) : Dev :=
  let (bs, d1) := d.drawBytes len
  d1.reply n .ok bs

/-- FW_ACTIVATE (R352, R353): the staged image is checked, BOOT_SLOT names it, and the switch starts at S. -/
def Dev.fwActivate (d : Dev) (n : Nat) : Dev :=
  if !d.on? Fld.VCL_FW_STATE_STAGED then d.reply n .badState
  else
    d.mramRead n [(0x2000, 0x3000)] fun d =>
    if !d.imageOk d.stageSlot then d.reply n .verifyFail
    else
    d.mramWrite n fun d =>
      let d1 := (d.setMram fun m => m.setWord 0 d.stageSlot).commit n
      { d1 with vcl := { d1.vcl with switch := some { start := d1.ref, cmd := n, stopped := false } } }

/-- Every command but one ends with RESTARTED and COMMITTED (R354); what has passed its commit is finished by the hardware. -/
def Dev.restartCommands (d : Dev) (but : Nat) : Dev :=
  d.vcl.cmds.cells.foldl (fun x c =>
    if c.1 == but then x
    else if c.2.committed then x.reply c.1 .restarted (wordBytes [1])
    else x.abortCmd c.1 .restarted (wordBytes [0])) d

/-- Every slow-path frame is dropped as R321 states and counted. -/
def Dev.dropSlow (d : Dev) : Dev := d.vcl.slow.cells.foldl (fun x c => x.slowDrop c.1 c.2 0x00040000) d

/-- FW_SWITCH_TIMEOUT, at S + 10 ms: what is left ends, and the generation of block 24 rises (R353). -/
def Dev.fwSwitchTimeout (d : Dev) : Dev :=
  match d.vcl.switch with
  | some w =>
    if !w.stopped && w.start + 10000000 ≤ d.ref then
      let d1 := ((d.restartCommands w.cmd).dropSlow).raiseBlockGen 24
      { d1 with vcl := { d1.vcl with switch := some { w with stopped := true } } }
    else d
  | none => d

/-- FW_SWITCH_COMPLETE: the new image runs, replies to FW_ACTIVATE and sends FW_SWITCHED (R353), once a rail warning lets it raise
MIN_SVN (R390, R431). -/
def Dev.fwSwitchComplete (d : Dev) : Dev :=
  match d.vcl.switch with
  | some w =>
    if w.stopped && d.mayStart (1 - d.image) then
      let d1 := d.startImage (1 - d.image)
      let d2 : Dev := { d1 with vcl := { d1.vcl with switch := none } }
      (d2.replyOk w.cmd [toWord d2.image]).eventPfs 0x8008 (wordBytes [toWord d2.image, toWord (d2.blockGen 24)])
    else d
  | none => d

end Sys2Proof.Machine
end

