-- ==== Sys2Proof/Machine/PortOps.lean ====
section
/-!
DEFINITION. Ports (R358 to R381): modes, link, reception, pause and priority flow control, the pause watchdog, speed step-down and
the injectors' commands.
-/
namespace Sys2Proof.Machine

/-! ## Modes (R359, R360) -/

/-- A combination of MODE, PHY and FEC that the table of R359 has for a port; MODE 0 goes with any PHY and FEC. -/
def comboOk (p mode phy fec : Nat) : Bool :=
  match mode with
  | 0 => phy < 3
  | 1 => 16 ≤ p && phy == 0 && fec == 3
  | 2 => 16 ≤ p && phy == 0 && fec == 3
  | 3 => 16 ≤ p && phy == 0 && fec == 3
  | 4 => 16 ≤ p && phy == 0 && fec == 3
  | 5 => phy == 0 && fec < 3
  | 6 => p < 16 && ((phy == 0 && fec < 2) || (phy == 2 && fec == 0))
  | 7 => p < 16 && (phy == 0 || phy == 2) && fec == 0
  | 8 => p < 16 && phy < 3 && fec == 0
  | 9 => p < 16 && (phy == 1 || phy == 2) && fec == 0
  | _ => false

/-- The mode that a PRT_PORT_CFG word asks for as it acts. -/
def cfgMode (p : Nat) (w : Word) : Nat :=
  if comboOk p (bitsOf w 3 0) (bitsOf w 5 4) (bitsOf w 7 6) then bitsOf w 3 0 else 0

/-- The configured mode of a port. -/
def Dev.modeOf (d : Dev) (p : Nat) : Nat := cfgMode p (d.rd .PRT_PORT_CFG p)

/-- A port's PHY: 0 DIRECT. -/
def Dev.phyOf (d : Dev) (p : Nat) : Nat := d.get Fld.PRT_PORT_CFG_PHY p

/-! ## The link (R361, R362) -/

/-- UP changes: CHANGED, and an EXCEPTION record. -/
def Dev.linkSet (d : Dev) (p : Nat) (up : Bool) : Dev :=
  ((d.set Fld.PRT_LINK_STAT_UP p (b2n up)).set Fld.PRT_LINK_STAT_CHANGED p 1).logNow 0x12 p none (if up then 0x602 else 0x601) (toWord p)
    (toWord (d.curMode p))

/-- A frame that is being sent is lost. -/
def Dev.abortTx (d : Dev) (p id : Nat) : Dev :=
  (((d.bump .PRT_TX_ABORT p).emit (.cutShort p)).reshape id fun f => { f with pre := 0, body := 0, gap := 0 }).endCopy id

/-- The link fails: the frame on the line, and one that preemption has set aside, are lost. -/
def Dev.linkFails (d : Dev) (p : Nat) : Dev :=
  if !d.linkUp? p then d
  else
    let l := d.line p
    let d1 := (d.linkSet p false).setLine p { l with busy := none, aside := none }
    let d2 := match l.busy with
      | some b => d1.abortTx p b.copy
      | none => d1
    let d3 := match l.aside with
      | some a => d2.abortTx p a.1
      | none => d2
    d3.stopsTakeEffect p

/-- LINK_DOWN. -/
def Dev.linkDownPort (d : Dev) (p : Nat) : Dev := if p < 18 then d.linkFails p else d

/-- LINK_UP: `phyOk` says that an external PHY reports full duplex at the speed of MODE. A step or a return has the link down for
5 ms at least (R376). -/
def Dev.linkUpPort (d : Dev) (p : Nat) (phyOk : Bool) : Dev :=
  if p < 18 && d.on? Fld.PRT_PORT_CFG_ENABLE p && d.curMode p ≠ 0 && !d.linkUp? p && (d.phyOf p = 0 || phyOk)
      && decide ((d.port p).downTill ≤ d.ref) then
    (d.linkSet p true).setPort p { d.port p with stepAt := none }
  else d

/-- The FEC of a mode: the configured one, but NONE below MODE, where only P10x1 keeps a configured CL74 (R375). -/
def Dev.fecOf (d : Dev) (p mode : Nat) (stepped : Bool) : Nat :=
  let fec := d.get Fld.PRT_PORT_CFG_FEC p
  if !stepped then fec else if mode = 6 && fec = 1 then 1 else 0

/-- The port starts over in a mode: the link restarts, by auto-negotiation where AN is set and with link training where TRAIN is set,
and stays down for `down` ns (R361, R376). -/
def Dev.runMode (d : Dev) (p mode : Nat) (stepped : Bool) (down : Nat := 0) : Dev :=
  let d1 := (d.linkFails p).set Fld.PRT_LINK_STAT_CUR_MODE p mode
  let fec := d.fecOf p mode stepped
  let d2 := (d1.set Fld.PRT_LINK_STAT_STEPPED p (b2n stepped)).setPort p
    { d1.port p with modeSince := d.ref, quiet := 0, dropped := false, stepAt := none, downTill := d.ref + down, fec := fec }
  let d3 := if d.on? Fld.PRT_PORT_CFG_AN p && mode ≠ 0 then d2.emit (.negotiate p mode fec) else d2
  if d.on? Fld.PRT_PORT_CFG_TRAIN p && mode ≠ 0 then d3.emit (.train p mode) else d3

/-- The least time for which a step or a return takes the link down, ns (R376). -/
def stepDown : Nat := 5000000

/-- ENABLE of PRT_PORT_CFG has gone from 0 to 1, or to 0 (R360, R383). -/
def Dev.portCfgWritten (d : Dev) (p : Nat) (old : Word) : Dev :=
  match old.getLsbD 31, d.on? Fld.PRT_PORT_CFG_ENABLE p with
  | false, true =>
    let d1 := d.runMode p (d.modeOf p) false
    d1.setPort p { d1.port p with interval := d.ref, bitsRx := 0, bitsTx := 0 }
  | true, false =>
    let d1 := ((d.linkFails p).set Fld.PRT_LINK_STAT_CUR_MODE p 0).set Fld.PRT_LINK_STAT_STEPPED p 0
    d1.setPort p { d1.port p with sent := ⟨[]⟩, stepAt := none }
  | _, _ => d

/-- PRT_LINK_STAT[p] as it reads (R384). -/
def Dev.linkStat (d : Dev) (p : Nat) : Word :=
  let w := setBits (setBits (d.rd .PRT_LINK_STAT p) 28 28 (b2n (d.stopped p 8))) 27 27 (b2n ((d.port p).holdoffs.size ≠ 0))
  setBits w 23 16 (((List.range 8).map fun i => b2n (d.stopped p i) * 2 ^ i).foldl (· + ·) 0)

/-! ## Pause and priority flow control (R366 to R368, R371) -/

/-- A stop of `q` quanta counted from the end of a frame that ends `wire` ns from now, or, with 0, the end of a stop;
discarded while a holdoff runs. -/
def Dev.pauseFor (d : Dev) (p prio q wire : Nat) : Dev :=
  let x := d.port p
  if (x.holdoffs.look? prio).isSome then d
  else if q = 0 then d.setPort p { x with stops := x.stops.erase prio }
  else
    let ends := d.ref + wire + d.quantaNs p q
    let s : Stop := match x.stops.look? prio with
      | some s => { s with ends := ends }
      | none => { ends := ends, since := d.ref + wire, inForce := prio ≠ 8 || (d.line p).busy.isNone }
    d.setPort p { x with stops := x.stops.put prio s }

/-- A MAC control frame (R366). -/
def Dev.macControl (d : Dev) (p : Nat) (bs : Bytes) : Dev :=
  let op := be bs 14 2
  if op ≠ 0x0001 && op ≠ 0x0101 then d.bump .PRT_RX_CTRL_DROP p
  else
    let d1 := d.bump .PRT_RX_MAC_CTRL p
    let mode := d.get Fld.PRT_FC_CFG_FC_MODE p
    let wire := ((bs.length + 4) * d.byteTime p + lineNs - 1) / lineNs
    if !d.on? Fld.PRT_FC_CFG_RX_OBEY p || mode ≠ (if op = 1 then 1 else 2) then d1
    else if op = 1 then d1.pauseFor p 8 (be bs 16 2) wire
    else
      ((List.range 8).filter fun i => (be bs 16 2).testBit i && (d.get Fld.PRT_FC_CFG_PFC_EN p).testBit i).foldl
        (fun x i => x.pauseFor p i (be bs (18 + 2 * i) 2) wire) d1

/-- PAUSE_EXPIRY (8) and PFC_EXPIRY: the time of a stop has run out. -/
def Dev.stopExpiry (d : Dev) (p prio : Nat) : Dev :=
  match (d.port p).stops.look? prio with
  | some s => if s.ends ≤ d.ref then d.setPort p { d.port p with stops := (d.port p).stops.erase prio } else d
  | none => d

/-- PAUSE_WDOG_EXPIRY: a stop has lasted LIMIT while a gate list is active. -/
def Dev.wdogExpiry (d : Dev) (p prio : Nat) : Dev :=
  match (d.port p).stops.look? prio with
  | some s =>
    if d.gateActive p && s.inForce && s.since + 10000 * d.get Fld.PRT_PAUSE_WDOG_LIMIT p ≤ d.ref then
      let hold := d.get Fld.PRT_PAUSE_WDOG_HOLDOFF p
      let x := d.port p
      let d1 := d.setPort p
        { x with stops := x.stops.erase prio, holdoffs := if hold = 0 then x.holdoffs else x.holdoffs.put prio (d.ref + 10000 * hold) }
      (d1.bump .PRT_PAUSE_WDOG_CNT p).logNow 0x12 p none 0x600 (toWord p) (toWord (2 ^ prio))
    else d
  | none => d

/-- WDOG_HOLDOFF_END: the port obeys again. -/
def Dev.holdoffEnd (d : Dev) (p prio : Nat) : Dev :=
  match (d.port p).holdoffs.look? prio with
  | some t => if t ≤ d.ref then d.setPort p { d.port p with holdoffs := (d.port p).holdoffs.erase prio } else d
  | none => d

/-- FC_REFRESH: half of QUANTA has passed and the held bytes are still at or above XON (R369). -/
def Dev.fcRefresh (d : Dev) (p prio : Nat) : Dev :=
  match (d.port p).sent.look? prio with
  | some t => if t ≤ d.ref && decide (d.xon p ≤ d.heldBytes p prio) then d.fcXoff p prio else d
  | none => d

/-! ## Reception (R363, R379) -/

/-- A frame that has passed the FCS check and the injector: length, MAC control, count, buffers. One that the MACsec row is still to
check is counted when it has passed that (R363). -/
def Dev.rxAccept (d : Dev) (p id : Nat) : Dev :=
  match d.frame? id with
  | none => d
  | some f =>
    if f.bytes.length > d.portMaxLen p then (d.bump .PRT_RX_OVERSIZE p).endFrame id
    else if be f.bytes 12 2 = 0x8808 then (d.endFrame id).macControl p f.bytes
    else
      let d0 := if d.macsecRow p f.bytes then d else d.bump .PRT_RX_FRAMES p
      let d1 := d0.updFrame id fun x => { x with stage := .buffers, since := d.ref }
      (d1.askBuffers p f.bytes.length (.frame id)).fcRise p f.bytes

/-- A frame passes the receive injector of its port, and then those that it lets go. -/
def Dev.rxPass (d : Dev) (p id : Nat) : Dev :=
  let (out, d1) := (d.rxAccept p id).passInjector false (2 * p)
  out.foldl (fun x i => x.rxAccept p i) d1

/-- The receive injector acts on a frame (R377, R379). -/
def Dev.rxInject (d : Dev) (p id : Nat) (f : Frame) : Dev :=
  let (a, d1) := d.inject false (2 * p) false (nsOf f.stamp)
  match a with
  | none => d1.rxPass p id
  | some 0 => d1.endFrame id
  | some 1 =>
    if d1.injFcsFix false (2 * p) then
      let (b, d2) := d1.corrupt false (2 * p) f.bytes
      (d2.updFrame id fun x => { x with bytes := b }).rxPass p id
    else (d1.bump .PRT_RX_FCS_ERR p).endFrame id
  | some _ => (d1.holdBack false (2 * p) id).updFrame id fun x => { x with stage := .injector (2 * p) }

/-- The FEC decoder of a port that runs one counts the codewords of a frame that it has corrected, and those of a frame that fails its
FCS that it could not; how many, nothing that reaches the model tells (log entry 38). -/
def Dev.fecCount (d : Dev) (p : Nat) (fcsOk : Bool) : Dev :=
  if (d.port p).fec = 0 then d
  else
    let (a, d1) := d.drawNat
    let (b, d2) := d1.drawNat
    let d3 := d2.bumpBy .PRT_FEC_CORR p a
    if fcsOk then d3 else d3.bumpBy .PRT_FEC_UNCORR p b

/-- FRAME_RECEIVE: the whole frame has arrived; its stamp is the present one less the latency of an external PHY (R39, R40). -/
def Dev.frameReceive (d : Dev) (p : Nat) (bs : Bytes) (fcsOk : Bool) : Dev :=
  if p < 18 && d.on? Fld.PRT_PORT_CFG_ENABLE p && d.linkUp? p then
    let d1 := (d.setPort p { d.port p with bitsRx := (d.port p).bitsRx + 8 * (bs.length + 24) }).fecCount p fcsOk
    if bs.length + 4 < 64 then d1.bump .PRT_RX_RUNT p
    else if !fcsOk then d1.bump .PRT_RX_FCS_ERR p
    else
      let delay := if d.phyOf p = 0 then 0 else d.get Fld.MER_PHY_DELAY_RX_DELAY p
      let f : Frame := { inPort := p, stamp := (d.now + 2 ^ 72 - delay) % 2 ^ 72, bytes := bs, stage := .buffers, seq := d.nextFrame,
                         since := d.ref }
      let (id, d2) := d1.addFrame f
      d2.rxInject p id f
  else d

/-- Frames and copies that an injector lets go: back into reception, to the launch slots or to receive placement. -/
def Dev.letGo (d : Dev) (func : Bool) (n : Nat) (ids : List Nat) : Dev :=
  if !func && n % 2 = 0 then ids.foldl (fun x i => x.rxAccept (n / 2) i) d
  else
    let rx := ids.filter fun i => match ((d.copy? i).map (·.stage) : Option CopyStage) with
      | some (.injector true false _ _ _) => true
      | _ => false
    (d.reorderOut ids).releaseRx rx

/-- REORDER_TIMEOUT: what an injector has held for 1 ms goes on (R379). -/
def Dev.reorderTimeout (d : Dev) (func tx : Bool) (n : Nat) : Dev :=
  let k := if func then n else 2 * n + b2n tx
  let x := d.injector func k
  let due := (x.held.filter fun h => h.2.2 ≤ d.ref).map (·.1)
  (d.setInjector func k { x with held := x.held.filter fun h => d.ref < h.2.2 }).letGo func k due

/-! ## Speed step-down (R374 to R376) -/

/-- A stepped port returns to its configured mode. -/
def Dev.stepUp (d : Dev) (p : Nat) : Dev := if d.on? Fld.PRT_LINK_STAT_STEPPED p then d.runMode p (d.modeOf p) false stepDown else d

/-- EN is cleared, and a stepped port returns at once (R376). -/
def Dev.stepdownOff (d : Dev) (p : Nat) : Dev := (d.wr .PRT_STEPDOWN p 0 (d.rd .PRT_STEPDOWN p &&& 0x7FFFFFFF)).stepUp p

/-- STEPDOWN_INTERVAL: a 1 ms interval has ended, or a copy to a stepped port has been dropped. -/
def Dev.stepdownInterval (d : Dev) (p : Nat) : Dev :=
  let x := d.port p
  let en := (d.rd .PRT_STEPDOWN p).getLsbD 31
  let stepped := d.on? Fld.PRT_LINK_STAT_STEPPED p
  if p ≥ 18 then d
  else if en && stepped && x.dropped then d.stepUp p
  else if d.ref < x.interval + 1000000 then d
  else
    let bits := max x.bitsRx x.bitsTx
    let down := 1000 * bitsOf (d.rd .PRT_STEPDOWN p 1) 31 16
    let up := 1000 * bitsOf (d.rd .PRT_STEPDOWN p 1) 15 0
    let hold := 1000000 * bitsOf (d.rd .PRT_STEPDOWN p 2) 31 16
    let quiet := if bits < down then x.quiet + 1 else 0
    let d1 := d.setPort p { x with bitsRx := 0, bitsTx := 0, interval := d.ref, quiet := quiet, dropped := false }
    if !en then d1
    else if stepped && bits > up then d1.stepUp p
    else if d.linkUp? p && d.curMode p < bitsOf (d.rd .PRT_STEPDOWN p) 11 8 && decide (bitsOf (d.rd .PRT_STEPDOWN p 2) 15 0 ≤ quiet)
        && decide (x.modeSince + hold ≤ d.ref) && decide (x.noStep ≤ d.ref) then
      let d2 := d1.runMode p (d.curMode p + 1) true stepDown
      d2.setPort p { d2.port p with stepAt := some d.ref }
    else d1

/-- STEPDOWN_ACCEPT_TIMEOUT: the partner has not accepted within 50 ms; no further step for HOLD ms. -/
def Dev.stepdownAcceptTimeout (d : Dev) (p : Nat) : Dev :=
  match (d.port p).stepAt with
  | some t =>
    if !d.linkUp? p && t + 50000000 ≤ d.ref then
      let d1 := d.runMode p (d.modeOf p) false stepDown
      d1.setPort p { d1.port p with noStep := d.ref + 1000000 * bitsOf (d.rd .PRT_STEPDOWN p 2) 31 16 }
    else d
  | none => d

/-! ## Commands (R381) -/

/-- Words of a register item written one after the other. -/
def Dev.wrWords (d : Dev) (r : Reg) (i : Nat) (ws : List Word) : Dev :=
  (ws.zip (List.range ws.length)).foldl (fun (x : Dev) (e : Word × Nat) => x.wr r i e.2 e.1) d

/-- PORT_STATE. -/
def Dev.portState (d : Dev) (n : Nat) (p : Bytes) : Dev :=
  let port := bitsOf (le32 p 0) 4 0
  if port ≥ 18 then d.reply n .badParam
  else d.replyOk n ([d.linkStat port, d.rd .PRT_PORT_CFG port, d.rd .PRT_FC_CFG port, d.rd .PRT_PAUSE_WDOG port] ++ d.itemWords .PRT_STEPDOWN port)

/-- STEPDOWN_SET (R374). With EN = 0 the other fields are not checked, and a stepped port returns (log entry 38). -/
def Dev.stepdownSet (d : Dev) (n : Nat) (p : Bytes) : Dev :=
  let w0 := le32 p 0
  let port := bitsOf w0 4 0
  let floor := bitsOf w0 11 8
  let down := bitsOf (le32 p 4) 31 16
  let up := bitsOf (le32 p 4) 15 0
  let mode := d.modeOf port
  if port ≥ 18 then d.reply n .badParam
  else if !w0.getLsbD 31 then ((d.wrWords .PRT_STEPDOWN port (wordsOf p 3)).stepUp port).replyOk n
  else if !(port < 16 && d.on? Fld.PRT_PORT_CFG_ENABLE port && d.phyOf port == 0 && d.on? Fld.PRT_PORT_CFG_AN port && decide (5 ≤ mode)
      && decide (mode ≤ 7) && decide (mode + 1 ≤ floor) && decide (floor ≤ 8) && decide (down < up) && decide (up < modeRate floor)
      && bitsOf (le32 p 8) 15 0 != 0) then d.reply n .badParam
  else if d.gateActive port then d.reply n .badState
  else (d.wrWords .PRT_STEPDOWN port (wordsOf p 3)).replyOk n

/-- PAUSE_WDOG_SET (R371). -/
def Dev.pauseWdogSet (d : Dev) (n : Nat) (p : Bytes) : Dev :=
  let port := bitsOf (le32 p 0) 4 0
  if port ≥ 18 || bitsOf (le32 p 4) 31 16 = 0 then d.reply n .badParam else (d.wr .PRT_PAUSE_WDOG port 0 (le32 p 4)).replyOk n

/-- Parameters of a FAULT_SET that enables an injector are in range. -/
def faultOk (p : Bytes) : Bool :=
  let w := le32 p 0
  let k := (le32 p 4).toNat
  let c := bitsOf w 21 16
  (match bitsOf w 28 27 with
   | 0 => decide (1 ≤ k) && decide (k ≤ 31)
   | _ => decide (1 ≤ k))
    && (match bitsOf w 26 25 with
        | 1 => decide (1 ≤ c) && decide (c ≤ 32)
        | 2 => decide (1 ≤ c)
        | _ => true)

/-- FAULT_SET (R377 to R380). The generator of the injector gets a seed from the DRBG, or, while the TRNG has failed, runs on from its
last one (R445). -/
def Dev.faultSet (d : Dev) (n : Nat) (a : Accepted) (p : Bytes) : Dev :=
  let w := le32 p 0
  let func := w.getLsbD 30
  let idx := bitsOf w 9 0
  let who := a.cmd.issuer
  let mine := if who < 4 then !func || pfOf idx == who else func && idx == who && (d.rd .FNC_PRIV who).getLsbD 0
  if !mine then d.reply n .denied
  else if (!func && idx ≥ 18) || (func && !d.exists? idx) || bitsOf w 28 27 = 3 || bitsOf w 26 25 = 3 || (w.getLsbD 31 && !faultOk p)
      || (bitsOf w 28 27 ≠ 2 && (le32 p 8 ≠ 0 || le32 p 12 ≠ 0)) then d.reply n .badParam
  else
    let k := if func then idx else 2 * idx + b2n (w.getLsbD 29)
    let held := (d.injector func k).held.map (·.1)
    let (seed, d0) := if d.on? Fld.SEC_STAT_TRNG_FAIL then ((d.injector func k).seed, d) else d.drawNat
    let d1 := ((d0.setInjector func k { seed := seed }).letGo func k held).wrWords (if func then .PRT_FAULT_FUNC else .PRT_FAULT_PORT) k (wordsOf p 4)
    (d1.logFault func k true (w.getLsbD 29) (bitsOf w 26 25)).replyOk n

end Sys2Proof.Machine
end

