-- ==== Sys2Proof/Machine/ResetOps.lean ====
section
/-!
DEFINITION. What a block loses when its island is turned off or it is reset (R14, R15, R204, R320, R321, R400, R405).
-/
namespace Sys2Proof.Machine

/-! ## Frames, copies and commands that a block holds -/

/-- DATA0 of a frame whose block has gone (R321). -/
def goneReason : Word := 0x00040000

/-- The copy is on the line, where it ends by itself. -/
def Copy.onLine (c : Copy) : Bool :=
  match c.stage with
  | .line _ _ => true
  | _ => false

/-- Takes a copy out of the queues that hold it. -/
def Dev.unlinkCopy (d : Dev) (id : Nat) (c : Copy) : Dev :=
  let d1 := match c.stage with
    | .queued q => d.unqueue q id
    | _ => d
  let d2 := d1.setCip fun x => { x with txQ := x.txQ.filter (· ≠ id), espQ := x.espQ.filter fun e => e.2 != .espOut id }
  { d2 with dma := { d2.dma with handed := d2.dma.handed.filter fun e => e.1 != id } }

/-- A copy on the line, or set aside there, is cut short (R15). -/
def Dev.cutFromLine (d : Dev) (id : Nat) (c : Copy) : Dev :=
  let p := c.dest
  let l := d.line p
  if l.busy.map (·.copy) == some id then ((d.setLine p { l with busy := none }).stopsTakeEffect p).emit (.cutShort p)
  else if l.aside.map (·.1) == some id then (d.setLine p { l with aside := none }).emit (.cutShort p)
  else d

/-- Drops every copy of a kind that is not on the line. -/
def Dev.dropCopies (d : Dev) (src : Nat) (reason : Word) (p : Copy → Bool) : Dev :=
  d.copies.cells.foldl (fun x c => if p c.2 && !c.2.onLine then (x.unlinkCopy c.1 c.2).dropCopy c.1 src reason else x) d

/-- A frame whose buffer word has failed is dropped with all its copies, one that the MAC is sending too (R15). -/
def Dev.failCopies (d : Dev) (id src : Nat) (reason : Word) : Dev :=
  d.copies.cells.foldl (fun x c =>
    if c.2.frame == id then ((x.cutFromLine c.1 c.2).unlinkCopy c.1 c.2).dropCopy c.1 src reason else x) d

/-- Drops a frame that is on no copy; a thread that holds it is free, and a place in the slow path with it. -/
def Dev.loseFrame (d : Dev) (id src : Nat) (reason : Word) : Dev :=
  match d.frame? id with
  | none => d
  | some f =>
    if (d.copies.first? fun _ c => c.frame == id).isSome then d
    else
      let d1 := d.dropFrame id src reason
      match f.stage with
      | .onThread t => d1.freeThread t
      | .slow _ h => { d1 with vcl := { d1.vcl with slow := d1.vcl.slow.erase h } }
      | _ => d1

/-- Drops every frame of a kind that is on no copy. -/
def Dev.loseFrames (d : Dev) (src : Nat) (p : Frame → Bool) : Dev :=
  d.frames.cells.foldl (fun x c => if p c.2 then x.loseFrame c.1 src goneReason else x) d

/-- Accepted commands of some subjects that a block works on end with TARGET_RESET (R320; log entry 26). -/
def Dev.abortSubjects (d : Dev) (subjects : List Nat) : Dev :=
  d.vcl.cmds.cells.foldl (fun x c =>
    if c.2.started && subjects.contains (c.2.opcode / 256) then x.abortCmd c.1 .targetReset else x) d

/-- Every command that has begun ends with TARGET_RESET: the control cluster, which carries it out, is in BLOCK reset (log entry
48). -/
def Dev.abortStarted (d : Dev) : Dev :=
  d.vcl.cmds.cells.foldl (fun x c => if c.2.started then x.abortCmd c.1 .targetReset else x) d

/-! ## Work in flight, block by block -/

/-- A region (R14): its frames are dropped and counted, and everything that it keeps for its threads goes. -/
def Dev.regionLoss (d : Dev) (r : Nat) : Dev :=
  let inRegion (f : Frame) : Bool :=
    match f.stage with
    | .queued q _ => q == r
    | .onThread t => regionOf t == r
    | _ => false
  let d1 := d.frames.cells.foldl (fun x c => if inRegion c.2 then (x.bump .PCA_REGION_DROP r).dropFrame c.1 (32 + r) goneReason else x) d
  let p := d1.pca
  let pca : Pca :=
    { p with threads := p.threads.keep fun t _ => regionOf t != r
             cores := p.cores.keep fun c _ => c / 32 != r
             scratch := p.scratch.keep fun a _ => a / 0x4000 / 32 != r
             rstore := p.rstore.keep fun a _ => a / 0x80000 != r
             chans := p.chans.keep fun n _ => n / 32 != r
             rq := p.rq.keep fun k _ => k / 16 != r
             rqLast := p.rqLast.erase r
             rqCluster := p.rqCluster.keep fun k _ => k / 16 != r
             reqs := p.reqs.keep fun _ q => regionOf q.thread != r
             msgs := p.msgs.erase r }
  let d2 : Dev := { d1 with pca := pca, cls := { d1.cls with cache := d1.cls.cache.erase r } }
  d2.pca.changes.keys.foldl (fun x f => x.insetCommitApply f r) d2

/-- A TLS record whose operation is gone completes with TARGET_RESET, and so do the commands that received bytes of it; its
connection, whose stream has lost the record, is lost (R204, R321; log entry 47). -/
def Dev.tlsGone (d : Dev) (k : Nat) : Dev :=
  match d.sto.records.look? k with
  | none => d
  | some r => d.recordEnds k r .targetReset

/-- An operation of the cipher engine that ends with the engine (R204). -/
def Dev.cipLose (d : Dev) (s : CipSubject) : Dev :=
  match s with
  | .tls k => d.tlsGone k
  | _ => d.cipRefused.dropSubject s goneReason

/-- Cipher cores from `lo` on, and, with `queues`, what waits for a core. -/
def Dev.cipLoss (d : Dev) (lo : Nat) (queues : Bool) : Dev :=
  let ops := (d.cip.cores.cells.filter fun c => lo ≤ c.1).map (·.2)
  let waiting : List CipSubject :=
    if queues then d.cip.txQ.map .tx ++ d.cip.rxQ.map (fun e => .rx e.1) ++ d.cip.espQ.map (·.2) ++ d.cip.tlsQ.map (fun e => .tls e.2)
    else []
  let d1 := d.setCip fun x =>
    { x with cores := x.cores.keep (fun c _ => decide (c < lo)), retired := if lo = 0 then ⟨[]⟩ else x.retired, txQ := if queues then [] else x.txQ, rxQ := if queues then [] else x.rxQ,
             espQ := if queues then [] else x.espQ, tlsQ := if queues then [] else x.tlsQ }
  let d2 := ops.foldl (fun x o => x.freeShare (o.chain.getD []) 97) d1
  (ops.map (·.subject) ++ waiting).foldl (fun x s => x.cipLose s) d2

/-- Traffic manager: the copies it holds, and what it counts of them; what a line is sending goes on. -/
def Dev.tmLoss (d : Dev) : Dev :=
  let held (c : Copy) : Bool :=
    match c.stage with
    | .admitting => true
    | .queued _ => true
    | .macsec _ _ => true
    | .launch _ _ => true
    | _ => false
  (d.dropCopies 44 goneReason held).setTm fun t =>
    { t with queues := ⟨[]⟩, qDef := ⟨[]⟩, gDef := ⟨[]⟩, gLast := ⟨[]⟩, qLast := ⟨[]⟩, held := ⟨[]⟩, left := ⟨[]⟩ }

/-- A burst that is gone, as its requester sees it. -/
def Dev.burstGone (d : Dev) (b : Burst) : Dev :=
  match b.for_ with
  | .storage c pdu _ => d.stoReadFail c pdu
  | .placed c cid _ => d.stoPlaceFail c cid
  | .zeroRead k => d.tlsZeroed k
  | .zero k => d.tlsZeroed k
  | _ => d

/-- DMA engine: descriptors, bursts, late-gather windows and the copies it places; ring counts stay with the queue pairs. -/
def Dev.dmaLoss (d : Dev) : Dev :=
  let mine (c : Copy) : Bool :=
    match c.stage with
    | .dma _ => true
    | .placing _ _ => true
    | _ => false
  let bursts := d.dma.bursts.vals
  let d1 := d.freeUntaken d.dma.descs.vals
  let d2 := d1.dma.ctxs.keys.foldl (fun x k => x.lgClear k) d1
  let d3 : Dev := { d2 with dma := { qps := d2.dma.qps, invals := d2.dma.invals } }
  bursts.foldl (fun x b => x.burstGone b) (d3.dropCopies 46 goneReason mine)

/-- Storage engine: every connection is FREE, without a frame or a completion; returns that wait end with TARGET_RESET. -/
def Dev.stoLoss (d : Dev) : Dev :=
  let mine (c : Copy) : Bool :=
    match c.stage with
    | .storage _ => true
    | _ => false
  let d1 := d.sto.conns.keys.foldl (fun x n => x.stoRelease n) d
  let d2 := (d1.dropCopies 47 goneReason mine).abortSubjects [10]
  { d2 with sto := { nextRec := d2.sto.nextRec } }

/-- Table engine: every entry, and with the rules every sheet. -/
def Dev.tblLoss (d : Dev) : Dev :=
  let d1 := d.abortSubjects [4, 5]
  { d1 with tbl := {}, cls := { d1.cls with banks := ⟨[]⟩ } }

/-- Classifier: the sheets with their rules, and the cache. -/
def Dev.clsLoss (d : Dev) : Dev :=
  let d1 := (d.abortSubjects [4]).setTbl fun x => { x with slots := x.slots.keep fun _ e => e.table != 1, ovf := x.ovf.keep fun _ e => e.table != 1 }
  { d1 with cls := {} }

/-- Virtual switch: frames handed to it, and copies that wait for its buffers. -/
def Dev.vswLoss (d : Dev) : Dev :=
  let atSwitch (f : Frame) : Bool :=
    match f.stage with
    | .toSwitch _ => true
    | _ => false
  ((d.dropCopies 42 goneReason fun c => c.stage == .buffers).loseFrames 42 atSwitch).abortSubjects [6]

/-- Buffer pool manager: every frame it stores, every grant, and every request, which ends as POOL_EMPTY (R321). -/
def Dev.bpmLoss (d : Dev) : Dev :=
  let reqs := d.bpm.reqs.vals
  let d1 := (d.dropCopies 45 goneReason fun _ => true).loseFrames 45 fun _ => true
  let d2 : Dev :=
    { d1 with bpm := {}
              frames := d1.frames.mapVals fun _ f => { f with chain := [] }
              copies := d1.copies.mapVals fun _ c => { c with hdr := [] }
              cip := { d1.cip with cores := d1.cip.cores.mapVals fun _ o => { o with chain := none } }
              sto := { d1.sto with conns := d1.sto.conns.mapVals fun _ c => { c with segs := c.segs.map fun s => (s.1, s.2.1, []) } }
              dma := { d1.dma with descs := d1.dma.descs.mapVals fun _ x => { x with chain := [] }
                                   ctxs := d1.dma.ctxs.mapVals fun _ x =>
                                     { x with stored := none, wins := x.wins.map (fun w => { w with chain := [] }),
                                              logs := x.logs.map fun e => { e with chain := [] } } } }
  reqs.foldl (fun x r => x.bufOutcome r none fun n chain e => e.stoBuffers n chain) d2

/-- The work in flight that a block loses at a power-down or a reset. -/
def Dev.blockLoss (d : Dev) (b : Nat) : Dev :=
  match b with
  | 4 => (d.cipLoss 0 true).abortSubjects [7]
  | 5 => d.cipLoss 6 false
  | 6 => d.tmLoss
  | 7 => d.dmaLoss
  | 8 => d.stoLoss
  | 9 => d.tblLoss
  | 10 => d.clsLoss
  | 11 => d.vswLoss
  | 12 => d.dropSlow.abortStarted
  | 13 => d.bpmLoss
  | _ => if b < 4 then d.regionLoss b else d

/-! ## Registers and settings (R400, R405, R410, R413) -/

/-- The windows of R410 whose registers lie in a block. -/
def blockWindows : Nat → List Nat
  | 4 => [8] | 6 => [9] | 7 => [11] | 8 => [12] | 9 => [6] | 10 => [5] | 11 => [7] | 12 => [13] | 13 => [10] | 14 => [0, 1] | 15 => [14]
  | _ => []

/-- Registers of the function manager that R405 keeps through a BLOCK reset: the generations, the states of the functions and the
records of their changes. -/
def keptByBlock (a : Nat) : Bool :=
  [Reg.FNC_BLOCK_GEN, .FNC_FUNC_STATE, .FNC_GEN_REC].any fun r => regKey r 0 0 ≤ a && a < regKey r r.info.count 0

/-- The register word of a key lies in a block: by its window, and those of the function pages and the queue pair contexts in the
host interface fabric, but for the mailbox registers of a page (R410). -/
def liesIn (b a : Nat) : Bool :=
  if a < 0x4000000 then (blockWindows b).contains (a / 0x100000)
  else b == (if a < 0x8000000 && a % 0x10000 / 0x1000 = 3 then 15 else 14)

/-- The registers that R413 places in a region, and how many items of each. -/
def regionRegs : List (Reg × Nat) :=
  [(.PCA_WAIT_CLOSED, 4), (.PCA_CHAN_ABANDON, 4), (.PCA_CORE_CFG, 32), (.PCA_THREAD_CTRL, 128), (.PCA_THREAD_STAT, 128), (.PCA_EVT_SRC, 128),
   (.PCA_CHAN_CFG, 32), (.PCA_CHAN_WRITERS, 32), (.PCA_CHAN_READERS, 32), (.PCA_CHAN_STAT, 32), (.DBG_THREAD_CTRL, 128)]

/-- Registers that lie in a block return to their reset values, and what reads have latched of them is gone (R411). -/
def Dev.blockRegs (d : Dev) (b : Nat) : Dev :=
  if b < 4 then regionRegs.foldl (fun x e => (List.range e.2).foldl (fun y i => y.resetItem e.1 (e.2 * b + i)) x) d
  else
    { d with regs := d.regs.keep (fun a _ => !liesIn b a || keptByBlock a),
             latch := d.latch.keep fun a _ => !liesIn b a || keptByBlock a }

/-- Settings that commands have written into a block (R405). -/
def Dev.blockSettings (d : Dev) (b : Nat) : Dev :=
  match b with
  | 4 => d.setCip fun x => { x with sci := ⟨[]⟩, rxsc := ⟨[]⟩, turnClass := 1, turnsLeft := 0, lastFn := ⟨[]⟩, blocks := ⟨[]⟩, seeds := ⟨[]⟩ }
  | 6 =>
    let d1 := (List.range 18).foldl (fun x p => if (x.tm.gates.look? p).isSome then x.gateEnd p else x) d
    d1.setTm fun t => { t with shapers := ⟨[]⟩, gates := ⟨[]⟩, filters := ⟨[]⟩, meters := ⟨[]⟩, cb := ⟨[]⟩ }
  | 11 => { d with vsw := {} }
  | 14 => { d with dma := { d.dma with qps := ⟨[]⟩ }, hif := { d.hif with aqs := ⟨[]⟩ } }
  | _ => d

/-- An island's working state. -/
def Dev.isl (d : Dev) (b : Nat) : Island := d.pwr.islands.getD b {}

/-- Replaces it. -/
def Dev.setIsl (d : Dev) (b : Nat) (x : Island) : Dev := { d with pwr := { d.pwr with islands := d.pwr.islands.putD {} b x } }

/-- A BLOCK reset of a block (R404): its registers and settings return to their reset values, its generation rises, its work is
lost; the key store and its grants go with the cipher engine, both of whose banks a reset of bank 0 resets (R204, R400; log entry
39), a pace demand with any reset (R395). -/
def Dev.blockReset (d : Dev) (b : Nat) : Dev :=
  let d0 := (d.blockRegs b).raiseBlockGen b
  let d1 := ((if b = 4 then d0.raiseBlockGen 5 else d0).blockLoss b).blockSettings b
  let d2 := if b = 4 then d1.setCip fun x => { x with slots := ⟨[]⟩, grants := ⟨[]⟩ } else d1
  (if b = 4 then [4, 5] else [b]).foldl (fun x k => (x.setIsl k { x.isl k with pace := 0 }).set Fld.PWR_ISLAND_STAT_PACE_RAISED k 0) d2

/-- Blocks that R400 lets BLOCK_RESET act on. -/
def resettable (b : Nat) : Bool := [4, 6, 7, 8, 9, 10, 11, 13].contains b

/-- BLOCK_RESET_END: a reset ordered by ISLAND_POWER or an uncorrectable error ends (R415). -/
def Dev.blockResetEnd (d : Dev) (b : Nat) : Dev :=
  if d.dbg.ordered = some b then d
  else
    match (d.isl b).resetting with
    | some c =>
      let d1 := d.setIsl b { d.isl b with resetting := none }
      match c with
      | some n => d1.replyOk n
      | none => d1
    | none => d

end Sys2Proof.Machine
end

