-- ==== Sys2Proof/Machine/PwrOps.lean ====
section
/-!
DEFINITION. Power, contour and reset (R386 to R409, R425, R470): levels and their changes, window demands, rail and die monitors,
island power, low-power states, and the resets of the whole package.
-/
namespace Sys2Proof.Machine

/-- Replaces the power controller's state. -/
def Dev.setPwr (d : Dev) (f : Pwr → Pwr) : Dev := { d with pwr := f d.pwr }

/-! ## Levels (R392, R393) -/

def Dev.islOn (d : Dev) (b : Nat) : Bool := d.on? Fld.PWR_ISLAND_STAT_ON b
def Dev.islLevel (d : Dev) (b : Nat) : Nat := d.get Fld.PWR_ISLAND_STAT_LEVEL b
def Dev.islFloor (d : Dev) (b : Nat) : Nat := d.get Fld.PWR_ISLAND_STAT_FLOOR b
def Dev.islCeil (d : Dev) (b : Nat) : Nat := d.get Fld.PWR_ISLAND_STAT_CEIL b
def Dev.islMode (d : Dev) (b : Nat) : Nat := d.get Fld.PWR_ISLAND_STAT_MODE b

/-- STATE of R402: 0 ACTIVE, 1 TRIM, 2 DOZE, 3 STANDBY. -/
def Dev.pwrState (d : Dev) : Nat := d.get Fld.PWR_STAT_STATE

/-- LEVEL of a block that follows others (R392): the host interface fabric and the mailbox unit the control cluster while it is
powered, from L2 up; a repeater the powered islands that R465 assigns to it. A pace demand of its own raises it (R395; log entry
39). -/
def Dev.levelOf (d : Dev) (b : Nat) : Nat :=
  let own (x : Nat) : Nat :=
    if x < 14 then d.islLevel x else max (max 2 (if d.powered 12 then d.islLevel 12 else 0)) (d.isl x).pace
  if b < 16 then own b
  else
    let l := if b = 23 then [14, 15, 0] else [2 * (b - 16), 2 * (b - 16) + 1, 2 * (b - 16) + 2]
    max (((l.filter d.powered).map own).foldl max 0) (d.isl b).pace

/-- SCHED: the highest window demand that names an island (R397). -/
def Dev.sched (d : Dev) (b : Nat) : Nat := ((d.pwr.demands.filter fun w => w.islands.testBit b).map (·.level)).foldl max 0

/-- The load demand that counts: none in FIXED mode, none on a hot die (R391, R396). -/
def Dev.loadDemand (d : Dev) (b : Nat) : Nat := if d.islMode b = 1 && !d.pwr.hotDies.contains 0 then (d.isl b).load else 0

/-- The level that R393 gives an island. -/
def Dev.islandTarget (d : Dev) (b : Nat) : Nat :=
  let needs := max (d.sched b) (d.isl b).pace
  if !d.railsGood then 0
  else if d.pwrState = 1 && b < 4 then max d.pwr.trimLevel needs
  else max (max (d.islFloor b) needs) (min (d.loadDemand b) (d.islCeil b))

/-- A change of level begins, or a change under way takes another target (R393, R394); blocks 14 to 23 follow others. -/
def Dev.settle (d : Dev) (b reason : Nat) : Dev :=
  let x := d.isl b
  let t := d.islandTarget b
  if b ≥ 14 || !d.islOn b then d
  else
    match x.target with
    | some (u, why) => if t = u then d else d.setIsl b { x with target := some (t, if x.rising then why else reason) }
    | none =>
      if t = d.islLevel b then d else (d.setIsl b { x with target := some (t, reason) }).set Fld.PWR_ISLAND_STAT_CHANGING b 1

/-- Every island. -/
def Dev.settleAll (d : Dev) (reason : Nat) : Dev := (List.range 14).foldl (fun x b => x.settle b reason) d

/-- A CONTOUR record (R393). -/
def Dev.logContour (d : Dev) (b old new reason : Nat) : Dev := d.logNow 0x0C 49 none (toWord b) (toWord (old * 16 + new)) (toWord reason)

/-- The blocks that follow others and whose level differs from that of `before` write their records, for the same reason (R392,
R393). -/
def Dev.follow (d before : Dev) (reason : Nat) : Dev :=
  ((List.range 24).filter fun b => 14 ≤ b && before.islOn b && d.islOn b && before.levelOf b != d.levelOf b).foldl
    (fun x b => x.logContour b (before.levelOf b) (d.levelOf b) reason) d

/-- The raise that a window waits for on an island is confirmed (R398): one that began late and is confirmed after the window opened
counts the window, once. -/
def Dev.countLateWindows (d : Dev) (b t : Nat) : Dev :=
  let ends (w : WinDemand) : Bool := w.raising.testBit b && decide (w.level ≤ t)
  let due (w : WinDemand) : Bool := ends w && w.late && !w.counted && decide (w.opens < d.nowNs)
  let d1 := d.pwr.demands.foldl (fun x w => if due w then x.bump .PWR_CONTOUR_LATE w.port else x) d
  d1.setPwr fun p =>
    { p with demands := p.demands.map fun w =>
               { w with counted := w.counted || due w, raising := if ends w then w.raising - 2 ^ b else w.raising } }

/-- The firmware runs and can send events. -/
def Dev.fwRuns (d : Dev) : Bool := d.vcl.up && d.vcl.switch.isNone && d.available 12 && !d.inReset

/-- Some island is being brought up. -/
def Dev.someRising (d : Dev) : Bool := (List.range 14).any d.rising

/-- The PWR_STATE_SETs that wait reply once no island is being brought up (R402). -/
def Dev.stateReplies (d : Dev) : Dev :=
  if d.someRising then d else d.pwr.cmds.foldl (fun y n => y.replyOk n) (d.setPwr fun p => { p with cmds := [] })

/-- What the firmware owes the physical functions of the rails, once it runs (R390). -/
def Dev.railEvents (d : Dev) : Dev :=
  if d.fwRuns then
    d.pwr.events.foldl (fun x e => x.eventPfs e.1 (wordBytes [toWord e.2])) (d.setPwr fun p => { p with events := [] })
  else d

/-- CONTOUR_CONFIRM: the new level is confirmed, its record written, and what waits for it replies (R393, R394, R400, R402). -/
def Dev.contourConfirm (d : Dev) (b : Nat) : Dev :=
  let x := d.isl b
  match x.target with
  | none => d
  | some (t, why) =>
    let old := if x.rising then 15 else d.islLevel b
    let d1 := ((d.set Fld.PWR_ISLAND_STAT_LEVEL b t).set Fld.PWR_ISLAND_STAT_CHANGING b 0).logContour b old t why
    let d2 := (d1.countLateWindows b t).setIsl b
      { x with target := none, rising := false, cmds := [], reload := if x.rising && b < 4 then some d.ref else x.reload }
    ((x.cmds.foldl (fun y n => y.replyOk n) (d2.follow d why)).stateReplies).railEvents

/-- LOAD_DEMAND_UP and LOAD_DEMAND_DOWN: the busy fraction in per cent (R396). No demand moves during a firmware switch (R353). -/
def Dev.loadMoves (d : Dev) (b : Nat) : Bool := b < 14 && d.islMode b == 1 && d.powered b && d.vcl.switch.isNone
def Dev.loadUp (d : Dev) (b pct : Nat) : Dev :=
  let x := d.isl b
  if d.loadMoves b && x.upPct ≤ pct && x.load < 4 then (d.setIsl b { x with load := x.load + 1 }).settle b 4 else d
def Dev.loadDown (d : Dev) (b pct : Nat) : Dev :=
  let x := d.isl b
  if d.loadMoves b && pct ≤ x.downPct && 0 < x.load then (d.setIsl b { x with load := x.load - 1 }).settle b 5 else d

/-! ## Lead records and window demands (R397, R398) -/

/-- A port's lead record: ISLANDS, WIN_LEVEL, LEAD and TAIL in ns. -/
structure Lead where
  islands : Nat
  level : Nat
  lead : Nat
  tail : Nat
  deriving DecidableEq, Repr

/-- The record that two words spell. -/
def leadOf (w0 w1 : Word) : Lead :=
  { islands := bitsOf w0 31 8, level := bitsOf w0 7 5, lead := 10 * bitsOf w1 15 0, tail := 10 * bitsOf w1 31 16 }

/-- A port's record. -/
def Dev.leadRec (d : Dev) (p : Nat) : Lead := leadOf (d.rd .PWR_LEAD_CFG p 0) (d.rd .PWR_LEAD_CFG p 1)

/-- The raise bound of R394 that a lead must cover, for an island at a floor. -/
def Lead.covers (l : Lead) (floor : Nat) : Bool := decide (400 + 800 * (l.level - floor) ≤ l.lead)

/-- The mask of classes that the contour manager watches. -/
def Dev.watchMask (d : Dev) (p : Nat) : Nat := d.get Fld.TMG_GATE_CTRL_CONTOUR_WATCH p

/-- The first window from `x` on whose opening no demand of the port has. -/
def Dev.freshWindow (d : Dev) (p : Nat) : Nat → Nat → Option (Nat × Option Nat)
  | 0, _ => none
  | fuel + 1, x =>
    match (d.gate p).window (d.watchMask p) x with
    | none => none
    | some (o, c) => if d.pwr.demands.any (fun w => w.port == p && w.opens == o) then d.freshWindow p fuel (o + 1) else some (o, c)

/-- The window of a port that is to be raised next: one that is open without a demand, as after a forward step, or the first to
come (R398). -/
def Dev.dueWindow (d : Dev) (p : Nat) : Option (Nat × Option Nat) :=
  let g := d.gate p
  let mask := d.watchMask p
  let now := d.nowNs
  let c := g.next true mask false g.fuel now
  if (g.at now).opens true mask && !(d.pwr.demands.any fun w => w.port == p && decide (w.opens ≤ now) && w.closes == c) then some (now, c)
  else d.freshWindow p (d.pwr.demands.length + 1) (now + 1)

/-- An island that a window demands is still short of its level: the raise has to be confirmed (R398). -/
def Dev.short (d : Dev) (b level : Nat) : Bool :=
  let x := d.isl b
  d.islOn b && (x.rising || d.islLevel b < level || (x.target.map fun t => decide (t.1 < level)).getD false)

/-- The islands whose raise a window waits for. -/
def Dev.raisingMask (d : Dev) (w : WinDemand) : Nat :=
  (((List.range 14).filter fun b => w.islands.testBit b && d.short b w.level).map fun b => 2 ^ b).foldl (· + ·) 0

/-- CONTOUR_RAISE: at t_open - LEAD, or at once for a window learnt of later, the window demands its level (R397, R398). A raise of
the Meridian's next cycle is not late. -/
def Dev.contourRaise (d : Dev) (p : Nat) : Dev :=
  let l := d.leadRec p
  if p ≥ 18 || l.islands = 0 || !d.gateActive p then d
  else
    match d.dueWindow p with
    | none => d
    | some (o, c) =>
      if o > d.nowNs + l.lead then d
      else
        let late := decide (o + 1 < d.nowNs + l.lead)
        let w : WinDemand := { port := p, islands := l.islands, level := l.level, opens := o, closes := c, tail := l.tail, late := late }
        let d1 := (d.setPwr fun x => { x with demands := x.demands ++ [w] }).settleAll (if late then 11 else 2)
        d1.setPwr fun x => { x with demands := d.pwr.demands ++ [{ w with raising := d1.raisingMask w }] }

/-- A window and its tail are over. -/
def WinDemand.over (w : WinDemand) (now : Nat) : Bool := (w.closes.map fun c => decide (c + w.tail ≤ now)).getD false

/-- CONTOUR_RELEASE: at t_close + TAIL. -/
def Dev.contourRelease (d : Dev) (p : Nat) : Dev :=
  (d.setPwr fun x => { x with demands := x.demands.filter fun w => !(w.port == p && w.over d.nowNs) }).settleAll 3

/-- A demand under the gate lists as they now are: none on a port without a list, none for a window that will not open; an open
window closes when its gates do. -/
def Dev.replanned (d : Dev) (w : WinDemand) : Option WinDemand :=
  let g := d.gate w.port
  let mask := d.watchMask w.port
  if !d.gateActive w.port then none
  else if w.opens ≤ d.nowNs then
    some (if (g.at d.nowNs).opens true mask then { w with closes := g.next true mask false g.fuel d.nowNs } else w)
  else
    match g.window mask w.opens with
    | some (o, c) => if o = w.opens then some { w with closes := c } else none
    | none => none

/-- After a change of gate lists. -/
def Dev.contourGates (d : Dev) : Dev := (d.setPwr fun x => { x with demands := x.demands.filterMap d.replanned }).settleAll 3

/-! ## The L4 allowance (R399) -/

/-- L4 allowances in mW. -/
def l4Share (b : Nat) : Nat := [152, 152, 152, 152, 285, 285, 266, 285, 190, 114, 38, 38, 190, 114].getD b 0

/-- The island can reach L4. -/
def Dev.reachesL4 (d : Dev) (b : Nat) : Bool :=
  d.islFloor b == 4 || (d.islMode b == 1 && d.islCeil b == 4) || (d.isl b).pace == 4
    || (List.range 18).any fun p => (d.leadRec p).level == 4 && (d.leadRec p).islands.testBit b

/-- The sum of the allowances is within 0.9 W. -/
def Dev.l4Fits (d : Dev) : Bool := decide ((((List.range 14).filter d.reachesL4).map l4Share).foldl (· + ·) 0 ≤ 900)

/-! ## POWER records and pace (R395, R470) -/

/-- A POWER record. -/
def Dev.logPower (d : Dev) (event what : Nat) (v : Word) : Dev := d.logNow 0x13 49 none (toWord event) (toWord what) v

/-- PACE_LOW: the pace sensors report PACE; below 1,000 at a confirmed level it raises the demand. -/
def Dev.paceLow (d : Dev) (b pace : Nat) : Dev :=
  let x := d.isl b
  if b ≥ 24 || !d.powered b then d
  else if pace ≥ 1000 || x.target.isSome then d.set Fld.PWR_PACE_PACE b pace
  else
    let d1 := (d.set Fld.PWR_PACE_PACE b pace).set Fld.PWR_PACE_PACE_LOW b 1
    let fail := (d1.set Fld.PWR_STAT_PACE_FAIL 0 1).logPower 5 b (toWord pace)
    let up := d.levelOf b + 1
    let d2 := (d1.setIsl b { x with pace := max x.pace up }).set Fld.PWR_ISLAND_STAT_PACE_RAISED b 1
    if up > 4 || (up = 4 && !d2.l4Fits) then fail else if b < 14 then d2.settle b 6 else d2.follow d 6

/-! ## Rails (R386, R389, R390) -/

/-- Nominal voltages, mV. -/
def railNominal (r : Nat) : Nat := [800, 1800, 900, 750, 800, 750, 1200].getD r 0

/-- WARN of a rail and what follows it at once: WARN_RAILS, WARN, the pin, and the suspension of MRAM writes and signing. -/
def Dev.railState (d : Dev) (r : Nat) (warn : Bool) : Dev :=
  let d1 := d.set Fld.PWR_RAIL_STAT_WARN r (b2n warn)
  let rails := ((List.range 7).map fun i => b2n (d1.on? Fld.PWR_RAIL_STAT_WARN i) * 2 ^ i).foldl (· + ·) 0
  let any := b2n (rails != 0)
  let d2 := ((d1.set Fld.PWR_STAT_WARN_RAILS 0 rails).set Fld.PWR_STAT_WARN 0 any).set Fld.SEC_STAT_SIGN_SUSPENDED 0 any
  if d.on? Fld.PWR_STAT_WARN == (rails != 0) then d2 else d2.emit (.warnPin (rails != 0))

/-- PWR_WARN or PWR_WARN_CLEAR of a rail: sent now, or once the firmware runs (R390; log entry 39). -/
def Dev.owesEvent (d : Dev) (code r : Nat) : Dev := (d.setPwr fun p => { p with events := p.events ++ [(code, r)] }).railEvents

/-- RAIL_WARN: below 94 % of nominal (R390). -/
def Dev.railWarn (d : Dev) (r mv : Nat) : Dev :=
  if r ≥ 7 || 100 * mv ≥ 94 * railNominal r || d.on? Fld.PWR_RAIL_STAT_WARN r then d
  else
    let d1 := (d.railState r true).set Fld.PWR_RAIL_STAT_MILLIVOLTS r mv
    if d.inReset then d1
    else
      ((((d1.set Fld.PWR_RAIL_STAT_WARN_SEEN r 1).bump .PWR_WARN_COUNT).settleAll 7).logPower 1 r (toWord mv)).owesEvent 0x8006 r

/-- The straps are sampled (R285, R450). -/
def Dev.readStraps (d : Dev) : Dev :=
  (d.set Fld.HIF_LINK_CFG_DUAL 0 (b2n d.pwr.pcieSplit)).set Fld.VCL_SMB_STAT_ADDR 0 (0x64 + d.pwr.smbAddr % 4)

/-- The power-on sequence ends when nothing holds the package in reset any more (R388): every island is at its FLOOR, and a rail that
is in warning takes its demand from there (R390). -/
def Dev.porEnds (d : Dev) : Dev :=
  if d.inReset then d
  else
    let d1 := d.readStraps.set Fld.PWR_STAT_POR_DONE 0 1
    if d1.railsGood then d1 else d1.settleAll 7

/-- RAIL_WARN_CLEAR: above 96 % of nominal (R390); it also ends a POWER_ON reset that the rail held (log entry 39). -/
def Dev.railWarnClear (d : Dev) (r mv : Nat) : Dev :=
  if r ≥ 7 || 100 * mv ≤ 96 * railNominal r || !d.on? Fld.PWR_RAIL_STAT_WARN r then d
  else
    let d1 := (d.railState r false).set Fld.PWR_RAIL_STAT_MILLIVOLTS r mv
    if d.inReset then (d1.setPwr fun p => { p with railHold := p.railHold.filter (· ≠ r) }).porEnds
    else
      let d2 := d1.logPower 2 r (toWord mv)
      (if d2.railsGood then ((d2.settleAll 8).attestResume).mgmtResume else d2).owesEvent 0x8007 r

/-! ## Temperature (R391) -/

/-- THERM_HOT in 1/16 °C. -/
def Dev.thermHot (d : Dev) : Int := 16 * (clampTo 85 115 (d.get Fld.PWR_THERM_CFG_THERM_HOT) : Nat)

/-- The hot dies, and THERM_HOT of PWR_STAT. -/
def Dev.setHot (d : Dev) (l : List Nat) : Dev := (d.setPwr fun p => { p with hotDies := l }).set Fld.PWR_STAT_THERM_HOT 0 (b2n !l.isEmpty)

/-- A die's hottest sensor, in 1/16 °C. -/
def Dev.setTemp (d : Dev) (die : Nat) (t : Int) : Dev := d.wr .PWR_TEMP die 0 (toWord (unsignedOf 16 t))

/-- DIE_HOT and DIE_HOT_CLEAR. Every island lies on the logic die. -/
def Dev.dieHot (d : Dev) (die : Nat) (t : Int) : Dev :=
  if die ≥ 4 || d.pwr.hotDies.contains die || t < d.thermHot then d
  else
    let d1 := ((d.setTemp die t).setHot (d.pwr.hotDies ++ [die])).logPower 3 die (toWord (unsignedOf 32 t))
    if die = 0 then d1.settleAll 10 else d1
def Dev.dieHotClear (d : Dev) (die : Nat) (t : Int) : Dev :=
  if !d.pwr.hotDies.contains die || t ≥ d.thermHot - 80 then d
  else
    let d1 := ((d.setTemp die t).setHot (d.pwr.hotDies.filter (· ≠ die))).logPower 4 die (toWord (unsignedOf 32 t))
    if die = 0 then d1.settleAll 10 else d1

/-! ## Island power (R400, R401) -/

/-- The commit of a power-down of one island: record, generation, work lost; the registers stay. A power-up that it overtakes ends
with TARGET_RESET. -/
def Dev.turnOff (d : Dev) (b reason : Nat) : Dev :=
  if !d.islOn b then d
  else
    let x := d.isl b
    let d1 := d.logContour b (if x.rising then 15 else d.levelOf b) 15 reason
    let d2 := (d1.set Fld.PWR_ISLAND_STAT_ON b 0).set Fld.PWR_ISLAND_STAT_CHANGING b 0
    let d3 := d2.setIsl b { x with load := 0, target := none, rising := false, reload := none, cmds := [] }
    x.cmds.foldl (fun y n => y.reply n .targetReset) ((d3.raiseBlockGen b).blockLoss b)

/-- A power-up of one island: the level that R393 gives is to be confirmed, and the commands reply then; one that is on replies at
once, one that is rising with its confirmation. A block that follows others is at its level at once. -/
def Dev.turnOn (d : Dev) (b reason : Nat) (cmds : List Nat) : Dev :=
  if d.rising b then d.setIsl b { d.isl b with cmds := (d.isl b).cmds ++ cmds }
  else if d.islOn b then cmds.foldl (fun x n => x.replyOk n) d
  else
    let d1 := d.set Fld.PWR_ISLAND_STAT_ON b 1
    if b ≥ 14 then cmds.foldl (fun x n => x.replyOk n) (d1.logContour b 15 (d1.levelOf b) reason)
    else
      (d1.set Fld.PWR_ISLAND_STAT_CHANGING b 1).setIsl b
        { d1.isl b with target := some (d1.islandTarget b, reason), rising := true, cmds := (d1.isl b).cmds ++ cmds }

/-- A power-down and a power-up, which the repeaters and the blocks that follow the control cluster follow (R392). -/
def Dev.powerDown (d : Dev) (b reason : Nat) : Dev := ((d.turnOff b reason).follow d reason).stateReplies
def Dev.powerUp (d : Dev) (b reason : Nat) (cmds : List Nat) : Dev := (d.turnOn b reason cmds).follow d reason

/-- CYCLE: OFF followed by ON, with every register of the block at its reset value; of a block that is off already it is a reset all
the same, at which the generation rises (R320). -/
def Dev.cycle (d : Dev) (b : Nat) (cmds : List Nat) : Dev :=
  let d0 := if d.islOn b then d.powerDown b 12 else d.raiseBlockGen b
  let d1 := (d0.blockRegs b).blockSettings b
  let d2 := if b < 4 then (d1.setIsl b { d1.isl b with pace := 0 }).set Fld.PWR_ISLAND_STAT_PACE_RAISED b 0 else d1
  d2.powerUp b 12 cmds

/-- A BLOCK reset with what it changes of levels: the pace demands that end, and the windows of a traffic manager whose gate lists are
gone (R395, R397). -/
def Dev.resetBlock (d : Dev) (b : Nat) : Dev :=
  let d1 := (d.blockReset b).settle b 6
  ((if b = 4 then d1.settle 5 6 else d1).follow d 6).contourGates

/-- What the firmware is woken for in STANDBY: a post held for or delivered to an internal mailbox, an SMBus command, a command that
it works on. -/
def Dev.controlWanted (d : Dev) : Bool :=
  d.vcl.smb.isSome || d.vcl.cmds.size != 0 || !(d.box 1024).isEmpty || d.mbx.holding.any fun p => decide (1024 ≤ p.receiver)

/-- The control cluster's island in STANDBY: a post or an SMBus command powers it, and once the firmware has replied, the package
still in STANDBY, it is off again (R334, R348, R402). -/
def Dev.controlFollows (d : Dev) : Dev :=
  if d.pwrState ≠ 3 then d
  else if d.controlWanted then d.powerUp 12 9 []
  else d.powerDown 12 9

/-- A Vucel command, after which the control cluster's island follows its work where the package is in STANDBY. -/
def Dev.vucel (d : Dev) (ops : Nat → Bool) (c : Cmd) (body : Nat → Accepted → Bytes → Dev → Dev) : Dev :=
  let x := d.runVucel ops c body
  if d.pwrState = 3 then x.controlFollows else x

/-- The command of one opcode. -/
def Dev.vucel1 (d : Dev) (opcode : Nat) (c : Cmd) (body : Nat → Accepted → Bytes → Dev → Dev) : Dev :=
  d.vucel (· == opcode) c body

/-- Blocks that a power state keeps off (R402). -/
def offIn (state region b : Nat) : Bool :=
  match state with
  | 2 => (b < 4 && b != region) || b == 5
  | 3 => b != 15
  | _ => false

/-- A lead record of a port with an active gate list names an island. -/
def Dev.leadNames (d : Dev) (b : Nat) : Bool := (List.range 18).any fun p => d.gateActive p && (d.leadRec p).islands.testBit b

/-- OFF and CYCLE of a block: refused with a status, or not. -/
def Dev.offRefused (d : Dev) (b : Nat) : Option Status :=
  if b < 4 then
    if d.leadNames b || !((List.range 4).any fun r => r != b && d.islOn r) then some .badState else none
  else if b = 4 then (if (d.cip.slots.first? fun _ s => s.state != 0).isSome then some .badState else none)
  else if b = 5 then none
  else if b = 8 then (if d.sto.conns.size = 0 then none else some .badState)
  else some .badParam

/-- ISLAND_POWER. -/
def Dev.islandPower (d : Dev) (n : Nat) (p : Bytes) : Dev :=
  let b := bitsOf (le32 p 0) 4 0
  let byCmd (l : List Nat) (x : Dev) : Dev := x.setPwr fun q => { q with offByCmd := l }
  let without := d.pwr.offByCmd.filter (· ≠ b)
  if b > 23 then d.reply n .badParam
  else
    match bitsOf (le32 p 0) 9 8 with
    | 0 =>
      match d.offRefused b with
      | some st => d.reply n st
      | none => ((byCmd (without ++ [b]) d).powerDown b 12).replyOk n
    | 1 => (byCmd without (d.commit n)).powerUp b 12 [n]
    | 2 =>
      match d.offRefused b with
      | some st => d.reply n st
      | none => (byCmd without (d.commit n)).cycle b [n]
    | _ =>
      if !resettable b then d.reply n .badParam
      else
        let d1 := (d.commit n).resetBlock b
        d1.setIsl b { d1.isl b with resetting := some (some n) }

/-! ## Power states (R402, R403) -/

/-- What keeps the package from STANDBY. -/
def Dev.standbyRefused (d : Dev) (a : Accepted) : Bool :=
  (List.range 18).any (fun p => d.on? Fld.PRT_PORT_CFG_ENABLE p) || (d.cip.slots.first? fun _ s => s.state != 0).isSome
    || d.sto.conns.size != 0 || (List.range 16384).any (fun q => d.on? Fld.HIF_QP_CTX_ENABLE q || d.qpActive q)
    || (List.range 4).any fun f => !(a.cmd.via == .admin && a.cmd.issuer == f) && (d.on? Fld.HIF_AQ_CFG_ENABLE f || d.aqActive f)

/-- What the firmware still works on ends with its island (R401). -/
def Dev.abortAll (d : Dev) : Dev :=
  d.vcl.cmds.cells.foldl (fun x c => if c.2.committed then x else x.abortCmd c.1 .targetReset) d

/-- Powers every block as a state wants it. -/
def Dev.applyState (d : Dev) (state region : Nat) : Dev :=
  let d1 := (List.range 24).reverse.foldl (fun x b => if offIn state region b then x.turnOff b 9 else x) d
  ((List.range 24).foldl (fun x b => if offIn state region b || d.pwr.offByCmd.contains b then x else x.turnOn b 9 []) d1).follow d 9

/-- PWR_STATE_SET. -/
def Dev.pwrStateSet (d : Dev) (n : Nat) (a : Accepted) (p : Bytes) : Dev :=
  let state := bitsOf (le32 p 0) 1 0
  let region := bitsOf (le32 p 0) 5 4
  let trim := bitsOf (le32 p 0) 10 8
  if trim > 4 then d.reply n .badParam
  else if state = 2 && (List.range 4).any (fun r => r != region && d.leadNames r) then d.reply n .badState
  else if state = 3 && d.standbyRefused a then d.reply n .badState
  else
    let d1 := (d.commit n).setPwr fun x => { x with trimLevel := trim, dozeRegion := region }
    if state = 3 then
      let d2 := (((d1.replyOk n).abortAll).applyState 3 region).stateReplies
      let d3 : Dev := { d2 with log := { d2.log with trace := ⟨[]⟩, filled := 0 }, vcl := { d2.vcl with mgmtQ := [] } }
      d3.set Fld.PWR_STAT_STATE 0 3
    else
      let d2 := ((d1.set Fld.PWR_STAT_STATE 0 state).applyState state region).settleAll 9
      if d2.someRising then d2.setPwr fun x => { x with cmds := x.cmds ++ [n] } else d2.replyOk n

/-- REGION_RELOAD_END: the region's library and insets are loaded again, and it takes legends (R403). -/
def Dev.regionReloadEnd (d : Dev) (r : Nat) : Dev :=
  if d.available r && (d.isl r).reload.isSome then d.setIsl r { d.isl r with reload := none } else d

/-! ## Contour commands (R407) -/

/-- The fields of a CONTOUR_SET applied to an island. -/
def Dev.contourApply (d : Dev) (b : Nat) (w0 w1 : Word) : Dev :=
  let d1 := ((d.set Fld.PWR_ISLAND_STAT_FLOOR b (bitsOf w0 10 8)).set Fld.PWR_ISLAND_STAT_CEIL b (bitsOf w0 14 12)).set
    Fld.PWR_ISLAND_STAT_MODE b (bitsOf w0 17 16)
  let x := d1.isl b
  d1.setIsl b { x with load := if bitsOf w0 17 16 = 1 then x.load else 0, upPct := bitsOf w1 15 8, downPct := bitsOf w1 7 0 }

/-- The values of a CONTOUR_SET are in their ranges. -/
def contourOk (w0 w1 : Word) : Bool :=
  bitsOf w0 4 0 ≤ 13 && bitsOf w0 17 16 ≤ 1 && bitsOf w0 14 12 ≤ 4 && bitsOf w0 10 8 ≤ bitsOf w0 14 12
    && 51 ≤ bitsOf w1 15 8 && bitsOf w1 15 8 ≤ 100 && bitsOf w1 7 0 < bitsOf w1 15 8

/-- CONTOUR_SET: it takes effect at once; a change of the keep-set needs an MRAM write (R390, R406). -/
def Dev.contourSet (d : Dev) (n : Nat) (a : Accepted) (p : Bytes) : Dev :=
  let w0 := le32 p 0
  let w1 := le32 p 4
  let b := bitsOf w0 4 0
  let keep := w0.getLsbD 31
  let store (x : Dev) : Dev :=
    let y := x.set Fld.PWR_ISLAND_STAT_KEEP b (b2n keep)
    (y.setMram fun m => m.writeKeep b (if keep then some (w0, w1) else none)).replyOk n
  let write (x : Dev) : Dev := if keep || (x.sec.mram.keepSet.look? b).isSome then x.mramWrite n store else x.replyOk n
  if a.committed then write d
  else
    let d1 := d.contourApply b w0 w1
    let leads := (List.range 18).all fun q => !(d.leadRec q).islands.testBit b || (d.leadRec q).covers (bitsOf w0 10 8)
    if !contourOk w0 w1 || !leads || !d1.l4Fits then d.reply n .badParam else write ((d1.settle b 1).commit n)

/-- CONTOUR_LEAD_SET. -/
def Dev.contourLeadSet (d : Dev) (n : Nat) (p : Bytes) : Dev :=
  let w0 := le32 p 0
  let w1 := le32 p 4
  let port := bitsOf w0 4 0
  let l := leadOf w0 w1
  if port > 17 || l.level > 4 || l.islands ≥ 2 ^ 14 || (l.islands ≠ 0 && l.lead < 400) then d.reply n .badParam
  else if l.islands = 0 then
    let d1 := (d.wr .PWR_LEAD_CFG port 0 0).wr .PWR_LEAD_CFG port 1 0
    ((d1.setPwr fun x => { x with demands := x.demands.filter fun w => w.port != port }).settleAll 1).replyOk n
  else
    let d1 := (d.wr .PWR_LEAD_CFG port 0 w0).wr .PWR_LEAD_CFG port 1 w1
    if !((List.range 14).all fun b => !l.islands.testBit b || l.covers (d.islFloor b)) || !d1.l4Fits then d.reply n .badParam
    else d1.replyOk n

/-- PWR_STATUS. -/
def Dev.pwrStatus (d : Dev) (n : Nat) : Dev :=
  let levels (k : Nat) : Word := toWord (((List.range 8).map fun i => d.levelOf (8 * k + i) * 16 ^ i).foldl (· + ·) 0)
  d.replyOk n ([d.rd .PWR_STAT] ++ (List.range 7).map (fun r => d.rd .PWR_RAIL_STAT r) ++ (List.range 4).map (fun t => d.rd .PWR_TEMP t)
    ++ [levels 0, levels 1, levels 2, d.rd .PWR_RESET_CAUSE])

/-! ## Resets of the package (R388, R404, R405) -/

/-- What a reset keeps: MRAM and SPI NOR, the rails and dies as they are, and at a CHIP reset the Meridian with its registers. -/
def Dev.kept (d : Dev) (powerOn : Bool) : Dev :=
  let counters := if powerOn then d.sec.mram.countersAfterLoss else d.sec.mgmtNow
  let t := if powerOn then 0 else d.ref
  let d1 : Dev :=
    { mer := if powerOn then {} else d.mer
      sec := { mram := d.sec.mram, nor := d.sec.nor, mgmtNow := counters, pkgAt := t, fnFrom := t, drbgAt := t, trngAt := t }
      pwr := { hotDies := d.pwr.hotDies, resetN := d.pwr.resetN, tripped := d.pwr.tripped, railHold := d.pwr.railHold,
               pcieSplit := d.pwr.pcieSplit, smbAddr := d.pwr.smbAddr, trstLow := d.pwr.trstLow }
      fresh := d.fresh
      out := d.out
      regs := if powerOn then ⟨[]⟩ else d.regs.keep fun a _ => a / 0x100000 == 3
      latch := if powerOn then ⟨[]⟩ else d.latch.keep fun a _ => a / 0x100000 == 3 }
  let rails := (List.range 7).filter fun r => d.on? Fld.PWR_RAIL_STAT_WARN r
  let d2 := rails.foldl (fun x r => x.wr .PWR_RAIL_STAT r 0 (d.rd .PWR_RAIL_STAT r &&& 0x8000FFFF)) d1
  let d3 := (List.range 4).foldl (fun x i => x.wr .PWR_TEMP i 0 (d.rd .PWR_TEMP i)) d2
  let d3 := if powerOn then d3 else (d3.set Fld.HIF_LINK_CFG_DUAL 0 (d.get Fld.HIF_LINK_CFG_DUAL)).wr .VCL_SMB_STAT 0 0 (d.rd .VCL_SMB_STAT)
  ((d3.set Fld.PWR_STAT_WARN_RAILS 0 (d.get Fld.PWR_STAT_WARN_RAILS)).set Fld.PWR_STAT_WARN 0 (d.get Fld.PWR_STAT_WARN)).set
    Fld.PWR_STAT_THERM_HOT 0 (d.get Fld.PWR_STAT_THERM_HOT)

/-- The generation change of a CHIP reset, for every function number (R313, R329). -/
def Dev.chipGenerations (d before : Dev) : Dev :=
  (List.range 1024).foldl (fun x f =>
    (x.set Fld.FNC_FUNC_STATE_GENERATION f ((before.gen f + 1) % 65536)).writeGenRec f before.now 5 0) d

/-- The keep-set is applied before any island leaves reset, and each starts at its FLOOR (R388, R406, R411). -/
def Dev.applyKeepSet (d : Dev) : Dev :=
  d.sec.mram.keepNow.foldl (fun x c =>
    ((x.contourApply c.1 c.2.1 c.2.2).set Fld.PWR_ISLAND_STAT_KEEP c.1 1).set Fld.PWR_ISLAND_STAT_LEVEL c.1 (bitsOf c.2.1 10 8)) d

/-- The package after a POWER_ON or CHIP reset with its cause. -/
def Dev.afterReset (d : Dev) (powerOn : Bool) (cause : Word) : Dev :=
  let d1 := if powerOn then d.kept true else (d.kept false).chipGenerations d
  let d2 := (((d1.applyKeepSet).wr .PWR_RESET_CAUSE 0 0 cause).set Fld.SEC_STAT_SIGN_SUSPENDED 0 (d.get Fld.PWR_STAT_WARN)).set
    Fld.SEC_STAT_MRAM_FAIL 0 (b2n d.sec.mram.controlLost)
  let d3 := (d2.readRing).set Fld.PWR_STAT_POR_DONE 0 (b2n !d.inReset)
  if d3.railsGood || d3.inReset then d3 else d3.settleAll 7

/-- PERST0_N, and DEV_RESET, whose reply goes out first. -/
def Dev.perst0 (d : Dev) : Dev := d.afterReset false 0x60000000
def Dev.devReset (d : Dev) (n : Nat) : Dev := (d.replyOk n).afterReset false 0x80000000

/-- RESET_N_ASSERT and RESET_N_RISE. -/
def Dev.resetNAssert (d : Dev) : Dev :=
  if d.pwr.resetN then d else (d.setPwr fun p => { p with resetN := true }).afterReset true 0
def Dev.resetNRise (d : Dev) : Dev :=
  if d.pwr.resetN then (d.setPwr fun p => { p with resetN := false }).porEnds else d

/-- RAIL_RESET: below 90 % of nominal (R389). -/
def Dev.railReset (d : Dev) (r mv : Nat) : Dev :=
  if r ≥ 7 || 100 * mv ≥ 90 * railNominal r || d.pwr.railHold.contains r then d
  else
    let d1 := (d.railState r true).set Fld.PWR_RAIL_STAT_MILLIVOLTS r mv
    let d2 := d1.setPwr fun p => { p with railHold := p.railHold ++ [r] }
    d2.afterReset true (toWord (2 ^ 29 + (d2.pwr.railHold.map fun i => 2 ^ i).foldl (· + ·) 0))

/-- A die whose last reading was 115 °C or more reads a free temperature below it (R391). -/
def Dev.cooled (d : Dev) (die : Nat) : Dev :=
  let t := signedOf 16 (bitsOf (d.rd .PWR_TEMP die) 15 0)
  if t < 1840 then d
  else
    let (x, d1) := d.drawNat
    d1.setTemp die ((x % 2480 : Nat) - 640)

/-- THERMAL_TRIP, at 125 °C, and THERMAL_TRIP_END, every die below 115 °C (R391). -/
def Dev.thermalTrip (d : Dev) (die : Nat) (t : Int) : Dev :=
  if die ≥ 4 || d.pwr.tripped || t < 2000 then d
  else (((d.setTemp die t).emit (.tripPin true)).setPwr fun p => { p with tripped := true }).afterReset true 0x40000000
def Dev.thermalTripEnd (d : Dev) : Dev :=
  if d.pwr.tripped then
    (((List.range 4).foldl Dev.cooled (d.emit (.tripPin false))).setPwr fun p => { p with tripped := false }).porEnds
  else d

/-! ## DEBUG resets (R404, R425) -/

/-- A GO write to DBG_RESET_CTRL that is dropped. -/
def Dev.debugDropped (d : Dev) : Dev := d.wr .DBG_WRITE_IGNORED 0 0 (d.rd .DBG_WRITE_IGNORED ||| 0x20000)

/-- The debug unit's own reset: the logbook and the DBG_ registers; halted threads stay halted. -/
def Dev.debugUnitReset (d : Dev) : Dev :=
  { d with regs := d.regs.keep fun a _ => a / 0x100000 != 17, log := {}, dbg := {} }

/-- A GO write of `w`: BLOCK or REGION reset of its target, or the debug unit's reset. -/
def Dev.debugGo (d : Dev) (w : Word) : Dev :=
  let t := bitsOf w 4 0
  let cyc := w.getLsbD 8
  let order (x : Dev) : Dev :=
    let y := (x.wr .DBG_RESET_CTRL 0 0 (w &&& 0x11F)).set Fld.DBG_RESET_CTRL_BUSY 0 1
    ({ y with dbg := { ordered := some t } } : Dev).setIsl t { y.isl t with resetting := some (y.isl t).resetting.join }
  if d.on? Fld.DBG_RESET_CTRL_BUSY then d.debugDropped
  else if t = 31 then d.debugUnitReset
  else if cyc && t < 4 then order ((d.setPwr fun p => { p with offByCmd := p.offByCmd.filter (· ≠ t) }).cycle t [])
  else if !cyc && resettable t then order (d.resetBlock t)
  else d.debugDropped

/-- DEBUG_RESET_DONE. -/
def Dev.debugResetDone (d : Dev) : Dev :=
  match d.dbg.ordered with
  | none => d
  | some b =>
    if d.rising b then d
    else
      let x := d.isl b
      let d1 := (d.set Fld.DBG_RESET_CTRL_BUSY 0 0).setIsl b { x with resetting := none }
      let d2 : Dev := { d1 with dbg := {} }
      match x.resetting.join with
      | some n => d2.replyOk n
      | none => d2

/-! ## Uncorrectable errors (R15) -/

/-- A count that saturates at 32 bits. -/
def satCount (n : Nat) : Nat := min (n + 1) 0xFFFFFFFF

/-- ECC_UNCORRECTABLE, and what the ECC of R15 and R443 corrects. The engine whose own state has failed goes into BLOCK reset, whichever it is: what R400 refuses is the command,
not this; bank 0 resets the cipher engine, and the firmware's state (block 24) lies in the control cluster (log entry 48). A bucket
outside the partition belongs to no table and changes nothing (log entry 39). -/
def Dev.eccError (d : Dev) (e : Ecc) : Dev :=
  match e with
  | .frame id =>
    if (d.frame? id).isNone then d
    else
      let d1 := (d.failCopies id 45 (Config.dropReason 30)).loseFrame id 45 (Config.dropReason 30)
      { d1 with ecc := { d1.ecc with frames := satCount d1.ecc.frames } }
  | .bucket b => if b < d.partBuckets then d.setTbl fun x => { x with failed := x.failed.put b () } else d
  | .engine k =>
    let b := if k = 5 then 4 else if k = 24 then 12 else k
    let d1 := d.resetBlock b
    d1.setIsl b { d1.isl b with resetting := some (d1.isl b).resetting.join }
  | .mram a => d.mramLose a
  | .mramCorrected _ => d.bump .SEC_MRAM_CORR
  | .corrected die => { d with ecc := { d.ecc with corrected := d.ecc.corrected.put die (satCount (d.ecc.corrected.getD die 0)) } }

end Sys2Proof.Machine
end

