-- ==== Sys2Proof/Machine/RegFind.lean ====
section
/-!
DEFINITION. Where a register access lands: the windows of R410, the function pages of R294, the requesters of R412, the
MSI-X BAR of R293, and the timing domain or island that answers (R413, R415).
-/
namespace Sys2Proof.Machine

/-! ## Locations -/

/-- A word of a register: the register, the item as State stores it, its number within the window or the page, and the word. -/
structure RegAt where
  reg : Reg
  item : Nat
  n : Nat
  word : Nat
  /-- The function whose page it lies in. -/
  page : Option Nat
  deriving DecidableEq, Repr

/-- What lies at a location. -/
inductive Spot where
  | reg (a : RegAt)
  /-- Word `w` of record `i` of the on-die trace (R423). -/
  | trace (i w : Nat)
  /-- Word `w` of an MSI-X table entry, and word `j` of the PBA (R293). -/
  | vector (f vec w : Nat)
  | pba (f j : Nat)
  | reserved
  deriving DecidableEq, Repr

/-- Words and items inside a register's range that are reserved locations (R37, R132). -/
def Reg.hole (r : Reg) (n w : Nat) : Bool :=
  match r with
  | .MER_TIO_STAMP => w == 3
  | .MER_TIO_TARGET => w == 3
  | .CLS_EXC_COUNT => n == 0
  | _ => false

/-- The item and word of a register that lie at an offset of its window or page. -/
def Reg.wordAt (r : Reg) (off : Nat) : Option (Nat × Nat) :=
  let i := r.info
  if i.off ≤ off && decide (off < i.off + 4 * (i.words * i.count)) && off % 4 == 0 then
    let k := (off - i.off) / 4
    if r.hole (k / i.words) (k % i.words) then none else some (k / i.words, k % i.words)
  else none

/-- The register that lies at an offset of a window. -/
def windowReg (k off : Nat) : Option RegAt :=
  Reg.all.findSome? fun r =>
    if r.info.page || r.info.window != k then none
    else (r.wordAt off).map fun x => { reg := r, item := x.1, n := x.1, word := x.2, page := none }

/-- Registers of a page of which only the slots below COUNT exist (R294). -/
def Reg.perPair : Reg → Bool
  | .HIF_TX_TAIL => true
  | .HIF_RX_TAIL => true
  | .HIF_TXC_HEAD => true
  | .HIF_RXC_HEAD => true
  | .HIF_QP_CTX => true
  | _ => false

/-- Registers of a page that only a physical function has (R294). -/
def Reg.pfOnly : Reg → Bool
  | .HIF_AQ_TAIL => true
  | .HIF_AQC_HEAD => true
  | .HIF_AQ_CFG => true
  | _ => false

/-- Item of a page register as State stores it; a queue pair's context by its global number (R295). -/
def Dev.pageItem (d : Dev) (f : Nat) (r : Reg) (n : Nat) : Nat :=
  if r = .HIF_QP_CTX then d.qpBase f + n else r.info.count * f + n

/-- The register that lies at an offset of a function's page (R294). -/
def Dev.pageReg (d : Dev) (f off : Nat) : Option RegAt :=
  Reg.all.findSome? fun r =>
    if !r.info.page || (r.pfOnly && decide (4 ≤ f)) then none
    else
      (r.wordAt off).bind fun x =>
        if r.perPair && decide (d.qpCount f ≤ x.1) then none
        else some { reg := r, item := d.pageItem f r x.1, n := x.1, word := x.2, page := some f }

/-- The location as its target sees it, with the rights of host requesters (R58, R89, R293, R412); none where no BAR of the
requester reaches it. -/
def reach (req : Requester) (loc : Loc) : Option Loc :=
  match req, loc with
  | .host f, .dev off =>
    if 4 ≤ f || 0x4000000 ≤ off then none
    else if 0x3FF0000 ≤ off then some (.page f (off - 0x3FF0000))
    else some (.dev off)
  | .host f, .page g off => if f = g && off < 0x10000 then some (.page f off) else none
  | .host f, .msix g off => if f = g && off < (if f < 4 then 0x10000 else 0x1000) then some (.msix f off) else none
  | _, .dev off => if off < 0x4000000 then some (.dev off) else none
  | _, .page f off => if f < 1024 && off < 0x10000 then some (.page f off) else none
  | _, .msix _ _ => none

/-- The window is in PF0's BAR0 only, and the requester is another function (R58, R89, R410). -/
def hiddenWindow (req : Requester) (off : Nat) : Bool :=
  match req with
  | .host f => f != 0 && (off / 0x100000 == 17 || off / 0x100000 == 32)
  | _ => false

/-- What lies at a location of R410, of a page or of the MSI-X BAR. -/
def Dev.spotAt (d : Dev) (req : Requester) (loc : Loc) : Spot :=
  match loc with
  | .dev off =>
    if off % 4 ≠ 0 || hiddenWindow req off then .reserved
    else if off / 0x100000 = 32 then .trace (off % 0x100000 / 32) (off % 32 / 4)
    else if off / 0x100000 < 18 then ((windowReg (off / 0x100000) (off % 0x100000)).map Spot.reg).getD .reserved
    else .reserved
  | .page f off => ((d.pageReg f off).map Spot.reg).getD .reserved
  | .msix f off =>
    let pba := if f < 4 then 0x8000 else 0x800
    if off % 4 ≠ 0 then .reserved
    else if off < 16 * msixCount f then .vector f (off / 16) (off % 16 / 4)
    else if pba ≤ off && off < pba + msixCount f / 8 then .pba f ((off - pba) / 4)
    else .reserved

/-- The offset that the error registers and records give: the address space of R410, a page location at 0x03FF_0000 (R472); in
the MSI-X BAR the offset within it (R311). -/
def locOffset : Loc → Nat
  | .dev off => off
  | .page _ off => 0x3FF0000 + off
  | .msix _ off => off

/-! ## Who answers -/

/-- The region that holds a register of the packet core array or a thread control, by R413. -/
def Dev.regionOfReg (d : Dev) (a : RegAt) : Option Nat :=
  match a.reg with
  | .PCA_WAIT_CLOSED => some (a.n / 4)
  | .PCA_CHAN_ABANDON => some (a.n / 4)
  | .PCA_CORE_CFG => some (a.n / 32)
  | .PCA_THREAD_CTRL => some (a.n / 128)
  | .PCA_THREAD_STAT => some (a.n / 128)
  | .PCA_EVT_SRC => some (a.n / 128)
  | .PCA_CHAN_CFG => some (a.n / 32)
  | .PCA_CHAN_WRITERS => some (a.n / 32)
  | .PCA_CHAN_READERS => some (a.n / 32)
  | .PCA_CHAN_STAT => some (a.n / 32)
  | .DBG_THREAD_CTRL => some (a.n / 128)
  | .DBG_THREAD_GREG => some (d.get Fld.DBG_THREAD_SEL_THREAD / 128)
  | .DBG_THREAD_PC => some (d.get Fld.DBG_THREAD_SEL_THREAD / 128)
  | _ => none

/-- The island in which the registers of a window lie; none for a domain that no island holds (R410). -/
def windowIsland : Nat → Option Nat
  | 0 => some 14
  | 1 => some 14
  | 4 => some 14
  | 5 => some 10
  | 6 => some 9
  | 7 => some 11
  | 8 => some 4
  | 9 => some 6
  | 10 => some 13
  | 11 => some 7
  | 12 => some 8
  | 13 => some 12
  | 14 => some 15
  | _ => none

/-- The block that answers for a register. -/
def Dev.regBlock (d : Dev) (a : RegAt) : Option Nat :=
  match d.regionOfReg a with
  | some r => some r
  | none => windowIsland a.reg.info.window

/-- The windows that stay powered in STANDBY: the Meridian, the mailbox unit, the power controller, the MRAM controller (R402). -/
def standbyWindow (k : Nat) : Bool := k == 3 || k == 14 || k == 15 || k == 16

/-- The package is in STANDBY. -/
def Dev.standby (d : Dev) : Bool := d.get Fld.PWR_STAT_STATE == 3

/-- The block that makes a location unavailable: its island is off, being powered up, or in reset (R415). The mailbox unit
never is. -/
def Dev.unavailable (d : Dev) (sp : Spot) : Option Nat :=
  match sp with
  | .reg a => (d.regBlock a).bind fun b => if b = 15 || d.available b then none else some b
  | .vector .. => if d.available 14 then none else some 14
  | .pba .. => if d.available 14 then none else some 14
  | _ => none

/-- The location answers in STANDBY (R402, R415): for a host the mailbox registers of a page alone. -/
def standbyAnswers (req : Requester) (sp : Spot) : Bool :=
  match req, sp with
  | .host _, .reg a => a.page.isSome && a.reg.info.window == 14
  | .jtag, .reg a => standbyWindow a.reg.info.window
  | _, _ => false

/-! ## Records -/

/-- SOURCE of a REG_WRITE record (R421). -/
def Dev.regSource (d : Dev) (loc : Loc) (sp : Spot) : Nat :=
  match sp with
  | .reg a =>
    match d.regionOfReg a with
    | some r => if a.reg.info.window = 17 then 52 else 32 + r
    | none =>
      let k := a.reg.info.window
      if k = 2 then
        if a.reg = .PRT_FAULT_PORT || a.reg = .PRT_FAULT_PORT_HITS then a.n / 2
        else if a.reg.info.count = 18 then a.n
        else 24
      else if a.page.isSome then (if k = 14 then 48 else 24)
      else [24, 24, 24, 51, 24, 40, 41, 42, 43, 44, 45, 46, 47, 25, 48, 49, 50, 52].getD k 24
  | .trace .. => 52
  | _ =>
    match loc with
    | .dev off => if off / 0x100000 = 32 then 52
      else [24, 24, 24, 51, 24, 40, 41, 42, 43, 44, 45, 46, 47, 25, 48, 49, 50, 52].getD (off / 0x100000) 24
    | _ => 24

/-- The function that a location is indexed by or in whose page it lies (R421). -/
def regFunction (loc : Loc) (sp : Spot) : Option Nat :=
  match loc, sp with
  | .page f _, _ => some f
  | _, .reg a => if a.reg.info.sub = 0 then none else some (a.n / a.reg.info.sub)
  | _, _ => none

/-- SOURCE and REQUESTER of R421, as bits of DATA2. -/
def reqBits : Requester → Nat
  | .host f => f
  | .core => 2 ^ 28
  | .jtag => 2 * 2 ^ 28

/-- The REG_WRITE record of a write of `w` (R421), at the stamp at which it reached its target. -/
def Dev.logWrite (d : Dev) (req : Requester) (loc : Loc) (src : Nat) (fn : Option Nat) (stamp : Stamp) (w : Word)
    (ignored error : Bool) : Dev :=
  d.logAt 0x06 src fn stamp (toWord (locOffset loc)) w (toWord (b2n ignored * 2 ^ 31 + b2n error * 2 ^ 30 + reqBits req))

/-- The capture of an access to an unavailable target (R415, R424): the first since the last read. -/
def Dev.domainError (d : Dev) (req : Requester) (loc : Loc) (b : Nat) (write : Bool) : Dev :=
  let d1 := d.bump .DBG_DOMAIN_ERR_COUNT
  if d.on? Fld.DBG_DOMAIN_ERR_VALID then d1.set Fld.DBG_DOMAIN_ERR_MULTI 0 1
  else
    let fn := match req, loc with
      | .host f, _ => f
      | _, .page f _ => f
      | _, _ => 0
    let src := match req with
      | .host _ => 0
      | .core => 1
      | .jtag => 2
    (d1.wr .DBG_DOMAIN_ERR 0 0 (toWord (2 ^ 31 + src * 2 ^ 28 + b2n write * 2 ^ 27 + b * 2 ^ 17 + fn))).wr .DBG_DOMAIN_ERR_ADDR 0 0
      (toWord (locOffset loc))

end Sys2Proof.Machine
end

