-- ==== Sys2Proof/Machine/RegOps.lean ====
section
/-!
DEFINITION. Register accesses (R3 to R5, R410 to R421): what each location reads as, what a read clears or does, which bits a
write reaches, what follows from a write, and how an access that cannot be made is answered.
-/
namespace Sys2Proof.Machine

/-! ## What a register reads as -/

/-- PCA_THREAD_STAT[n] (R87). -/
def Dev.threadStat (d : Dev) (t : Nat) : Word :=
  let x := d.thread t
  let cur := (d.pca.cores.getD (coreOf t) {}).current == some (t % 4)
  toWord (d.threadState t * 2 ^ 29 + b2n cur * 2 ^ 28 + (x.rv.countP fun _ r => r.live) * 2 ^ 26
    + (d.threadFn t).getD 0 * 2 ^ 16 + b2n x.frame.isSome * 2 ^ 15 + x.pc % 2 ^ 14)

/-- CLS_SHEET_NUM[f] and CLS_SHEET_STAT[f] (R132, R134). -/
def OtherBank.sheet : OtherBank → Option Sheet
  | .empty => none
  | .staged sh => some sh
  | .draining sh => some sh
def OtherBank.code : OtherBank → Nat
  | .empty => 0
  | .staged _ => 1
  | .draining _ => 2
def Dev.sheetNum (d : Dev) (f : Nat) : Word :=
  let b := d.banks f
  toWord ((b.active.map (·.num)).getD 0 * 2 ^ 16 + (b.other.sheet.map (·.num)).getD 0)
def Dev.sheetStat (d : Dev) (f : Nat) : Word :=
  let b := d.banks f
  toWord (b.other.code * 2 ^ 30 + b2n b.active.isSome * 2 ^ 29 + d.pinned f)

/-- HIF_FUNC_INFO of a function (R294). -/
def Dev.funcInfo (d : Dev) (f : Nat) : Word :=
  let link := if d.on? Fld.HIF_LINK_CFG_DUAL then pfOf f / 2 else 0
  toWord (f * 2 ^ 22 + link * 2 ^ 21 + d.qpCount f * 2 ^ 14 + d.qpBase f)

/-- PWR_ISLAND_STAT[b]: SCHED is the present demand, and blocks 14 to 23 track others (R392, R408). -/
def Dev.islandStat (d : Dev) (b : Nat) : Word :=
  let s := d.rd .PWR_ISLAND_STAT b
  if b < 14 then setBits s 10 8 (d.sched b) else setBits (s &&& 0xC0000000) 26 24 (d.levelOf b)

/-- The thread that DBG_THREAD_SEL selects, while it is halted (R80, R89). -/
def Dev.selectedHalted (d : Dev) : Option Nat :=
  let t := d.get Fld.DBG_THREAD_SEL_THREAD
  if (d.thread t).halted then some t else none

/-- Cores of the cipher engine that hold an operation. -/
def Dev.coresBusy (d : Dev) : Word := toWord (((List.range 12).map fun c => b2n (d.cip.cores.look? c).isSome * 2 ^ c).foldl (· + ·) 0)

/-- What a word of a register holds. -/
def Dev.wordOf (d : Dev) (a : RegAt) : Word :=
  let s := d.rd a.reg a.item a.word
  let f := a.page.getD 0
  match a.reg with
  | .MER_STATUS => setBits s 2 2 (b2n (d.mer.slewPpm ≠ 0))
  | .MER_SLEW_RATE => toWord (unsignedOf 32 d.mer.slewPpm)
  | .MER_SLEW_REMAIN => toWord (unsignedOf 32 d.mer.slewRemain)
  | .MER_TIO_FIFO_STAT => setBits s 4 0 (d.pin a.n).fifo.length
  | .PCA_RQ_LEVEL => toWord (d.rqLevel a.n)
  | .PCA_THREAD_STAT => d.threadStat a.n
  | .PCA_CHAN_STAT => toWord (d.chanReserved a.n * 2 ^ 16 + (d.chanEntries a.n).length)
  | .DBG_THREAD_CTRL => toWord (b2n (d.thread a.n).halted * 2 ^ 31)
  | .DBG_THREAD_GREG => ((d.selectedHalted).map fun t => (d.thread t).reg a.n).getD 0
  | .DBG_THREAD_PC => ((d.selectedHalted).map fun t => toWord ((d.thread t).pc % 2 ^ 14)).getD 0
  | .CLS_SHEET_NUM => d.sheetNum a.n
  | .CLS_SHEET_STAT => d.sheetStat a.n
  | .TBL_OVF_LEVEL => toWord d.tbl.ovf.size
  | .TBL_DESC_USED => toWord (d.descUsed a.n)
  | .TBL_FUNC_USED => toWord (ceilDiv (d.funcOvf a.n) 64 * 2 ^ 24 + d.funcEntries a.n)
  | .CIP_CORE_BUSY => d.coresBusy
  | .CIP_KEY_SLOT => d.keySlotWord a.n
  | .TMG_GATE_CTRL => setBits s 31 31 (b2n (d.gateActive a.n))
  | .TMG_QUEUE_DEPTH => d.depthWord a.n
  | .TMG_SHAPER_CREDIT => d.creditWord a.n
  | .BPM_POOL_FREE => toWord (d.poolFree a.n)
  | .BPM_PARTY_USED => toWord (d.partyUsed (a.n / 128) (a.n % 128))
  | .STO_CMD_FREE => toWord (65536 - d.cmdsOf fun _ => true)
  | .STO_CONN_STAT => d.connWord a.n
  | .HIF_QP_CTX => if a.word = 0 then setBits s 30 30 (b2n (d.qpActive a.item)) else s
  | .HIF_AQ_CFG => if a.word = 0 then setBits s 30 30 (b2n (d.aqActive f)) else s
  | .HIF_FUNC_INFO => d.funcInfo f
  | .HIF_FUNC_GEN => toWord (d.gen f)
  | .HIF_FUNC_PRIV => d.rd .FNC_PRIV f
  | .HIF_CARTOUCHE => le32 (d.fcartouche f) (4 * a.n)
  | .MBX_TX_STAT => setBits s 31 31 (b2n (d.mbx.holding.any fun p => p.sender == f))
  | .MBX_RX_STAT => d.mbxRxStat f
  | .MBX_RX_FROM => d.mbxRxFrom f
  | .MBX_RX_GEN => d.mbxRxGen f
  | .MBX_RX_BUF => d.mbxRxBuf f a.n
  | .MBX_HOLD_LEVEL => toWord d.mbx.holding.length
  | .VCL_FW_STATE => setBits s 31 31 (d.get Fld.SEC_STAT_IMAGE)
  | .VCL_SLOW_LEVEL => toWord d.vcl.slow.size
  | .PRT_LINK_STAT => d.linkStat a.n
  | .PWR_ISLAND_STAT => d.islandStat a.n
  | .SEC_STAT => setBits s 28 28 (b2n d.owned)
  | .SEC_SIGN_INDEX => s &&& 0x3FFFFFFF
  | .SEC_DEVICE_ID => toWord (Config.deviceId / 2 ^ (32 * a.n))
  | .SEC_MIN_SVN => d.sec.mram.minSvn
  | .SEC_OWNER_SEQ => d.sec.mram.ownerSeq
  | .SEC_CARTOUCHE => le32 d.cartouche (4 * a.n)
  | _ => s

/-! ## Reads -/

/-- A read of word +0x0 of a register that latches: the words it takes (R30, R32, R43, R233, R329, R355, R420); the empty list
for every other register. -/
def Dev.latched (d : Dev) (a : RegAt) : List Word × Dev :=
  match a.reg with
  | .MER_NOW => (stampWords d.now, d)
  | .MER_LOAD => ((List.range 3).map fun w => d.rd .MER_LOAD a.n w, d)
  | .MER_TIO_TARGET => ((List.range 3).map fun w => d.rd .MER_TIO_TARGET a.n w, d)
  | .MER_RATE_ADJ => ([toWord (unsignedOf 64 d.mer.rateA), toWord (unsignedOf 64 d.mer.rateA / 2 ^ 32)], d)
  | .MER_TIO_STAMP =>
    let (t, d1) := d.tioPop a.n
    (stampWords t, d1)
  | .TMG_GATE_STAT => (d.gateStat a.n, d)
  | .FNC_GEN_REC => ((List.range 4).map fun w => d.rd .FNC_GEN_REC a.n w, d)
  | .MBX_RX_STAMP => (stampWords (d.mbxRxStamp (a.page.getD 0)), d)
  | _ => ([], d)

/-- A register whose word +0x0 latches the others. -/
def Reg.latches : Reg → Bool
  | .MER_NOW => true
  | .MER_LOAD => true
  | .MER_TIO_TARGET => true
  | .MER_RATE_ADJ => true
  | .MER_TIO_STAMP => true
  | .TMG_GATE_STAT => true
  | .FNC_GEN_REC => true
  | .MBX_RX_STAMP => true
  | _ => false

/-- A read clears exactly the RC bits that were 1 in the value it returns (R4, R419). -/
def Dev.clearRead (d : Dev) (a : RegAt) (v : Word) : Dev :=
  let rc := (a.reg.access a.word).rc
  if rc &&& v = 0 then d else d.wr a.reg a.item a.word (d.rd a.reg a.item a.word &&& ~~~ (rc &&& v))

/-- Keeps the latched words of a register for the reads of its later words. -/
def Dev.keepLatched (d : Dev) (a : RegAt) (ws : List Word) : Dev :=
  { d with latch := (List.range ws.length).foldl (fun l w => l.putD 0 (regKey a.reg a.item w) (ws.getD w 0)) d.latch }

/-- A read of a word of a register: its value and what the read does (R419, R420). -/
def Dev.readReg (d : Dev) (a : RegAt) : Word × Dev :=
  if a.reg.latches then
    if a.word = 0 then
      let (ws, d1) := d.latched a
      (ws.headD 0, (d1.clearRead a (ws.headD 0)).keepLatched a ws)
    else (d.latch.getD (regKey a.reg a.item a.word) 0, d)
  else if a.reg = .MBX_SEND then
    let (st, d1) := d.mbxSend (a.page.getD 0)
    (toWord st.code, d1)
  else
    let v := d.wordOf a &&& ~~~ ((a.reg.access a.word).wo ||| (a.reg.access a.word).w1p)
    (v, d.clearRead a v)

/-! ## The MSI-X BAR (R293, R305) -/

/-- A word of a table entry: address, data, vector control with the mask bit. -/
def Dev.vectorWord (d : Dev) (f vec w : Nat) : Word :=
  let v := d.hif.msix.getD (2048 * f + vec) {}
  match w with
  | 0 => toWord v.addr
  | 1 => toWord (v.addr / 2 ^ 32)
  | 2 => v.data
  | _ => toWord (b2n v.masked)

/-- A word of the pending bit array. -/
def Dev.pbaWord (d : Dev) (f j : Nat) : Word :=
  toWord (((List.range 32).map fun i => b2n (d.hif.msix.getD (2048 * f + 32 * j + i) {}).pending * 2 ^ i).foldl (· + ·) 0)

/-- A write of a word of a table entry; unmasking sends a pending message, unless its function is masked or has MSI-X off (R305). -/
def Dev.vectorWrite (d : Dev) (f vec w : Nat) (x : Word) : Dev :=
  let v := d.hif.msix.getD (2048 * f + vec) {}
  let put (e : Dev) (v : MsixVec) : Dev := { e with hif := { e.hif with msix := e.hif.msix.putD {} (2048 * f + vec) v } }
  match w with
  | 0 => put d { v with addr := v.addr / 2 ^ 32 * 2 ^ 32 + x.toNat }
  | 1 => put d { v with addr := v.addr % 2 ^ 32 + x.toNat * 2 ^ 32 }
  | 2 => put d { v with data := x }
  | _ =>
    let m := x.getLsbD 0
    if v.pending && !m && (d.hif.cfg.getD f {}).msixEnable && !(d.hif.cfg.getD f {}).msixMask then
      ((put d { v with masked := false, pending := false }).holdVector f vec).hostOut f (.msix f vec)
    else put d { v with masked := m }

/-! ## Writes -/

/-- The block that R4 names for a register's RWD fields is disabled (R37, R59, R83, R157, R205, R233, R260, R262, R296, R306,
R357, R382). -/
def Dev.blockDisabled (d : Dev) (a : RegAt) : Bool :=
  match a.reg with
  | .MER_LOAD => !d.on? Fld.MER_CTRL_ENABLE
  | .MER_TIO_CTRL => !d.on? Fld.MER_TIO_CTRL_ENABLE a.n
  | .MER_TIO_PERIOD => !d.on? Fld.MER_TIO_CTRL_ENABLE a.n
  | .MER_TIO_PHASE => !d.on? Fld.MER_TIO_CTRL_ENABLE a.n
  | .MER_TIO_TARGET => !d.on? Fld.MER_TIO_CTRL_ENABLE a.n
  | .PCA_CORE_CFG => (List.range 4).all fun i => d.threadState (4 * a.n + i) == 0
  | .PCA_THREAD_CTRL => d.threadState a.n == 0
  | .PCA_CHAN_CFG => !d.on? Fld.PCA_CHAN_CFG_ENABLE a.n
  | .PCA_CHAN_WRITERS => !d.on? Fld.PCA_CHAN_CFG_ENABLE a.n
  | .PCA_CHAN_READERS => !d.on? Fld.PCA_CHAN_CFG_ENABLE a.n
  | .TBL_CTRL => !d.on? Fld.TBL_CTRL_ENABLE
  | .TBL_PARTITION => !d.on? Fld.TBL_CTRL_ENABLE
  | .TBL_DESC_BASE => !d.on? Fld.TBL_DESC_CFG_ENABLE a.n
  | .TBL_DESC_CFG => !d.on? Fld.TBL_DESC_CFG_ENABLE a.n
  | .TBL_DESC_SEED => !d.on? Fld.TBL_DESC_CFG_ENABLE a.n
  | .CIP_CM_CFG => !d.on? Fld.CIP_CTRL_ENABLE
  | .CIP_SCHED_CFG => !d.on? Fld.CIP_CTRL_ENABLE
  | .TMG_PREEMPT_CFG => !d.on? Fld.TMG_PREEMPT_CFG_EN a.n
  | .TMG_GROUP_CFG => !(List.range 16384).any fun q => d.qEnable q && d.qGroup q == a.n
  | .TMG_QUEUE_CFG => !d.qEnable a.n
  | .TMG_QUEUE_SCHED => !d.qEnable a.n
  | .TMG_QUEUE_LIMIT => !d.qEnable a.n
  | .TMG_SHAPER_CTRL => !d.on? Fld.TMG_SHAPER_CTRL_ENABLE a.n
  | .TMG_SHAPER_RATE => !d.on? Fld.TMG_SHAPER_CTRL_ENABLE a.n
  | .TMG_SHAPER_HI => !d.on? Fld.TMG_SHAPER_CTRL_ENABLE a.n
  | .BPM_POOL_CFG => !d.on? Fld.BPM_CTRL_ENABLE
  | .BPM_POOL_BASE => !d.on? Fld.BPM_CTRL_ENABLE
  | .BPM_PARTY_CFG => !d.on? Fld.BPM_CTRL_ENABLE
  | .DMA_CHAN_CFG => !d.on? Fld.DMA_CHAN_CFG_ENABLE a.n
  | .DMA_LG_CTX => !d.on? Fld.DMA_LG_CTX_ENABLE a.n
  | .HIF_QP_CTX => !d.qpBusy a.item
  | .HIF_AQ_CFG => !d.on? Fld.HIF_AQ_CFG_ENABLE a.item && !d.aqActive a.item
  | .VCL_MGMT_CFG => !d.on? Fld.VCL_MGMT_CFG_ENABLE
  | .PRT_PORT_CFG => !d.on? Fld.PRT_PORT_CFG_ENABLE a.n
  | .PRT_MAX_LEN => !d.on? Fld.PRT_PORT_CFG_ENABLE a.n
  | .PRT_FC_CFG => !d.on? Fld.PRT_PORT_CFG_ENABLE a.n
  | .PRT_DEF_FUNC => !d.on? Fld.PRT_PORT_CFG_ENABLE a.n
  | .DBG_LOG_CTRL => !d.on? Fld.DBG_LOG_CTRL_ENABLE
  | .DBG_LOG_FUNC_FILTER => !d.on? Fld.DBG_LOG_CTRL_ENABLE
  | .DBG_LOG_HOST_BASE => !d.on? Fld.DBG_LOG_CTRL_ENABLE
  | .DBG_LOG_HOST_SIZE => !d.on? Fld.DBG_LOG_CTRL_ENABLE
  | .DBG_LOG_CLASS_EN => !d.on? Fld.DBG_LOG_CTRL_ENABLE
  | _ => true

/-- The value a write leaves in the stored word, each field under its own code (R4, R417). -/
def Access.merge (c : Access) (disabled : Bool) (old v : Word) : Word :=
  let take := c.rw ||| (if disabled then c.rwd else 0)
  (old &&& ~~~ take) ||| (v &&& take)

/-- A write that an RWD field does not take though it differs (R417). -/
def Access.ignores (c : Access) (disabled : Bool) (old v : Word) : Bool := !disabled && (old ^^^ v) &&& c.rwd != 0

/-- The STATUS and IGNORED_ADDR registers of a window whose map has them (R417). -/
def statusRegs : Nat → Option (Reg × Reg)
  | 0 => some (.HIF_STATUS, .HIF_IGNORED_ADDR)
  | 2 => some (.PRT_STATUS, .PRT_IGNORED_ADDR)
  | 4 => some (.PCA_STATUS, .PCA_IGNORED_ADDR)
  | 5 => some (.CLS_STATUS, .CLS_IGNORED_ADDR)
  | 6 => some (.TBL_STATUS, .TBL_IGNORED_ADDR)
  | 7 => some (.VSW_STATUS, .VSW_IGNORED_ADDR)
  | 8 => some (.CIP_STATUS, .CIP_IGNORED_ADDR)
  | 9 => some (.TMG_STATUS, .TMG_IGNORED_ADDR)
  | 10 => some (.BPM_STATUS, .BPM_IGNORED_ADDR)
  | 11 => some (.DMA_STATUS, .DMA_IGNORED_ADDR)
  | 12 => some (.STO_STATUS, .STO_IGNORED_ADDR)
  | 13 => some (.VCL_STATUS, .VCL_IGNORED_ADDR)
  | _ => none

/-- The flags of an ignored write (R417, R472). -/
def Dev.flagIgnored (d : Dev) (a : RegAt) (loc : Loc) : Dev :=
  let k := a.reg.info.window
  let d1 := match statusRegs k with
    | some (st, at_) => (d.wr st 0 0 (d.rd st ||| 1)).wr at_ 0 0 (toWord (if a.page.isSome then locOffset loc else locOffset loc % 0x100000))
    | none => d
  (d1.wr .DBG_WRITE_IGNORED 0 0 (d1.rd .DBG_WRITE_IGNORED ||| toWord (2 ^ k))).wr .DBG_WRITE_IGNORED_ADDR 0 0 (toWord (locOffset loc))

/-- ENABLE of DBG_LOG_CTRL has gone to 1: STOPPED is cleared (R59) and the count of records that stops a full trace begins anew
(R58). Where recording resumes the manual does not say: DBG_LOG_WPTR keeps its value (DESIGN CHOICE, log entry 15). -/
def Dev.logCtrlWritten (d : Dev) (old : Word) : Dev :=
  if d.on? Fld.DBG_LOG_CTRL_ENABLE && !old.getLsbD 31 then
    ({ d with log := { d.log with filled := 0 } } : Dev).set Fld.DBG_LOG_CTRL_STOPPED 0 0
  else d

/-- What follows once a word of a register has been written; `old` is the stored word before. -/
def Dev.afterWrite (d : Dev) (a : RegAt) (old v : Word) : Dev :=
  let f := a.page.getD 0
  match a.reg with
  | .MER_CTRL => d.merCtrlWritten old
  | .MER_LOAD => d.merLoadWritten
  | .MER_TIO_CTRL => d.tioCtrlWritten a.n old
  | .PCA_CHAN_CFG => if v.getLsbD 31 then d else d.chanDisable a.n
  | .TBL_CTRL => d.tblCtrlWritten old
  | .TBL_PARTITION => d.partitionWritten old
  | .TBL_DESC_CFG => d.descCfgWritten a.n old
  | .CIP_CTRL => d.cipCtrlWritten old
  | .TMG_SHAPER_CTRL => d.shaperCtrlWritten a.n old
  | .TMG_GATE_CTRL => d.contourGates
  | .HIF_TX_TAIL => d.doorbell f a.n false v
  | .HIF_RX_TAIL => d.doorbell f a.n true v
  | .HIF_TXC_HEAD => d.cplHead f a.n false v
  | .HIF_RXC_HEAD => d.cplHead f a.n true v
  | .HIF_AQ_TAIL => d.aqTail f v
  | .HIF_AQC_HEAD => d.aqcHead f v
  | .HIF_QP_CTX => if a.word = 0 then d.qpCtxWritten f a.item else d
  | .HIF_AQ_CFG => if a.word = 0 then d.aqCfgWritten f else d
  | .DMA_LG_CTX => if a.word = 0 && d.on? Fld.DMA_LG_CTX_ENABLE a.n && !old.getLsbD 31 then d.lgRewind a.n else d
  | .BPM_CTRL => d.bpmCtrlWritten fun n chain e => e.stoBuffers n chain
  | .MBX_POST => (d.mbxPost f).controlFollows
  | .MBX_RING => d.mbxRing f v
  | .MBX_RX_POP => d.mbxPop f v
  | .PRT_PORT_CFG => d.portCfgWritten a.n old
  | .DBG_THREAD_CTRL => d.threadCtrlWrite a.n v
  | .DBG_THREAD_GREG => ((d.selectedHalted).map fun t => d.updThread t fun x => x.setReg a.n v).getD d
  | .DBG_THREAD_PC => ((d.selectedHalted).map fun t => d.updThread t fun x => { x with pc := bitsOf v 13 0 }).getD d
  | .DBG_LOG_CTRL => d.logCtrlWritten old
  | _ => d

/-- A write of a word of a register that its target takes: the stored bits, the flags of R417 and what follows; and whether an
RWD field was kept. A GO write to DBG_RESET_CTRL is taken or dropped whole (R425). -/
def Dev.writeReg (d : Dev) (a : RegAt) (loc : Loc) (v : Word) : Bool × Dev :=
  let acc := a.reg.access a.word
  let old := d.rd a.reg a.item a.word
  let off := d.blockDisabled a
  if a.reg = .DBG_RESET_CTRL && v.getLsbD 31 then (false, d.debugGo v)
  else if a.reg = .DBG_THREAD_GREG || a.reg = .DBG_THREAD_PC then (false, d.afterWrite a old v)
  else
    let d1 := d.wr a.reg a.item a.word (acc.merge off old v)
    let d2 := d1.afterWrite a old v
    if acc.ignores off old v then (true, d2.flagIgnored a loc) else (false, d2)

/-! ## Accesses -/

/-- The answer to an access that its target does not take: `off` for an unavailable target, else a reserved location (R415, R416). -/
def refusal (req : Requester) (off write : Bool) : Answer :=
  match req with
  | .host _ => if write then .done else if off then .completerAbort else .unsupportedRequest
  | .core => if off then .faultOff else .faultReserved
  | .jtag => .jtagError

/-- JTAG_SEEN notes a JTAG access (R440). -/
def Dev.noteJtag (d : Dev) (req : Requester) : Dev := if req = .jtag then d.set Fld.SEC_STAT_JTAG_SEEN 0 1 else d

/-- A host whose function is in D3hot, or a host that reaches a powered-down domain in STANDBY, meets Unsupported Request
(R290, R402). -/
def Dev.hostBarred (d : Dev) (req : Requester) (sp : Spot) : Bool :=
  match req with
  | .host f => (d.hif.cfg.getD f {}).d3hot || (d.standby && !standbyAnswers req sp)
  | _ => false

/-- The requester exists and can make accesses: a function that exists; a control core, out of STANDBY; JTAG while TRST_N does not hold
the TAP in reset (R291, R415, R449). -/
def Dev.canAccess (d : Dev) (req : Requester) : Bool :=
  match req with
  | .host f => d.exists? f
  | .core => !d.standby
  | .jtag => !d.pwr.trstLow

/-- A 32-bit read of a location that the requester reaches. -/
def Dev.readAt (d : Dev) (req : Requester) (loc : Loc) (aligned : Bool) : Answer × Dev :=
  let sp := if aligned then d.spotAt req loc else .reserved
  if d.hostBarred req sp then (.unsupportedRequest, d)
  else if d.standby && !standbyAnswers req sp then (refusal req true false, d)
  else if sp = .reserved then (refusal req false false, d)
  else
    match d.unavailable sp with
    | some b => (refusal req true false, d.domainError req loc b false)
    | none =>
      match sp with
      | .reg a =>
        let (v, d1) := d.readReg a
        (.value v, d1)
      | .trace i w => (.value ((d.log.trace.getD i []).getD w 0), d)
      | .vector f vec w => (.value (d.vectorWord f vec w), d)
      | .pba f j => (.value (d.pbaWord f j), d)
      | .reserved => (refusal req false false, d)

/-- A 32-bit write to a location that the requester reaches. -/
def Dev.writeAt (d : Dev) (req : Requester) (loc : Loc) (aligned : Bool) (v : Word) : Answer × Dev :=
  let sp := if aligned then d.spotAt req loc else .reserved
  let fn := regFunction loc sp
  let src := d.regSource loc sp
  let bar := match loc with
    | .msix _ _ => 1
    | _ => 0
  let record (x : Dev) (ignored error : Bool) : Dev := if bar = 1 then x else x.logWrite req loc src fn d.now v ignored error
  if d.hostBarred req sp then (.done, d)
  else if d.standby && !standbyAnswers req sp then (refusal req true true, d)
  else if sp = .reserved then
    let d1 : Dev := match req with
      | .host f => d.busError f bar 0 (locOffset loc)
      | _ => d
    (refusal req false true, record d1 false true)
  else
    match d.unavailable sp with
    | some b => (refusal req true true, record (d.domainError req loc b true) false true)
    | none =>
      match sp with
      | .reg a =>
        let (kept, d1) := d.writeReg a loc v
        (.done, record d1 kept false)
      | .vector f vec w => (.done, d.vectorWrite f vec w v)
      | _ => (.done, record d false false)

/-- An access ends with its answer. -/
def answered (req : Requester) (r : Answer × Dev) : Dev := r.2.emit (.answer req r.1)

/-- One read of a register access, if the requester reaches the location. -/
def Dev.regRead (d : Dev) (req : Requester) (loc : Loc) (aligned : Bool := true) : Dev :=
  match reach req loc with
  | some l => if d.canAccess req then answered req ((d.noteJtag req).readAt req l aligned) else d
  | none => d

/-- One write of a register access. -/
def Dev.regWrite (d : Dev) (req : Requester) (loc : Loc) (v : Word) (aligned : Bool := true) : Dev :=
  match reach req loc with
  | some l => if d.canAccess req then answered req ((d.noteJtag req).writeAt req l aligned v) else d
  | none => d

/-- The next word's location. -/
def nextWord : Loc → Loc
  | .dev off => .dev (off + 4)
  | .page f off => .page f (off + 4)
  | .msix f off => .msix f (off + 4)

/-- REGISTER_READ and REGISTER_WRITE of `size` bytes: 4 aligned, or 8 aligned as two accesses, the lower address first; any other
access is one to a reserved location (R3). -/
def locAligned (loc : Loc) (n : Nat) : Bool := locOffset loc % n == 0
def Dev.registerRead (d : Dev) (req : Requester) (loc : Loc) (size : Nat) : Dev :=
  if size = 8 && locAligned loc 8 then (d.regRead req loc).regRead req (nextWord loc)
  else d.regRead req loc (size = 4 && locAligned loc 4)
def Dev.registerWrite (d : Dev) (req : Requester) (loc : Loc) (size : Nat) (v : BitVec 64) : Dev :=
  if size = 8 && locAligned loc 8 then
    (d.regWrite req loc (v.setWidth 32)).regWrite req (nextWord loc) ((v >>> 32).setWidth 32)
  else d.regWrite req loc (v.setWidth 32) (size = 4 && locAligned loc 4)

/-! ## Accesses that have a row of their own -/

/-- Location of word `w` of item `n` of a register of the device windows. -/
def regLoc (r : Reg) (n : Nat) (w : Nat := 0) : Loc := .dev (0x100000 * r.info.window + r.info.off + 4 * (r.info.words * n + w))

/-- Location of word `w` of item `n` of a register of a function's page. -/
def pageLoc (f : Nat) (r : Reg) (n : Nat) (w : Nat := 0) : Loc := .page f (r.info.off + 4 * (r.info.words * n + w))

/-- A row that names an item of a register happens only if the register has that item. -/
def Dev.named (d : Dev) (r : Reg) (n : Nat) (g : Dev → Dev) : Dev := if n < r.info.count then g d else d

/-- A write that takes bit 31 of a register from 0 to 1, and one that takes it from 1 to 0; any other write is no such row (log
entry 7). -/
def Dev.writeOn (d : Dev) (req : Requester) (r : Reg) (n : Nat) (v : Word) : Dev :=
  d.named r n fun d => if v.getLsbD 31 && !(d.rd r n).getLsbD 31 then d.regWrite req (regLoc r n) v else d
def Dev.writeOff (d : Dev) (req : Requester) (r : Reg) (n : Nat) (v : Word) : Dev :=
  d.named r n fun d => if !v.getLsbD 31 && (d.rd r n).getLsbD 31 then d.regWrite req (regLoc r n) v else d
/-- The same for bit 0. -/
def Dev.writeBit0 (d : Dev) (req : Requester) (r : Reg) (bit : Bool) (v : Word) : Dev :=
  if v.getLsbD 0 == bit && (d.rd r).getLsbD 0 != bit then d.regWrite req (regLoc r 0) v else d

/-- A write of one bit of DBG_THREAD_CTRL[t] (R90). -/
def Dev.threadCtrl (d : Dev) (req : Requester) (t bit : Nat) : Dev :=
  d.named .DBG_THREAD_CTRL t fun d => d.regWrite req (regLoc .DBG_THREAD_CTRL t) (toWord (2 ^ bit))

/-- A host clears the mask bit of a vector of a function (R305). -/
def Dev.vectorUnmask (d : Dev) (f vec : Nat) (w : Word) : Dev :=
  if vec < msixCount f && !w.getLsbD 0 then d.regWrite (.host f) (.msix f (16 * vec + 12)) w else d

/-! ## PORT_SET -/

/-- A write of a port register by the firmware on a control core, under the rules of R4, with its record (R381, R421). -/
def Dev.portWord (d : Dev) (r : Reg) (p : Nat) (v : Word) : Dev :=
  let a : RegAt := { reg := r, item := p, n := p, word := 0, page := none }
  let w := d.writeReg a (regLoc r p) v
  w.2.logWrite .core (regLoc r p) (d.regSource (regLoc r p) (.reg a)) (regFunction (regLoc r p) (.reg a)) d.now v w.1 false

/-- PORT_SET (R360, R381): the port is disabled first if its word says so; a change of an RWD field of a port that is enabled and
stays so is refused. -/
def Dev.portSet (d : Dev) (n : Nat) (p : Bytes) : Dev :=
  let port := bitsOf (le32 p 0) 4 0
  let cfg := le32 p 4
  let fc := le32 p 8
  let len := bitsOf (le32 p 12) 13 0
  let differs : Bool := ((d.rd .PRT_PORT_CFG port ^^^ cfg) &&& 0x3FF) != 0 || ((d.rd .PRT_FC_CFG port ^^^ fc) &&& 0xF0FFFFFF) != 0
    || d.get Fld.PRT_MAX_LEN_MAX_LEN port != len
  if port ≥ 18 || !comboOk port (bitsOf cfg 3 0) (bitsOf cfg 5 4) (bitsOf cfg 7 6) || (cfg.getLsbD 9 && bitsOf cfg 5 4 ≠ 0)
      || len < 1514 || 9728 < len then d.reply n .badParam
  else if d.on? Fld.PRT_PORT_CFG_ENABLE port && cfg.getLsbD 31 then (if differs then d.reply n .badState else d.replyOk n)
  else
    let d1 := d.portWord .PRT_PORT_CFG port (d.rd .PRT_PORT_CFG port &&& 0x7FFFFFFF)
    (((d1.portWord .PRT_FC_CFG port fc).portWord .PRT_MAX_LEN port (toWord len)).portWord .PRT_PORT_CFG port cfg).replyOk n

end Sys2Proof.Machine
end

