-- ==== Sys2Proof/Machine/Ciphers.lean ====
section
/-!
DEFINITION. The meanings of the rows of the cipher engine, key slots and MACsec settings (R183 to R209).
-/
namespace Sys2Proof.Machine

/-- CIPHER_ADMIT (R185). -/
def execCipherAdmit (core : Nat) (s : State) : Host.Outcome State Fault Refusal :=
  s.on fun d => d.cipherAdmit core fun k d => d.tlsAdmit core k

/-- CIPHER_OP_COMPLETE (R183). -/
def execCipherOpComplete (core : Nat) (s : State) : Host.Outcome State Fault Refusal :=
  s.on fun d => d.cipherComplete core fun k o d => d.tlsComplete core k o

/-- MACSEC_RX_TIMEOUT (R185). -/
def execMacsecRxTimeout (frame : Nat) (s : State) : Host.Outcome State Fault Refusal :=
  s.on fun d => d.macsecRxTimeout frame

/-- TLS_ZERO_READ_DONE (R201). -/
def execTlsZeroReadDone (record : Nat) (ok : Bool) (s : State) : Host.Outcome State Fault Refusal :=
  s.on fun d => d.tlsZeroReadDone record ok

/-- CORE_RESEED (R187). -/
def execCoreReseed (core : Nat) (s : State) : Host.Outcome State Fault Refusal :=
  s.on fun d => d.coreReseed core

/-- KEY_GRANT (R189). -/
def execKeyGrant (c : Cmd) (s : State) : Host.Outcome State Fault Refusal :=
  s.on fun d => d.vucel1 0x0701 c fun n a p d => d.keyGrant n a.fn p

/-- KEY_WRITE (R202). -/
def execKeyWrite (c : Cmd) (s : State) : Host.Outcome State Fault Refusal :=
  s.on fun d => d.vucel1 0x0702 c fun n a p d => d.keyWrite n a.fn p

/-- KEY_ERASE (R203). -/
def execKeyErase (c : Cmd) (s : State) : Host.Outcome State Fault Refusal :=
  s.on fun d => d.vucel1 0x0703 c fun n a p d => d.keyErase n a.fn p

/-- KEY_ERASE_DONE (R203). -/
def execKeyEraseDone (slot : Nat) (s : State) : Host.Outcome State Fault Refusal :=
  s.on fun d => d.keyEraseDone slot

/-- KEY_STATE (R190). -/
def execKeyState (c : Cmd) (s : State) : Host.Outcome State Fault Refusal :=
  s.on fun d => d.vucel1 0x0704 c fun n a p d => d.keyState n a.fn p

/-- MACSEC_PORT_SET (R193). -/
def execMacsecPortSet (c : Cmd) (s : State) : Host.Outcome State Fault Refusal :=
  s.on fun d => d.vucel1 0x0705 c fun n _ p d => d.macsecPortSet n p

/-- MACSEC_RXSC_SET (R196). -/
def execMacsecRxscSet (c : Cmd) (s : State) : Host.Outcome State Fault Refusal :=
  s.on fun d => d.vucel1 0x0706 c fun n _ p d => d.macsecRxscSet n p

/-- MACSEC_TX_SWITCH (R194). -/
def execMacsecTxSwitch (c : Cmd) (s : State) : Host.Outcome State Fault Refusal :=
  s.on fun d => d.vucel1 0x0707 c fun n _ p d => d.macsecTxSwitch n p

end Sys2Proof.Machine
end

