-- ==== Sys2Proof/Machine/Control.lean ====
section
/-!
DEFINITION. The meanings of the rows of frame ends, returns and library calls (R96, R100, R109), halted threads that keep a frame (R82), and insets (R104 to R108).
-/
namespace Sys2Proof.Machine

/-- RET (R96). -/
def execRet (t : Nat) (rsv : BitVec 10) (target : BitVec 14) (s : State) : Host.Outcome State Fault Refusal :=
  s.on fun d => d.retInsn t rsv target

/-- LIBCALL (R109). -/
def execLibcall (t : Nat) (entry : BitVec 8) (rsv : BitVec 18) (s : State) : Host.Outcome State Fault Refusal :=
  s.on fun d => d.libcall t entry rsv

/-- EMIT (R118). -/
def execEmit (t : Nat) (reason : BitVec 8) (rsv : BitVec 16) (s : State) : Host.Outcome State Fault Refusal :=
  s.on fun d => d.endInsn t 0 reason rsv fun e => e.endEmit t

/-- DROP (R100). -/
def execDrop (t : Nat) (reason : BitVec 8) (rsv : BitVec 16) (s : State) : Host.Outcome State Fault Refusal :=
  s.on fun d => d.endInsn t 1 reason rsv fun e => e.endDrop t reason.toNat

/-- RECIRC (R131). -/
def execRecirc (t : Nat) (reason : BitVec 8) (rsv : BitVec 16) (s : State) : Host.Outcome State Fault Refusal :=
  s.on fun d => d.endInsn t 2 reason rsv fun e => e.endRecirc t

/-- SLOW (R100). -/
def execSlow (t : Nat) (reason : BitVec 8) (rsv : BitVec 16) (s : State) : Host.Outcome State Fault Refusal :=
  s.on fun d => d.endInsn t 3 reason rsv fun e => e.endSlow t reason.toNat

/-- BRK (R96). -/
def execBrk (t : Nat) (rsv : BitVec 26) (s : State) : Host.Outcome State Fault Refusal :=
  s.on fun d => d.brkInsn t rsv

/-- HALT_FRAME_TIMEOUT (R82). -/
def execHaltFrameTimeout (t : Nat) (s : State) : Host.Outcome State Fault Refusal :=
  s.on fun d => d.haltFrameTimeout t

/-- INSET_LOAD (R105). -/
def execInsetLoad (c : Cmd) (obj : Option Bytes) (s : State) : Host.Outcome State Fault Refusal :=
  s.on fun d => d.vucel1 0x0301 c fun n a p d => d.mayInset n a.cmd fun d => d.insetLoad n a.fn p obj

/-- INSET_BIND (R104). -/
def execInsetBind (c : Cmd) (s : State) : Host.Outcome State Fault Refusal :=
  s.on fun d => d.vucel1 0x0302 c fun n a p d => d.mayInset n a.cmd fun d => d.insetBind n a.fn p

/-- INSET_UNLOAD (R105). -/
def execInsetUnload (c : Cmd) (s : State) : Host.Outcome State Fault Refusal :=
  s.on fun d => d.vucel1 0x0303 c fun n a _ d => d.mayInset n a.cmd fun d => d.insetUnload n a.fn

/-- INSET_COMMIT_APPLY (R105). -/
def execInsetCommitApply (f : Nat) (region : Nat) (s : State) : Host.Outcome State Fault Refusal :=
  s.on fun d => d.insetCommitApply f region

/-- INSET_DRAIN_END (R105). -/
def execInsetDrainEnd (f : Nat) (s : State) : Host.Outcome State Fault Refusal :=
  s.on fun d => d.insetDrainEnd f

end Sys2Proof.Machine
end

