-- ==== Sys2Proof/Machine/Dma.lean ====
section
/-!
DEFINITION. The meanings of the rows of buffers, descriptors, bursts and late gather (R235 to R265, R300 to R305).
-/
namespace Sys2Proof.Machine

/-- BUFFER_REQUEST (R240). -/
def execBufferRequest (r : Nat) (s : State) : Host.Outcome State Fault Refusal :=
  s.on fun d => d.bufferRequest r fun n ch e => e.stoBuffers n ch

/-- BUFFER_STAMP_DECIDE (R241). -/
def execBufferStampDecide (pool : Nat) (s : State) : Host.Outcome State Fault Refusal :=
  s.on fun d => d.bufferStampDecide pool fun n ch e => e.stoBuffers n ch

/-- BUFFER_FREE (R243). -/
def execBufferFree (party : Nat) (handle : Nat) (s : State) : Host.Outcome State Fault Refusal :=
  s.on fun d => d.bufferFree party handle

/-- DESCRIPTOR_FETCH (R300). -/
def execDescriptorFetch (qp : Nat) (rx : Bool) (entry : Option Bytes) (desc : Option Bytes) (s : State) : Host.Outcome State Fault Refusal :=
  s.on fun d => d.descriptorFetch qp rx entry desc

/-- DMA_BURST_ISSUE (R245). -/
def execDmaBurstIssue (write : Bool) (s : State) : Host.Outcome State Fault Refusal :=
  s.on fun d => (d.dmaBurstIssue write).stoDue

/-- DMA_READ_COMPLETION (R248). -/
def execDmaReadCompletion (burst : Nat) (data : Bytes) (s : State) : Host.Outcome State Fault Refusal :=
  s.on fun d => d.readCompletion burst data (fun n pdu pos bs e => e.stoRead n pdu pos bs) fun k e => e.tlsZeroed k

/-- HOST_READ_ERROR (R289). -/
def execHostReadError (what : FailedRead) (s : State) : Host.Outcome State Fault Refusal :=
  s.on fun d => d.hostReadError what

/-- LG_READ_TIME (R252). -/
def execLgReadTime (ctx : Nat) (s : State) : Host.Outcome State Fault Refusal :=
  s.on fun d => d.lgReadTime ctx

/-- LG_DEADLINE (R254). -/
def execLgDeadline (ctx : Nat) (s : State) : Host.Outcome State Fault Refusal :=
  s.on fun d => d.lgDeadline ctx

/-- LG_EVLOG_TIMEOUT (R255). -/
def execLgEvlogTimeout (ctx : Nat) (s : State) : Host.Outcome State Fault Refusal :=
  s.on fun d => d.lgEvlogTimeout ctx

/-- RX_COPY_PLACE (R304). -/
def execRxCopyPlace (copy : Nat) (s : State) : Host.Outcome State Fault Refusal :=
  s.on fun d => d.rxCopyPlace copy d.stoOffer

/-- IRQ_HOLDOFF_END (R305). -/
def execIrqHoldoffEnd (qp : Nat) (rx : Bool) (s : State) : Host.Outcome State Fault Refusal :=
  s.on fun d => d.irqHoldoffEnd qp rx

/-- DMA_WINDOW_SET (R258). -/
def execDmaWindowSet (c : Cmd) (s : State) : Host.Outcome State Fault Refusal :=
  s.on fun d => d.vucel1 0x0901 c fun n a p d => d.needBlock 7 n fun d => d.dmaWindowSet n a.fn p

/-- ATS_TRANSLATION_COMPLETION (R288). -/
def execAtsTranslationCompletion (f : Nat) (page : Nat) (granted : Option Nat) (s : State) : Host.Outcome State Fault Refusal :=
  s.on fun d => d.translationDone f page granted fun k e => e.failBurst k (fun n pdu g => g.stoReadFail n pdu) (fun n cid g => g.stoPlaceFail n cid) fun r g => g.tlsZeroed r

end Sys2Proof.Machine
end

