-- ==== Sys2Proof/Machine/Firmware.lean ====
section
/-!
DEFINITION. The meanings of the rows of the device commands and the firmware switch (R341, R352 to R354, R404).
-/
namespace Sys2Proof.Machine

/-- NOP (R341). -/
def execNop (c : Cmd) (s : State) : Host.Outcome State Fault Refusal :=
  s.on fun d => d.vucel (fun op => op == 0x0100 || (opInfo op).isNone) c fun n _ _ d => d.replyOk n

/-- DEV_INFO (R341). -/
def execDevInfo (c : Cmd) (s : State) : Host.Outcome State Fault Refusal :=
  s.on fun d => d.vucel1 0x0101 c fun n _ _ d => d.replyOpen n 32

/-- FW_STAGE (R352). -/
def execFwStage (c : Cmd) (piece : Option Bytes) (s : State) : Host.Outcome State Fault Refusal :=
  s.on fun d => d.vucel1 0x0102 c fun n _ p d => d.fwStage n p piece

/-- FW_ACTIVATE (R353). -/
def execFwActivate (c : Cmd) (s : State) : Host.Outcome State Fault Refusal :=
  s.on fun d => d.vucel1 0x0103 c fun n _ _ d => d.fwActivate n

/-- FW_SWITCH_TIMEOUT (R353). -/
def execFwSwitchTimeout (s : State) : Host.Outcome State Fault Refusal :=
  s.on fun d => d.fwSwitchTimeout

/-- FW_SWITCH_COMPLETE (R353). -/
def execFwSwitchComplete (s : State) : Host.Outcome State Fault Refusal :=
  s.on fun d => d.fwSwitchComplete.railEvents

/-- FW_STATE (R341). -/
def execFwState (c : Cmd) (s : State) : Host.Outcome State Fault Refusal :=
  s.on fun d => d.vucel1 0x0104 c fun n _ _ d => d.replyOpen n 16

/-- DEV_RESET (R404). -/
def execDevReset (c : Cmd) (s : State) : Host.Outcome State Fault Refusal :=
  s.on fun d => d.vucel1 0x0105 c fun n _ _ d => d.devReset n

end Sys2Proof.Machine
end

