-- ==== Sys2Proof/Machine/Functions.lean ====
section
/-!
DEFINITION. The meanings of the rows of function resets, freezing, migration (R312 to R329).
-/
namespace Sys2Proof.Machine

/-- FUNC_RESET (R317). -/
def execFuncReset (c : Cmd) (s : State) : Host.Outcome State Fault Refusal :=
  s.on fun d => d.vucel1 0x0B01 c fun n a _ d => d.funcReset n a.fn

/-- FUNC_RESET_DRAIN_END (R318). -/
def execFuncResetDrainEnd (f : Nat) (s : State) : Host.Outcome State Fault Refusal :=
  s.on fun d => d.funcResetDrainEnd f

/-- FUNC_FREEZE (R323). -/
def execFuncFreeze (c : Cmd) (s : State) : Host.Outcome State Fault Refusal :=
  s.on fun d => d.vucel1 0x0B02 c fun n a _ d => d.funcFreeze n a.fn

/-- FREEZE_DRAIN_END (R323). -/
def execFreezeDrainEnd (f : Nat) (s : State) : Host.Outcome State Fault Refusal :=
  s.on fun d => d.freezeDrainEnd f

/-- FUNC_SAVE (R324). -/
def execFuncSave (c : Cmd) (s : State) : Host.Outcome State Fault Refusal :=
  s.on fun d => d.vucel1 0x0B03 c fun n a p d => d.funcSave n a.fn p

/-- FUNC_RESTORE (R326). -/
def execFuncRestore (c : Cmd) (image : Option Bytes) (s : State) : Host.Outcome State Fault Refusal :=
  s.on fun d => d.vucel1 0x0B04 c fun n a p d => d.funcRestore n a.fn p image

/-- FUNC_THAW (R325). -/
def execFuncThaw (c : Cmd) (s : State) : Host.Outcome State Fault Refusal :=
  s.on fun d => d.vucel1 0x0B05 c fun n a _ d => d.funcThaw n a.fn

/-- MIG_DOMAIN_SET (R328). -/
def execMigDomainSet (c : Cmd) (s : State) : Host.Outcome State Fault Refusal :=
  s.on fun d => d.vucel1 0x0B06 c fun n _ p d => d.migDomainSet n p

end Sys2Proof.Machine
end

