-- ==== Sys2Proof/Machine/HostIf.lean ====
section
/-!
DEFINITION. The meanings of the rows of PCIe: configuration space, links, resets, ATS, MSI-X, queue pair assignment and privileges (R285 to R311).
-/
namespace Sys2Proof.Machine

/-- MSIX_VECTOR_UNMASK (R305). -/
def execMsixVectorUnmask (f : Nat) (vec : Nat) (w : Word) (s : State) : Host.Outcome State Fault Refusal :=
  s.on fun d => d.vectorUnmask f vec w

/-- QP_ASSIGN (R295). -/
def execQpAssign (c : Cmd) (s : State) : Host.Outcome State Fault Refusal :=
  s.on fun d => d.vucel1 0x0902 c fun n a p d => d.qpAssign n a.fn p

/-- FUNC_PRIV_SET (R307). -/
def execFuncPrivSet (c : Cmd) (s : State) : Host.Outcome State Fault Refusal :=
  s.on fun d => d.vucel1 0x0903 c fun n a p d => d.funcPrivSet n a.fn p

/-- FLR (R292). -/
def execFlr (f : Nat) (s : State) : Host.Outcome State Fault Refusal :=
  s.on fun d => d.flr f

/-- VF_ENABLE_SET (R292). -/
def execVfEnableSet (pf : Nat) (s : State) : Host.Outcome State Fault Refusal :=
  s.on fun d => d.vfEnableSet pf

/-- VF_ENABLE_CLEAR (R292). -/
def execVfEnableClear (pf : Nat) (s : State) : Host.Outcome State Fault Refusal :=
  s.on fun d => d.vfEnableClear pf

/-- NUMVFS_WRITE (R292). -/
def execNumvfsWrite (pf : Nat) (n : Nat) (s : State) : Host.Outcome State Fault Refusal :=
  s.on fun d => d.numvfsWrite pf n

/-- PCIE_LINK_DOWN (R292). -/
def execPcieLinkDown (link : Nat) (s : State) : Host.Outcome State Fault Refusal :=
  s.on fun d => d.linkDown link

/-- PERST1_N (R285). -/
def execPerst1N (s : State) : Host.Outcome State Fault Refusal :=
  s.on fun d => d.perst1

/-- PERST0_N (R285). -/
def execPerst0N (s : State) : Host.Outcome State Fault Refusal :=
  s.on fun d => d.perst0

/-- D3HOT_ENTER (R290). -/
def execD3hotEnter (f : Nat) (s : State) : Host.Outcome State Fault Refusal :=
  s.on fun d => d.d3hotEnter f

/-- D0_ENTER (R290). -/
def execD0Enter (f : Nat) (s : State) : Host.Outcome State Fault Refusal :=
  s.on fun d => d.d0Enter f

/-- ATS_INVALIDATION (R288). -/
def execAtsInvalidation (f : Nat) (tag : Nat) (page : Nat) (s : State) : Host.Outcome State Fault Refusal :=
  s.on fun d => d.atsInvalidation f tag page

/-- ATS_INVAL_COMPLETE (R288). -/
def execAtsInvalComplete (f : Nat) (tag : Nat) (s : State) : Host.Outcome State Fault Refusal :=
  s.on fun d => d.atsInvalComplete f tag

/-- PCIE_LINK_UP (R285). -/
def execPcieLinkUp (link : Nat) (rate : Nat) (width : Nat) (s : State) : Host.Outcome State Fault Refusal :=
  s.on fun d => d.pcieLinkUp link rate width

end Sys2Proof.Machine
end

