-- ==== Sys2Proof/Machine/Instructions.lean ====
section
/-!
DEFINITION. The meanings of the instructions of a thread that are carried out by the thread alone (R96): ALU and immediate
forms, branches and jumps, loops, window, legend, scratch and buffer accesses, lookup requests, channels, events, time.
-/
namespace Sys2Proof.Machine

/-- ADD (R96). -/
def execAdd (t : Nat) (d a b sh : BitVec 5) (s : State) : Host.Outcome State Fault Refusal :=
  s.on fun e => e.alu t 0x00 d a b sh fun x y => x + y

/-- SUB (R96). -/
def execSub (t : Nat) (d a b sh : BitVec 5) (s : State) : Host.Outcome State Fault Refusal :=
  s.on fun e => e.alu t 0x01 d a b sh fun x y => x - y

/-- AND (R96). -/
def execAnd (t : Nat) (d a b sh : BitVec 5) (s : State) : Host.Outcome State Fault Refusal :=
  s.on fun e => e.alu t 0x02 d a b sh fun x y => x &&& y

/-- OR (R96). -/
def execOr (t : Nat) (d a b sh : BitVec 5) (s : State) : Host.Outcome State Fault Refusal :=
  s.on fun e => e.alu t 0x03 d a b sh fun x y => x ||| y

/-- XOR (R96). -/
def execXor (t : Nat) (d a b sh : BitVec 5) (s : State) : Host.Outcome State Fault Refusal :=
  s.on fun e => e.alu t 0x04 d a b sh fun x y => x ^^^ y

/-- SHL, by gB[4:0] (R96). -/
def execShl (t : Nat) (d a b sh : BitVec 5) (s : State) : Host.Outcome State Fault Refusal :=
  s.on fun e => e.alu t 0x05 d a b sh fun x y => x <<< (y.toNat % 32)

/-- SHR, by gB[4:0] (R96). -/
def execShr (t : Nat) (d a b sh : BitVec 5) (s : State) : Host.Outcome State Fault Refusal :=
  s.on fun e => e.alu t 0x06 d a b sh fun x y => x >>> (y.toNat % 32)

/-- SAR, by gB[4:0] (R96). -/
def execSar (t : Nat) (d a b sh : BitVec 5) (s : State) : Host.Outcome State Fault Refusal :=
  s.on fun e => e.alu t 0x07 d a b sh fun x y => x.sshiftRight (y.toNat % 32)

/-- SLT (R96). -/
def execSlt (t : Nat) (d a b sh : BitVec 5) (s : State) : Host.Outcome State Fault Refusal :=
  s.on fun e => e.alu t 0x08 d a b sh fun x y => flagWord (x.slt y)

/-- SLTU (R96). -/
def execSltu (t : Nat) (d a b sh : BitVec 5) (s : State) : Host.Outcome State Fault Refusal :=
  s.on fun e => e.alu t 0x09 d a b sh fun x y => flagWord (x.ult y)

/-- MUL, low 32 bits (R96). -/
def execMul (t : Nat) (d a b sh : BitVec 5) (s : State) : Host.Outcome State Fault Refusal :=
  s.on fun e => e.alu t 0x0A d a b sh fun x y => x * y

/-- MINU (R96). -/
def execMinu (t : Nat) (d a b sh : BitVec 5) (s : State) : Host.Outcome State Fault Refusal :=
  s.on fun e => e.alu t 0x0B d a b sh fun x y => if x.ult y then x else y

/-- MAXU (R96). -/
def execMaxu (t : Nat) (d a b sh : BitVec 5) (s : State) : Host.Outcome State Fault Refusal :=
  s.on fun e => e.alu t 0x0C d a b sh fun x y => if x.ult y then y else x

/-- EXT (R96). -/
def execExt (t : Nat) (d a b sh : BitVec 5) (s : State) : Host.Outcome State Fault Refusal :=
  s.on fun e => e.alu t 0x0D d a b sh fun x _ => aluExt x b sh

/-- INS (R96): the other bits of gD stay. -/
def execIns (t : Nat) (d a b sh : BitVec 5) (s : State) : Host.Outcome State Fault Refusal :=
  s.on fun e => e.regInsn t (encAlu 0x0E d a b sh) d true fun x => aluIns (x.reg d.toNat) (x.reg a.toNat) b sh

/-- CRC (R96; log entry 4). -/
def execCrc (t : Nat) (d a b sh : BitVec 5) (s : State) : Host.Outcome State Fault Refusal :=
  s.on fun e => e.alu t 0x0F d a b sh (aluCrc Config.crcMsbFirst Config.crcComplement)

/-- BSWAP (R96). -/
def execBswap (t : Nat) (d a b sh : BitVec 5) (s : State) : Host.Outcome State Fault Refusal :=
  s.on fun e => e.alu t 0x10 d a b sh fun x _ => aluBswap x

/-- ADDI (R96). -/
def execAddi (t : Nat) (d a : BitVec 5) (imm : BitVec 16) (s : State) : Host.Outcome State Fault Refusal :=
  s.on fun e => e.immInsn t 0x02 d a imm true fun x => x + immS imm

/-- ANDI (R96). -/
def execAndi (t : Nat) (d a : BitVec 5) (imm : BitVec 16) (s : State) : Host.Outcome State Fault Refusal :=
  s.on fun e => e.immInsn t 0x03 d a imm true fun x => x &&& immZ imm

/-- ORI (R96). -/
def execOri (t : Nat) (d a : BitVec 5) (imm : BitVec 16) (s : State) : Host.Outcome State Fault Refusal :=
  s.on fun e => e.immInsn t 0x04 d a imm true fun x => x ||| immZ imm

/-- XORI (R96). -/
def execXori (t : Nat) (d a : BitVec 5) (imm : BitVec 16) (s : State) : Host.Outcome State Fault Refusal :=
  s.on fun e => e.immInsn t 0x05 d a imm true fun x => x ^^^ immZ imm

/-- LUI; A must be 0 (R96). -/
def execLui (t : Nat) (d a : BitVec 5) (imm : BitVec 16) (s : State) : Host.Outcome State Fault Refusal :=
  s.on fun e => e.immInsn t 0x06 d a imm (a == 0) fun _ => immZ imm <<< 16

/-- SLTI, signed (R96). -/
def execSlti (t : Nat) (d a : BitVec 5) (imm : BitVec 16) (s : State) : Host.Outcome State Fault Refusal :=
  s.on fun e => e.immInsn t 0x07 d a imm true fun x => flagWord (x.slt (immS imm))

/-- BR (R96). -/
def execBr (t : Nat) (cnd : BitVec 3) (a b : BitVec 5) (off : BitVec 13) (s : State) :
    Host.Outcome State Fault Refusal := s.on fun e => e.branch t cnd a b off

/-- JMP (R96). -/
def execJmp (t : Nat) (rsv : BitVec 10) (target : BitVec 14) (s : State) :
    Host.Outcome State Fault Refusal := s.on fun e => e.instr t (encJump 0 rsv target) (rsv == 0) fun x k =>
      k.setThread t (x.goTo (k.target t x target.toNat))

/-- CALL (R96). -/
def execCall (t : Nat) (rsv : BitVec 10) (target : BitVec 14) (s : State) :
    Host.Outcome State Fault Refusal := s.on fun e => e.callInsn t rsv target

/-- JCLASS; TARGET is 0 (R92, R96). -/
def execJclass (t : Nat) (rsv : BitVec 10) (target : BitVec 14) (s : State) :
    Host.Outcome State Fault Refusal := s.on fun e => e.instr t (encJump 3 rsv target) (rsv == 0 && target == 0) fun x k => k.jclass t x

/-- JR; a thread fault in inset mode (R96, R102). -/
def execJr (t : Nat) (a : BitVec 5) (rsv : BitVec 21) (s : State) :
    Host.Outcome State Fault Refusal := s.on fun e => e.instr t (encJr a rsv) (rsv == 0) fun x k =>
      if x.insetMode then k.threadFault t 0x01 else k.setThread t (x.goTo ((x.reg a.toNat).toNat % 16384))

/-- LOOP (R96). -/
def execLoop (t : Nat) (count : BitVec 8) (body : BitVec 10) (rsv : BitVec 8) (s : State) :
    Host.Outcome State Fault Refusal := s.on fun e => e.loopInsn t count body rsv

/-- PW (R96). -/
def execPw (t : Nat) (d a : BitVec 5) (w : Bool) (sz : BitVec 2) (rsv : BitVec 5) (off : BitVec 8) (s : State) :
    Host.Outcome State Fault Refusal := s.on fun e => e.pwInsn t d a w sz rsv off

/-- LG (R96, R98). -/
def execLg (t : Nat) (d : BitVec 5) (w : Bool) (word : BitVec 4) (lsb wm1 : BitVec 5) (rsv : BitVec 6) (s : State) :
    Host.Outcome State Fault Refusal := s.on fun e => e.lgInsn t d w word lsb wm1 rsv

/-- SC (R94, R96). -/
def execSc (t : Nat) (d a : BitVec 5) (w : Bool) (sz : BitVec 2) (off : BitVec 13) (s : State) :
    Host.Outcome State Fault Refusal := s.on fun e => e.scInsn t d a w sz off

/-- BUF (R96). -/
def execBuf (t : Nat) (d a : BitVec 5) (w : Bool) (sz : BitVec 2) (off : BitVec 13) (s : State) :
    Host.Outcome State Fault Refusal := s.on fun e => e.bufInsn t d a w sz off

/-- LOOKUP, exact match (R99). -/
def execLookupExact (t : Nat) (slot : BitVec 2) (table : BitVec 6) (keyq : BitVec 3) (pre : Bool) (rsv : BitVec 12) (s : State) :
    Host.Outcome State Fault Refusal := s.on fun e => e.lookupInsn t slot.toNat 0 table keyq pre rsv

/-- LOOKUP, LPM IPv4 (R99). -/
def execLookupLpm4 (t : Nat) (slot : BitVec 2) (table : BitVec 6) (keyq : BitVec 3) (pre : Bool) (rsv : BitVec 12) (s : State) :
    Host.Outcome State Fault Refusal := s.on fun e => e.lookupInsn t slot.toNat 1 table keyq pre rsv

/-- LOOKUP, LPM IPv6 (R99). -/
def execLookupLpm6 (t : Nat) (slot : BitVec 2) (table : BitVec 6) (keyq : BitVec 3) (pre : Bool) (rsv : BitVec 12) (s : State) :
    Host.Outcome State Fault Refusal := s.on fun e => e.lookupInsn t slot.toNat 2 table keyq pre rsv

/-- LOOKUP, CLASSIFY (R99). -/
def execClassify (t : Nat) (slot : BitVec 2) (table : BitVec 6) (keyq : BitVec 3) (pre : Bool) (rsv : BitVec 12) (s : State) :
    Host.Outcome State Fault Refusal := s.on fun e => e.lookupInsn t slot.toNat 3 table keyq pre rsv

/-- LOOKUP with PRE = 1 (R99, R144). -/
def execLookupPrefetch (t : Nat) (slot kind : BitVec 2) (table : BitVec 6) (keyq : BitVec 3) (rsv : BitVec 12) (s : State) :
    Host.Outcome State Fault Refusal := s.on fun e => e.lookupInsn t slot.toNat kind.toNat table keyq true rsv

/-- LDRES (R99). -/
def execLdres (t : Nat) (d : BitVec 5) (slot part : BitVec 2) (rsv : BitVec 17) (s : State) :
    Host.Outcome State Fault Refusal := s.on fun e => e.ldresInsn t d slot part rsv

/-- CHAN RESERVE (R75, R77). -/
def execReserve (t : Nat) (ch : BitVec 3) (d : BitVec 5) (rv : BitVec 2) (st : BitVec 5) (rsv : BitVec 9) (s : State) :
    Host.Outcome State Fault Refusal := s.on fun e => e.chanInsn t 0 ch d rv st rsv true true fun n x k => k.reserveBody t rv.toNat st.toNat n x

/-- CHAN WRITE (R75, R77, R81). -/
def execWrite (t : Nat) (ch : BitVec 3) (d : BitVec 5) (rv : BitVec 2) (st : BitVec 5) (rsv : BitVec 9) (s : State) :
    Host.Outcome State Fault Refusal := s.on fun e => e.chanInsn t 1 ch d rv st rsv true false fun n x k => k.writeBody t d.toNat rv.toNat st.toNat n x

/-- CHAN COMMIT (R75, R77, R81). -/
def execCommit (t : Nat) (ch : BitVec 3) (d : BitVec 5) (rv : BitVec 2) (st : BitVec 5) (rsv : BitVec 9) (s : State) :
    Host.Outcome State Fault Refusal := s.on fun e => e.chanInsn t 2 ch d rv st rsv true false fun n x k => k.commitBody t rv.toNat st.toNat n x

/-- CHAN READ (R75, R77). -/
def execRead (t : Nat) (ch : BitVec 3) (d : BitVec 5) (rv : BitVec 2) (st : BitVec 5) (rsv : BitVec 9) (s : State) :
    Host.Outcome State Fault Refusal := s.on fun e => e.chanInsn t 3 ch d rv st rsv false true fun n x k => k.readBody t d.toNat st.toNat n x

/-- EVT WAIT (R73). -/
def execWait (t : Nat) (d a : BitVec 5) (rsv : BitVec 14) (s : State) :
    Host.Outcome State Fault Refusal := s.on fun e => e.waitInsn t d a rsv

/-- EVT SIGNAL (R72, R74). -/
def execSignal (t : Nat) (cluster : BitVec 2) (thread ev : BitVec 5) (rsv : BitVec 12) (s : State) :
    Host.Outcome State Fault Refusal := s.on fun e => e.signalInsn t cluster thread ev rsv

/-- EVT TIMER (R74). -/
def execTimer (t : Nat) (a : BitVec 5) (rsv : BitVec 19) (s : State) :
    Host.Outcome State Fault Refusal := s.on fun e => e.timerInsn t a rsv

/-- TIME (R31, R96). -/
def execTime (t : Nat) (d : BitVec 5) (rsv : BitVec 21) (s : State) :
    Host.Outcome State Fault Refusal := s.on fun e => e.timeInsn t d rsv

/-- A region store access completes (R70). -/
def execRegionStoreDone (t : Nat) (s : State) :
    Host.Outcome State Fault Refusal := s.on fun e => e.regionStoreDone t

/-- The reply to a buffer access arrives (R70, R321). -/
def execBufferReply (t : Nat) (s : State) :
    Host.Outcome State Fault Refusal := s.on fun e => e.bufferReply t

/-- A REGION_MSG arrives (R74). -/
def execRegionMsgDeliver (region : Nat) (s : State) :
    Host.Outcome State Fault Refusal := s.on fun e => e.regionMsgDeliver region

/-- A thread timer reaches its target (R74). -/
def execThreadTimerExpiry (t : Nat) (s : State) :
    Host.Outcome State Fault Refusal := s.on fun e => e.timerCheck t

/-- Detection of a closed wait (R79). -/
def execClosedWaitDetect (core : Nat) (s : State) :
    Host.Outcome State Fault Refusal := s.on fun e => e.closedWaitDetect core

/-- The dispatcher serves a region (R65). -/
def execDispatch (region : Nat) (s : State) :
    Host.Outcome State Fault Refusal := s.on fun e => e.dispatch region

end Sys2Proof.Machine
end

