-- ==== Sys2Proof/Machine/Mailboxes.lean ====
section
/-!
DEFINITION. The meanings of the rows of held posts, the slow path, SMBus and the management VLAN (R334 to R336, R343 to R350).
-/
namespace Sys2Proof.Machine

/-- SLOW_VERDICT (R345). -/
def execSlowVerdict (c : Cmd) (s : State) : Host.Outcome State Fault Refusal :=
  s.on fun d => d.vucel1 0x1001 c fun n a p d => d.slowVerdict n a.fn p

/-- SLOW_HOLD_EXPIRY (R345). -/
def execSlowHoldExpiry (handle : Nat) (s : State) : Host.Outcome State Fault Refusal :=
  s.on fun d => d.slowHoldExpiry handle

/-- POST_DELIVER (R348). -/
def execPostDeliver (sender : Nat) (receiver : Nat) (s : State) : Host.Outcome State Fault Refusal :=
  s.on fun d => d.postDeliver sender receiver

/-- SMB_BLOCK_WRITE (R334). -/
def execSmbBlockWrite (bytes : Bytes) (pecOk : Bool) (s : State) : Host.Outcome State Fault Refusal :=
  s.on fun d => (d.smbWrite bytes pecOk).controlFollows

/-- SMB_BLOCK_READ (R334). -/
def execSmbBlockRead (s : State) : Host.Outcome State Fault Refusal :=
  s.on fun d => d.smbRead

/-- MGMT_FRAME_RX (R335). -/
def execMgmtFrameRx (frame : Nat) (s : State) : Host.Outcome State Fault Refusal :=
  s.on fun d => d.mgmtFrameRx frame

end Sys2Proof.Machine
end

