-- ==== Sys2Proof/Machine/Meridian.lean ====
section
/-!
DEFINITION. The meanings of the rows of Meridian time and the time pins (R29 to R43).
-/
namespace Sys2Proof.Machine

/-- TIME_RATE (R32). -/
def execTimeRate (c : Cmd) (s : State) : Host.Outcome State Fault Refusal :=
  s.on fun d => d.vucel1 0x0201 c fun n _ p d => d.timeRate n p

/-- TIME_SLEW (R33). -/
def execTimeSlew (c : Cmd) (s : State) : Host.Outcome State Fault Refusal :=
  s.on fun d => d.vucel1 0x0202 c fun n _ p d => d.timeSlew n p

/-- SLEW_END (R33). -/
def execSlewEnd (s : State) : Host.Outcome State Fault Refusal :=
  s.on fun d => d.slewEnd

/-- TIME_STEP (R34). -/
def execTimeStep (c : Cmd) (s : State) : Host.Outcome State Fault Refusal :=
  s.on fun d => d.vucel1 0x0203 c fun n _ p d => d.timeStep n p fun e => e.gatesStepped.contourGates.lgStepped d.nowNs

/-- STEP_END (R34). -/
def execStepEnd (s : State) : Host.Outcome State Fault Refusal :=
  s.on fun d => d.stepEnd

/-- TIME_LOAD (R36). -/
def execTimeLoad (c : Cmd) (s : State) : Host.Outcome State Fault Refusal :=
  s.on fun d => d.vucel1 0x0204 c fun n _ p d => d.timeLoad n p

/-- REF_LOST (R31). -/
def execRefLost (s : State) : Host.Outcome State Fault Refusal :=
  s.on fun d => d.refLost

/-- TIME_IO_EDGE (R43). -/
def execTimeIoEdge (pin : Nat) (rising : Bool) (s : State) : Host.Outcome State Fault Refusal :=
  s.on fun d => d.timeIoEdge pin rising

/-- TIO_OUTPUT_EDGE (R41). -/
def execTioOutputEdge (pin : Nat) (s : State) : Host.Outcome State Fault Refusal :=
  s.on fun d => d.tioOutputEdge pin

/-- TIO_PULSE_END (R42). -/
def execTioPulseEnd (pin : Nat) (s : State) : Host.Outcome State Fault Refusal :=
  s.on fun d => d.tioPulseEnd pin

/-- REFERENCE_CLOCK_RETURN (R38). -/
def execReferenceClockReturn (s : State) : Host.Outcome State Fault Refusal :=
  s.on fun d => d.refReturn

end Sys2Proof.Machine
end

