-- ==== Sys2Proof/Machine/Ports.lean ====
section
/-!
DEFINITION. The meanings of the rows of ports: reception, link, pause, step-down, the injectors, and the port commands (R358 to R381).
-/
namespace Sys2Proof.Machine

/-- FRAME_RECEIVE (R363). -/
def execFrameReceive (port : Nat) (bytes : Bytes) (fcsOk : Bool) (s : State) : Host.Outcome State Fault Refusal :=
  s.on fun d => d.frameReceive port bytes fcsOk

/-- FC_REFRESH (R369). -/
def execFcRefresh (port : Nat) (prio : Nat) (s : State) : Host.Outcome State Fault Refusal :=
  s.on fun d => d.fcRefresh port prio

/-- PAUSE_EXPIRY (R367). -/
def execPauseExpiry (port : Nat) (s : State) : Host.Outcome State Fault Refusal :=
  s.on fun d => d.stopExpiry port 8

/-- PFC_EXPIRY (R368). -/
def execPfcExpiry (port : Nat) (prio : Nat) (s : State) : Host.Outcome State Fault Refusal :=
  s.on fun d => if prio < 8 then d.stopExpiry port prio else d

/-- PAUSE_WDOG_EXPIRY (R371). -/
def execPauseWdogExpiry (port : Nat) (prio : Nat) (s : State) : Host.Outcome State Fault Refusal :=
  s.on fun d => d.wdogExpiry port prio

/-- WDOG_HOLDOFF_END (R371). -/
def execWdogHoldoffEnd (port : Nat) (prio : Nat) (s : State) : Host.Outcome State Fault Refusal :=
  s.on fun d => d.holdoffEnd port prio

/-- LINK_UP (R361). -/
def execLinkUp (port : Nat) (phyOk : Bool) (s : State) : Host.Outcome State Fault Refusal :=
  s.on fun d => d.linkUpPort port phyOk

/-- LINK_DOWN (R361). -/
def execLinkDown (port : Nat) (s : State) : Host.Outcome State Fault Refusal :=
  s.on fun d => d.linkDownPort port

/-- STEPDOWN_INTERVAL (R375). -/
def execStepdownInterval (port : Nat) (s : State) : Host.Outcome State Fault Refusal :=
  s.on fun d => d.stepdownInterval port

/-- STEPDOWN_ACCEPT_TIMEOUT (R376). -/
def execStepdownAcceptTimeout (port : Nat) (s : State) : Host.Outcome State Fault Refusal :=
  s.on fun d => d.stepdownAcceptTimeout port

/-- REORDER_TIMEOUT (R379). -/
def execReorderTimeout (func : Bool) (tx : Bool) (n : Nat) (s : State) : Host.Outcome State Fault Refusal :=
  s.on fun d => d.reorderTimeout func tx n

/-- PORT_SET (R381). -/
def execPortSet (c : Cmd) (s : State) : Host.Outcome State Fault Refusal :=
  s.on fun d => d.vucel1 0x0C01 c fun n _ p d => d.portSet n p

/-- PORT_STATE (R381). -/
def execPortState (c : Cmd) (s : State) : Host.Outcome State Fault Refusal :=
  s.on fun d => d.vucel1 0x0C02 c fun n _ p d => d.portState n p

/-- FAULT_SET (R377). -/
def execFaultSet (c : Cmd) (s : State) : Host.Outcome State Fault Refusal :=
  s.on fun d => d.vucel1 0x0C03 c fun n a p d => d.faultSet n a p

/-- STEPDOWN_SET (R374). -/
def execStepdownSet (c : Cmd) (s : State) : Host.Outcome State Fault Refusal :=
  s.on fun d => d.vucel1 0x0C04 c fun n _ p d => d.stepdownSet n p

/-- PAUSE_WDOG_SET (R371). -/
def execPauseWdogSet (c : Cmd) (s : State) : Host.Outcome State Fault Refusal :=
  s.on fun d => d.vucel1 0x0C05 c fun n _ p d => d.pauseWdogSet n p

end Sys2Proof.Machine
end

