-- ==== Sys2Proof/Machine/Power.lean ====
section
/-!
DEFINITION. The meanings of the rows of contour, islands, rails, dies, resets (R386 to R409, R425).
-/
namespace Sys2Proof.Machine

/-- CONTOUR_SET (R407). -/
def execContourSet (c : Cmd) (s : State) : Host.Outcome State Fault Refusal :=
  s.on fun d => d.vucel1 0x0D01 c fun n a p d => d.contourSet n a p

/-- CONTOUR_LEAD_SET (R397). -/
def execContourLeadSet (c : Cmd) (s : State) : Host.Outcome State Fault Refusal :=
  s.on fun d => d.vucel1 0x0D02 c fun n _ p d => d.contourLeadSet n p

/-- PWR_STATE_SET (R402). -/
def execPwrStateSet (c : Cmd) (s : State) : Host.Outcome State Fault Refusal :=
  s.on fun d => d.vucel1 0x0D03 c fun n a p d => d.pwrStateSet n a p

/-- ISLAND_POWER (R400). -/
def execIslandPower (c : Cmd) (s : State) : Host.Outcome State Fault Refusal :=
  s.on fun d => d.vucel1 0x0D04 c fun n _ p d => d.islandPower n p

/-- PWR_STATUS (R407). -/
def execPwrStatus (c : Cmd) (s : State) : Host.Outcome State Fault Refusal :=
  s.on fun d => d.vucel1 0x0D05 c fun n _ _ d => d.pwrStatus n

/-- CONTOUR_RAISE (R397). -/
def execContourRaise (port : Nat) (s : State) : Host.Outcome State Fault Refusal :=
  s.on fun d => d.contourRaise port

/-- CONTOUR_RELEASE (R397). -/
def execContourRelease (port : Nat) (s : State) : Host.Outcome State Fault Refusal :=
  s.on fun d => d.contourRelease port

/-- CONTOUR_CONFIRM (R394). -/
def execContourConfirm (b : Nat) (s : State) : Host.Outcome State Fault Refusal :=
  s.on fun d => d.contourConfirm b

/-- LOAD_DEMAND_UP (R396). -/
def execLoadDemandUp (b : Nat) (pct : Nat) (s : State) : Host.Outcome State Fault Refusal :=
  s.on fun d => d.loadUp b pct

/-- LOAD_DEMAND_DOWN (R396). -/
def execLoadDemandDown (b : Nat) (pct : Nat) (s : State) : Host.Outcome State Fault Refusal :=
  s.on fun d => d.loadDown b pct

/-- PACE_LOW (R395). -/
def execPaceLow (b : Nat) (pace : Nat) (s : State) : Host.Outcome State Fault Refusal :=
  s.on fun d => d.paceLow b pace

/-- REGION_RELOAD_END (R403). -/
def execRegionReloadEnd (region : Nat) (s : State) : Host.Outcome State Fault Refusal :=
  s.on fun d => d.regionReloadEnd region

/-- RAIL_WARN (R390). -/
def execRailWarn (rail : Nat) (mv : Nat) (s : State) : Host.Outcome State Fault Refusal :=
  s.onAlways fun d => d.railWarn rail mv

/-- RAIL_WARN_CLEAR (R390). -/
def execRailWarnClear (rail : Nat) (mv : Nat) (s : State) : Host.Outcome State Fault Refusal :=
  s.onAlways fun d => d.railWarnClear rail mv

/-- RAIL_RESET (R389). -/
def execRailReset (rail : Nat) (mv : Nat) (s : State) : Host.Outcome State Fault Refusal :=
  s.onAlways fun d => d.railReset rail mv

/-- DIE_HOT (R391). -/
def execDieHot (die : Nat) (temp : Int) (s : State) : Host.Outcome State Fault Refusal :=
  s.onAlways fun d => d.dieHot die temp

/-- DIE_HOT_CLEAR (R391). -/
def execDieHotClear (die : Nat) (temp : Int) (s : State) : Host.Outcome State Fault Refusal :=
  s.onAlways fun d => d.dieHotClear die temp

/-- THERMAL_TRIP (R391). -/
def execThermalTrip (die : Nat) (temp : Int) (s : State) : Host.Outcome State Fault Refusal :=
  s.onAlways fun d => d.thermalTrip die temp

/-- RESET_N_ASSERT (R404). -/
def execResetNAssert (s : State) : Host.Outcome State Fault Refusal :=
  s.onAlways fun d => d.resetNAssert

/-- RESET_N_RISE (R388). -/
def execResetNRise (s : State) : Host.Outcome State Fault Refusal :=
  s.onAlways fun d => d.resetNRise

/-- DEBUG_RESET_DONE (R425). -/
def execDebugResetDone (s : State) : Host.Outcome State Fault Refusal :=
  s.on fun d => d.debugResetDone

/-- THERMAL_TRIP_END (R391). -/
def execThermalTripEnd (s : State) : Host.Outcome State Fault Refusal :=
  s.onAlways fun d => d.thermalTripEnd

/-- BLOCK_RESET_END (R415). -/
def execBlockResetEnd (b : Nat) (s : State) : Host.Outcome State Fault Refusal :=
  s.on fun d => (d.blockResetEnd b).railEvents

end Sys2Proof.Machine
end

