-- ==== Sys2Proof/Machine/Registers.lean ====
section
/-!
DEFINITION. The meanings of the rows of register accesses, and those that the manual gives a row of their own (R3 to R5, R410 to R425).
-/
namespace Sys2Proof.Machine

/-- PORT_ENABLE (R360). -/
def execPortEnable (req : Requester) (p : Nat) (w : Word) (s : State) : Host.Outcome State Fault Refusal :=
  s.on fun d => d.writeOn req .PRT_PORT_CFG p w

/-- PORT_DISABLE (R383). -/
def execPortDisable (req : Requester) (p : Nat) (w : Word) (s : State) : Host.Outcome State Fault Refusal :=
  s.on fun d => d.writeOff req .PRT_PORT_CFG p w

/-- HALT (R80). -/
def execHalt (req : Requester) (t : Nat) (s : State) : Host.Outcome State Fault Refusal :=
  s.on fun d => d.threadCtrl req t 0

/-- RESUME (R80). -/
def execResume (req : Requester) (t : Nat) (s : State) : Host.Outcome State Fault Refusal :=
  s.on fun d => d.threadCtrl req t 1

/-- STEP (R80). -/
def execStep (req : Requester) (t : Nat) (s : State) : Host.Outcome State Fault Refusal :=
  s.on fun d => d.threadCtrl req t 2

/-- ABANDON (R81). -/
def execAbandon (req : Requester) (t : Nat) (s : State) : Host.Outcome State Fault Refusal :=
  s.on fun d => d.threadCtrl req t 3

/-- POKE (R90). -/
def execPoke (req : Requester) (t : Nat) (s : State) : Host.Outcome State Fault Refusal :=
  s.on fun d => d.threadCtrl req t 4

/-- DBG_THREAD_GREG_WRITE (R89). -/
def execDbgThreadGregWrite (req : Requester) (k : Nat) (w : Word) (s : State) : Host.Outcome State Fault Refusal :=
  s.on fun d => d.named .DBG_THREAD_GREG k fun e => e.regWrite req (regLoc .DBG_THREAD_GREG k) w

/-- DBG_THREAD_PC_WRITE (R89). -/
def execDbgThreadPcWrite (req : Requester) (w : Word) (s : State) : Host.Outcome State Fault Refusal :=
  s.on fun d => d.regWrite req (regLoc .DBG_THREAD_PC 0) w

/-- THREAD_ENABLE_WRITE (R68). -/
def execThreadEnableWrite (req : Requester) (t : Nat) (w : Word) (s : State) : Host.Outcome State Fault Refusal :=
  s.on fun d => d.named .PCA_THREAD_CTRL t fun e => e.regWrite req (regLoc .PCA_THREAD_CTRL t) w

/-- CHANNEL_DISABLE (R78). -/
def execChannelDisable (req : Requester) (n : Nat) (w : Word) (s : State) : Host.Outcome State Fault Refusal :=
  s.on fun d => if w.getLsbD 31 then d else d.named .PCA_CHAN_CFG n fun e => e.regWrite req (regLoc .PCA_CHAN_CFG n) w

/-- TABLE_ENABLE (R474). -/
def execTableEnable (req : Requester) (table : Nat) (w : Word) (s : State) : Host.Outcome State Fault Refusal :=
  s.on fun d => d.writeOn req .TBL_DESC_CFG table w

/-- TABLE_DISABLE (R474). -/
def execTableDisable (req : Requester) (table : Nat) (w : Word) (s : State) : Host.Outcome State Fault Refusal :=
  s.on fun d => d.writeOff req .TBL_DESC_CFG table w

/-- TABLE_ENGINE_ENABLE (R152). -/
def execTableEngineEnable (req : Requester) (w : Word) (s : State) : Host.Outcome State Fault Refusal :=
  s.on fun d => d.writeOn req .TBL_CTRL 0 w

/-- TABLE_ENGINE_DISABLE (R135). -/
def execTableEngineDisable (req : Requester) (w : Word) (s : State) : Host.Outcome State Fault Refusal :=
  s.on fun d => d.writeOff req .TBL_CTRL 0 w

/-- SHAPER_ENABLE (R216). -/
def execShaperEnable (req : Requester) (n : Nat) (w : Word) (s : State) : Host.Outcome State Fault Refusal :=
  s.on fun d => d.writeOn req .TMG_SHAPER_CTRL n w

/-- SHAPER_DISABLE (R216). -/
def execShaperDisable (req : Requester) (n : Nat) (w : Word) (s : State) : Host.Outcome State Fault Refusal :=
  s.on fun d => d.writeOff req .TMG_SHAPER_CTRL n w

/-- TMG_GATE_STAT_READ (R233). -/
def execTmgGateStatRead (req : Requester) (p : Nat) (s : State) : Host.Outcome State Fault Refusal :=
  s.on fun d => d.named .TMG_GATE_STAT p fun e => e.regRead req (regLoc .TMG_GATE_STAT p)

/-- TX_DOORBELL (R299). -/
def execTxDoorbell (req : Requester) (f : Nat) (n : Nat) (w : Word) (s : State) : Host.Outcome State Fault Refusal :=
  s.on fun d => d.named .HIF_TX_TAIL n fun e => e.regWrite req (pageLoc f .HIF_TX_TAIL n) w

/-- RX_DOORBELL (R299). -/
def execRxDoorbell (req : Requester) (f : Nat) (n : Nat) (w : Word) (s : State) : Host.Outcome State Fault Refusal :=
  s.on fun d => d.named .HIF_RX_TAIL n fun e => e.regWrite req (pageLoc f .HIF_RX_TAIL n) w

/-- TXC_HEAD_WRITE (R299). -/
def execTxcHeadWrite (req : Requester) (f : Nat) (n : Nat) (w : Word) (s : State) : Host.Outcome State Fault Refusal :=
  s.on fun d => d.named .HIF_TXC_HEAD n fun e => e.regWrite req (pageLoc f .HIF_TXC_HEAD n) w

/-- RXC_HEAD_WRITE (R299). -/
def execRxcHeadWrite (req : Requester) (f : Nat) (n : Nat) (w : Word) (s : State) : Host.Outcome State Fault Refusal :=
  s.on fun d => d.named .HIF_RXC_HEAD n fun e => e.regWrite req (pageLoc f .HIF_RXC_HEAD n) w

/-- AQ_DOORBELL (R306). -/
def execAqDoorbell (req : Requester) (f : Nat) (w : Word) (s : State) : Host.Outcome State Fault Refusal :=
  s.on fun d => d.regWrite req (pageLoc f .HIF_AQ_TAIL 0) w

/-- AQC_HEAD_WRITE (R306). -/
def execAqcHeadWrite (req : Requester) (f : Nat) (w : Word) (s : State) : Host.Outcome State Fault Refusal :=
  s.on fun d => d.regWrite req (pageLoc f .HIF_AQC_HEAD 0) w

/-- QP_ENABLE (R297). -/
def execQpEnable (req : Requester) (f : Nat) (n : Nat) (w : Word) (s : State) : Host.Outcome State Fault Refusal :=
  s.on fun d => if w.getLsbD 31 then d.named .HIF_QP_CTX n fun e => e.regWrite req (pageLoc f .HIF_QP_CTX n) w else d

/-- QP_DISABLE (R297). -/
def execQpDisable (req : Requester) (f : Nat) (n : Nat) (w : Word) (s : State) : Host.Outcome State Fault Refusal :=
  s.on fun d => if w.getLsbD 31 then d else d.named .HIF_QP_CTX n fun e => e.regWrite req (pageLoc f .HIF_QP_CTX n) w

/-- AQ_ENABLE (R306). -/
def execAqEnable (req : Requester) (f : Nat) (w : Word) (s : State) : Host.Outcome State Fault Refusal :=
  s.on fun d => d.regWrite req (pageLoc f .HIF_AQ_CFG 0) w

/-- MER_LOAD_WRITE (R36). -/
def execMerLoadWrite (req : Requester) (n : Nat) (w : Word) (s : State) : Host.Outcome State Fault Refusal :=
  s.on fun d => if n < 3 && !d.on? Fld.MER_CTRL_ENABLE then d.regWrite req (regLoc .MER_LOAD 0 n) w else d

/-- MERIDIAN_ENABLE (R36). -/
def execMeridianEnable (req : Requester) (w : Word) (s : State) : Host.Outcome State Fault Refusal :=
  s.on fun d => d.writeBit0 req .MER_CTRL true w

/-- MERIDIAN_DISABLE (R36). -/
def execMeridianDisable (req : Requester) (w : Word) (s : State) : Host.Outcome State Fault Refusal :=
  s.on fun d => d.writeBit0 req .MER_CTRL false w

/-- MER_NOW_READ (R30). -/
def execMerNowRead (req : Requester) (s : State) : Host.Outcome State Fault Refusal :=
  s.on fun d => d.regRead req (regLoc .MER_NOW 0)

/-- MER_RATE_ADJ_READ (R32). -/
def execMerRateAdjRead (req : Requester) (s : State) : Host.Outcome State Fault Refusal :=
  s.on fun d => d.regRead req (regLoc .MER_RATE_ADJ 0)

/-- MER_TIO_STAMP_READ (R43). -/
def execMerTioStampRead (req : Requester) (pin : Nat) (s : State) : Host.Outcome State Fault Refusal :=
  s.on fun d => d.named .MER_TIO_STAMP pin fun e => e.regRead req (regLoc .MER_TIO_STAMP pin)

/-- LOGBOOK_ENABLE (R59). -/
def execLogbookEnable (req : Requester) (w : Word) (s : State) : Host.Outcome State Fault Refusal :=
  s.on fun d => d.writeOn req .DBG_LOG_CTRL 0 w

/-- FNC_GEN_REC_READ (R329). -/
def execFncGenRecRead (req : Requester) (f : Nat) (s : State) : Host.Outcome State Fault Refusal :=
  s.on fun d => d.named .FNC_GEN_REC f fun e => e.regRead req (regLoc .FNC_GEN_REC f)

/-- MBX_SEND (R347). -/
def execMbxSend (req : Requester) (f : Nat) (s : State) : Host.Outcome State Fault Refusal :=
  s.on fun d => d.regRead req (pageLoc f .MBX_SEND 0)

/-- MBX_POST (R348). -/
def execMbxPost (req : Requester) (f : Nat) (w : Word) (s : State) : Host.Outcome State Fault Refusal :=
  s.on fun d => d.regWrite req (pageLoc f .MBX_POST 0) w

/-- MBX_RING (R350). -/
def execMbxRing (req : Requester) (f : Nat) (w : Word) (s : State) : Host.Outcome State Fault Refusal :=
  s.on fun d => d.regWrite req (pageLoc f .MBX_RING 0) w

/-- MBX_RX_POP (R355). -/
def execMbxRxPop (req : Requester) (f : Nat) (w : Word) (s : State) : Host.Outcome State Fault Refusal :=
  s.on fun d => d.regWrite req (pageLoc f .MBX_RX_POP 0) w

/-- MBX_RX_STAMP_READ (R420). -/
def execMbxRxStampRead (req : Requester) (f : Nat) (s : State) : Host.Outcome State Fault Refusal :=
  s.on fun d => d.regRead req (pageLoc f .MBX_RX_STAMP 0)

/-- DEBUG_RESET (R425). -/
def execDebugReset (req : Requester) (w : Word) (s : State) : Host.Outcome State Fault Refusal :=
  s.on fun d => if w.getLsbD 31 then d.regWrite req (regLoc .DBG_RESET_CTRL 0) w else d

/-- REGISTER_WRITE (R417). -/
def execRegisterWrite (req : Requester) (loc : Loc) (size : Nat) (v : BitVec 64) (s : State) : Host.Outcome State Fault Refusal :=
  s.on fun d => d.registerWrite req loc size v

/-- REGISTER_READ (R419). -/
def execRegisterRead (req : Requester) (loc : Loc) (size : Nat) (s : State) : Host.Outcome State Fault Refusal :=
  s.on fun d => d.registerRead req loc size

end Sys2Proof.Machine
end

