-- ==== Sys2Proof/Machine/Scheduling.lean ====
section
/-!
DEFINITION. The meanings of the rows of admission, queues, scheduling, launches, gates, policing and 802.1CB (R210 to R234).
-/
namespace Sys2Proof.Machine

/-- TM_FRAME_ADMIT (R210). -/
def execTmFrameAdmit (frame : Nat) (s : State) : Host.Outcome State Fault Refusal :=
  s.on fun d => d.tmFrameAdmit frame

/-- CB_RESET_TIMEOUT (R221). -/
def execCbResetTimeout (stream : Nat) (s : State) : Host.Outcome State Fault Refusal :=
  s.on fun d => d.cbResetTimeout stream

/-- SCHEDULER_SELECT (R212). -/
def execSchedulerSelect (port : Nat) (s : State) : Host.Outcome State Fault Refusal :=
  s.on fun d => d.schedulerSelect port

/-- RESEQ_TIMEOUT (R52). -/
def execReseqTimeout (port : Nat) (s : State) : Host.Outcome State Fault Refusal :=
  s.on fun d => d.reseqTimeout port

/-- FRAME_LAUNCH (R214). -/
def execFrameLaunch (port : Nat) (s : State) : Host.Outcome State Fault Refusal :=
  s.on fun d => d.frameLaunch port

/-- RESIDENCY_DISCARD (R22). -/
def execResidencyDiscard (copy : Nat) (s : State) : Host.Outcome State Fault Refusal :=
  s.on fun d => d.residencyDiscard copy

/-- GATE_ENTRY_CHANGE (R222). -/
def execGateEntryChange (port : Nat) (s : State) : Host.Outcome State Fault Refusal :=
  s.on fun d => d.gateEntryChange port

/-- GATE_LIST_START (R224). -/
def execGateListStart (port : Nat) (s : State) : Host.Outcome State Fault Refusal :=
  s.on fun d => d.gateListStart port

/-- GATE_SET (R223). -/
def execGateSet (c : Cmd) (s : State) : Host.Outcome State Fault Refusal :=
  s.on fun d => d.vucel1 0x0801 c fun n a p d => d.needBlock 6 n fun d => (d.gateSet n a p fun q e => e.stepdownOff q).contourGates

/-- FILTER_SET (R218). -/
def execFilterSet (c : Cmd) (s : State) : Host.Outcome State Fault Refusal :=
  s.on fun d => d.vucel1 0x0802 c fun n _ p d => d.needBlock 6 n fun d => d.filterSet n p

/-- FILTER_STATS (R217). -/
def execFilterStats (c : Cmd) (s : State) : Host.Outcome State Fault Refusal :=
  s.on fun d => d.vucel1 0x0803 c fun n _ p d => d.needBlock 6 n fun d => d.filterStats n p

/-- METER_SET (R219). -/
def execMeterSet (c : Cmd) (s : State) : Host.Outcome State Fault Refusal :=
  s.on fun d => d.vucel1 0x0804 c fun n _ p d => d.needBlock 6 n fun d => d.meterSet n p

/-- CB_SET (R221). -/
def execCbSet (c : Cmd) (s : State) : Host.Outcome State Fault Refusal :=
  s.on fun d => d.vucel1 0x0805 c fun n _ p d => d.needBlock 6 n fun d => d.cbSet n p

/-- CB_STATS (R221). -/
def execCbStats (c : Cmd) (s : State) : Host.Outcome State Fault Refusal :=
  s.on fun d => d.vucel1 0x0806 c fun n _ p d => d.needBlock 6 n fun d => d.cbStats n p

/-- FRAME_TX_END (R367). -/
def execFrameTxEnd (port : Nat) (s : State) : Host.Outcome State Fault Refusal :=
  s.on fun d => d.frameTxEnd port

/-- PREEMPTABLE_HOLD (R229). -/
def execPreemptableHold (port : Nat) (s : State) : Host.Outcome State Fault Refusal :=
  s.on fun d => d.preemptableHold port

end Sys2Proof.Machine
end

