-- ==== Sys2Proof/Machine/Sheets.lean ====
section
/-!
DEFINITION. The meanings of the rows of legends, classification and sheets (R112 to R134, R466).
-/
namespace Sys2Proof.Machine

/-- LEGEND_MAKE (R466). -/
def execLegendMake (frame : Nat) (s : State) : Host.Outcome State Fault Refusal :=
  s.on fun d => d.legendMake frame

/-- CLASSIFY_REPLY (R122). -/
def execClassifyReply (r : Nat) (s : State) : Host.Outcome State Fault Refusal :=
  s.on fun d => d.classifyReply r

/-- SHEET_OPEN (R125). -/
def execSheetOpen (c : Cmd) (s : State) : Host.Outcome State Fault Refusal :=
  s.on fun d => d.vucel1 0x0401 c fun n a p d => d.sheetOpen n a.fn p

/-- SHEET_OPEN_TIMEOUT (R341). -/
def execSheetOpenTimeout (f : Nat) (s : State) : Host.Outcome State Fault Refusal :=
  s.on fun d => d.sheetOpenTimeout f

/-- SHEET_PROFILE (R125). -/
def execSheetProfile (c : Cmd) (s : State) : Host.Outcome State Fault Refusal :=
  s.on fun d => d.vucel1 0x0402 c fun n a p d => d.sheetProfile n a.fn p

/-- SHEET_DEFAULT (R125). -/
def execSheetDefault (c : Cmd) (s : State) : Host.Outcome State Fault Refusal :=
  s.on fun d => d.vucel1 0x0403 c fun n a p d => d.sheetDefault n a.fn p

/-- RULE_ADD (R121). -/
def execRuleAdd (c : Cmd) (s : State) : Host.Outcome State Fault Refusal :=
  s.on fun d => d.vucel1 0x0404 c fun n a p d => d.ruleAdd n a.fn p

/-- RULE_DEL (R125). -/
def execRuleDel (c : Cmd) (s : State) : Host.Outcome State Fault Refusal :=
  s.on fun d => d.vucel1 0x0405 c fun n a p d => d.ruleDel n a.fn p

/-- SHEET_SWAP (R126). -/
def execSheetSwap (c : Cmd) (s : State) : Host.Outcome State Fault Refusal :=
  s.on fun d => d.vucel1 0x0406 c fun n a _ d => d.sheetSwap n a.fn a

/-- SHEET_SWAP_COMMIT (R126). -/
def execSheetSwapCommit (f : Nat) (s : State) : Host.Outcome State Fault Refusal :=
  s.on fun d => d.sheetSwapCommit f

/-- SHEET_DISCARD (R125). -/
def execSheetDiscard (c : Cmd) (s : State) : Host.Outcome State Fault Refusal :=
  s.on fun d => d.vucel1 0x0407 c fun n a _ d => d.sheetDiscard n a.fn

/-- SHEET_RELEASE (R128). -/
def execSheetRelease (f : Nat) (s : State) : Host.Outcome State Fault Refusal :=
  s.on fun d => d.sheetRelease f

end Sys2Proof.Machine
end

