-- ==== Sys2Proof/Machine/Storage.lean ====
section
/-!
DEFINITION. The meanings of the rows of the storage engine (R266 to R284).
-/
namespace Sys2Proof.Machine

/-- STO_CONN_OFFLOAD (R268). -/
def execStoConnOffload (c : Cmd) (s : State) : Host.Outcome State Fault Refusal :=
  s.on fun d => d.vucel1 0x0A01 c fun n a p d => d.needBlock 8 n fun d => d.stoConnOffload n a.fn p

/-- STO_CONN_RETURN (R281). -/
def execStoConnReturn (c : Cmd) (s : State) : Host.Outcome State Fault Refusal :=
  s.on fun d => d.vucel1 0x0A02 c fun n a p d => d.needBlock 8 n fun d => d.stoConnReturn n a.fn p

/-- STO_RETURN_TIMEOUT (R281). -/
def execStoReturnTimeout (conn : Nat) (s : State) : Host.Outcome State Fault Refusal :=
  s.on fun d => d.stoReturnTimeout conn

/-- STO_CONN_RESUME (R278). -/
def execStoConnResume (c : Cmd) (s : State) : Host.Outcome State Fault Refusal :=
  s.on fun d => d.vucel1 0x0A03 c fun n a p d => d.needBlock 8 n fun d => d.stoConnResume n a.fn p

/-- STO_CONN_REKEY (R278). -/
def execStoConnRekey (c : Cmd) (s : State) : Host.Outcome State Fault Refusal :=
  s.on fun d => d.vucel1 0x0A04 c fun n a p d => d.needBlock 8 n fun d => d.stoConnRekey n a.fn p

/-- STO_CONN_STATE (R282). -/
def execStoConnState (c : Cmd) (s : State) : Host.Outcome State Fault Refusal :=
  s.on fun d => d.vucel1 0x0A05 c fun n a p d => d.needBlock 8 n fun d => d.stoConnState n a.fn p

/-- STO_CMD_FETCH (R273). -/
def execStoCmdFetch (qp : Nat) (entry : Option Bytes) (desc : Option Bytes) (s : State) : Host.Outcome State Fault Refusal :=
  s.on fun d => d.stoCmdFetch qp entry desc

/-- STO_SEGMENT_RX (R272). -/
def execStoSegmentRx (copy : Nat) (s : State) : Host.Outcome State Fault Refusal :=
  s.on fun d => d.stoSegmentRx copy

/-- STO_SEGMENT_TX (R271). -/
def execStoSegmentTx (conn : Nat) (s : State) : Host.Outcome State Fault Refusal :=
  s.on fun d => d.stoSegmentTx conn

/-- PDU_CAPSULE_RESP (R279). -/
def execPduCapsuleResp (conn : Nat) (s : State) : Host.Outcome State Fault Refusal :=
  s.on fun d => d.pduCapsuleResp conn

/-- PDU_C2H_DATA (R275). -/
def execPduC2hData (conn : Nat) (s : State) : Host.Outcome State Fault Refusal :=
  s.on fun d => d.pduC2hData conn

/-- PDU_R2T (R274). -/
def execPduR2t (conn : Nat) (s : State) : Host.Outcome State Fault Refusal :=
  s.on fun d => d.pduR2t conn

/-- PDU_C2H_TERM_REQ (R266). -/
def execPduC2hTermReq (conn : Nat) (s : State) : Host.Outcome State Fault Refusal :=
  s.on fun d => d.pduC2hTermReq conn

/-- STO_RTO_EXPIRY (R271). -/
def execStoRtoExpiry (conn : Nat) (s : State) : Host.Outcome State Fault Refusal :=
  s.on fun d => d.stoRtoExpiry conn

/-- STO_ACK_TIMER (R272). -/
def execStoAckTimer (conn : Nat) (s : State) : Host.Outcome State Fault Refusal :=
  s.on fun d => d.stoAckTimer conn

/-- STO_BUFFER_RETRY (R271). -/
def execStoBufferRetry (conn : Nat) (s : State) : Host.Outcome State Fault Refusal :=
  s.on fun d => d.stoBufferRetry conn

end Sys2Proof.Machine
end

