-- ==== Sys2Proof/Machine/Switching.lean ====
section
/-!
DEFINITION. The meanings of the rows of the virtual switch, its VLANs, groups and tunnels (R163 to R182).
-/
namespace Sys2Proof.Machine

/-- SWITCH_FRAME (R163). -/
def execSwitchFrame (frame : Nat) (s : State) : Host.Outcome State Fault Refusal :=
  s.on fun d => d.switchFrame frame

/-- VLAN_SET (R169). -/
def execVlanSet (c : Cmd) (s : State) : Host.Outcome State Fault Refusal :=
  s.on fun d => d.vucel1 0x0601 c fun n _ p d => d.needBlock 11 n fun d => d.vlanSet n p

/-- VLAN_DEL (R163). -/
def execVlanDel (c : Cmd) (s : State) : Host.Outcome State Fault Refusal :=
  s.on fun d => d.vucel1 0x0602 c fun n _ p d => d.needBlock 11 n fun d => d.vlanDel n p

/-- GROUP_SET (R168). -/
def execGroupSet (c : Cmd) (s : State) : Host.Outcome State Fault Refusal :=
  s.on fun d => d.vucel1 0x0603 c fun n _ p d => d.needBlock 11 n fun d => d.groupSet n p

/-- GROUP_DEL (R168). -/
def execGroupDel (c : Cmd) (s : State) : Host.Outcome State Fault Refusal :=
  s.on fun d => d.vucel1 0x0604 c fun n _ p d => d.needBlock 11 n fun d => d.groupDel n p

/-- TUNNEL_SET (R176). -/
def execTunnelSet (c : Cmd) (s : State) : Host.Outcome State Fault Refusal :=
  s.on fun d => d.vucel1 0x0605 c fun n _ p d => d.needBlock 11 n fun d => d.tunnelSet n p

/-- TUNNEL_DEL (R176). -/
def execTunnelDel (c : Cmd) (s : State) : Host.Outcome State Fault Refusal :=
  s.on fun d => d.vucel1 0x0606 c fun n _ p d => d.needBlock 11 n fun d => d.tunnelDel n p

/-- SWITCH_DRAIN_REPLY (R169). -/
def execSwitchDrainReply (cmd : Nat) (s : State) : Host.Outcome State Fault Refusal :=
  s.on fun d => d.switchDrainReply cmd

/-- VRF_SET (R341). -/
def execVrfSet (c : Cmd) (s : State) : Host.Outcome State Fault Refusal :=
  s.on fun d => d.vucel1 0x0607 c fun n a p d => d.vrfSet n a.fn p

end Sys2Proof.Machine
end

