-- ==== Sys2Proof/Machine/Tables.lean ====
section
/-!
DEFINITION. The meanings of the rows of the table engine (R135 to R162, R469, R474) and uncorrectable errors of its SRAM and others (R15).
-/
namespace Sys2Proof.Machine

/-- TABLE_LOOKUP (R143). -/
def execTableLookup (r : Nat) (s : State) : Host.Outcome State Fault Refusal :=
  s.on fun d => d.tableLookup r

/-- LOOKUP_REPLY (R99). -/
def execLookupReply (r : Nat) (s : State) : Host.Outcome State Fault Refusal :=
  s.on fun d => d.lookupReply r

/-- LEARN_APPLY (R150). -/
def execLearnApply (s : State) : Host.Outcome State Fault Refusal :=
  s.on fun d => d.learnApply

/-- AGE_REFRESH (R153). -/
def execAgeRefresh (s : State) : Host.Outcome State Fault Refusal :=
  s.on fun d => d.ageRefresh

/-- SCAN_PASS_START (R152). -/
def execScanPassStart (s : State) : Host.Outcome State Fault Refusal :=
  s.on fun d => d.scanPassStart

/-- SCAN_VISIT (R152). -/
def execScanVisit (s : State) : Host.Outcome State Fault Refusal :=
  s.on fun d => d.scanVisit

/-- TABLE_CREATE (R474). -/
def execTableCreate (c : Cmd) (s : State) : Host.Outcome State Fault Refusal :=
  s.on fun d => d.vucel1 0x0501 c fun n _ p d => d.needBlock 9 n fun d => d.tableCreate n p

/-- TABLE_CLEAR_DONE (R474). -/
def execTableClearDone (table : Nat) (s : State) : Host.Outcome State Fault Refusal :=
  s.on fun d => d.tableClearDone table

/-- TABLE_GRANT (R136). -/
def execTableGrant (c : Cmd) (s : State) : Host.Outcome State Fault Refusal :=
  s.on fun d => d.vucel1 0x0502 c fun n a p d => d.needBlock 9 n fun d => d.tableGrant n a.fn p

/-- ENTRY_WRITE (R154). -/
def execEntryWrite (c : Cmd) (s : State) : Host.Outcome State Fault Refusal :=
  s.on fun d => d.vucel1 0x0503 c fun n a p d => d.entryWrite n a p

/-- ENTRY_DELETE (R154). -/
def execEntryDelete (c : Cmd) (s : State) : Host.Outcome State Fault Refusal :=
  s.on fun d => d.vucel1 0x0504 c fun n a p d => d.entryDelete n a p

/-- ENTRY_READ (R139). -/
def execEntryRead (c : Cmd) (s : State) : Host.Outcome State Fault Refusal :=
  s.on fun d => d.vucel1 0x0505 c fun n a p d => d.entryRead n a p

/-- TABLE_FLUSH (R469). -/
def execTableFlush (c : Cmd) (s : State) : Host.Outcome State Fault Refusal :=
  s.on fun d => d.vucel1 0x0506 c fun n a p d => d.tableFlush n a p

/-- LPM_ADD (R145). -/
def execLpmAdd (c : Cmd) (s : State) : Host.Outcome State Fault Refusal :=
  s.on fun d => d.vucel1 0x0507 c fun n a p d => d.lpmAdd n a.fn p

/-- LPM_DEL (R145). -/
def execLpmDel (c : Cmd) (s : State) : Host.Outcome State Fault Refusal :=
  s.on fun d => d.vucel1 0x0508 c fun n a p d => d.lpmDel n a.fn p

/-- LPM_FILTER (R146). -/
def execLpmFilter (c : Cmd) (s : State) : Host.Outcome State Fault Refusal :=
  s.on fun d => d.vucel1 0x0509 c fun n a p d => d.needBlock 9 n fun d => d.lpmFilter n a.fn p

/-- ECC_UNCORRECTABLE (R15). -/
def execEccUncorrectable (at_ : Ecc) (s : State) : Host.Outcome State Fault Refusal :=
  s.on fun d => d.eccError at_

end Sys2Proof.Machine
end

