-- ==== Sys2Proof/Machine/Trust.lean ====
section
/-!
DEFINITION. The meanings of the rows of boot, attestation, keys, cartouches and the random source (R427 to R447).
-/
namespace Sys2Proof.Machine

/-- BOOT (R430). -/
def execBoot (s : State) : Host.Outcome State Fault Refusal :=
  s.on fun d => d.boot.railEvents

/-- ATTEST (R437). -/
def execAttest (c : Cmd) (writeOk : Bool) (s : State) : Host.Outcome State Fault Refusal :=
  s.on fun d => d.vucel1 0x0E01 c fun n a p d => d.attest n a p writeOk

/-- KEYGEN_DONE (R438). -/
def execKeygenDone (s : State) : Host.Outcome State Fault Refusal :=
  s.on fun d => d.keygenDone

/-- SIGN_READY (R438). -/
def execSignReady (s : State) : Host.Outcome State Fault Refusal :=
  s.on fun d => d.signReady

/-- TOKEN_REFILL (R441). -/
def execTokenRefill (fn : Option Nat) (s : State) : Host.Outcome State Fault Refusal :=
  s.on fun d => d.tokenRefill fn

/-- CARTOUCHE_WRITE (R444). -/
def execCartoucheWrite (c : Cmd) (s : State) : Host.Outcome State Fault Refusal :=
  s.on fun d => d.vucel1 0x0E02 c fun n a p d => d.cartoucheWrite n a p

/-- FCARTOUCHE_WRITE (R444). -/
def execFcartoucheWrite (c : Cmd) (s : State) : Host.Outcome State Fault Refusal :=
  s.on fun d => d.vucel1 0x0E03 c fun n a p d => d.fcartoucheWrite n a p

/-- OWNER_KEY_SET (R432). -/
def execOwnerKeySet (c : Cmd) (s : State) : Host.Outcome State Fault Refusal :=
  s.on fun d => d.vucel1 0x0E04 c fun n _ p d => d.ownerKeySet n p

/-- MGMT_KEY_SET (R433). -/
def execMgmtKeySet (c : Cmd) (s : State) : Host.Outcome State Fault Refusal :=
  s.on fun d => d.vucel1 0x0E05 c fun n _ p d => d.mgmtKeySet n p

/-- TRNG_READ (R445). -/
def execTrngRead (c : Cmd) (s : State) : Host.Outcome State Fault Refusal :=
  s.on fun d => d.vucel1 0x0E06 c fun n _ p d => d.trngRead n p

/-- DRBG_RESEED (R445). -/
def execDrbgReseed (s : State) : Host.Outcome State Fault Refusal :=
  s.on fun d => d.drbgReseed

/-- TRNG_HEALTH_FAIL (R445). -/
def execTrngHealthFail (s : State) : Host.Outcome State Fault Refusal :=
  s.on fun d => d.trngHealthFail

/-- TRNG_RETEST (R445). -/
def execTrngRetest (pass : Bool) (s : State) : Host.Outcome State Fault Refusal :=
  s.on fun d => d.trngRetest pass

end Sys2Proof.Machine
end

