-- ==== Sys2Proof/Machine/Dispatch.lean ====
section
/-!
DEFINITION. One arm per command: each calls its meaning, or is refused by name where it has none yet.
-/
namespace Sys2Proof.Machine

def exec (i : Instr) (s : State) : Host.Outcome State Fault Refusal :=
  match i with
  | .frameReceive port bytes fcsOk => Sys2Proof.Machine.execFrameReceive port bytes fcsOk s
  | .fcRefresh port prio => Sys2Proof.Machine.execFcRefresh port prio s
  | .pauseExpiry port => Sys2Proof.Machine.execPauseExpiry port s
  | .pfcExpiry port prio => Sys2Proof.Machine.execPfcExpiry port prio s
  | .pauseWdogExpiry port prio => Sys2Proof.Machine.execPauseWdogExpiry port prio s
  | .wdogHoldoffEnd port prio => Sys2Proof.Machine.execWdogHoldoffEnd port prio s
  | .linkUp port phyOk => Sys2Proof.Machine.execLinkUp port phyOk s
  | .linkDown port => Sys2Proof.Machine.execLinkDown port s
  | .portEnable req p w => Sys2Proof.Machine.execPortEnable req p w s
  | .portDisable req p w => Sys2Proof.Machine.execPortDisable req p w s
  | .stepdownInterval port => Sys2Proof.Machine.execStepdownInterval port s
  | .stepdownAcceptTimeout port => Sys2Proof.Machine.execStepdownAcceptTimeout port s
  | .reorderTimeout func tx n => Sys2Proof.Machine.execReorderTimeout func tx n s
  | .legendMake frame => Sys2Proof.Machine.execLegendMake frame s
  | .dispatch region => Sys2Proof.Machine.execDispatch region s
  | .regionMsgDeliver region => Sys2Proof.Machine.execRegionMsgDeliver region s
  | .add t d a b sh => Sys2Proof.Machine.execAdd t d a b sh s
  | .sub t d a b sh => Sys2Proof.Machine.execSub t d a b sh s
  | .and t d a b sh => Sys2Proof.Machine.execAnd t d a b sh s
  | .or t d a b sh => Sys2Proof.Machine.execOr t d a b sh s
  | .xor t d a b sh => Sys2Proof.Machine.execXor t d a b sh s
  | .shl t d a b sh => Sys2Proof.Machine.execShl t d a b sh s
  | .shr t d a b sh => Sys2Proof.Machine.execShr t d a b sh s
  | .sar t d a b sh => Sys2Proof.Machine.execSar t d a b sh s
  | .slt t d a b sh => Sys2Proof.Machine.execSlt t d a b sh s
  | .sltu t d a b sh => Sys2Proof.Machine.execSltu t d a b sh s
  | .mul t d a b sh => Sys2Proof.Machine.execMul t d a b sh s
  | .minu t d a b sh => Sys2Proof.Machine.execMinu t d a b sh s
  | .maxu t d a b sh => Sys2Proof.Machine.execMaxu t d a b sh s
  | .ext t d a b sh => Sys2Proof.Machine.execExt t d a b sh s
  | .ins t d a b sh => Sys2Proof.Machine.execIns t d a b sh s
  | .crc t d a b sh => Sys2Proof.Machine.execCrc t d a b sh s
  | .bswap t d a b sh => Sys2Proof.Machine.execBswap t d a b sh s
  | .addi t d a imm => Sys2Proof.Machine.execAddi t d a imm s
  | .andi t d a imm => Sys2Proof.Machine.execAndi t d a imm s
  | .ori t d a imm => Sys2Proof.Machine.execOri t d a imm s
  | .xori t d a imm => Sys2Proof.Machine.execXori t d a imm s
  | .lui t d a imm => Sys2Proof.Machine.execLui t d a imm s
  | .slti t d a imm => Sys2Proof.Machine.execSlti t d a imm s
  | .br t cnd a b off => Sys2Proof.Machine.execBr t cnd a b off s
  | .jmp t rsv target => Sys2Proof.Machine.execJmp t rsv target s
  | .call t rsv target => Sys2Proof.Machine.execCall t rsv target s
  | .ret t rsv target => Sys2Proof.Machine.execRet t rsv target s
  | .jclass t rsv target => Sys2Proof.Machine.execJclass t rsv target s
  | .jr t a rsv => Sys2Proof.Machine.execJr t a rsv s
  | .loop t count body rsv => Sys2Proof.Machine.execLoop t count body rsv s
  | .pw t d a w sz rsv off => Sys2Proof.Machine.execPw t d a w sz rsv off s
  | .lg t d w word lsb wm1 rsv => Sys2Proof.Machine.execLg t d w word lsb wm1 rsv s
  | .sc t d a w sz off => Sys2Proof.Machine.execSc t d a w sz off s
  | .buf t d a w sz off => Sys2Proof.Machine.execBuf t d a w sz off s
  | .lookupExact t slot table keyq pre rsv => Sys2Proof.Machine.execLookupExact t slot table keyq pre rsv s
  | .lookupLpm4 t slot table keyq pre rsv => Sys2Proof.Machine.execLookupLpm4 t slot table keyq pre rsv s
  | .lookupLpm6 t slot table keyq pre rsv => Sys2Proof.Machine.execLookupLpm6 t slot table keyq pre rsv s
  | .classify t slot table keyq pre rsv => Sys2Proof.Machine.execClassify t slot table keyq pre rsv s
  | .lookupPrefetch t slot kind table keyq rsv => Sys2Proof.Machine.execLookupPrefetch t slot kind table keyq rsv s
  | .ldres t d slot part rsv => Sys2Proof.Machine.execLdres t d slot part rsv s
  | .reserve t ch d rv st rsv => Sys2Proof.Machine.execReserve t ch d rv st rsv s
  | .write t ch d rv st rsv => Sys2Proof.Machine.execWrite t ch d rv st rsv s
  | .commit t ch d rv st rsv => Sys2Proof.Machine.execCommit t ch d rv st rsv s
  | .read t ch d rv st rsv => Sys2Proof.Machine.execRead t ch d rv st rsv s
  | .wait t d a rsv => Sys2Proof.Machine.execWait t d a rsv s
  | .signal t cluster thread ev rsv => Sys2Proof.Machine.execSignal t cluster thread ev rsv s
  | .timer t a rsv => Sys2Proof.Machine.execTimer t a rsv s
  | .time t d rsv => Sys2Proof.Machine.execTime t d rsv s
  | .libcall t entry rsv => Sys2Proof.Machine.execLibcall t entry rsv s
  | .emit t reason rsv => Sys2Proof.Machine.execEmit t reason rsv s
  | .drop t reason rsv => Sys2Proof.Machine.execDrop t reason rsv s
  | .recirc t reason rsv => Sys2Proof.Machine.execRecirc t reason rsv s
  | .slow t reason rsv => Sys2Proof.Machine.execSlow t reason rsv s
  | .brk t rsv => Sys2Proof.Machine.execBrk t rsv s
  | .tableLookup r => Sys2Proof.Machine.execTableLookup r s
  | .lookupReply r => Sys2Proof.Machine.execLookupReply r s
  | .classifyReply r => Sys2Proof.Machine.execClassifyReply r s
  | .threadTimerExpiry t => Sys2Proof.Machine.execThreadTimerExpiry t s
  | .closedWaitDetect core => Sys2Proof.Machine.execClosedWaitDetect core s
  | .halt req t => Sys2Proof.Machine.execHalt req t s
  | .resume req t => Sys2Proof.Machine.execResume req t s
  | .step req t => Sys2Proof.Machine.execStep req t s
  | .abandon req t => Sys2Proof.Machine.execAbandon req t s
  | .poke req t => Sys2Proof.Machine.execPoke req t s
  | .dbgThreadGregWrite req k w => Sys2Proof.Machine.execDbgThreadGregWrite req k w s
  | .dbgThreadPcWrite req w => Sys2Proof.Machine.execDbgThreadPcWrite req w s
  | .haltFrameTimeout t => Sys2Proof.Machine.execHaltFrameTimeout t s
  | .threadEnableWrite req t w => Sys2Proof.Machine.execThreadEnableWrite req t w s
  | .channelDisable req n w => Sys2Proof.Machine.execChannelDisable req n w s
  | .insetLoad c obj => Sys2Proof.Machine.execInsetLoad c obj s
  | .insetBind c => Sys2Proof.Machine.execInsetBind c s
  | .insetUnload c => Sys2Proof.Machine.execInsetUnload c s
  | .insetCommitApply f region => Sys2Proof.Machine.execInsetCommitApply f region s
  | .insetDrainEnd f => Sys2Proof.Machine.execInsetDrainEnd f s
  | .sheetOpen c => Sys2Proof.Machine.execSheetOpen c s
  | .sheetOpenTimeout f => Sys2Proof.Machine.execSheetOpenTimeout f s
  | .sheetProfile c => Sys2Proof.Machine.execSheetProfile c s
  | .sheetDefault c => Sys2Proof.Machine.execSheetDefault c s
  | .ruleAdd c => Sys2Proof.Machine.execRuleAdd c s
  | .ruleDel c => Sys2Proof.Machine.execRuleDel c s
  | .sheetSwap c => Sys2Proof.Machine.execSheetSwap c s
  | .sheetSwapCommit f => Sys2Proof.Machine.execSheetSwapCommit f s
  | .sheetDiscard c => Sys2Proof.Machine.execSheetDiscard c s
  | .sheetRelease f => Sys2Proof.Machine.execSheetRelease f s
  | .learnApply => Sys2Proof.Machine.execLearnApply s
  | .ageRefresh => Sys2Proof.Machine.execAgeRefresh s
  | .scanPassStart => Sys2Proof.Machine.execScanPassStart s
  | .scanVisit => Sys2Proof.Machine.execScanVisit s
  | .tableCreate c => Sys2Proof.Machine.execTableCreate c s
  | .tableClearDone table => Sys2Proof.Machine.execTableClearDone table s
  | .tableEnable req table w => Sys2Proof.Machine.execTableEnable req table w s
  | .tableDisable req table w => Sys2Proof.Machine.execTableDisable req table w s
  | .tableEngineEnable req w => Sys2Proof.Machine.execTableEngineEnable req w s
  | .tableEngineDisable req w => Sys2Proof.Machine.execTableEngineDisable req w s
  | .tableGrant c => Sys2Proof.Machine.execTableGrant c s
  | .entryWrite c => Sys2Proof.Machine.execEntryWrite c s
  | .entryDelete c => Sys2Proof.Machine.execEntryDelete c s
  | .entryRead c => Sys2Proof.Machine.execEntryRead c s
  | .tableFlush c => Sys2Proof.Machine.execTableFlush c s
  | .lpmAdd c => Sys2Proof.Machine.execLpmAdd c s
  | .lpmDel c => Sys2Proof.Machine.execLpmDel c s
  | .lpmFilter c => Sys2Proof.Machine.execLpmFilter c s
  | .eccUncorrectable at_ => Sys2Proof.Machine.execEccUncorrectable at_ s
  | .switchFrame frame => Sys2Proof.Machine.execSwitchFrame frame s
  | .vlanSet c => Sys2Proof.Machine.execVlanSet c s
  | .vlanDel c => Sys2Proof.Machine.execVlanDel c s
  | .groupSet c => Sys2Proof.Machine.execGroupSet c s
  | .groupDel c => Sys2Proof.Machine.execGroupDel c s
  | .tunnelSet c => Sys2Proof.Machine.execTunnelSet c s
  | .tunnelDel c => Sys2Proof.Machine.execTunnelDel c s
  | .switchDrainReply cmd => Sys2Proof.Machine.execSwitchDrainReply cmd s
  | .vrfSet c => Sys2Proof.Machine.execVrfSet c s
  | .cipherAdmit core => Sys2Proof.Machine.execCipherAdmit core s
  | .cipherOpComplete core => Sys2Proof.Machine.execCipherOpComplete core s
  | .macsecRxTimeout frame => Sys2Proof.Machine.execMacsecRxTimeout frame s
  | .tlsZeroReadDone record ok => Sys2Proof.Machine.execTlsZeroReadDone record ok s
  | .coreReseed core => Sys2Proof.Machine.execCoreReseed core s
  | .keyGrant c => Sys2Proof.Machine.execKeyGrant c s
  | .keyWrite c => Sys2Proof.Machine.execKeyWrite c s
  | .keyErase c => Sys2Proof.Machine.execKeyErase c s
  | .keyEraseDone slot => Sys2Proof.Machine.execKeyEraseDone slot s
  | .keyState c => Sys2Proof.Machine.execKeyState c s
  | .macsecPortSet c => Sys2Proof.Machine.execMacsecPortSet c s
  | .macsecRxscSet c => Sys2Proof.Machine.execMacsecRxscSet c s
  | .macsecTxSwitch c => Sys2Proof.Machine.execMacsecTxSwitch c s
  | .tmFrameAdmit frame => Sys2Proof.Machine.execTmFrameAdmit frame s
  | .cbResetTimeout stream => Sys2Proof.Machine.execCbResetTimeout stream s
  | .schedulerSelect port => Sys2Proof.Machine.execSchedulerSelect port s
  | .reseqTimeout port => Sys2Proof.Machine.execReseqTimeout port s
  | .frameLaunch port => Sys2Proof.Machine.execFrameLaunch port s
  | .residencyDiscard copy => Sys2Proof.Machine.execResidencyDiscard copy s
  | .gateEntryChange port => Sys2Proof.Machine.execGateEntryChange port s
  | .gateListStart port => Sys2Proof.Machine.execGateListStart port s
  | .gateSet c => Sys2Proof.Machine.execGateSet c s
  | .filterSet c => Sys2Proof.Machine.execFilterSet c s
  | .filterStats c => Sys2Proof.Machine.execFilterStats c s
  | .meterSet c => Sys2Proof.Machine.execMeterSet c s
  | .cbSet c => Sys2Proof.Machine.execCbSet c s
  | .cbStats c => Sys2Proof.Machine.execCbStats c s
  | .shaperEnable req n w => Sys2Proof.Machine.execShaperEnable req n w s
  | .shaperDisable req n w => Sys2Proof.Machine.execShaperDisable req n w s
  | .tmgGateStatRead req p => Sys2Proof.Machine.execTmgGateStatRead req p s
  | .bufferRequest r => Sys2Proof.Machine.execBufferRequest r s
  | .bufferStampDecide pool => Sys2Proof.Machine.execBufferStampDecide pool s
  | .bufferFree party handle => Sys2Proof.Machine.execBufferFree party handle s
  | .descriptorFetch qp rx entry desc => Sys2Proof.Machine.execDescriptorFetch qp rx entry desc s
  | .dmaBurstIssue write => Sys2Proof.Machine.execDmaBurstIssue write s
  | .dmaReadCompletion burst data => Sys2Proof.Machine.execDmaReadCompletion burst data s
  | .hostReadError what => Sys2Proof.Machine.execHostReadError what s
  | .lgReadTime ctx => Sys2Proof.Machine.execLgReadTime ctx s
  | .lgDeadline ctx => Sys2Proof.Machine.execLgDeadline ctx s
  | .lgEvlogTimeout ctx => Sys2Proof.Machine.execLgEvlogTimeout ctx s
  | .rxCopyPlace copy => Sys2Proof.Machine.execRxCopyPlace copy s
  | .irqHoldoffEnd qp rx => Sys2Proof.Machine.execIrqHoldoffEnd qp rx s
  | .msixVectorUnmask f vec w => Sys2Proof.Machine.execMsixVectorUnmask f vec w s
  | .dmaWindowSet c => Sys2Proof.Machine.execDmaWindowSet c s
  | .txDoorbell req f n w => Sys2Proof.Machine.execTxDoorbell req f n w s
  | .rxDoorbell req f n w => Sys2Proof.Machine.execRxDoorbell req f n w s
  | .txcHeadWrite req f n w => Sys2Proof.Machine.execTxcHeadWrite req f n w s
  | .rxcHeadWrite req f n w => Sys2Proof.Machine.execRxcHeadWrite req f n w s
  | .aqDoorbell req f w => Sys2Proof.Machine.execAqDoorbell req f w s
  | .aqcHeadWrite req f w => Sys2Proof.Machine.execAqcHeadWrite req f w s
  | .qpEnable req f n w => Sys2Proof.Machine.execQpEnable req f n w s
  | .qpDisable req f n w => Sys2Proof.Machine.execQpDisable req f n w s
  | .aqEnable req f w => Sys2Proof.Machine.execAqEnable req f w s
  | .qpAssign c => Sys2Proof.Machine.execQpAssign c s
  | .funcPrivSet c => Sys2Proof.Machine.execFuncPrivSet c s
  | .flr f => Sys2Proof.Machine.execFlr f s
  | .vfEnableSet pf => Sys2Proof.Machine.execVfEnableSet pf s
  | .vfEnableClear pf => Sys2Proof.Machine.execVfEnableClear pf s
  | .numvfsWrite pf n => Sys2Proof.Machine.execNumvfsWrite pf n s
  | .pcieLinkDown link => Sys2Proof.Machine.execPcieLinkDown link s
  | .perst1N => Sys2Proof.Machine.execPerst1N s
  | .perst0N => Sys2Proof.Machine.execPerst0N s
  | .d3hotEnter f => Sys2Proof.Machine.execD3hotEnter f s
  | .d0Enter f => Sys2Proof.Machine.execD0Enter f s
  | .atsInvalidation f tag page => Sys2Proof.Machine.execAtsInvalidation f tag page s
  | .atsInvalComplete f tag => Sys2Proof.Machine.execAtsInvalComplete f tag s
  | .stoConnOffload c => Sys2Proof.Machine.execStoConnOffload c s
  | .stoConnReturn c => Sys2Proof.Machine.execStoConnReturn c s
  | .stoReturnTimeout conn => Sys2Proof.Machine.execStoReturnTimeout conn s
  | .stoConnResume c => Sys2Proof.Machine.execStoConnResume c s
  | .stoConnRekey c => Sys2Proof.Machine.execStoConnRekey c s
  | .stoConnState c => Sys2Proof.Machine.execStoConnState c s
  | .stoCmdFetch qp entry desc => Sys2Proof.Machine.execStoCmdFetch qp entry desc s
  | .stoSegmentRx copy => Sys2Proof.Machine.execStoSegmentRx copy s
  | .stoSegmentTx conn => Sys2Proof.Machine.execStoSegmentTx conn s
  | .pduCapsuleResp conn => Sys2Proof.Machine.execPduCapsuleResp conn s
  | .pduC2hData conn => Sys2Proof.Machine.execPduC2hData conn s
  | .pduR2t conn => Sys2Proof.Machine.execPduR2t conn s
  | .pduC2hTermReq conn => Sys2Proof.Machine.execPduC2hTermReq conn s
  | .stoRtoExpiry conn => Sys2Proof.Machine.execStoRtoExpiry conn s
  | .stoAckTimer conn => Sys2Proof.Machine.execStoAckTimer conn s
  | .stoBufferRetry conn => Sys2Proof.Machine.execStoBufferRetry conn s
  | .funcReset c => Sys2Proof.Machine.execFuncReset c s
  | .funcResetDrainEnd f => Sys2Proof.Machine.execFuncResetDrainEnd f s
  | .funcFreeze c => Sys2Proof.Machine.execFuncFreeze c s
  | .freezeDrainEnd f => Sys2Proof.Machine.execFreezeDrainEnd f s
  | .funcSave c => Sys2Proof.Machine.execFuncSave c s
  | .funcRestore c image => Sys2Proof.Machine.execFuncRestore c image s
  | .funcThaw c => Sys2Proof.Machine.execFuncThaw c s
  | .migDomainSet c => Sys2Proof.Machine.execMigDomainSet c s
  | .nop c => Sys2Proof.Machine.execNop c s
  | .devInfo c => Sys2Proof.Machine.execDevInfo c s
  | .fwStage c piece => Sys2Proof.Machine.execFwStage c piece s
  | .fwActivate c => Sys2Proof.Machine.execFwActivate c s
  | .fwSwitchTimeout => Sys2Proof.Machine.execFwSwitchTimeout s
  | .fwSwitchComplete => Sys2Proof.Machine.execFwSwitchComplete s
  | .fwState c => Sys2Proof.Machine.execFwState c s
  | .devReset c => Sys2Proof.Machine.execDevReset c s
  | .timeRate c => Sys2Proof.Machine.execTimeRate c s
  | .timeSlew c => Sys2Proof.Machine.execTimeSlew c s
  | .slewEnd => Sys2Proof.Machine.execSlewEnd s
  | .timeStep c => Sys2Proof.Machine.execTimeStep c s
  | .stepEnd => Sys2Proof.Machine.execStepEnd s
  | .timeLoad c => Sys2Proof.Machine.execTimeLoad c s
  | .merLoadWrite req n w => Sys2Proof.Machine.execMerLoadWrite req n w s
  | .meridianEnable req w => Sys2Proof.Machine.execMeridianEnable req w s
  | .meridianDisable req w => Sys2Proof.Machine.execMeridianDisable req w s
  | .merNowRead req => Sys2Proof.Machine.execMerNowRead req s
  | .merRateAdjRead req => Sys2Proof.Machine.execMerRateAdjRead req s
  | .merTioStampRead req pin => Sys2Proof.Machine.execMerTioStampRead req pin s
  | .refLost => Sys2Proof.Machine.execRefLost s
  | .timeIoEdge pin rising => Sys2Proof.Machine.execTimeIoEdge pin rising s
  | .tioOutputEdge pin => Sys2Proof.Machine.execTioOutputEdge pin s
  | .tioPulseEnd pin => Sys2Proof.Machine.execTioPulseEnd pin s
  | .logbookEnable req w => Sys2Proof.Machine.execLogbookEnable req w s
  | .fncGenRecRead req f => Sys2Proof.Machine.execFncGenRecRead req f s
  | .slowVerdict c => Sys2Proof.Machine.execSlowVerdict c s
  | .slowHoldExpiry handle => Sys2Proof.Machine.execSlowHoldExpiry handle s
  | .mbxSend req f => Sys2Proof.Machine.execMbxSend req f s
  | .mbxPost req f w => Sys2Proof.Machine.execMbxPost req f w s
  | .postDeliver sender receiver => Sys2Proof.Machine.execPostDeliver sender receiver s
  | .mbxRing req f w => Sys2Proof.Machine.execMbxRing req f w s
  | .mbxRxPop req f w => Sys2Proof.Machine.execMbxRxPop req f w s
  | .mbxRxStampRead req f => Sys2Proof.Machine.execMbxRxStampRead req f s
  | .smbBlockWrite bytes pecOk => Sys2Proof.Machine.execSmbBlockWrite bytes pecOk s
  | .smbBlockRead => Sys2Proof.Machine.execSmbBlockRead s
  | .mgmtFrameRx frame => Sys2Proof.Machine.execMgmtFrameRx frame s
  | .portSet c => Sys2Proof.Machine.execPortSet c s
  | .portState c => Sys2Proof.Machine.execPortState c s
  | .faultSet c => Sys2Proof.Machine.execFaultSet c s
  | .stepdownSet c => Sys2Proof.Machine.execStepdownSet c s
  | .pauseWdogSet c => Sys2Proof.Machine.execPauseWdogSet c s
  | .contourSet c => Sys2Proof.Machine.execContourSet c s
  | .contourLeadSet c => Sys2Proof.Machine.execContourLeadSet c s
  | .pwrStateSet c => Sys2Proof.Machine.execPwrStateSet c s
  | .islandPower c => Sys2Proof.Machine.execIslandPower c s
  | .pwrStatus c => Sys2Proof.Machine.execPwrStatus c s
  | .contourRaise port => Sys2Proof.Machine.execContourRaise port s
  | .contourRelease port => Sys2Proof.Machine.execContourRelease port s
  | .contourConfirm b => Sys2Proof.Machine.execContourConfirm b s
  | .loadDemandUp b pct => Sys2Proof.Machine.execLoadDemandUp b pct s
  | .loadDemandDown b pct => Sys2Proof.Machine.execLoadDemandDown b pct s
  | .paceLow b pace => Sys2Proof.Machine.execPaceLow b pace s
  | .regionReloadEnd region => Sys2Proof.Machine.execRegionReloadEnd region s
  | .railWarn rail mv => Sys2Proof.Machine.execRailWarn rail mv s
  | .railWarnClear rail mv => Sys2Proof.Machine.execRailWarnClear rail mv s
  | .railReset rail mv => Sys2Proof.Machine.execRailReset rail mv s
  | .dieHot die temp => Sys2Proof.Machine.execDieHot die temp s
  | .dieHotClear die temp => Sys2Proof.Machine.execDieHotClear die temp s
  | .thermalTrip die temp => Sys2Proof.Machine.execThermalTrip die temp s
  | .resetNAssert => Sys2Proof.Machine.execResetNAssert s
  | .resetNRise => Sys2Proof.Machine.execResetNRise s
  | .boot => Sys2Proof.Machine.execBoot s
  | .debugReset req w => Sys2Proof.Machine.execDebugReset req w s
  | .debugResetDone => Sys2Proof.Machine.execDebugResetDone s
  | .attest c writeOk => Sys2Proof.Machine.execAttest c writeOk s
  | .keygenDone => Sys2Proof.Machine.execKeygenDone s
  | .signReady => Sys2Proof.Machine.execSignReady s
  | .tokenRefill fn => Sys2Proof.Machine.execTokenRefill fn s
  | .cartoucheWrite c => Sys2Proof.Machine.execCartoucheWrite c s
  | .fcartoucheWrite c => Sys2Proof.Machine.execFcartoucheWrite c s
  | .ownerKeySet c => Sys2Proof.Machine.execOwnerKeySet c s
  | .mgmtKeySet c => Sys2Proof.Machine.execMgmtKeySet c s
  | .trngRead c => Sys2Proof.Machine.execTrngRead c s
  | .drbgReseed => Sys2Proof.Machine.execDrbgReseed s
  | .trngHealthFail => Sys2Proof.Machine.execTrngHealthFail s
  | .trngRetest pass => Sys2Proof.Machine.execTrngRetest pass s
  | .registerWrite req loc size v => Sys2Proof.Machine.execRegisterWrite req loc size v s
  | .referenceClockReturn => Sys2Proof.Machine.execReferenceClockReturn s
  | .thermalTripEnd => Sys2Proof.Machine.execThermalTripEnd s
  | .pcieLinkUp link rate width => Sys2Proof.Machine.execPcieLinkUp link rate width s
  | .atsTranslationCompletion f page granted => Sys2Proof.Machine.execAtsTranslationCompletion f page granted s
  | .regionStoreDone t => Sys2Proof.Machine.execRegionStoreDone t s
  | .bufferReply t => Sys2Proof.Machine.execBufferReply t s
  | .registerRead req loc size => Sys2Proof.Machine.execRegisterRead req loc size s
  | .frameTxEnd port => Sys2Proof.Machine.execFrameTxEnd port s
  | .preemptableHold port => Sys2Proof.Machine.execPreemptableHold port s
  | .blockResetEnd b => Sys2Proof.Machine.execBlockResetEnd b s

end Sys2Proof.Machine
end

