-- ==== Sys2Proof/Machine/Idle.lean ====
section
/-!
DEFINITION. What the device does when no command waits: one 2 ns cycle of the reference clock passes (log entry 1).
-/
namespace Sys2Proof.Machine

/-- One cycle with no command: the Meridian advances (R29) and every shaper's credit moves (R215); a device held in reset
does nothing. Everything else that time brings about is a row of the table. -/
def Dev.idle (d : Dev) : Dev := if d.inReset then d else d.tick.shapersCycle

end Sys2Proof.Machine
end

