-- ==== Sys2Proof/WellFormed.lean ====
section
/-!
DEFINITION. Which commands are well formed: every operand names something the device can have (the ranges of the manual's
registers and numbers). The meanings are total: a term outside these ranges names nothing and finds nothing.
-/
namespace Sys2Proof

/-- A function number (R7): PF0 to PF3 and their virtual functions. -/
def fnOk (f : Nat) : Bool := decide (f < 1024)
/-- A physical function (R286). -/
def pfOk (f : Nat) : Bool := decide (f < 4)
/-- A failed read names a burst, or a physical function (R289). -/
def readOk : FailedRead → Bool
  | .burst _ => true
  | .admin pf => pfOk pf
/-- A port (R358). -/
def portOk (p : Nat) : Bool := decide (p < 18)
/-- A priority (R368). -/
def prioOk (p : Nat) : Bool := decide (p < 8)
/-- A region (R61). -/
def regionOk (r : Nat) : Bool := decide (r < 4)
/-- A thread: 128 cores of 4 (R61). -/
def threadOk (t : Nat) : Bool := decide (t < 512)
/-- A packet core. -/
def coreOk (c : Nat) : Bool := decide (c < 128)
/-- A cipher core (R181). -/
def cipherCoreOk (c : Nat) : Bool := decide (c < 12)
/-- A channel: 8 of each of 16 clusters (R76). -/
def channelOk (n : Nat) : Bool := decide (n < 128)
/-- A general register of a thread. -/
def gregOk (i : Nat) : Bool := decide (i < 32)
/-- A lookup table of the table engine. -/
def tableOk (t : Nat) : Bool := decide (t < 64)
/-- A key slot (R188). -/
def keySlotOk (k : Nat) : Bool := decide (k < 16384)
/-- An 802.1CB stream. -/
def streamOk (k : Nat) : Bool := decide (k < 4096)
/-- A shaper, by queue (R215). -/
def shaperOk (n : Nat) : Bool := decide (n < 8192)
/-- A party of the buffer pool manager (R237). -/
def partyOk (n : Nat) : Bool := decide (n < 128)
/-- A buffer pool (R235). -/
def poolOk (n : Nat) : Bool := decide (n < 4)
/-- A queue pair of the device (R295). -/
def qpOk (n : Nat) : Bool := decide (n < 16384)
/-- A queue pair as a function's page numbers it. -/
def localQpOk (n : Nat) : Bool := decide (n < 64)
/-- A storage connection (R268). -/
def connOk (n : Nat) : Bool := decide (n < 16384)
/-- A late-gather context (R251). -/
def ctxOk (n : Nat) : Bool := decide (n < 1024)
/-- An MSI-X vector (R286). -/
def vecOk (n : Nat) : Bool := decide (n < 2048)
/-- A PCIe link (R285). -/
def linkOk (n : Nat) : Bool := decide (n < 2)
/-- A rate code of HIF_LINK_STAT, 2.5 to 32 GT/s. -/
def rateOk (n : Nat) : Bool := decide (1 ≤ n) && decide (n ≤ 5)
/-- A number of lanes. -/
def widthOk (n : Nat) : Bool := decide (1 ≤ n) && decide (n ≤ 16)
/-- A value of NumVFs. -/
def numVfsOk (n : Nat) : Bool := decide (n < 65536)
/-- An invalidation tag of ATS. -/
def tagOk (n : Nat) : Bool := decide (n < 32)
/-- A page number of ATS: 4 KiB pages of a 64-bit address. -/
def pageOk (n : Nat) : Bool := decide (n < 2 ^ 52)
/-- A time pin (R41). -/
def pinOk (n : Nat) : Bool := decide (n < 4)
/-- A word of a three-word stamp register (R30). -/
def stampWordOk (n : Nat) : Bool := decide (n < 3)
/-- A block of R320. -/
def blockOk (b : Nat) : Bool := decide (b < 25)
/-- An island with a pace monitor and a load demand (R395, R396). -/
def islandOk (b : Nat) : Bool := decide (b < 24)
/-- A rail (R386). -/
def railOk (r : Nat) : Bool := decide (r < 7)
/-- A rail's voltage in mV, in the width of PWR_RAIL_STAT. -/
def milliOk (mv : Nat) : Bool := decide (mv < 65536)
/-- A die (R391). -/
def dieOk (n : Nat) : Bool := decide (n < 4)
/-- A temperature in 1/16 °C, in the width of PWR_TEMP. -/
def tempOk (t : Int) : Bool := decide (-32768 ≤ t) && decide (t ≤ 32767)
/-- A percentage. -/
def pctOk (n : Nat) : Bool := decide (n ≤ 100)
/-- A value of PACE (R395). -/
def paceOk (n : Nat) : Bool := decide (n < 65536)
/-- A REORDER injector: of a function or of a port (R379). -/
def injectorOk (func : Bool) (n : Nat) : Bool := bif func then fnOk n else portOk n
/-- A requester: a host asks through a function (R412). -/
def reqOk : Requester → Bool
  | .host f => fnOk f
  | .core => true
  | .jtag => true
/-- A location: an offset in the 64 MiB of the device registers, in a 64 KiB page or in an MSI-X BAR (R410, R412, R293). -/
def locOk : Loc → Bool
  | .dev off => decide (off < 2 ^ 26)
  | .page f off => fnOk f && decide (off < 2 ^ 16)
  | .msix f off => fnOk f && decide (off < 2 ^ 16)
/-- The size of a register access in bytes. -/
def sizeOk (n : Nat) : Bool := decide (n = 4) || decide (n = 8)
/-- A 4-byte access carries 32 bits. -/
def valueOk (size : Nat) (v : BitVec 64) : Bool := decide (size = 8) || decide (v.toNat < 2 ^ 32)
/-- A place of an SRAM error (R15). -/
def eccOk : Ecc → Bool
  | .frame _ => true
  | .bucket _ => true
  | .engine b => blockOk b
  | .corrected die => decide (die < 4)
  | .mram a => a % 8 == 0 && decide (a < 0x400000)
  | .mramCorrected a => a % 8 == 0 && decide (a < 0x400000)
/-- A Vucel command as its carrier holds it: an issuer, no more bytes than a carrier can hold (LENGTH has 16 bits), and an entry of
an administration ring of at most 32 bytes (R330, R331, R306). A packet shorter than its header is a command too: it is answered
BAD_LENGTH (R333). -/
def cmdOk (c : Cmd) : Bool := fnOk c.issuer && decide (c.packet.length ≤ 32 + 65535) && decide (c.entry.length ≤ 32)
/-- A frame on a line has at least one byte. -/
def frameOk (bs : Bytes) : Bool := !bs.isEmpty
/-- An SMBus block is at most 255 bytes. -/
def smbOk (bs : Bytes) : Bool := decide (bs.length ≤ 255)
/-- A ring entry as read: 16 bytes in Ethernet mode (R298), 128 in storage mode (R273). -/
def entryOk (n : Nat) (bs : Option Bytes) : Bool := bs.all fun b => decide (b.length = n)
/-- A descriptor that was read has its header of 16 bytes at least (R246). -/
def descOk (bs : Option Bytes) : Bool := bs.all fun b => decide (16 ≤ b.length)

/-- Every operand is in its range. -/
def Instr.wf : Instr → Bool
  | .frameReceive port bytes _ => portOk port && frameOk bytes
  | .fcRefresh port prio => portOk port && prioOk prio
  | .pauseExpiry port => portOk port
  | .pfcExpiry port prio => portOk port && prioOk prio
  | .pauseWdogExpiry port prio => portOk port && prioOk prio
  | .wdogHoldoffEnd port prio => portOk port && prioOk prio
  | .linkUp port _ => portOk port
  | .linkDown port => portOk port
  | .portEnable req p _ => reqOk req && portOk p
  | .portDisable req p _ => reqOk req && portOk p
  | .stepdownInterval port => portOk port
  | .stepdownAcceptTimeout port => portOk port
  | .reorderTimeout func _ n => injectorOk func n
  | .legendMake _ => true
  | .dispatch region => regionOk region
  | .regionMsgDeliver region => regionOk region
  | .add t _ _ _ _ => threadOk t
  | .sub t _ _ _ _ => threadOk t
  | .and t _ _ _ _ => threadOk t
  | .or t _ _ _ _ => threadOk t
  | .xor t _ _ _ _ => threadOk t
  | .shl t _ _ _ _ => threadOk t
  | .shr t _ _ _ _ => threadOk t
  | .sar t _ _ _ _ => threadOk t
  | .slt t _ _ _ _ => threadOk t
  | .sltu t _ _ _ _ => threadOk t
  | .mul t _ _ _ _ => threadOk t
  | .minu t _ _ _ _ => threadOk t
  | .maxu t _ _ _ _ => threadOk t
  | .ext t _ _ _ _ => threadOk t
  | .ins t _ _ _ _ => threadOk t
  | .crc t _ _ _ _ => threadOk t
  | .bswap t _ _ _ _ => threadOk t
  | .addi t _ _ _ => threadOk t
  | .andi t _ _ _ => threadOk t
  | .ori t _ _ _ => threadOk t
  | .xori t _ _ _ => threadOk t
  | .lui t _ _ _ => threadOk t
  | .slti t _ _ _ => threadOk t
  | .br t _ _ _ _ => threadOk t
  | .jmp t _ _ => threadOk t
  | .call t _ _ => threadOk t
  | .ret t _ _ => threadOk t
  | .jclass t _ _ => threadOk t
  | .jr t _ _ => threadOk t
  | .loop t _ _ _ => threadOk t
  | .pw t _ _ _ _ _ _ => threadOk t
  | .lg t _ _ _ _ _ _ => threadOk t
  | .sc t _ _ _ _ _ => threadOk t
  | .buf t _ _ _ _ _ => threadOk t
  | .lookupExact t _ _ _ _ _ => threadOk t
  | .lookupLpm4 t _ _ _ _ _ => threadOk t
  | .lookupLpm6 t _ _ _ _ _ => threadOk t
  | .classify t _ _ _ _ _ => threadOk t
  | .lookupPrefetch t _ _ _ _ _ => threadOk t
  | .ldres t _ _ _ _ => threadOk t
  | .reserve t _ _ _ _ _ => threadOk t
  | .write t _ _ _ _ _ => threadOk t
  | .commit t _ _ _ _ _ => threadOk t
  | .read t _ _ _ _ _ => threadOk t
  | .wait t _ _ _ => threadOk t
  | .signal t _ _ _ _ => threadOk t
  | .timer t _ _ => threadOk t
  | .time t _ _ => threadOk t
  | .libcall t _ _ => threadOk t
  | .emit t _ _ => threadOk t
  | .drop t _ _ => threadOk t
  | .recirc t _ _ => threadOk t
  | .slow t _ _ => threadOk t
  | .brk t _ => threadOk t
  | .tableLookup _ => true
  | .lookupReply _ => true
  | .classifyReply _ => true
  | .threadTimerExpiry t => threadOk t
  | .closedWaitDetect core => coreOk core
  | .halt req t => reqOk req && threadOk t
  | .resume req t => reqOk req && threadOk t
  | .step req t => reqOk req && threadOk t
  | .abandon req t => reqOk req && threadOk t
  | .poke req t => reqOk req && threadOk t
  | .dbgThreadGregWrite req k _ => reqOk req && gregOk k
  | .dbgThreadPcWrite req _ => reqOk req
  | .haltFrameTimeout t => threadOk t
  | .threadEnableWrite req t _ => reqOk req && threadOk t
  | .channelDisable req n _ => reqOk req && channelOk n
  | .insetLoad c _ => cmdOk c
  | .insetBind c => cmdOk c
  | .insetUnload c => cmdOk c
  | .insetCommitApply f region => fnOk f && regionOk region
  | .insetDrainEnd f => fnOk f
  | .sheetOpen c => cmdOk c
  | .sheetOpenTimeout f => fnOk f
  | .sheetProfile c => cmdOk c
  | .sheetDefault c => cmdOk c
  | .ruleAdd c => cmdOk c
  | .ruleDel c => cmdOk c
  | .sheetSwap c => cmdOk c
  | .sheetSwapCommit f => fnOk f
  | .sheetDiscard c => cmdOk c
  | .sheetRelease f => fnOk f
  | .learnApply => true
  | .ageRefresh => true
  | .scanPassStart => true
  | .scanVisit => true
  | .tableCreate c => cmdOk c
  | .tableClearDone table => tableOk table
  | .tableEnable req table _ => reqOk req && tableOk table
  | .tableDisable req table _ => reqOk req && tableOk table
  | .tableEngineEnable req _ => reqOk req
  | .tableEngineDisable req _ => reqOk req
  | .tableGrant c => cmdOk c
  | .entryWrite c => cmdOk c
  | .entryDelete c => cmdOk c
  | .entryRead c => cmdOk c
  | .tableFlush c => cmdOk c
  | .lpmAdd c => cmdOk c
  | .lpmDel c => cmdOk c
  | .lpmFilter c => cmdOk c
  | .eccUncorrectable at_ => eccOk at_
  | .switchFrame _ => true
  | .vlanSet c => cmdOk c
  | .vlanDel c => cmdOk c
  | .groupSet c => cmdOk c
  | .groupDel c => cmdOk c
  | .tunnelSet c => cmdOk c
  | .tunnelDel c => cmdOk c
  | .switchDrainReply _ => true
  | .vrfSet c => cmdOk c
  | .cipherAdmit core => cipherCoreOk core
  | .cipherOpComplete core => cipherCoreOk core
  | .macsecRxTimeout _ => true
  | .tlsZeroReadDone _ _ => true
  | .coreReseed core => cipherCoreOk core
  | .keyGrant c => cmdOk c
  | .keyWrite c => cmdOk c
  | .keyErase c => cmdOk c
  | .keyEraseDone slot => keySlotOk slot
  | .keyState c => cmdOk c
  | .macsecPortSet c => cmdOk c
  | .macsecRxscSet c => cmdOk c
  | .macsecTxSwitch c => cmdOk c
  | .tmFrameAdmit _ => true
  | .cbResetTimeout stream => streamOk stream
  | .schedulerSelect port => portOk port
  | .reseqTimeout port => portOk port
  | .frameLaunch port => portOk port
  | .residencyDiscard _ => true
  | .gateEntryChange port => portOk port
  | .gateListStart port => portOk port
  | .gateSet c => cmdOk c
  | .filterSet c => cmdOk c
  | .filterStats c => cmdOk c
  | .meterSet c => cmdOk c
  | .cbSet c => cmdOk c
  | .cbStats c => cmdOk c
  | .shaperEnable req n _ => reqOk req && shaperOk n
  | .shaperDisable req n _ => reqOk req && shaperOk n
  | .tmgGateStatRead req p => reqOk req && portOk p
  | .bufferRequest _ => true
  | .bufferStampDecide pool => poolOk pool
  | .bufferFree party _ => partyOk party
  | .descriptorFetch qp _ entry desc => qpOk qp && entryOk 16 entry && descOk desc
  | .dmaBurstIssue _ => true
  | .dmaReadCompletion _ _ => true
  | .hostReadError what => readOk what
  | .lgReadTime ctx => ctxOk ctx
  | .lgDeadline ctx => ctxOk ctx
  | .lgEvlogTimeout ctx => ctxOk ctx
  | .rxCopyPlace _ => true
  | .irqHoldoffEnd qp _ => qpOk qp
  | .msixVectorUnmask f vec _ => fnOk f && vecOk vec
  | .dmaWindowSet c => cmdOk c
  | .txDoorbell req f n _ => reqOk req && fnOk f && localQpOk n
  | .rxDoorbell req f n _ => reqOk req && fnOk f && localQpOk n
  | .txcHeadWrite req f n _ => reqOk req && fnOk f && localQpOk n
  | .rxcHeadWrite req f n _ => reqOk req && fnOk f && localQpOk n
  | .aqDoorbell req f _ => reqOk req && fnOk f
  | .aqcHeadWrite req f _ => reqOk req && fnOk f
  | .qpEnable req f n _ => reqOk req && fnOk f && localQpOk n
  | .qpDisable req f n _ => reqOk req && fnOk f && localQpOk n
  | .aqEnable req f _ => reqOk req && fnOk f
  | .qpAssign c => cmdOk c
  | .funcPrivSet c => cmdOk c
  | .flr f => fnOk f
  | .vfEnableSet pf => pfOk pf
  | .vfEnableClear pf => pfOk pf
  | .numvfsWrite pf n => pfOk pf && numVfsOk n
  | .pcieLinkDown link => linkOk link
  | .perst1N => true
  | .perst0N => true
  | .d3hotEnter f => fnOk f
  | .d0Enter f => fnOk f
  | .atsInvalidation f tag page => fnOk f && tagOk tag && pageOk page
  | .atsInvalComplete f tag => fnOk f && tagOk tag
  | .stoConnOffload c => cmdOk c
  | .stoConnReturn c => cmdOk c
  | .stoReturnTimeout conn => connOk conn
  | .stoConnResume c => cmdOk c
  | .stoConnRekey c => cmdOk c
  | .stoConnState c => cmdOk c
  | .stoCmdFetch qp entry desc => qpOk qp && entryOk 128 entry && descOk desc
  | .stoSegmentRx _ => true
  | .stoSegmentTx conn => connOk conn
  | .pduCapsuleResp conn => connOk conn
  | .pduC2hData conn => connOk conn
  | .pduR2t conn => connOk conn
  | .pduC2hTermReq conn => connOk conn
  | .stoRtoExpiry conn => connOk conn
  | .stoAckTimer conn => connOk conn
  | .stoBufferRetry conn => connOk conn
  | .funcReset c => cmdOk c
  | .funcResetDrainEnd f => fnOk f
  | .funcFreeze c => cmdOk c
  | .freezeDrainEnd f => fnOk f
  | .funcSave c => cmdOk c
  | .funcRestore c _ => cmdOk c
  | .funcThaw c => cmdOk c
  | .migDomainSet c => cmdOk c
  | .nop c => cmdOk c
  | .devInfo c => cmdOk c
  | .fwStage c _ => cmdOk c
  | .fwActivate c => cmdOk c
  | .fwSwitchTimeout => true
  | .fwSwitchComplete => true
  | .fwState c => cmdOk c
  | .devReset c => cmdOk c
  | .timeRate c => cmdOk c
  | .timeSlew c => cmdOk c
  | .slewEnd => true
  | .timeStep c => cmdOk c
  | .stepEnd => true
  | .timeLoad c => cmdOk c
  | .merLoadWrite req n _ => reqOk req && stampWordOk n
  | .meridianEnable req _ => reqOk req
  | .meridianDisable req _ => reqOk req
  | .merNowRead req => reqOk req
  | .merRateAdjRead req => reqOk req
  | .merTioStampRead req pin => reqOk req && pinOk pin
  | .refLost => true
  | .timeIoEdge pin _ => pinOk pin
  | .tioOutputEdge pin => pinOk pin
  | .tioPulseEnd pin => pinOk pin
  | .logbookEnable req _ => reqOk req
  | .fncGenRecRead req f => reqOk req && fnOk f
  | .slowVerdict c => cmdOk c
  | .slowHoldExpiry _ => true
  | .mbxSend req f => reqOk req && fnOk f
  | .mbxPost req f _ => reqOk req && fnOk f
  | .postDeliver sender receiver => fnOk sender && (fnOk receiver || receiver == 1024)
  | .mbxRing req f _ => reqOk req && fnOk f
  | .mbxRxPop req f _ => reqOk req && fnOk f
  | .mbxRxStampRead req f => reqOk req && fnOk f
  | .smbBlockWrite bytes _ => smbOk bytes
  | .smbBlockRead => true
  | .mgmtFrameRx _ => true
  | .portSet c => cmdOk c
  | .portState c => cmdOk c
  | .faultSet c => cmdOk c
  | .stepdownSet c => cmdOk c
  | .pauseWdogSet c => cmdOk c
  | .contourSet c => cmdOk c
  | .contourLeadSet c => cmdOk c
  | .pwrStateSet c => cmdOk c
  | .islandPower c => cmdOk c
  | .pwrStatus c => cmdOk c
  | .contourRaise port => portOk port
  | .contourRelease port => portOk port
  | .contourConfirm b => blockOk b
  | .loadDemandUp b pct => islandOk b && pctOk pct
  | .loadDemandDown b pct => islandOk b && pctOk pct
  | .paceLow b pace => islandOk b && paceOk pace
  | .regionReloadEnd region => regionOk region
  | .railWarn rail mv => railOk rail && milliOk mv
  | .railWarnClear rail mv => railOk rail && milliOk mv
  | .railReset rail mv => railOk rail && milliOk mv
  | .dieHot die temp => dieOk die && tempOk temp
  | .dieHotClear die temp => dieOk die && tempOk temp
  | .thermalTrip die temp => dieOk die && tempOk temp
  | .resetNAssert => true
  | .resetNRise => true
  | .boot => true
  | .debugReset req _ => reqOk req
  | .debugResetDone => true
  | .attest c _ => cmdOk c
  | .keygenDone => true
  | .signReady => true
  | .tokenRefill fn => fn.all fnOk
  | .cartoucheWrite c => cmdOk c
  | .fcartoucheWrite c => cmdOk c
  | .ownerKeySet c => cmdOk c
  | .mgmtKeySet c => cmdOk c
  | .trngRead c => cmdOk c
  | .drbgReseed => true
  | .trngHealthFail => true
  | .trngRetest _ => true
  | .registerWrite req loc size v => reqOk req && locOk loc && sizeOk size && valueOk size v
  | .referenceClockReturn => true
  | .thermalTripEnd => true
  | .pcieLinkUp link rate width => linkOk link && rateOk rate && widthOk width
  | .atsTranslationCompletion f page granted => fnOk f && pageOk page && granted.all pageOk
  | .regionStoreDone t => threadOk t
  | .bufferReply t => threadOk t
  | .registerRead req loc size => reqOk req && locOk loc && sizeOk size
  | .frameTxEnd port => portOk port
  | .preemptableHold port => portOk port
  | .blockResetEnd b => blockOk b

end Sys2Proof
end

