-- ==== Sys2Proof/Safety.lean ====
section
/-!
DEFINITION. What counts as a safe run, in the terms the statements use: the machine never stops, and what may end a reset.
-/
namespace Sys2Proof.Safety

open Sys2Proof.Machine

/-- A step answered a next state: it neither faulted nor was refused. -/
def Runs (o : Host.Outcome State Fault Refusal) : Prop := ∃ t, o = .next t

/-- The rows that act on a device held in POWER_ON reset: the pins, rails and sensors that hold or end that reset, and
nothing else (R388 to R391, R404). -/
def actsInReset : Instr → Bool
  | .railWarn .. => true
  | .railWarnClear .. => true
  | .railReset .. => true
  | .dieHot .. => true
  | .dieHotClear .. => true
  | .thermalTrip .. => true
  | .thermalTripEnd => true
  | .resetNAssert => true
  | .resetNRise => true
  | _ => false

/-- The rows that can end a POWER_ON reset: RESET_N rises (R388), a tripped die has cooled (R391), the rails are back (R389). -/
def endsReset : Instr → Bool
  | .railWarnClear .. => true
  | .thermalTripEnd => true
  | .resetNRise => true
  | _ => false

/-- Thread `t` issues the word `w` now (R69, R101, R102): the device is out of reset, the thread's region answers, the thread is
READY and the next issuing slot of its core is its own, its frame is not stale, it has budget left, and in inset mode the text holds
`w`, an instruction for insets, at the program counter. -/
structure Issues (d : Dev) (t : Nat) (w : Word) : Prop where
  out : d.inReset = false
  thread : t < 512
  region : d.available (regionOf t) = true
  ready : d.threadState t = 2
  chosen : d.mayIssue t = true
  frame : ∃ f, (d.thread t).frame.bind d.frame? = some f ∧ d.staleFrame f = false
  text : (d.thread t).insetMode = true → d.insetBase t (d.thread t) ≤ (d.thread t).pc ∧
    ((d.insetOf (d.thread t)).bind fun i => i.text[(d.thread t).pc - d.insetBase t (d.thread t)]?) = some w ∧ insetLegal w = true
  budget : (d.thread t).budget < (d.thread t).limit

/-- The thread as the instruction finds it, the instruction counted against its budget (R101). -/
def issued (d : Dev) (t : Nat) : Thread := { d.thread t with budget := (d.thread t).budget + 1 }

/-- `s` with the device that an instruction of thread `t` leaves: the end of a debug step is all that follows it (R80). -/
def after (s : State) (t : Nat) (e : Dev) : State := { s with toDev := e.endStep t }

/-- `s` after an instruction of thread `t` whose whole effect is the thread `x`, which goes on at the next word. -/
def goesOn (s : State) (t : Nat) (x : Thread) : State := after s t ((s.toDev.issueTo t).done t x)

/-- `s` after an instruction on the parse window, the legend or scratch: `x`, on the device `e`, goes on at the next word after a
short stall of a free length (R62, R69). -/
def goesShort (s : State) (t : Nat) (e : Dev) (x : Thread) : State := after s t (e.doneShort t x)

/-- A Vucel command whose turn has come and whose checks before its own have passed (R332, R338): the firmware accepts it or has
accepted it before, what taking it reads of host memory can be read (R288, R290), `n` is its number, `a` its record, `p` its parameters
and `e` the device that its own checks find. The package is not in STANDBY, where a command is followed by
what R402 has its island do (OutOfBand states it). -/
structure Taken (d : Dev) (opcode : Nat) (c : Cmd) (n : Nat) (a : Accepted) (p : Bytes) (e : Dev) : Prop where
  out : d.inReset = false
  awake : d.pwrState ≠ 3
  opcode : c.opcode = opcode
  accepts : (d.accepts c || (d.runs && d.waitsTurn c)) = true
  reach : (d.reachCmd c).1 = .ready
  accept : ∃ d1, d.accept c = some (n, a, d1) ∧ d1.hasTurn n a = true ∧ e = d1.updCmd n fun x => { x with started := true }
  check : e.vclCheck c = .ok p
  recovery : e.on? Fld.SEC_STAT_RECOVERY = true → romServes c = true

/-- `s` with another device: what a row changes. -/
def withDev (s : State) (d : Dev) : State := { s with toDev := d }

/-- Word `w` of item `n` of a register of the device windows, and item `n` of a register of function `f`'s page, as an access
meets them. -/
def devAt (r : Reg) (n : Nat) (w : Nat := 0) : RegAt := { reg := r, item := n, n := n, word := w, page := none }
def pageAt (d : Dev) (f : Nat) (r : Reg) (n : Nat := 0) : RegAt :=
  { reg := r, item := d.pageItem f r n, n := n, word := 0, page := some f }

/-- An access of `req` at `loc` reaches the register word `a`, and its target answers (R58, R293, R402, R412, R413, R415); `l` is
the location as the target sees it. -/
structure Reaches (d : Dev) (req : Requester) (loc l : Loc) (a : RegAt) : Prop where
  out : d.inReset = false
  may : d.canAccess req = true
  seen : reach req loc = some l
  at_ : (d.noteJtag req).spotAt req l = .reg a
  open_ : (d.noteJtag req).hostBarred req (.reg a) = false
  awake : ((d.noteJtag req).standby && !standbyAnswers req (.reg a)) = false
  there : (d.noteJtag req).unavailable (.reg a) = none

/-- The write of `v` to a register word takes each field under its own code (R4). -/
def stored (e : Dev) (a : RegAt) (v : Word) : Dev :=
  e.wr a.reg a.item a.word ((a.reg.access a.word).merge (e.blockDisabled a) (e.rd a.reg a.item a.word) v)

/-- An RWD field keeps its value though `v` differs in it (R417). -/
def ignored (e : Dev) (a : RegAt) (v : Word) : Bool :=
  (a.reg.access a.word).ignores (e.blockDisabled a) (e.rd a.reg a.item a.word) v

/-- `s` after a write that reaches the word `a`: the stored bits, what follows a write of that register, the flags of R417, the
REG_WRITE record of R421 and the answer. -/
def wrote (s : State) (req : Requester) (l : Loc) (a : RegAt) (v : Word) (follows : Dev → Dev) : State :=
  let e := s.toDev.noteJtag req
  let x := follows (stored e a v)
  let y := if ignored e a v then x.flagIgnored a l else x
  withDev s ((y.logWrite req l (e.regSource l (.reg a)) (regFunction l (.reg a)) e.now v (ignored e a v) false).emit
    (.answer req .done))

/-- `s` after a read that answers `v` and leaves the device `e`. -/
def readOut (s : State) (req : Requester) (v : Word) (e : Dev) : State := withDev s (e.emit (.answer req (.value v)))

/-- The rows that are Vucel commands: the opcode each has in R341, and its command. -/
def commandOf : Instr → Option (Nat × Cmd)
  | .nop c => some (0x0100, c)
  | .devInfo c => some (0x0101, c)
  | .fwStage c _ => some (0x0102, c)
  | .fwActivate c => some (0x0103, c)
  | .fwState c => some (0x0104, c)
  | .devReset c => some (0x0105, c)
  | .timeRate c => some (0x0201, c)
  | .timeSlew c => some (0x0202, c)
  | .timeStep c => some (0x0203, c)
  | .timeLoad c => some (0x0204, c)
  | .insetLoad c _ => some (0x0301, c)
  | .insetBind c => some (0x0302, c)
  | .insetUnload c => some (0x0303, c)
  | .sheetOpen c => some (0x0401, c)
  | .sheetProfile c => some (0x0402, c)
  | .sheetDefault c => some (0x0403, c)
  | .ruleAdd c => some (0x0404, c)
  | .ruleDel c => some (0x0405, c)
  | .sheetSwap c => some (0x0406, c)
  | .sheetDiscard c => some (0x0407, c)
  | .tableCreate c => some (0x0501, c)
  | .tableGrant c => some (0x0502, c)
  | .entryWrite c => some (0x0503, c)
  | .entryDelete c => some (0x0504, c)
  | .entryRead c => some (0x0505, c)
  | .tableFlush c => some (0x0506, c)
  | .lpmAdd c => some (0x0507, c)
  | .lpmDel c => some (0x0508, c)
  | .lpmFilter c => some (0x0509, c)
  | .vlanSet c => some (0x0601, c)
  | .vlanDel c => some (0x0602, c)
  | .groupSet c => some (0x0603, c)
  | .groupDel c => some (0x0604, c)
  | .tunnelSet c => some (0x0605, c)
  | .tunnelDel c => some (0x0606, c)
  | .vrfSet c => some (0x0607, c)
  | .keyGrant c => some (0x0701, c)
  | .keyWrite c => some (0x0702, c)
  | .keyErase c => some (0x0703, c)
  | .keyState c => some (0x0704, c)
  | .macsecPortSet c => some (0x0705, c)
  | .macsecRxscSet c => some (0x0706, c)
  | .macsecTxSwitch c => some (0x0707, c)
  | .gateSet c => some (0x0801, c)
  | .filterSet c => some (0x0802, c)
  | .filterStats c => some (0x0803, c)
  | .meterSet c => some (0x0804, c)
  | .cbSet c => some (0x0805, c)
  | .cbStats c => some (0x0806, c)
  | .dmaWindowSet c => some (0x0901, c)
  | .qpAssign c => some (0x0902, c)
  | .funcPrivSet c => some (0x0903, c)
  | .stoConnOffload c => some (0x0A01, c)
  | .stoConnReturn c => some (0x0A02, c)
  | .stoConnResume c => some (0x0A03, c)
  | .stoConnRekey c => some (0x0A04, c)
  | .stoConnState c => some (0x0A05, c)
  | .funcReset c => some (0x0B01, c)
  | .funcFreeze c => some (0x0B02, c)
  | .funcSave c => some (0x0B03, c)
  | .funcRestore c _ => some (0x0B04, c)
  | .funcThaw c => some (0x0B05, c)
  | .migDomainSet c => some (0x0B06, c)
  | .portSet c => some (0x0C01, c)
  | .portState c => some (0x0C02, c)
  | .faultSet c => some (0x0C03, c)
  | .stepdownSet c => some (0x0C04, c)
  | .pauseWdogSet c => some (0x0C05, c)
  | .contourSet c => some (0x0D01, c)
  | .contourLeadSet c => some (0x0D02, c)
  | .pwrStateSet c => some (0x0D03, c)
  | .islandPower c => some (0x0D04, c)
  | .pwrStatus c => some (0x0D05, c)
  | .attest c _ => some (0x0E01, c)
  | .cartoucheWrite c => some (0x0E02, c)
  | .fcartoucheWrite c => some (0x0E03, c)
  | .ownerKeySet c => some (0x0E04, c)
  | .mgmtKeySet c => some (0x0E05, c)
  | .trngRead c => some (0x0E06, c)
  | .slowVerdict c => some (0x1001, c)
  | _ => none

/-- Every command that waits is well formed. -/
def Queued (s : State) : Prop := s.pending.all Instr.wf = true

end Sys2Proof.Safety
end

