-- ==== Sys2Proof/Certificates/Slice0/Obligations.lean ====
section
/-!
DEFINITION. The statements for the provers, from the manual's numbered rules: what every row of the table does where its own
effect happens, what reset leaves, and what holds of every step. A statement whose right side is a whole next state says with
it that everything it does not name is unchanged.
-/
open Sys2Proof Sys2Proof.Machine Sys2Proof.Safety

/-! ## Threads and their instructions (chapters 03 and 04) -/

/-- R96: every ALU instruction writes its result to gD and the thread goes on at the next word; nothing else changes. That INS
loses the bits that reach above bit 31 is the model's choice (log entry 24). R96, with the model's reading of log entry 4: CRC
writes the CRC32C of the four bytes of gA seeded with gB, in the byte order and with the final complement that Config leaves
open. R96: the instructions with an immediate; ADDI and SLTI extend it with its sign, the others with zeros; LUI has A = 0.
R62: g0 reads 0 and a write to it is discarded, and a write to another register changes that register alone. -/
def Obligations.Arithmetic : Prop :=
  (∀ (s : State) (t : Nat) (d a b sh : BitVec 5),
     let x := issued s.toDev t
     let A := x.reg a.toNat
     let B := x.reg b.toNat
     ∀ row ∈ ([(.add t d a b sh, 0x00, A + B), (.sub t d a b sh, 0x01, A - B), (.and t d a b sh, 0x02, A &&& B),
         (.or t d a b sh, 0x03, A ||| B), (.xor t d a b sh, 0x04, A ^^^ B),
         (.shl t d a b sh, 0x05, A <<< (B.toNat % 32)), (.shr t d a b sh, 0x06, A >>> (B.toNat % 32)),
         (.sar t d a b sh, 0x07, A.sshiftRight (B.toNat % 32)),
         (.slt t d a b sh, 0x08, if A.toInt < B.toInt then 1 else 0),
         (.sltu t d a b sh, 0x09, if A.toNat < B.toNat then 1 else 0),
         (.mul t d a b sh, 0x0A, BitVec.ofNat 32 (A.toNat * B.toNat)),
         (.minu t d a b sh, 0x0B, if A.toNat < B.toNat then A else B),
         (.maxu t d a b sh, 0x0C, if A.toNat < B.toNat then B else A),
         (.ext t d a b sh, 0x0D, (A >>> sh.toNat) &&& widthMask b),
         (.ins t d a b sh, 0x0E,
           (x.reg d.toNat &&& ~~~ (widthMask b <<< sh.toNat)) ||| ((A &&& widthMask b) <<< sh.toNat)),
         (.bswap t d a b sh, 0x10, BitVec.ofNat 32 (natBE (bytesLE 4 A.toNat)))] : List (Instr × Nat × Word)),
       Issues s.toDev t (encAlu row.2.1 d a b sh) → exec row.1 s = .next (goesOn s t (x.setReg d.toNat row.2.2))) ∧
  (∀ (s : State) (t : Nat) (d a b sh : BitVec 5),
     let x := issued s.toDev t
     let bs := bytesLE 4 (x.reg a.toNat).toNat
     let c := crcRaw (x.reg b.toNat) (if Config.crcMsbFirst then bs.reverse else bs)
     Issues s.toDev t (encAlu 0x0F d a b sh) →
       exec (.crc t d a b sh) s = .next (goesOn s t (x.setReg d.toNat (if Config.crcComplement then ~~~ c else c)))) ∧
  (∀ (s : State) (t : Nat) (d a : BitVec 5) (imm : BitVec 16),
     let x := issued s.toDev t
     let A := x.reg a.toNat
     let Z : Word := BitVec.ofNat 32 imm.toNat
     let S : Word := BitVec.ofInt 32 imm.toInt
     (∀ row ∈ ([(.addi t d a imm, 0x02, A + S), (.andi t d a imm, 0x03, A &&& Z), (.ori t d a imm, 0x04, A ||| Z),
         (.xori t d a imm, 0x05, A ^^^ Z), (.slti t d a imm, 0x07, if A.toInt < S.toInt then 1 else 0)] : List (Instr × Nat × Word)),
       Issues s.toDev t (encImm row.2.1 d a imm) → exec row.1 s = .next (goesOn s t (x.setReg d.toNat row.2.2))) ∧
     (Issues s.toDev t (encImm 0x06 d 0 imm) →
       exec (.lui t d 0 imm) s = .next (goesOn s t (x.setReg d.toNat (Z <<< 16))))) ∧
  (∀ (x : Thread) (n m : Nat) (v : Word),
     x.reg 0 = 0 ∧ x.setReg 0 v = x ∧ (n ≠ 0 → (x.setReg n v).reg n = v) ∧ (m ≠ n → (x.setReg n v).reg m = x.reg m))

/-- R92, R95, R96: where a branch, a jump, a call, a return and a loop take the thread. R92: JCLASS enters the action program
that the class map binds to the legend's CLASS, in inset mode, or the default action program of the vendor where nothing is
bound; where that program begins in the vendor text the manual leaves open (log entry 5). -/
def Obligations.Control : Prop :=
  (∀ (s : State) (t : Nat) (a b : BitVec 5) (off : BitVec 13) (target : BitVec 14),
     let x := issued s.toDev t
     let e := s.toDev.issueTo t
     (∀ cnd : BitVec 3, Issues s.toDev t (encBr cnd a b off) → off ≠ 0 → cnd.toNat < 6 →
       exec (.br t cnd a b off) s = .next (
         if brHolds cnd (x.reg a.toNat) (x.reg b.toNat) then after s t (e.setThread t (x.goTo (brTarget x.pc off)))
         else goesOn s t x)) ∧
     (Issues s.toDev t (encJump 0 0 target) →
       exec (.jmp t 0 target) s = .next (after s t (e.setThread t (x.goTo
         (if x.insetMode then e.insetBase t x + target.toNat else target.toNat))))) ∧
     (Issues s.toDev t (encJump 1 0 target) → x.rets.length < 8 →
       exec (.call t 0 target) s = .next (after s t (e.setThread t
         { x with rets := { pc := x.pc + 1, inset := x.insetMode } :: x.rets,
                  pc := (if x.insetMode then e.insetBase t x + target.toNat else target.toNat) % 16384 }))) ∧
     (∀ (r : RetRec) (rest : List RetRec), Issues s.toDev t (encJump 2 0 0) → x.rets = r :: rest → r.parse = none →
       exec (.ret t 0 0) s = .next (after s t (e.setThread t ({ x with rets := rest, insetMode := r.inset }.goSeq r.pc)))) ∧
     (Issues s.toDev t (encJr a 0) → x.insetMode = false →
       exec (.jr t a 0) s = .next (after s t (e.setThread t (x.goTo ((x.reg a.toNat).toNat % 16384))))) ∧
     (∀ (count : BitVec 8) (body : BitVec 10), Issues s.toDev t (encLoop count body 0) → count ≠ 0 → body ≠ 0 → x.loops.length < 4 →
       exec (.loop t count body 0) s = .next (after s t (e.setThread t
         { x with pc := (x.pc + 1) % 16384,
                  loops := { start := (x.pc + 1) % 16384, body := body.toNat, left := count.toNat, depth := x.rets.length } :: x.loops })))) ∧
  (∀ (s : State) (t : Nat) (f : Frame),
     let x := issued s.toDev t
     let e := s.toDev.issueTo t
     let bound := ((e.classBind x (lgGet f.lg lgFunction) (lgGet f.lg lgClass)).bind (·.entry)).bind fun id =>
       (e.insetOf x).bind fun i => i.entries.find? fun p => p.1 == 2 && p.2.1 == id
     Issues s.toDev t (encJump 3 0 0) → x.frame.bind e.frame? = some f →
       (∀ p, bound = some p →
         exec (.jclass t 0 0) s = .next (after s t (e.setThread t ({ x with insetMode := true }.goTo (e.insetBase t x + p.2.2))))) ∧
       (bound = none →
         exec (.jclass t 0 0) s = .next (after s t (e.setThread t ({ x with insetMode := false }.goTo (Config.vendorActionPc % 0x1000))))))

/-- R62, R94, R96, R98: the parse window, the legend and scratch, loads and stores of each size; a store changes the stored
bytes and no others of that memory. Each leaves a short stall of a free length (R69, log entry 2), and an address is taken
modulo 2^32 (log entry 24): both are the model's choice. R18, R70, R96: the long accesses stall the thread; the reply ends the
stall with the loaded value or the store, and a buffer's reply is one of the generations that the access was issued with. A
store goes into the frame's buffers, also below offset 256, where the window replaces it at EMIT: the model's choice (log
entry 44). -/
def Obligations.Accesses : Prop :=
  (∀ (s : State) (t : Nat) (d a : BitVec 5) (w : Bool) (sz : BitVec 2),
     let x := issued s.toDev t
     let e := s.toDev.issueTo t
     (∀ off : BitVec 8, Issues s.toDev t (encPw d a w sz 0 off) → sz ≠ 3 → x.addr a off.toNat + 2 ^ sz.toNat ≤ 256 →
       exec (.pw t d a w sz 0 off) s = .next (goesShort s t e (
         if w then { x with pw := overwrite (padTo x.pw 256) (x.addr a off.toNat) (bytesBE (2 ^ sz.toNat) (x.reg d.toNat).toNat) }
         else x.setReg d.toNat (BitVec.ofNat 32 (be x.pw (x.addr a off.toNat) (2 ^ sz.toNat)))))) ∧
     (∀ (word : BitVec 4) (lsb wm1 : BitVec 5) (id : Nat) (f : Frame), Issues s.toDev t (encLg d w word lsb wm1 0) →
       lsb.toNat + wm1.toNat ≤ 31 → x.frame = some id → e.frame? id = some f →
       (w = false → exec (.lg t d w word lsb wm1 0) s =
         .next (goesShort s t e (x.setReg d.toNat (toWord (lgGet f.lg ⟨word.toNat, lsb.toNat + wm1.toNat, lsb.toNat⟩))))) ∧
       (w = true → fieldMask (lsb.toNat + wm1.toNat) lsb.toNat &&& ~~~ (if x.insetMode then insetMask word.toNat else vendorMask word.toNat) = 0 →
         exec (.lg t d w word lsb wm1 0) s = .next (goesShort s t (e.updFrame id fun g =>
           { g with lg := lgSet g.lg ⟨word.toNat, lsb.toNat + wm1.toNat, lsb.toNat⟩ (x.reg d.toNat).toNat }) x))) ∧
     (∀ (off : BitVec 13) (key : Nat), Issues s.toDev t (encMem 0x12 d a w sz off) → (w = false → sz ≠ 3) →
       (sizeBytes sz.toNat = 4 → x.addr a off.toNat % 4 = 0) →
       e.mapAddr t x (x.addr a off.toNat) (sizeBytes sz.toNat) = some (.scratch key) →
       let r := memAccess e.pca.scratch key w sz.toNat (x.reg d.toNat)
       exec (.sc t d a w sz off) s = .next (goesShort s t (e.setPca fun p => { p with scratch := r.2 }) (x.result d.toNat r.1))) ∧
     (∀ (m : Tbl Byte) (key n v j : Nat), (∀ i < n, j ≠ key + i) → (memWrite m key n v).getD j 0 = m.getD j 0)) ∧
  (∀ (s : State) (t : Nat) (d a : BitVec 5) (w : Bool) (sz : BitVec 2) (off : BitVec 13),
     let x := issued s.toDev t
     let e := s.toDev.issueTo t
     (∀ key : Nat, Issues s.toDev t (encMem 0x12 d a w sz off) → (w = false → sz ≠ 3) →
       (sizeBytes sz.toNat = 4 → x.addr a off.toNat % 4 = 0) →
       e.mapAddr t x (x.addr a off.toNat) (sizeBytes sz.toNat) = some (.region key) →
       exec (.sc t d a w sz off) s = .next (goesOn s t { x with pend := .region w sz.toNat key d.toNat })) ∧
     (∀ (key n : Nat) (v : Nat), s.toDev.inReset = false → (s.toDev.thread t).pend = .region w v key n →
       let r := memAccess s.toDev.pca.rstore key w v ((s.toDev.thread t).reg n)
       exec (.regionStoreDone t) s = .next (withDev s ((s.toDev.setPca fun p => { p with rstore := r.2 }).setThread t
         { (s.toDev.thread t).result n r.1 with pend := .none }))) ∧
     (∀ f : Frame, Issues s.toDev t (encMem 0x13 d a w sz off) → sz ≠ 3 → x.frame.bind e.frame? = some f →
       (w = true → x.addr a off.toNat + 2 ^ sz.toNat ≤ f.bytes.length) →
       exec (.buf t d a w sz off) s = .next (goesOn s t
         { x with pend := .buf w sz.toNat (x.addr a off.toNat) d.toNat (e.blockGen 7) (e.blockGen 13) })) ∧
     (∀ (z addr n id : Nat) (f : Frame), s.toDev.inReset = false → s.toDev.available 7 = true → s.toDev.available 13 = true →
       (s.toDev.thread t).pend = .buf w z addr n (s.toDev.blockGen 7) (s.toDev.blockGen 13) → (s.toDev.thread t).frame = some id → s.toDev.frame? id = some f →
       exec (.bufferReply t) s = .next (withDev s (
         if w then ((s.toDev.updFrame id fun g => { g with bytes := overwrite g.bytes addr (bytesBE (2 ^ z) ((s.toDev.thread t).reg n).toNat) }).fillAt
           f.chain addr (bytesBE (2 ^ z) ((s.toDev.thread t).reg n).toNat)).setThread t { s.toDev.thread t with pend := .none }
         else s.toDev.setThread t { (s.toDev.thread t).setReg n (toWord (be f.bytes addr (2 ^ z))) with pend := .none }))))

/-- R70, R99, R144: a lookup or classification is issued into its slot, or stalls behind a request that is outstanding there
or while four are outstanding; a prefetch stalls while four are, and is issued whatever its slot holds, which is the model's
choice (log entry 44); LDRES reads an answered slot, and waits for one whose request is outstanding. -/
def Obligations.LookupRequests : Prop :=
  ∀ (s : State) (t : Nat) (d : BitVec 5) (slot kind : BitVec 2) (table : BitVec 6) (keyq : BitVec 3),
    let x := issued s.toDev t
    let e := s.toDev.issueTo t
    let key := keyOf x.reg (4 * keyq.toNat)
    (∀ tb : Nat, e.lookupTable x table.toNat = some tb →
      (∀ row ∈ ([(.lookupExact t slot table keyq false 0, 0), (.lookupLpm4 t slot table keyq false 0, 1),
          (.lookupLpm6 t slot table keyq false 0, 2)] : List (Instr × Nat)),
        let r := e.makeReq t x slot.toNat row.2 tb key false
        Issues s.toDev t (encLookup slot.toNat row.2 table keyq false 0) →
        (e.lookOut t < 4 → (∀ q, x.ls.getD slot.toNat .empty ≠ .waiting q) →
          exec row.1 s = .next (after s t (e.issueReq t x.next r))) ∧
        ((e.lookOut t ≥ 4 ∨ ∃ q, x.ls.getD slot.toNat .empty = .waiting q) →
          exec row.1 s = .next (goesOn s t { x with pend := .relook r }))) ∧
      (kind ≠ 3 → Issues s.toDev t (encLookup slot.toNat kind.toNat table keyq true 0) →
        let r := e.makeReq t x slot.toNat kind.toNat tb key true
        exec (.lookupPrefetch t slot kind table keyq 0) s =
          .next (if e.lookOut t < 4 then after s t (e.issueReq t x.next r) else goesOn s t { x with pend := .relook r }))) ∧
    (Issues s.toDev t (encLookup slot.toNat 3 0 keyq false 0) →
      let r := e.makeReq t x slot.toNat 3 0 key false
      (e.lookOut t < 4 → (∀ q, x.ls.getD slot.toNat .empty ≠ .waiting q) →
        exec (.classify t slot 0 keyq false 0) s = .next (after s t (e.issueReq t x.next r))) ∧
      ((e.lookOut t ≥ 4 ∨ ∃ q, x.ls.getD slot.toNat .empty = .waiting q) →
        exec (.classify t slot 0 keyq false 0) s = .next (goesOn s t { x with pend := .relook r }))) ∧
    (∀ (part : BitVec 2) (q : Nat), Issues s.toDev t (encLdres d slot part 0) → part ≠ 3 →
      x.ls.getD slot.toNat .empty = .waiting q →
      exec (.ldres t d slot part 0) s = .next (goesOn s t { x with pend := .ldres slot.toNat part.toNat d.toNat })) ∧
    (∀ (part : BitVec 2) (st lo hi : Word), Issues s.toDev t (encLdres d slot part 0) → part ≠ 3 →
      x.ls.getD slot.toNat .empty = .ready st lo hi →
      exec (.ldres t d slot part 0) s =
        .next (goesOn s t (x.setReg d.toNat (if part = 0 then st else if part = 1 then lo else hi))))

/-- R75 to R78, R102, R106: the four kinds of CHAN, in vendor mode and in inset mode, where the channel must be granted: the
permission, a disabled channel, a register that names no reservation of the channel, a reservation that is gone, a fourth one,
no room and no entry, and the effect where all is there. The causes of a channel that is not granted, the records of a thread
without permission and the no-entry result of a register without a reservation of the channel are the model's choices (log
entry 44), and so is that a reserve into a register that is held gives the earlier reservation up first (log entry 24). -/
def Obligations.ChannelOperations : Prop :=
  ∀ (s : State) (t : Nat) (ch : BitVec 3) (d st : BitVec 5) (rv : BitVec 2),
    let x := issued s.toDev t
    let e := s.toDev.issueTo t
    let n := 8 * clusterOf t + ch.toNat
    let mask : Nat := ((e.insetOf x).map fun i => if i.granted.contains (clusterOf t) then i.chanMask else 0).getD 0
    let may (r : Reg) : Prop := (x.insetMode = true → mask.testBit ch.toNat = true) ∧ (e.rd r n).getLsbD (t % 32) = true
    let noEntry (y : Thread) := goesOn s t (y.setReg st.toNat 0)
    d.toNat % 4 = 0 → rv ≠ 3 →
      (∀ row ∈ ([(.reserve t ch d rv st 0, 0, .PCA_CHAN_WRITERS), (.write t ch d rv st 0, 1, .PCA_CHAN_WRITERS),
          (.commit t ch d rv st 0, 2, .PCA_CHAN_WRITERS), (.read t ch d rv st 0, 3, .PCA_CHAN_READERS)] : List (Instr × Nat × Reg)),
        Issues s.toDev t (encChan row.2.1 ch d rv st 0) →
          (x.insetMode = true → mask.testBit ch.toNat = false →
            exec row.1 s = .next (after s t (e.threadFault t (if mask = 0 then 0x01 else 0x0B)))) ∧
          ((x.insetMode = true → mask.testBit ch.toNat = true) → (e.rd row.2.2 n).getLsbD (t % 32) = false →
            exec row.1 s = .next (after s t ((e.logExc t 0x201 (toWord t) 0).done t (x.setReg st.toNat 0)))) ∧
          (may row.2.2 → row.2.1 = 0 ∨ row.2.1 = 3 → e.on? Fld.PCA_CHAN_CFG_ENABLE n = false → exec row.1 s = .next (noEntry x))) ∧
      (Issues s.toDev t (encChan 0 ch d rv st 0) → may .PCA_CHAN_WRITERS → e.on? Fld.PCA_CHAN_CFG_ENABLE n = true →
        (3 ≤ x.resCount → exec (.reserve t ch d rv st 0) s = .next (after s t (e.threadFault t 0x0A))) ∧
        (x.resCount < 3 → x.rv.look? rv.toNat = none →
          exec (.reserve t ch d rv st 0) s = .next (
            match (e.setThread t x).tryReserve t n rv.toNat with
            | some g => after s t (g.updThread t fun z => (z.setReg st.toNat 1).next)
            | none => goesOn s t { x with pend := .reserve n rv.toNat st.toNat })) ∧
        (∀ (old : Resv) (g : Dev), x.resCount < 3 → x.rv.look? rv.toNat = some old → old.live = true →
          let y := (((e.setThread t { x with rv := x.rv.erase rv.toNat }).bump .PCA_CHAN_ABANDON (clusterOf t)).chanSpace old.chan)
          (y.setThread t { x with rv := x.rv.erase rv.toNat, events := (y.thread t).events }).tryReserve t n rv.toNat = some g →
          exec (.reserve t ch d rv st 0) s = .next (after s t (g.updThread t fun z => (z.setReg st.toNat 1).next)))) ∧
      (Issues s.toDev t (encChan 1 ch d rv st 0) → may .PCA_CHAN_WRITERS →
        (∀ r : Resv, x.rv.look? rv.toNat = some r → r.chan = n → r.live = true →
          let filled : Resv := { r with data := (List.range 4).map fun k => x.reg (d.toNat + k) }
          exec (.write t ch d rv st 0) s = .next (goesOn s t ({ x with rv := x.rv.put rv.toNat filled }.setReg st.toNat 1))) ∧
        ((∀ r : Resv, x.rv.look? rv.toNat = some r → r.chan ≠ n ∨ r.live = false) → exec (.write t ch d rv st 0) s = .next (noEntry x))) ∧
      (Issues s.toDev t (encChan 2 ch d rv st 0) → may .PCA_CHAN_WRITERS →
        (∀ r : Resv, x.rv.look? rv.toNat = some r → r.chan = n →
          exec (.commit t ch d rv st 0) s = .next (
            if r.live then after s t ((e.done t ({ x with rv := x.rv.erase rv.toNat }.setReg st.toNat 1)).chanCommit n r.data)
            else noEntry { x with rv := x.rv.erase rv.toNat })) ∧
        ((∀ r : Resv, x.rv.look? rv.toNat = some r → r.chan ≠ n) → exec (.commit t ch d rv st 0) s = .next (noEntry x))) ∧
      (Issues s.toDev t (encChan 3 ch d rv st 0) → may .PCA_CHAN_READERS → e.on? Fld.PCA_CHAN_CFG_ENABLE n = true →
        exec (.read t ch d rv st 0) s = .next (
          match e.chanEntries n with
          | w :: rest => after s t (((e.setChan n rest).done t ((x.setRegs d.toNat w).setReg st.toNat 1)).chanSpace n)
          | [] => goesOn s t { x with pend := .read n d.toNat st.toNat }))

/-- R72 to R74: WAIT takes the lowest pending event of its mask or waits; SIGNAL raises a SOFT event within the cluster or
queues a message to another; TIMER sets the thread's timer, and its passing raises event 56; TIME reads the counter (R96). -/
def Obligations.EventsAndTime : Prop :=
  ∀ (s : State) (t : Nat) (d a : BitVec 5),
    let x := issued s.toDev t
    let e := s.toDev.issueTo t
    (Issues s.toDev t (encWait d a 0) → a.toNat % 2 = 0 →
      exec (.wait t d a 0) s = .next (after s t (e.setThread t
        { x.next with pend := .evt ((x.reg a.toNat).toNat + 2 ^ 32 * (x.reg (a.toNat + 1)).toNat) d.toNat }.wake))) ∧
    (∀ (cluster : BitVec 2) (thread ev : BitVec 5), Issues s.toDev t (encSignal cluster thread ev 0) → x.insetMode = false →
      (e.rd .PCA_EVT_SRC (32 * clusterOf t + ev.toNat)).getLsbD (t % 32) = true →
      exec (.signal t cluster thread ev 0) s = .next (after s t (
        if cluster.toNat = clusterOf t % 4 then (e.done t x).raise (32 * clusterOf t + thread.toNat) ev.toNat
        else (e.done t x).setPca fun p => { p with
          msgs := p.msgs.put (regionOf t) (p.msgs.getD (regionOf t) [] ++
            [(128 * regionOf t + 32 * cluster.toNat + thread.toNat, clusterOf t % 4)]) }))) ∧
    (Issues s.toDev t (encTimer a 0) → a.toNat ≤ 29 →
      exec (.timer t a 0) s = .next (after s t ((e.done t { x with
        timer := some (stampOf (x.reg a.toNat) (x.reg (a.toNat + 1)) (x.reg (a.toNat + 2))) }).timerCheck t))) ∧
    (Issues s.toDev t (encTime d 0) → d.toNat ≤ 29 →
      exec (.time t d 0) s = .next (goesOn s t (x.setRegs d.toNat (stampWords e.now)))) ∧
    (∀ (r target from_ : Nat) (rest : List (Nat × Nat)), s.toDev.inReset = false → s.toDev.pca.msgs.getD r [] = (target, from_) :: rest →
      exec (.regionMsgDeliver r) s =
        .next (withDev s ((s.toDev.setPca fun p => { p with msgs := p.msgs.putD [] r rest }).raise target (48 + from_)))) ∧
    (∀ due : Stamp, s.toDev.inReset = false → (s.toDev.thread t).timer = some due → due ≤ s.toDev.now →
      exec (.threadTimerExpiry t) s = .next (withDev s ((s.toDev.updThread t fun z => { z with timer := none }).raise t 56)))

/-- R67, R100, R118, R131, R343: END gives the frame to what its kind names, and frees the thread; BRK halts it (R80). R101,
R109, R67, R118, R131, R343: LIBCALL counts the entry's instructions against the budget, at most the figure of R109, notes
where to return, and runs the entry in vendor mode. That the entry runs in one step with one return-stack entry, and that its
count is a free number up to that figure, are the model's choices (log entries 14 and 5). -/
def Obligations.FrameEndsAndLibrary : Prop :=
  (∀ (s : State) (t id : Nat) (reason : BitVec 8),
     let x := issued s.toDev t
     let e := (s.toDev.issueTo t).setThread t x
     x.frame = some id →
       (Issues s.toDev t (encEnd 0 0 0) →
         exec (.emit t 0 0) s = .next (after s t (((e.writeBack t id).endUnit t id false).freeThread t))) ∧
       (Issues s.toDev t (encEnd 1 reason 0) →
         exec (.drop t reason 0) s = .next (after s t (((e.bump .FNC_MC_DROP ((e.threadFn t).getD 0)).dropFrame id
           (32 + regionOf t) (toWord (0x00010000 + reason.toNat))).freeThread t))) ∧
       (Issues s.toDev t (encEnd 2 0 0) →
         exec (.recirc t 0 0) s = .next (after s t ((e.endUnit t id true).freeThread t))) ∧
       (Issues s.toDev t (encEnd 3 reason 0) →
         exec (.slow t reason 0) s = .next (after s t ((e.slowPath id (32 + regionOf t) reason.toNat).freeThread t))) ∧
       (Issues s.toDev t (encBrk 0) → x.insetMode = false →
         exec (.brk t 0) s = .next (after s t (((s.toDev.issueTo t).done t x).haltThread t)))) ∧
  (∀ (s : State) (t most : Nat) (entry : BitVec 8),
     let x := issued s.toDev t
     let e := s.toDev.issueTo t
     let c := min most (Config.libCost entry.toNat e.fresh)
     Issues s.toDev t (encLibcall entry 0) → libMax entry.toNat = some most → x.budget + most ≤ x.limit → x.rets.length < 8 →
       exec (.libcall t entry 0) s = .next (after s t (({ e with fresh := e.fresh + 1 } : Dev).library t
         { x with budget := x.budget + c, rets := { pc := x.pc + 1, inset := x.insetMode } :: x.rets, insetMode := false } entry.toNat)))

/-- R65, R91, R93, R317: a region that serves the sub-queue `g` gives the head legend to the thread `t`. The round robin
begins at sub-queue 0 where none has been served, which is the model's choice (log entry 18). R69: at most one thread of a
core issues on its next issuing slot: the owner of the slot's position if it can; the current thread where the owner cannot
and no READY thread has priority; and none while no thread of the core is READY. R79, R82: a closed wait is broken by the
WAIT_CLOSED event of one of its threads; the frame of a thread halted for 2^44 ns is dropped, with a reason code that the
manual leaves open (log entry 3); the time runs from the original halt, which is the model's choice (log entry 44). -/
def Obligations.DispatchAndWatch : Prop :=
  (∀ (s : State) (r g t id : Nat) (f : Frame) (rest : List Nat),
     let d := s.toDev
     d.inReset = false → r < 4 → d.regionUp r = true →
       roundRobin 16 (((d.pca.rqLast.look? r).map (· + 1)).getD 0)
         (fun k => (d.pca.rq.getD (16 * r + k) []).head?.isSome && (d.chooseThread r k).isSome) = some g →
       d.pca.rq.getD (16 * r + g) [] = id :: rest → d.chooseThread r g = some t → d.frame? id = some f → d.staleFrame f = false →
       exec (.dispatch r) s = .next (withDev s ((d.setPca fun p => { p with
         rq := p.rq.putD [] (16 * r + g) rest, rqLast := p.rqLast.put r g, rqCluster := p.rqCluster.put (16 * r + g) (clusterOf t % 4) }).setUpThread t id f))) ∧
  (∀ (d : Dev) (core k : Nat), k < 4 →
     let c := d.core core
     let pos := c.slotCount % clampTo 4 16 (d.get Fld.PCA_CORE_CFG_SLOT_N core)
     let can (j : Nat) : Bool := d.threadState (4 * core + j) == 2 && decide ((d.thread (4 * core + j)).stallTo ≤ c.slotCount)
     (∀ j, j < 4 → d.mayIssue (4 * core + j) = true → d.mayIssue (4 * core + k) = true → j = k) ∧
     (pos = k → can k = true → d.mayIssue (4 * core + k) = true) ∧
     ((pos < 4 → can pos = false) → c.current = some k → can k = true →
       (∀ j, j < 4 → d.threadState (4 * core + j) = 2 → d.on? Fld.PCA_THREAD_CTRL_PRIO (4 * core + j) = false) →
       d.mayIssue (4 * core + k) = true) ∧
     ((∀ j, j < 4 → d.threadState (4 * core + j) ≠ 2) → d.mayIssue (4 * core + k) = false)) ∧
  (∀ (s : State), s.toDev.inReset = false →
     (∀ core t : Nat, core < 128 → s.toDev.closedWait core = true →
       let w := ((List.range 4).map (4 * core + ·)).filter fun k => s.toDev.threadState k == 4
       t = ((w.find? fun k => s.toDev.on? Fld.PCA_THREAD_CTRL_PRIO k).getD (w.headD 0)) →
       exec (.closedWaitDetect core) s = .next (withDev s (((s.toDev.raise t 61).bump .PCA_WAIT_CLOSED (core / 8)).logExc t 0x3D
         (toWord t) (toWord ((w.map fun k => 2 ^ (k % 4)).foldl (· + ·) 0))))) ∧
     (∀ t id : Nat, (s.toDev.thread t).frame = some id → (s.toDev.thread t).halted = true →
       (s.toDev.thread t).haltAt + 2 ^ 44 ≤ s.toDev.ref →
       exec (.haltFrameTimeout t) s = .next (withDev s (((s.toDev.bump .PCA_REGION_DROP (regionOf t)).dropFrame id (32 + regionOf t)
         (Config.dropReason 10)).freeThread t))))

/-! ## Meridian time (chapter 02) -/

/-- R32 to R36: the four adjustments, when their parameters are in range and the Meridian is in the state they need; what
follows a step, gate lists and windows moved by it, follows a forward step alone. That the record of a TIME_STEP carries the
stamp before the step is the model's choice (log entry 23). -/
def Obligations.TimeAdjustments : Prop :=
  ∀ (s : State) (c : Cmd) (n : Nat) (a : Accepted) (p : Bytes) (e : Dev),
    let A := signedOf 64 (le p 0 8)
    let o := signedOf 32 (le p 0 4)
    let ppm := bitsOf (le32 p 4) 9 0
    let ns : Nat := 256 * stampUnit
    (Taken s.toDev 0x0201 c n a p e → e.mer.rateFits A = true →
      exec (.timeRate c) s = .next (withDev s
        (((e.setMer fun m => { m with rateA := A }).logTime 1 (unsignedOf 64 A)).replyOk n))) ∧
    (Taken s.toDev 0x0202 c n a p e → e.on? Fld.MER_CTRL_ENABLE = true → o.natAbs ≤ 256000000 → 1 ≤ ppm → ppm ≤ 1000 →
      let set := e.setMer fun m => { m with
        slewPpm := if o = 0 then 0 else if o < 0 then -(ppm : Int) else ppm, slewLeft := o * stampUnit }
      exec (.timeSlew c) s = .next (withDev s
        (((if o = 0 then set.set Fld.MER_STATUS_SLEW_DONE 0 1 else set).logTime 2 (unsignedOf 64 o)).replyOk n
          [toWord (unsignedOf 32 e.mer.slewRemain)]))) ∧
    (Taken s.toDev 0x0203 c n a p e → e.on? Fld.MER_CTRL_ENABLE = true → 0 ≤ o → o ≤ 1000000000 →
      let moved := ((e.logTime 3 (unsignedOf 64 o)).setMer fun m => { m with acc := m.acc + o.natAbs * ns }).set Fld.MER_STATUS_STEP_DONE 0 1
      exec (.timeStep c) s = .next (withDev s
        ((if o = 0 then moved else moved.gatesStepped.contourGates.lgStepped e.nowNs).replyOk n))) ∧
    (Taken s.toDev 0x0203 c n a p e → e.on? Fld.MER_CTRL_ENABLE = true → -1000000 ≤ o → o < 0 →
      e.mer.stepLeft + o.natAbs * ns ≤ 1000000 * ns →
      let begun := (e.logTime 3 (unsignedOf 64 o)).setMer fun m => { m with stepLeft := m.stepLeft + o.natAbs * ns, stepping := true }
      exec (.timeStep c) s = .next (withDev s (begun.replyOk n))) ∧
    (Taken s.toDev 0x0204 c n a p e → e.on? Fld.MER_CTRL_ENABLE = false →
      let held := ((e.wr .MER_LOAD 0 0 (le32 p 0)).wr .MER_LOAD 0 1 (le32 p 4)).wr .MER_LOAD 0 2 (le32 p 8)
      exec (.timeLoad c) s = .next (withDev s ((held.setMer fun m => { m with armed := true }).replyOk n)))

/-- R31, R33, R34, R38: the ends of a slew and of a backward step, and the loss and the return of the reference clock. R41,
R42: an output edge whose stamp has come raises the pin for the length of its pulse, and the pulse ends. That an edge which a
forward step skipped is made once, and the free length of a strobe of WIDTH 0, are the model's choices (log entry 16), and so
are the clock that counts the pulse and that an output edge writes no TIME_IO record (log entry 43). -/
def Obligations.TimeEventsAndPins : Prop :=
  (∀ (s : State), s.toDev.inReset = false →
     (s.toDev.mer.slewPpm ≠ 0 → s.toDev.mer.slewLeft = 0 →
       exec .slewEnd s = .next (withDev s ((s.toDev.setMer fun m => { m with slewPpm := 0 }).set Fld.MER_STATUS_SLEW_DONE 0 1))) ∧
     (s.toDev.mer.stepping = true → s.toDev.mer.stepLeft = 0 →
       exec .stepEnd s = .next (withDev s ((s.toDev.setMer fun m => { m with stepping := false }).set Fld.MER_STATUS_STEP_DONE 0 1))) ∧
     (s.toDev.on? Fld.MER_STATUS_REF_LOST = false →
       exec .refLost s = .next (withDev s ((s.toDev.set Fld.MER_STATUS_REF_LOST 0 1).logTime 7 0))) ∧
     exec .referenceClockReturn s = .next (withDev s (s.toDev.set Fld.MER_STATUS_REF_LOST 0 0))) ∧
  (∀ (s : State) (pin : Nat), s.toDev.inReset = false →
     let d := s.toDev
     (∀ t, d.nextEdge pin (d.pin pin).edgeFrom = some t → t ≤ d.now →
       let r := d.pulseLength pin
       exec (.tioOutputEdge pin) s = .next (withDev s ((r.2.setPin pin
         { r.2.pin pin with high := true, pulseEnd := d.ref + r.1, edgeFrom := d.now + 1 }).emit (.pin pin true t)))) ∧
     ((d.pin pin).high = true → (d.pin pin).pulseEnd ≤ d.ref →
       exec (.tioPulseEnd pin) s = .next (withDev s
         ((d.setPin pin { d.pin pin with high := false }).emit (.pin pin false d.now)))))

/-- R29, R33, R34, R404: what one cycle of 2 ns does while no command waits: nothing in a POWER_ON reset; else the reference
clock counts, a disabled Meridian stands still and an enabled one moves by the rate part and by the slew's part of either
sign, at most 2 ns x S, less what a backward step absorbs; with the rate and the slew each inside their 1,000 ppm it rises by
at least 31 units of 1/256 ns. The tick itself is the model's choice (log entry 1). -/
def Obligations.MeridianCycle : Prop :=
  ∀ (s : State), s.pending = [] →
    let m := s.toDev.mer
    (s.toDev.inReset = true → step s = .next s) ∧
    (s.toDev.inReset = false → s.toDev.on? Fld.MER_CTRL_ENABLE = false →
      ∃ t, step s = .next t ∧ t.pending = [] ∧ t.toDev.mer = { m with refCycles := m.refCycles + 1 }) ∧
    (s.toDev.inReset = false → s.toDev.on? Fld.MER_CTRL_ENABLE = true → m.rateA.natAbs ≤ 281474976710 → m.slewPpm.natAbs ≤ 1000 →
      ∃ t, step s = .next t ∧ t.pending = [] ∧ t.toDev.mer.refCycles = m.refCycles + 1 ∧
        (m.slewLeft = 0 → m.stepLeft = 0 → t.toDev.mer.acc = m.acc + m.ratePart) ∧
        (t.toDev.mer.acc : Int) + m.stepLeft + t.toDev.mer.slewLeft = m.acc + m.ratePart + m.slewLeft + t.toDev.mer.stepLeft ∧
        (m.slewLeft - t.toDev.mer.slewLeft).natAbs ≤ 2 * m.slewPpm.natAbs * 2 ^ 48 * 16 ∧
        (0 ≤ m.slewLeft * m.slewPpm → t.toDev.mer.slewLeft.natAbs ≤ m.slewLeft.natAbs) ∧
        t.toDev.mer.stepLeft ≤ m.stepLeft ∧
        m.acc + 31 * stampUnit ≤ t.toDev.mer.acc)

/-! ## Register accesses (chapter 17 and the rows of single registers) -/

/-- R3, R4, R417, R421: a 4-byte write that reaches a register takes each field under its own access code, has what follows a
write of that register, flags an RWD field that it would have changed, and is recorded and answered; an 8-byte one is two
accesses, the lower address first. R4, R419: a 4-byte read of a register that does not latch answers what the word holds, its
write-only bits as 0, and clears the RC bits that were 1 in the answer. -/
def Obligations.RegisterAccesses : Prop :=
  (∀ (s : State) (req : Requester) (loc l : Loc) (a : RegAt) (v : BitVec 64),
     let w : Word := v.setWidth 32
     (Reaches s.toDev req loc l a → locAligned loc 4 = true → a.reg ≠ .DBG_RESET_CTRL → a.reg ≠ .DBG_THREAD_GREG →
       a.reg ≠ .DBG_THREAD_PC →
       exec (.registerWrite req loc 4 v) s = .next (wrote s req l a w fun b =>
         b.afterWrite a ((s.toDev.noteJtag req).rd a.reg a.item a.word) w)) ∧
     (s.toDev.inReset = false → locAligned loc 8 = true →
       ∀ t, exec (.registerWrite req loc 4 v) s = .next t → t.toDev.inReset = false →
         exec (.registerWrite req loc 8 v) s = exec (.registerWrite req (nextWord loc) 4 (v >>> 32)) t)) ∧
  (∀ (s : State) (req : Requester) (loc l : Loc) (a : RegAt),
     Reaches s.toDev req loc l a → locAligned loc 4 = true → a.reg.latches = false → a.reg ≠ .MBX_SEND →
       let e := s.toDev.noteJtag req
       let acc := a.reg.access a.word
       let v := e.wordOf a &&& ~~~ (acc.wo ||| acc.w1p)
       exec (.registerRead req loc 4) s = .next (readOut s req v (
         if acc.rc &&& v = 0 then e else e.wr a.reg a.item a.word (e.rd a.reg a.item a.word &&& ~~~ (acc.rc &&& v)))))

/-- R3, R290, R311, R415, R416, R421: what answers a read and a write at a reserved location, of a size or alignment that R3
makes one, and at an unavailable target, by the requester, and what each leaves: the error capture and its count, and of a
write that is dropped the record with ERROR = 1. A function in D3hot is answered and nothing else happens; an aligned 8-byte
read is two reads. -/
def Obligations.AccessErrors : Prop :=
  ∀ (s : State) (req : Requester) (loc l : Loc), s.toDev.inReset = false → s.toDev.canAccess req = true → reach req loc = some l →
    let e := s.toDev.noteJtag req
    let answered (x : Dev) (r : Answer) := withDev s (x.emit (.answer req r))
    let bar : Nat := match l with
      | .msix .. => 1
      | _ => 0
    let recorded (x : Dev) (sp : Spot) (v : BitVec 64) : Dev :=
      if bar = 1 then x else x.logWrite req l (e.regSource l sp) (regFunction l sp) e.now (v.setWidth 32) false true
    let busError (f : Nat) : Dev :=
      let x := e.bump .HIF_BUS_ERR_COUNT
      if e.on? Fld.HIF_BUS_ERR_VALID then x.set Fld.HIF_BUS_ERR_MULTI 0 1
      else (x.wr .HIF_BUS_ERR 0 0 (toWord (2 ^ 31 + bar * 2 ^ 27 + f * 2 ^ 16))).wr .HIF_BUS_ERR_ADDR 0 0 (toWord (locOffset l))
    let domainError (b : Nat) (write : Bool) : Dev :=
      let x := e.bump .DBG_DOMAIN_ERR_COUNT
      let fn := match req, l with
        | .host f, _ => f
        | _, .page f _ => f
        | _, _ => 0
      let src := match req with
        | .host _ => 0
        | .core => 1
        | .jtag => 2
      if e.on? Fld.DBG_DOMAIN_ERR_VALID then x.set Fld.DBG_DOMAIN_ERR_MULTI 0 1
      else (x.wr .DBG_DOMAIN_ERR 0 0 (toWord (2 ^ 31 + src * 2 ^ 28 + b2n write * 2 ^ 27 + b * 2 ^ 17 + fn))).wr .DBG_DOMAIN_ERR_ADDR 0 0
        (toWord (locOffset l))
    e.standby = false →
    (∀ (size : Nat) (v : BitVec 64), (∀ f, req = .host f → (e.hif.cfg.getD f {}).d3hot = false) →
      (size = 8 → locAligned loc 8 = false) → (size = 4 → locAligned loc 4 = true → e.spotAt req l = .reserved) →
      exec (.registerRead req loc size) s = .next (answered e (match req with
        | .host _ => .unsupportedRequest
        | .core => .faultReserved
        | .jtag => .jtagError)) ∧
      exec (.registerWrite req loc size v) s = .next (match req with
        | .host f => answered (recorded (busError f) .reserved v) .done
        | .core => answered (recorded e .reserved v) .faultReserved
        | .jtag => answered (recorded e .reserved v) .jtagError)) ∧
    (∀ (a : RegAt) (b : Nat) (v : BitVec 64), locAligned loc 4 = true → e.spotAt req l = .reg a → e.hostBarred req (.reg a) = false →
      e.unavailable (.reg a) = some b →
      exec (.registerRead req loc 4) s = .next (answered (domainError b false) (match req with
        | .host _ => .completerAbort
        | .core => .faultOff
        | .jtag => .jtagError)) ∧
      exec (.registerWrite req loc 4 v) s = .next (answered (recorded (domainError b true) (.reg a) v) (match req with
        | .host _ => .done
        | .core => .faultOff
        | .jtag => .jtagError))) ∧
    (∀ (size f : Nat) (v : BitVec 64), req = .host f → (e.hif.cfg.getD f {}).d3hot = true → size ≠ 8 →
      exec (.registerRead req loc size) s = .next (answered e .unsupportedRequest) ∧
      exec (.registerWrite req loc size v) s = .next (answered e .done)) ∧
    (locAligned loc 8 = true → ∀ t, exec (.registerRead req loc 4) s = .next t → t.toDev.inReset = false →
      exec (.registerRead req loc 8) s = exec (.registerRead req (nextWord loc) 4) t)

/-- R80, R81, R89, R90: the thread controls, and the writes of a halted thread's registers; R68, R86: a write of ENABLE. That
HALT of a halted thread, and RESUME, STEP and ABANDON of one that is not halted, leave it alone, and that its own blocked
RESERVE takes none of the slots that ABANDON gives up, are the model's choices (log entry 44). -/
def Obligations.ThreadControls : Prop :=
  ∀ (s : State) (req : Requester) (t : Nat) (l : Loc), t < 512 →
    let c := devAt .DBG_THREAD_CTRL t
    (Reaches s.toDev req (regLoc .DBG_THREAD_CTRL t) l c →
      exec (.halt req t) s = .next (wrote s req l c 1 fun b => if (b.thread t).halted then b else b.haltThread t) ∧
      exec (.resume req t) s = .next (wrote s req l c 2 fun b => if (b.thread t).halted then
        ((b.updThread t fun x => { x with halted := false, stepping := false }).logExc t 0x101 (toWord t) 0).resumeReserve t else b) ∧
      exec (.step req t) s = .next (wrote s req l c 4 fun b => if (b.thread t).halted then
        ((b.updThread t fun x => { x with halted := false, stepping := true }).logExc t 0x102 (toWord t) 0).resumeReserve t else b) ∧
      exec (.abandon req t) s = .next (wrote s req l c 8 fun b => if (b.thread t).halted then
        (b.abandonHeld t).logExc t 0x103 (toWord t) 0 else b) ∧
      exec (.poke req t) s = .next (wrote s req l c 16 fun b => b.raise t 62)) ∧
    (∀ w : Word, Reaches s.toDev req (regLoc .PCA_THREAD_CTRL t) l (devAt .PCA_THREAD_CTRL t) →
      exec (.threadEnableWrite req t w) s = .next (wrote s req l (devAt .PCA_THREAD_CTRL t) w id)) ∧
    (let e := s.toDev.noteJtag req
     ∀ (k h : Nat) (w : Word), e.selectedHalted = some h →
      (k < 32 → Reaches s.toDev req (regLoc .DBG_THREAD_GREG k) l (devAt .DBG_THREAD_GREG k) →
        exec (.dbgThreadGregWrite req k w) s = .next (withDev s (((e.updThread h fun x => x.setReg k w).logWrite req l
          (e.regSource l (.reg (devAt .DBG_THREAD_GREG k))) (regFunction l (.reg (devAt .DBG_THREAD_GREG k))) e.now w false false).emit
            (.answer req .done)))) ∧
      (Reaches s.toDev req (regLoc .DBG_THREAD_PC 0) l (devAt .DBG_THREAD_PC 0) →
        exec (.dbgThreadPcWrite req w) s = .next (withDev s (((e.updThread h fun x => { x with pc := bitsOf w 13 0 }).logWrite req l
          (e.regSource l (.reg (devAt .DBG_THREAD_PC 0))) (regFunction l (.reg (devAt .DBG_THREAD_PC 0))) e.now w false false).emit
            (.answer req .done)))))

/-- R36, R78, R157, R162, R218, R361, R474: the writes that take an ENABLE bit from 0 to 1 or from 1 to 0, and what follows
each. R36, R58, R59: MER_LOAD and the enable of the Meridian, and the enable of the logbook. -/
def Obligations.Enables : Prop :=
  (∀ (s : State) (req : Requester) (n : Nat) (w : Word) (l : Loc),
     let d := s.toDev
     (n < 18 → Reaches d req (regLoc .PRT_PORT_CFG n) l (devAt .PRT_PORT_CFG n) →
       (w.getLsbD 31 = true → (d.rd .PRT_PORT_CFG n).getLsbD 31 = false →
         exec (.portEnable req n w) s = .next (wrote s req l (devAt .PRT_PORT_CFG n) w fun b =>
           let up := b.runMode n (b.modeOf n) false
           up.setPort n { up.port n with interval := b.ref, bitsRx := 0, bitsTx := 0 })) ∧
       (w.getLsbD 31 = false → (d.rd .PRT_PORT_CFG n).getLsbD 31 = true →
         exec (.portDisable req n w) s = .next (wrote s req l (devAt .PRT_PORT_CFG n) w fun b =>
           let down := ((b.linkFails n).set Fld.PRT_LINK_STAT_CUR_MODE n 0).set Fld.PRT_LINK_STAT_STEPPED n 0
           down.setPort n { down.port n with sent := ⟨[]⟩, stepAt := none }))) ∧
     (n < 64 → Reaches d req (regLoc .TBL_DESC_CFG n) l (devAt .TBL_DESC_CFG n) →
       (w.getLsbD 31 = true → (d.rd .TBL_DESC_CFG n).getLsbD 31 = false →
         exec (.tableEnable req n w) s = .next (wrote s req l (devAt .TBL_DESC_CFG n) w fun b => b.startClearing n)) ∧
       (w.getLsbD 31 = false → (d.rd .TBL_DESC_CFG n).getLsbD 31 = true →
         exec (.tableDisable req n w) s = .next (wrote s req l (devAt .TBL_DESC_CFG n) w id))) ∧
     (Reaches d req (regLoc .TBL_CTRL 0) l (devAt .TBL_CTRL 0) →
       (w.getLsbD 31 = true → (d.rd .TBL_CTRL).getLsbD 31 = false →
         exec (.tableEngineEnable req w) s = .next (wrote s req l (devAt .TBL_CTRL 0) w fun b =>
           b.setTbl fun x => { x with scan := some (b.ref, 0), lastPass := some b.ref, passCfg := b.rd .TBL_AGE_CFG })) ∧
       (w.getLsbD 31 = false → (d.rd .TBL_CTRL).getLsbD 31 = true →
         exec (.tableEngineDisable req w) s = .next (wrote s req l (devAt .TBL_CTRL 0) w fun b =>
           b.setTbl fun x => { x with scan := none, learnQ := [] }))) ∧
     (n < 8192 → Reaches d req (regLoc .TMG_SHAPER_CTRL n) l (devAt .TMG_SHAPER_CTRL n) →
       (w.getLsbD 31 = true → (d.rd .TMG_SHAPER_CTRL n).getLsbD 31 = false →
         exec (.shaperEnable req n w) s = .next (wrote s req l (devAt .TMG_SHAPER_CTRL n) w fun b => b.setShaper n
           { b.shaper n with credit := if b.on? Fld.TMG_SHAPER_CTRL_CREDIT_INIT n then b.get Fld.TMG_SHAPER_HI_HI_LIMIT n * 204800000 else 0 })) ∧
       (w.getLsbD 31 = false → (d.rd .TMG_SHAPER_CTRL n).getLsbD 31 = true →
         exec (.shaperDisable req n w) s = .next (wrote s req l (devAt .TMG_SHAPER_CTRL n) w id))) ∧
     (n < 128 → Reaches d req (regLoc .PCA_CHAN_CFG n) l (devAt .PCA_CHAN_CFG n) → w.getLsbD 31 = false →
       exec (.channelDisable req n w) s = .next (wrote s req l (devAt .PCA_CHAN_CFG n) w fun b => b.chanDisable n))) ∧
  (∀ (s : State) (req : Requester) (n : Nat) (w : Word) (l : Loc),
     let d := s.toDev
     (n < 3 → d.on? Fld.MER_CTRL_ENABLE = false → Reaches d req (regLoc .MER_LOAD 0 n) l (devAt .MER_LOAD 0 n) →
       exec (.merLoadWrite req n w) s = .next (wrote s req l (devAt .MER_LOAD 0 n) w fun b => b.setMer fun m => { m with armed := true })) ∧
     (Reaches d req (regLoc .MER_CTRL 0) l (devAt .MER_CTRL 0) →
       (w.getLsbD 0 = true → (d.rd .MER_CTRL).getLsbD 0 = false →
         exec (.meridianEnable req w) s = .next (wrote s req l (devAt .MER_CTRL 0) w fun b =>
           let t := stampOf (b.rd .MER_LOAD 0 0) (b.rd .MER_LOAD 0 1) (b.rd .MER_LOAD 0 2)
           if b.mer.armed then
             ((b.setMer fun m => { m with acc := t * stampUnit, armed := false }).pinsFrom t).windowsFrom.logTime 4 (nsOf t)
           else b.logTime 5 b.nowNs)) ∧
       (w.getLsbD 0 = false → (d.rd .MER_CTRL).getLsbD 0 = true →
         exec (.meridianDisable req w) s = .next (wrote s req l (devAt .MER_CTRL 0) w fun b =>
           (b.setMer fun m => { m with slewPpm := 0, slewLeft := 0, stepLeft := 0, stepping := false }).logTime 6
             (unsignedOf 32 b.mer.slewRemain + 2 ^ 32 * b.mer.stepRemain)))) ∧
     (Reaches d req (regLoc .DBG_LOG_CTRL 0) l (devAt .DBG_LOG_CTRL 0) → w.getLsbD 31 = true →
       (d.rd .DBG_LOG_CTRL).getLsbD 31 = false →
       exec (.logbookEnable req w) s = .next (wrote s req l (devAt .DBG_LOG_CTRL 0) w fun b =>
         ({ b with log := { b.log with filled := 0 } } : Dev).set Fld.DBG_LOG_CTRL_STOPPED 0 0)))

/-- R30, R32, R36, R42, R43, R233, R329, R355, R420: a read of word +0x0 of a register that latches answers its first word and
keeps all of them for the reads of the later words; a read of MER_TIO_STAMP removes the oldest stamp, and an empty FIFO reads
as zeros. -/
def Obligations.LatchingReads : Prop :=
  ∀ (s : State) (req : Requester) (n : Nat) (l : Loc),
    let e := s.toDev.noteJtag req
    (Reaches s.toDev req (regLoc .MER_NOW 0) l (devAt .MER_NOW 0) →
      exec (.merNowRead req) s = .next (readOut s req (BitVec.ofNat 32 e.now) (e.keepLatched (devAt .MER_NOW 0) (stampWords e.now)))) ∧
    (∀ r, r = .MER_LOAD ∨ r = .MER_TIO_TARGET ∧ n < 4 → (r = .MER_LOAD → n = 0) → Reaches s.toDev req (regLoc r n) l (devAt r n) →
      exec (.registerRead req (regLoc r n) 4) s = .next (readOut s req (e.rd r n) (e.keepLatched (devAt r n)
        ((List.range 3).map fun w => e.rd r n w)))) ∧
    (Reaches s.toDev req (regLoc .MER_RATE_ADJ 0) l (devAt .MER_RATE_ADJ 0) →
      let A := unsignedOf 64 e.mer.rateA
      exec (.merRateAdjRead req) s = .next (readOut s req (toWord A) (e.keepLatched (devAt .MER_RATE_ADJ 0) [toWord A, toWord (A / 2 ^ 32)]))) ∧
    (n < 4 → Reaches s.toDev req (regLoc .MER_TIO_STAMP n) l (devAt .MER_TIO_STAMP n) →
      ((e.pin n).fifo = [] →
        exec (.merTioStampRead req n) s = .next (readOut s req 0 (e.keepLatched (devAt .MER_TIO_STAMP n) [0, 0, 0]))) ∧
      (∀ t rest, (e.pin n).fifo = t :: rest →
        exec (.merTioStampRead req n) s = .next (readOut s req (BitVec.ofNat 32 t)
          ((e.setPin n { e.pin n with fifo := rest }).keepLatched (devAt .MER_TIO_STAMP n) (stampWords t))))) ∧
    (n < 18 → Reaches s.toDev req (regLoc .TMG_GATE_STAT n) l (devAt .TMG_GATE_STAT n) →
      let v := (e.gateStat n).headD 0
      exec (.tmgGateStatRead req n) s = .next (readOut s req v ((e.clearRead (devAt .TMG_GATE_STAT n) v).keepLatched
        (devAt .TMG_GATE_STAT n) (e.gateStat n)))) ∧
    (n < 1024 → Reaches s.toDev req (regLoc .FNC_GEN_REC n) l (devAt .FNC_GEN_REC n) →
      exec (.fncGenRecRead req n) s = .next (readOut s req (e.rd .FNC_GEN_REC n) (e.keepLatched (devAt .FNC_GEN_REC n)
        ((List.range 4).map fun w => e.rd .FNC_GEN_REC n w)))) ∧
    (Reaches s.toDev req (pageLoc n .MBX_RX_STAMP 0) l (pageAt s.toDev n .MBX_RX_STAMP) →
      let t := (((e.box n).head?).map (·.stamp)).getD 0
      exec (.mbxRxStampRead req n) s = .next (readOut s req (BitVec.ofNat 32 t)
        (e.keepLatched (pageAt s.toDev n .MBX_RX_STAMP) (stampWords t))))

/-- R248, R306: the doorbells and completion heads of a queue pair and of an administration queue. A tail further ahead than
the ring is long changes nothing but the error it flags. R296, R306: writes of ENABLE of a queue pair and of an administration
queue; ENABLE = 1 starts a queue pair or an administration queue anew, whose write-back is zeroed, and ENABLE = 0 ends the
receive descriptors that a queue pair has fetched (the model's choice, log entry 51). -/
def Obligations.DoorbellsAndQueues : Prop :=
  (∀ (s : State) (req : Requester) (f n : Nat) (w : Word) (l : Loc),
     let e := s.toDev.noteJtag req
     (n < 64 → Reaches s.toDev req (pageLoc f .HIF_TX_TAIL n) l (pageAt e f .HIF_TX_TAIL n) →
       let b := stored e (pageAt e f .HIF_TX_TAIL n) w
       let q := b.qpBase f + n
       b.fnState f ≠ 1 → b.on? Fld.HIF_QP_CTX_ENABLE q = true →
       exec (.txDoorbell req f n w) s = .next (wrote s req l (pageAt e f .HIF_TX_TAIL n) w fun _ =>
         if sub32 w.toNat (b.qp q).txTail ≤ b.txSize q then b.setQp q { b.qp q with txTail := w.toNat }
         else b.doorbellError f (4 * n))) ∧
     (n < 64 → Reaches s.toDev req (pageLoc f .HIF_RX_TAIL n) l (pageAt e f .HIF_RX_TAIL n) →
       let b := stored e (pageAt e f .HIF_RX_TAIL n) w
       let q := b.qpBase f + n
       b.fnState f ≠ 1 → b.on? Fld.HIF_QP_CTX_ENABLE q = true →
       exec (.rxDoorbell req f n w) s = .next (wrote s req l (pageAt e f .HIF_RX_TAIL n) w fun _ =>
         if sub32 w.toNat (b.qp q).rxTail ≤ b.rxSize q then b.setQp q { b.qp q with rxTail := w.toNat }
         else b.doorbellError f (0x100 + 4 * n))) ∧
     (n < 64 → Reaches s.toDev req (pageLoc f .HIF_TXC_HEAD n) l (pageAt e f .HIF_TXC_HEAD n) →
       let b := stored e (pageAt e f .HIF_TXC_HEAD n) w
       let q := b.qpBase f + n
       b.fnState f ≠ 1 →
       exec (.txcHeadWrite req f n w) s = .next (wrote s req l (pageAt e f .HIF_TXC_HEAD n) w fun _ =>
         b.setQp q { b.qp q with txcHead := w.toNat })) ∧
     (n < 64 → Reaches s.toDev req (pageLoc f .HIF_RXC_HEAD n) l (pageAt e f .HIF_RXC_HEAD n) →
       let b := stored e (pageAt e f .HIF_RXC_HEAD n) w
       let q := b.qpBase f + n
       b.fnState f ≠ 1 →
       exec (.rxcHeadWrite req f n w) s = .next (wrote s req l (pageAt e f .HIF_RXC_HEAD n) w fun _ =>
         b.setQp q { b.qp q with rxcHead := w.toNat })) ∧
     (Reaches s.toDev req (pageLoc f .HIF_AQ_TAIL 0) l (pageAt e f .HIF_AQ_TAIL) →
       let b := stored e (pageAt e f .HIF_AQ_TAIL) w
       let q := b.hif.aqs.getD f {}
       b.fnState f ≠ 1 → b.on? Fld.HIF_AQ_CFG_ENABLE f = true →
       exec (.aqDoorbell req f w) s = .next (wrote s req l (pageAt e f .HIF_AQ_TAIL) w fun _ =>
         if sub32 w.toNat q.tail ≤ b.aqSize f then b.setAq f { q with tail := w.toNat } else b.doorbellError f 0x400)) ∧
     (Reaches s.toDev req (pageLoc f .HIF_AQC_HEAD 0) l (pageAt e f .HIF_AQC_HEAD) →
       let b := stored e (pageAt e f .HIF_AQC_HEAD) w
       b.fnState f ≠ 1 →
       exec (.aqcHeadWrite req f w) s = .next (wrote s req l (pageAt e f .HIF_AQC_HEAD) w fun _ =>
         b.setAq f { b.hif.aqs.getD f {} with head := w.toNat }))) ∧
  (∀ (s : State) (req : Requester) (f n : Nat) (w : Word) (l : Loc),
     let e := s.toDev.noteJtag req
     let q := e.qpBase f + n
     (n < 64 → Reaches s.toDev req (pageLoc f .HIF_QP_CTX n) l (pageAt e f .HIF_QP_CTX n) →
       (w.getLsbD 31 = true →
         exec (.qpEnable req f n w) s = .next (wrote s req l (pageAt e f .HIF_QP_CTX n) w fun b => b.qpRestart f q)) ∧
       (w.getLsbD 31 = false →
         exec (.qpDisable req f n w) s = .next (wrote s req l (pageAt e f .HIF_QP_CTX n) w fun b => b.dropRx q))) ∧
     (f < 4 → Reaches s.toDev req (pageLoc f .HIF_AQ_CFG 0) l (pageAt e f .HIF_AQ_CFG) →
       exec (.aqEnable req f w) s = .next (wrote s req l (pageAt e f .HIF_AQ_CFG) w fun b =>
         if w.getLsbD 31 then
           (b.setAq f {}).hostOut f (.hostWrite f ((b.rd .HIF_AQ_CFG f 6).toNat + 2 ^ 32 * (b.rd .HIF_AQ_CFG f 7).toNat) (bytesLE 4 0))
         else b)))

/-- R346 to R349, R355, R356: a read of MBX_SEND that finds room sends the message and answers OK; a post does the same
without an answer, and is held where the receiver's domain is off; a ring sets doorbell bits of the receiver; RX_POP removes
the message at the head. -/
def Obligations.MailboxAccesses : Prop :=
  ∀ (s : State) (req : Requester) (f : Nat) (w : Word) (l : Loc),
    let e := s.toDev.noteJtag req
    (Reaches s.toDev req (pageLoc f .MBX_SEND 0) l (pageAt e f .MBX_SEND) → e.sendRefusal f = none → e.mailDomain (e.txDest f) = true →
      e.hasRoom f (e.txDest f) = true → e.postHeld f (e.txDest f) = false →
      exec (.mbxSend req f) s = .next (readOut s req 0 (e.send f (e.txDest f) (e.txKind f) (e.txBytes f) false))) ∧
    (Reaches s.toDev req (pageLoc f .MBX_POST 0) l (pageAt e f .MBX_POST) →
      let b := stored e (pageAt e f .MBX_POST) w
      b.sendRefusal f = none → b.mailDomain (b.txDest f) = true → b.hasRoom f (b.txDest f) = true → b.postHeld f (b.txDest f) = false →
      exec (.mbxPost req f w) s = .next (wrote s req l (pageAt e f .MBX_POST) w fun _ =>
        (b.send f (b.txDest f) (b.txKind f) (b.txBytes f) false).controlFollows)) ∧
    (Reaches s.toDev req (pageLoc f .MBX_POST 0) l (pageAt e f .MBX_POST) →
      let b := stored e (pageAt e f .MBX_POST) w
      let r := b.txDest f
      b.sendRefusal f = none → b.mailDomain r = false → b.mbx.holding.length < 1024 →
      let p : HeldPost :=
        { sender := f, receiver := r, kind := b.txKind f, bytes := b.txBytes f, senderGen := b.mbxGen f, receiverGen := b.mbxGen r }
      let held := b.setHolding (b.mbx.holding ++ [p])
      exec (.mbxPost req f w) s = .next (wrote s req l (pageAt e f .MBX_POST) w fun _ =>
        (if r < 1024 then held else held.bump .MBX_HOLD_WAKES).controlFollows)) ∧
    (Reaches s.toDev req (pageLoc f .MBX_RING 0) l (pageAt e f .MBX_RING) →
      let b := stored e (pageAt e f .MBX_RING) w
      let r := b.txDest f
      r < 1024 → b.mayMail f r 1 = true →
      exec (.mbxRing req f w) s = .next (wrote s req l (pageAt e f .MBX_RING) w fun _ =>
        let rung := (b.wr .MBX_DOORBELL r 0 (b.rd .MBX_DOORBELL r ||| w)).logMail f r (b.gen f) (b.gen r) 0 b.now
        if b.on? Fld.MBX_CFG_DB_IRQ_EN r then rung.interrupt r (b.get Fld.MBX_CFG_VEC r) else rung)) ∧
    (Reaches s.toDev req (pageLoc f .MBX_RX_POP 0) l (pageAt e f .MBX_RX_POP) → w.getLsbD 0 = true →
      exec (.mbxRxPop req f w) s = .next (wrote s req l (pageAt e f .MBX_RX_POP) w fun b => b.setBox f ((b.box f).drop 1)))

/-! ## Firmware, trust and identity (chapters 14 and 18) -/

/-- R341, R352, R431: the device commands. NOP replies OK; DEV_INFO and FW_STATE reply 32 and 16 bytes that the manual does
not lay out (free values, log entry 37), where a piece of FW_STAGE that ends beyond the slot is BAD_PARAM too; a piece that
can be read is written to the slot that does not run, and the last one has the image verified; DEV_RESET replies before the
reset (log entry 39). These three are the model's choices. -/
def Obligations.DeviceCommands : Prop :=
  ∀ (s : State) (c : Cmd) (n : Nat) (a : Accepted) (p : Bytes) (e : Dev),
    (Taken s.toDev 0x0100 c n a p e → exec (.nop c) s = .next (withDev s (e.reply n .ok []))) ∧
    (Taken s.toDev 0x0101 c n a p e → exec (.devInfo c) s = .next (withDev s
      (({ e with fresh := e.fresh + 1 } : Dev).reply n .ok ((List.range 32).map (Config.freeByte e.fresh))))) ∧
    (Taken s.toDev 0x0104 c n a p e → exec (.fwState c) s = .next (withDev s
      (({ e with fresh := e.fresh + 1 } : Dev).reply n .ok ((List.range 16).map (Config.freeByte e.fresh))))) ∧
    (Taken s.toDev 0x0102 c n a p e →
      let first := (le32 p 0).getLsbD 31
      let last := (le32 p 0).getLsbD 30
      let off := (le32 p 4).toNat
      let len := (le32 p 16).toNat
      let f := ((e.vcl.cmds.look? n).map (·.cmd.issuer)).getD 0
      (∀ data, 65536 < len ∨ 0x1000000 < off + len → exec (.fwStage c data) s = .next (withDev s (e.reply n .badParam))) ∧
      (∀ (g : Dev) (bs : Bytes), len ≤ 65536 → off + len ≤ 0x1000000 → e.ownReach f [(le p 8 8, len)] = (.ready, g) →
        let r := g.putReads f [(le p 8 8, len)]
        let old : Bytes := if first then [] else r.norSlot r.stageSlot
        let wide := old ++ List.replicate (off - old.length) 0xFF
        let staged := (r.setSec fun x =>
          { x with nor := x.nor.put r.stageSlot (wide.take off ++ sized len bs ++ wide.drop (off + len)) }).set Fld.VCL_FW_STATE_STAGED 0 0
        exec (.fwStage c none) s = .next (withDev s ((r.hostError f).reply n .hostErr)) ∧
        exec (.fwStage c (some bs)) s = .next (withDev s (
          if last = false then staged.replyOk n
          else if staged.mramBad 0x2000 0x3000 then staged.reply n .badState
          else if staged.imageOk r.stageSlot = false then staged.reply n .verifyFail
          else if staged.on? Fld.SEC_STAT_RECOVERY = false then (staged.set Fld.VCL_FW_STATE_STAGED 0 1).replyOk n
          else if staged.railsGood then ((staged.setMram fun m => m.setWord 0 0).set Fld.VCL_FW_STATE_STAGED 0 1).replyOk n
          else staged.wait n)))) ∧
    (Taken s.toDev 0x0105 c n a p e →
      exec (.devReset c) s = .next (withDev s ((e.replyOk n).afterReset false 0x80000000)))

/-- R352 to R354, R390, R431: FW_ACTIVATE of a staged image that verifies names its slot and starts the switch; at S + 10 ms
what is left ends with RESTARTED and the generation of block 24 rises; then the other image runs, replies and sends
FW_SWITCHED, once no rail warning holds up a raise of MIN_SVN. R390, R430, R431: the boot ROM starts the image of BOOT_SLOT if
it verifies, else the other and says BOOT_FALLBACK, else RECOVERY; the events that rails owe are sent once firmware runs.
While a rail is in warning an image that would raise MIN_SVN is not started. -/
def Obligations.FirmwareStart : Prop :=
  (∀ (s : State),
     (∀ (c : Cmd) (n : Nat) (a : Accepted) (p : Bytes) (e : Dev), Taken s.toDev 0x0103 c n a p e →
       let chosen := (e.setMram fun m => m.setWord 0 e.stageSlot).commit n
       exec (.fwActivate c) s = .next (withDev s (
         if e.on? Fld.VCL_FW_STATE_STAGED = false then e.reply n .badState
         else if e.mramBad 0x2000 0x3000 then e.reply n .badState
         else if e.imageOk e.stageSlot = false then e.reply n .verifyFail
         else if e.railsGood then { chosen with vcl := { chosen.vcl with switch := some { start := chosen.ref, cmd := n, stopped := false } } }
         else e.wait n))) ∧
     (∀ w, s.toDev.inReset = false → s.toDev.vcl.switch = some w → w.stopped = false → w.start + 10000000 ≤ s.toDev.ref →
       let ended := ((s.toDev.restartCommands w.cmd).dropSlow).raiseBlockGen 24
       exec .fwSwitchTimeout s = .next (withDev s { ended with vcl := { ended.vcl with switch := some { w with stopped := true } } })) ∧
     (∀ w, s.toDev.inReset = false → s.toDev.vcl.switch = some w → w.stopped = true →
       let started := s.toDev.startImage (1 - s.toDev.image)
       let e : Dev := { started with vcl := { started.vcl with switch := none } }
       (s.toDev.mayStart (1 - s.toDev.image) = true → exec .fwSwitchComplete s = .next (withDev s
         ((e.replyOk w.cmd [toWord e.image]).eventPfs 0x8008 (wordBytes [toWord e.image, toWord (e.blockGen 24)])).railEvents)) ∧
       (s.toDev.mayStart (1 - s.toDev.image) = false → exec .fwSwitchComplete s = .next s))) ∧
  (∀ (s : State), s.toDev.inReset = false → s.toDev.vcl.up = false → s.toDev.on? Fld.SEC_STAT_RECOVERY = false →
     s.toDev.on? Fld.PWR_STAT_POR_DONE = true →
     let d := s.toDev
     let slot := d.sec.mram.bootSlot
     exec .boot s = .next (
       if d.imageOk slot then (if d.mayStart slot then withDev s (d.startImage slot).railEvents else s)
       else if d.imageOk (1 - slot) then
         (if d.mayStart (1 - slot) then withDev s ((d.startImage (1 - slot)).set Fld.SEC_STAT_BOOT_FALLBACK 0 1).railEvents else s)
       else withDev s (d.set Fld.SEC_STAT_RECOVERY 0 1)))

/-- R390, R437 to R441: an ATTEST that finds tokens, a key ready and no ATTEST that waits spends one token of each bucket, one
signing index and its ring word, and gives the report; the ends of a key's generation, of the authentication path's rebuilding
and of a refill interval. That buckets start full and that the last report is kept for each transport are the model's choices
(log entry 35). R445: TRNG_READ replies random bytes (free values, log entry 2); the DRBG is reseeded every 1 ms while the
source is healthy; a failed health test sets TRNG_FAIL, which a later test that passes clears. -/
def Obligations.AttestationAndRandom : Prop :=
  (∀ (s : State),
     (∀ (c : Cmd) (n : Nat) (a : Accepted) (p : Bytes) (e : Dev) (ok : Bool), Taken s.toDev 0x0E01 c n a p e →
       (a.cmd.via.oob = true → attestAddr p = 0) → (le32 p 0).getLsbD 31 = false → e.sec.pkgTokens ≠ 0 → e.fnTokens a.fn ≠ 0 →
       e.nextIndex < 2 ^ 30 → (∀ r ∈ e.attestReads a p, e.mramBad r.1 r.2 = false) → e.mayProceed = true → e.sec.attests = [] →
       let paid := e.setSec fun x =>
         { x with pkgTokens := x.pkgTokens - 1, fnMissing := x.fnMissing.putD 0 a.fn (x.fnMissing.getD a.fn 0 + 1) }
       let spent := ((paid.setMram fun m => { m with
           ring := m.ring.put (e.nextIndex % 64) (ringWord e.nextIndex),
           failed := m.failed.erase (0x1000 + 8 * (e.nextIndex % 64)) }).wr .SEC_SIGN_INDEX 0 0 (toWord (e.nextIndex + 1))).startKeygen
       let rep := spent.report a p e.nextIndex
       let kept := (spent.bump .SEC_SIGN_COUNT).setSec fun x => { x with reports := x.reports.put a.cmd.via.code rep }
       exec (.attest c ok) s = .next (withDev s (
         if attestAddr p = 0 then kept.reply n .ok ((rep.drop (le32 p 4).toNat).take (a.cmd.via.largest - 32))
         else if ok then (kept.hostPut a.cmd.issuer (attestAddr p) rep).replyOk n [toWord rep.length]
         else kept.reply n .hostErr))) ∧
     (s.toDev.inReset = false →
       (∀ k, s.toDev.sec.keygen = some k →
         (s.toDev.railsGood = true → exec .keygenDone s = .next (withDev s ((((s.toDev.setSec fun x =>
           { x with keygen := none, mram := x.mram.writeCache k }).set Fld.SEC_STAT_KEYGEN_BUSY 0 0).startKeygen).attestResume))) ∧
         (s.toDev.railsGood = false → exec .keygenDone s = .next s)) ∧
       (s.toDev.vcl.up = true →
         exec .signReady s = .next (withDev s ((s.toDev.set Fld.SEC_STAT_SIGN_READY 0 1).startKeygen.attestResume))) ∧
       (s.toDev.sec.pkgAt + s.toDev.pkgInterval ≤ s.toDev.ref →
         exec (.tokenRefill none) s = .next (withDev s (s.toDev.setSec fun x =>
           { x with pkgAt := x.pkgAt + s.toDev.pkgInterval, pkgTokens := min 4096 (x.pkgTokens + 1) }))) ∧
       (∀ f, f < 1024 → s.toDev.sec.fnAt.getD f s.toDev.sec.fnFrom + s.toDev.fnInterval ≤ s.toDev.ref →
         exec (.tokenRefill (some f)) s = .next (withDev s (s.toDev.setSec fun x =>
           { x with fnAt := x.fnAt.put f (x.fnAt.getD f x.fnFrom + s.toDev.fnInterval),
                    fnMissing := x.fnMissing.putD 0 f (x.fnMissing.getD f 0 - 1) }))))) ∧
  (∀ (s : State),
     (∀ (c : Cmd) (n : Nat) (a : Accepted) (p : Bytes) (e : Dev), Taken s.toDev 0x0E06 c n a p e →
       let k := bitsOf (le32 p 0) 6 0
       1 ≤ k → k ≤ 64 → e.on? Fld.SEC_STAT_TRNG_FAIL = false →
       exec (.trngRead c) s = .next (withDev s
         (({ e with fresh := e.fresh + 1 } : Dev).reply n .ok ((List.range k).map (Config.freeByte e.fresh))))) ∧
     (s.toDev.inReset = false →
       (s.toDev.on? Fld.SEC_STAT_TRNG_FAIL = false → s.toDev.sec.drbgAt + 1000000 ≤ s.toDev.ref →
         exec .drbgReseed s = .next (withDev s (s.toDev.setSec fun x => { x with drbgAt := s.toDev.ref, drbgCount := x.drbgCount + 1 }))) ∧
       exec .trngHealthFail s = .next (withDev s ((((s.toDev.set Fld.SEC_STAT_TRNG_FAIL 0 1).bump .SEC_TRNG_FAIL_CNT).setSec fun x =>
         { x with trngAt := s.toDev.ref }).logNow 0x12 50 none 0x700 0 0)) ∧
       (∀ pass, s.toDev.on? Fld.SEC_STAT_TRNG_FAIL = true → s.toDev.sec.trngAt + 1000000000 ≤ s.toDev.ref →
         exec (.trngRetest pass) s = .next (withDev s ((if pass then s.toDev.set Fld.SEC_STAT_TRNG_FAIL 0 0 else s.toDev).setSec fun x =>
           { x with trngAt := s.toDev.ref })))))

/-- R328, R432 to R434, R442 to R444: the writes of the cartouches, of the owner record, by an owner's signature where there
is one, and of the keys wrapped under it, when the MRAM words they read are good and no rail is in warning. A secret is sealed
under the MRAM key and reads back as it was; a cartouche is written to the copy that its selector does not name, and the
selector changes. -/
def Obligations.TrustWrites : Prop :=
  (∀ iv plain, (sealed iv plain).plain = plain) ∧
  (∀ (m : Mram) (f : Nat) (new : Bytes),
    let w := m.writeCartouche new
    let x := m.writeFcartouche f new
    w.selector = !m.selector ∧ w.cartouche.now w.selector = new ∧ w.cartouche.now m.selector = m.cartouche.now m.selector ∧
    x.fselector f = !m.fselector f ∧ (x.fcartouches.getD f {}).now (x.fselector f) = new ∧
    (∀ g, g ≠ f → x.fcartouches.getD g {} = m.fcartouches.getD g {} ∧ x.fselector g = m.fselector g)) ∧
  ∀ (s : State) (c : Cmd) (n : Nat) (a : Accepted) (p : Bytes) (e : Dev), e.railsGood = true →
    (Taken s.toDev 0x0E02 c n a p e → e.mramBad (cartoucheAt e.sec.mram.selector) (cartoucheAt e.sec.mram.selector + 1024) = false →
      let off := bitsOf (le32 p 0) 9 0
      let len := (le32 p 4).toNat
      off % 8 = 0 → len % 8 = 0 → off + len ≤ 1024 →
      exec (.cartoucheWrite c) s = .next (withDev s (
        if len = 0 then e.reply n .ok ((e.cartouche.drop off).take (a.cmd.via.largest - 32))
        else (e.setMram fun m => m.writeCartouche (overwrite e.cartouche off ((p.drop 8).take len))).replyOk n))) ∧
    (let f := bitsOf (le32 p 0) 9 0
     Taken s.toDev 0x0E03 c n a p e → pfOf f = a.cmd.issuer → e.exists? f = true →
      exec (.fcartoucheWrite c) s = .next (withDev s ((e.setFcartouche f (slice p 4 64)).replyOk n))) ∧
    (Taken s.toDev 0x0E04 c n a p e → e.mramBad 0x2000 0x3000 = false →
      let len := (le32 p 4).toNat
      let pay := (p.drop 8).take len
      let signed := bytesLE 4 e.sec.mram.ownerSeq.toNat ++ bytesLE 16 Config.deviceId
      (e.owner? = none → (le32 p 0).getLsbD 31 = false → len = 100 →
        exec (.ownerKeySet c) s = .next (withDev s ((e.setOwner (some { pub := pay.take 68, wrap := pay.drop 68 })).replyOk n))) ∧
      (∀ o, e.owner? = some o → (le32 p 0).getLsbD 31 = false → len = 2928 →
        exec (.ownerKeySet c) s = .next (withDev s (
          if xmssVerify o.pub (signed ++ pay.take 108) (pay.drop 108) then
            match aesUnwrap o.wrap (slice pay 68 40) with
            | none => e.reply n .authFail
            | some w => (e.setOwner (some { pub := pay.take 68, wrap := w })).replyOk n
          else e.reply n .authFail))) ∧
      (∀ o, e.owner? = some o → (le32 p 0).getLsbD 31 = true → len = 2820 →
        exec (.ownerKeySet c) s = .next (withDev s (
          if xmssVerify o.pub signed pay then (e.setOwner none).replyOk n else e.reply n .authFail)))) ∧
    (∀ o : Owner, e.mramBad 0x2000 0x4000 = false → e.owner? = some o →
      (Taken s.toDev 0x0E05 c n a p e → bitsOf (le32 p 0) 7 0 < 4 →
        let kid := bitsOf (le32 p 0) 7 0
        ((le32 p 0).getLsbD 31 = false → (le32 p 4).toNat = 40 →
          exec (.mgmtKeySet c) s = .next (withDev s (
            match aesUnwrap o.wrap (slice p 8 40) with
            | none => e.reply n .authFail
            | some key => (e.setMgmtKey kid (some key)).replyOk n))) ∧
        ((le32 p 0).getLsbD 31 = true → (le32 p 4).toNat = 0 →
          exec (.mgmtKeySet c) s = .next (withDev s ((e.setMgmtKey kid none).replyOk n)))) ∧
      (Taken s.toDev 0x0B06 c n a p e →
        let dom := (le32 p 4).toNat
        ((le32 p 0).getLsbD 31 = false → (le32 p 8).toNat = 40 →
          exec (.migDomainSet c) s = .next (withDev s (
            match aesUnwrap o.wrap (slice p 12 40) with
            | none => e.reply n .authFail
            | some key =>
              if e.sec.mram.domains.look? dom = none ∧ 4 ≤ e.sec.mram.domains.size then e.reply n .tableFull
              else (e.setDomain dom (some key)).replyOk n))) ∧
        ((le32 p 0).getLsbD 31 = true → (le32 p 8).toNat = 0 →
          exec (.migDomainSet c) s = .next (withDev s ((e.setDomain dom none).replyOk n)))))

/-! ## The slow path, held posts, SMBus and the management VLAN (chapter 14) -/

/-- R343, R345: SLOW_VERDICT's three actions on a frame that the firmware still holds for the function, a HANDLE whose time
has ended, and that end. The reason codes of the drops are open (log entry 3); that a HANDLE of another owner is unknown is
the model's choice (log entry 23). R348, R349: the oldest held post of a sender for a receiver that is on and has room is
delivered with the present stamp and the generations of its posting. -/
def Obligations.Mail : Prop :=
  (∀ (s : State),
     (∀ (c : Cmd) (n : Nat) (a : Accepted) (p : Bytes) (e : Dev) (x : SlowEnt) (f : Frame), Taken s.toDev 0x1001 c n a p e →
       let h := (le32 p 0).toNat
       let action := bitsOf (le32 p 4) 1 0
       let q := bitsOf (le32 p 4) 21 16
       e.vcl.slow.look? h = some x →
       (x.owner ≠ a.fn → exec (.slowVerdict c) s = .next (withDev s (e.reply n .notFound))) ∧
       (x.owner = a.fn → x.deadline ≤ e.ref → exec (.slowVerdict c) s = .next (withDev s ((((e.unslow h).bump .VCL_SLOW_DROP x.owner).dropFrame
         x.frame 45 (Config.dropReason 29)).reply n .notFound))) ∧
       (x.owner = a.fn → e.ref < x.deadline → e.frame? x.frame = some f → e.staleFrame f = false →
       (action = 0 → exec (.slowVerdict c) s = .next (withDev s ((e.slowDrop h x (Config.dropReason 28)).replyOk n))) ∧
       (action = 1 → exec (.slowVerdict c) s = .next (withDev s (((e.unslow h).reinject x.frame f).replyOk n))) ∧
       (action = 2 → q < e.qpCount a.fn →
         exec (.slowVerdict c) s = .next (withDev s (((e.unslow h).slowDeliver x.frame f q).replyOk n))))) ∧
     (∀ (h : Nat) (x : SlowEnt), s.toDev.inReset = false → s.toDev.vcl.slow.look? h = some x → x.deadline ≤ s.toDev.ref →
       exec (.slowHoldExpiry h) s = .next (withDev s (((s.toDev.unslow h).bump .VCL_SLOW_DROP x.owner).dropFrame x.frame 45
         (Config.dropReason 29))))) ∧
  (∀ (s : State) (sender receiver : Nat) (p : HeldPost), s.toDev.inReset = false →
     (s.toDev.mbx.holding.find? fun q => q.sender == sender && q.receiver == receiver) = some p →
     s.toDev.mailDomain receiver = true → s.toDev.hasRoom sender receiver = true →
     exec (.postDeliver sender receiver) s = .next (withDev s
       ((s.toDev.setHolding (s.toDev.mbx.holding.erase p)).deliver receiver
         { kind := p.kind, sender := sender, bytes := p.bytes, senderGen := p.senderGen, receiverGen := p.receiverGen,
           stamp := s.toDev.now, replyPlace := false })))

/-- R334 to R336, R402: SMBus takes one command packet at a time and discards a block whose PEC fails; a read gives the reply,
or one zero byte while there is none. In STANDBY what the firmware is woken for powers the control cluster's island, which is
off again once nothing is left; so it does after every command there: that this powers island 12 alone is the model's choice
(log entry 53). A management frame that authenticates waits as a command, at most 64 of them (the model's choice, log entry
37), once no rail warning holds up the commit of its counter; one whose tag does not verify is dropped and counted. -/
def Obligations.OutOfBand : Prop :=
  ∀ (s : State), s.toDev.inReset = false →
    let d := s.toDev
    (∀ bytes, (d.vcl.smbBusy = true → ∀ ok, exec (.smbBlockWrite bytes ok) s = .next (withDev s (d.emit .smbNack).controlFollows)) ∧
      (d.vcl.smbBusy = false →
        exec (.smbBlockWrite bytes true) s = .next (withDev s
          ({ d with vcl := { d.vcl with smb := some (bytes.take 255), smbBusy := true, smbReply := none } } : Dev).controlFollows) ∧
        exec (.smbBlockWrite bytes false) s = .next (withDev s (d.bump .VCL_SMB_PEC_ERR).controlFollows))) ∧
    (d.pwrState ≠ 3 → d.controlFollows = d) ∧
    (d.pwrState = 3 → ∀ ops c body, d.vucel ops c body = (d.runVucel ops c body).controlFollows) ∧
    (d.pwrState = 3 → d.controlWanted = true → d.controlFollows = d.powerUp 12 9 []) ∧
    (d.pwrState = 3 → d.controlWanted = false → d.controlFollows = d.powerDown 12 9) ∧
    exec .smbBlockRead s = .next (withDev s (d.emit (.smbRead (d.vcl.smbReply.getD [0])))) ∧
    (∀ (id kid counter : Nat) (f : Frame) (pkt aad tag : Bytes) (k : MgmtKey), d.frame? id = some f → f.stage = .legend →
      d.diverts f = true → d.vcl.mgmtQ.length < 64 → mgmtParts f.bytes = some (kid, counter, pkt, aad, tag) →
      d.mramBad 0x3000 0x4000 = false → d.mgmtKey kid = some k →
      (mgmtOk k counter aad tag = false → exec (.mgmtFrameRx id) s = .next (withDev s ((d.bump .VCL_MGMT_AUTH_FAIL).endFrame id))) ∧
      (mgmtOk k counter aad tag = true →
        let kept := if counter > k.highKept + 65536 then counter / 65536 * 65536 else k.highKept
        let m : MgmtCmd := { port := f.inPort, src := be f.bytes 6 6, key := kid, vid := d.get Fld.VCL_MGMT_CFG_VID, packet := pkt }
        let noted := d.mgmtCount kid counter k.reply kept k.replyKept
        (d.railsGood = true ∨ kept = k.highKept → exec (.mgmtFrameRx id) s = .next (withDev s
          (({ noted with vcl := { noted.vcl with mgmtQ := noted.vcl.mgmtQ ++ [m] } } : Dev).endFrame id))) ∧
        (d.railsGood = false → kept ≠ k.highKept → exec (.mgmtFrameRx id) s = .next s)))

/-! ## Power, contour and reset (chapter 16) -/

/-- R390, R393, R397, R406, R407: the contour commands on values in their ranges, with the keep-set of CONTOUR_SET, whose MRAM
write waits through a rail warning, and the record of CONTOUR_LEAD_SET, which ISLANDS = 0 takes away; and the reading of the
power state. That ISLANDS = 0 drops demands and skips the check of LEAD, and that FIXED clears the load demand, are the
model's choices (log entry 39). R392, R400 to R403: ISLAND_POWER's four actions where they are not refused, and PWR_STATE_SET
to each state; the end of a region's reload. That ON of a block that is on replies at once, that blocks which follow others
write their records with the island they follow, and that entering STANDBY replies first and ends what is left, are the
model's choices (log entry 39). -/
def Obligations.PowerAndContour : Prop :=
  (∀ (s : State) (c : Cmd) (n : Nat) (a : Accepted) (p : Bytes) (e : Dev),
     let w0 := le32 p 0
     let w1 := le32 p 4
     let b := bitsOf w0 4 0
     (Taken s.toDev 0x0D01 c n a p e →
       let set := e.contourApply b w0 w1
       let keep := w0.getLsbD 31
       let x := if a.committed then e else (set.settle b 1).commit n
       a.committed = true ∨ contourOk w0 w1 = true ∧ set.l4Fits = true ∧
         ((List.range 18).all fun q => !(e.leadRec q).islands.testBit b || (e.leadRec q).covers (bitsOf w0 10 8)) = true →
       exec (.contourSet c) s = .next (withDev s (
         if keep = false ∧ x.sec.mram.keepSet.look? b = none then x.replyOk n
         else if x.railsGood then
           ((x.set Fld.PWR_ISLAND_STAT_KEEP b (b2n keep)).setMram fun m => m.writeKeep b (if keep then some (w0, w1) else none)).replyOk n
         else x.wait n))) ∧
     (Taken s.toDev 0x0D02 c n a p e →
       let l := leadOf w0 w1
       b ≤ 17 → l.level ≤ 4 → l.islands < 2 ^ 14 →
       (l.islands ≠ 0 → 400 ≤ l.lead →
         let set := (e.wr .PWR_LEAD_CFG b 0 w0).wr .PWR_LEAD_CFG b 1 w1
         ((List.range 14).all fun i => !l.islands.testBit i || l.covers (e.islFloor i)) = true → set.l4Fits = true →
         exec (.contourLeadSet c) s = .next (withDev s (set.replyOk n))) ∧
       (l.islands = 0 →
         let none_ := (e.wr .PWR_LEAD_CFG b 0 0).wr .PWR_LEAD_CFG b 1 0
         exec (.contourLeadSet c) s = .next (withDev s
           (((none_.setPwr fun x => { x with demands := x.demands.filter fun w => w.port != b }).settleAll 1).replyOk n)))) ∧
     (Taken s.toDev 0x0D05 c n a p e →
       let levels (k : Nat) : Word := toWord (((List.range 8).map fun i => e.levelOf (8 * k + i) * 16 ^ i).foldl (· + ·) 0)
       exec (.pwrStatus c) s = .next (withDev s (e.replyOk n ([e.rd .PWR_STAT] ++ (List.range 7).map (fun r => e.rd .PWR_RAIL_STAT r)
         ++ (List.range 4).map (fun t => e.rd .PWR_TEMP t) ++ [levels 0, levels 1, levels 2, e.rd .PWR_RESET_CAUSE]))))) ∧
  (∀ (s : State),
     (∀ (c : Cmd) (n : Nat) (a : Accepted) (p : Bytes) (e : Dev), Taken s.toDev 0x0D04 c n a p e →
       let b := bitsOf (le32 p 0) 4 0
       let action := bitsOf (le32 p 0) 9 8
       let others := e.pwr.offByCmd.filter (· ≠ b)
       let x := (e.commit n).setPwr fun q => { q with offByCmd := others }
       b ≤ 23 →
       (action = 0 → e.offRefused b = none →
         exec (.islandPower c) s = .next (withDev s (((e.setPwr fun q => { q with offByCmd := others ++ [b] }).powerDown b 12).replyOk n))) ∧
       (action = 1 →
         (x.rising b = true → exec (.islandPower c) s = .next (withDev s
           ((x.setIsl b { x.isl b with cmds := (x.isl b).cmds ++ [n] }).follow x 12))) ∧
         (x.rising b = false → x.islOn b = true → exec (.islandPower c) s = .next (withDev s ((x.replyOk n).follow x 12))) ∧
         (x.rising b = false → x.islOn b = false →
           let on := x.set Fld.PWR_ISLAND_STAT_ON b 1
           (b < 14 → exec (.islandPower c) s = .next (withDev s (((on.set Fld.PWR_ISLAND_STAT_CHANGING b 1).setIsl b
             { on.isl b with target := some (on.islandTarget b, 12), rising := true, cmds := (on.isl b).cmds ++ [n] }).follow x 12))) ∧
           (14 ≤ b → exec (.islandPower c) s = .next (withDev s (((on.logContour b 15 (on.levelOf b) 12).replyOk n).follow x 12))))) ∧
       (action = 2 → e.offRefused b = none → exec (.islandPower c) s = .next (withDev s (x.cycle b [n]))) ∧
       (action = 3 → resettable b = true →
         let reset := (e.commit n).resetBlock b
         exec (.islandPower c) s = .next (withDev s (reset.setIsl b { reset.isl b with resetting := some (some n) })))) ∧
     (∀ (c : Cmd) (n : Nat) (a : Accepted) (p : Bytes) (e : Dev), Taken s.toDev 0x0D03 c n a p e →
       let state := bitsOf (le32 p 0) 1 0
       let region := bitsOf (le32 p 0) 5 4
       let trim := bitsOf (le32 p 0) 10 8
       let x := (e.commit n).setPwr fun q => { q with trimLevel := trim, dozeRegion := region }
       trim ≤ 4 →
       (state ≠ 3 → (state = 2 → ((List.range 4).any fun r => r != region && e.leadNames r) = false) →
         let set := ((x.set Fld.PWR_STAT_STATE 0 state).applyState state region).settleAll 9
         exec (.pwrStateSet c) s = .next (withDev s (
           if set.someRising then set.setPwr fun q => { q with cmds := q.cmds ++ [n] } else set.replyOk n))) ∧
       (state = 3 → exec (.pwrStateSet c) s = .next (withDev s (
         if e.standbyRefused a then e.reply n .badState
         else
           let off := (((x.replyOk n).abortAll).applyState 3 region).stateReplies
           ({ off with log := { off.log with trace := ⟨[]⟩, filled := 0 }, vcl := { off.vcl with mgmtQ := [] } } : Dev).set
             Fld.PWR_STAT_STATE 0 3)))) ∧
     (∀ r, s.toDev.inReset = false → s.toDev.available r = true → (s.toDev.isl r).reload.isSome = true →
       exec (.regionReloadEnd r) s = .next (withDev s (s.toDev.setIsl r { s.toDev.isl r with reload := none }))))

/-- R392 to R398: a scheduled window's raise and release, the confirmation of an island's new level, the load demand's two
moves and the pace sensors. What makes a raise late, that an open window without a demand is raised at once, the counting of a
late window with its own raise, and that a pace demand of a block that follows others raises its level, are the model's
choices (log entry 39). -/
def Obligations.ContourEvents : Prop :=
  ∀ (s : State), s.toDev.inReset = false →
    let d := s.toDev
    (∀ (p o : Nat) (cl : Option Nat), p < 18 → (d.leadRec p).islands ≠ 0 → d.gateActive p = true → d.dueWindow p = some (o, cl) →
      o ≤ d.nowNs + (d.leadRec p).lead →
      let late := decide (o + 1 < d.nowNs + (d.leadRec p).lead)
      let r := d.leadRec p
      let w : WinDemand :=
        { port := p, islands := r.islands, level := r.level, opens := o, closes := cl, tail := r.tail, late := late }
      let raised := (d.setPwr fun x => { x with demands := x.demands ++ [w] }).settleAll (if late then 11 else 2)
      let waits := ((List.range 14).filter fun b => w.islands.testBit b && raised.short b w.level).map fun b => 2 ^ b
      exec (.contourRaise p) s = .next (withDev s (raised.setPwr fun x =>
        { x with demands := d.pwr.demands ++ [{ w with raising := waits.foldl (· + ·) 0 }] }))) ∧
    (∀ p, exec (.contourRelease p) s = .next (withDev s ((d.setPwr fun x =>
      { x with demands := x.demands.filter fun w => !(w.port == p && w.over d.nowNs) }).settleAll 3))) ∧
    (∀ (b t why : Nat), (d.isl b).target = some (t, why) →
      let x := d.isl b
      let seen := ((d.set Fld.PWR_ISLAND_STAT_LEVEL b t).set Fld.PWR_ISLAND_STAT_CHANGING b 0).logContour b
        (if x.rising then 15 else d.islLevel b) t why
      let done := (seen.countLateWindows b t).setIsl b
        { x with target := none, rising := false, cmds := [], reload := if x.rising && b < 4 then some d.ref else x.reload }
      let replied := x.cmds.foldl (fun y n => y.replyOk n) (done.follow d why)
      exec (.contourConfirm b) s = .next (withDev s (if replied.someRising then replied
        else replied.pwr.cmds.foldl (fun y n => y.replyOk n) (replied.setPwr fun q => { q with cmds := [] })).railEvents)) ∧
    (∀ b pct, d.loadMoves b = true → (d.isl b).upPct ≤ pct → (d.isl b).load < 4 →
      exec (.loadDemandUp b pct) s = .next (withDev s ((d.setIsl b { d.isl b with load := (d.isl b).load + 1 }).settle b 4))) ∧
    (∀ b pct, d.loadMoves b = true → pct ≤ (d.isl b).downPct → 0 < (d.isl b).load →
      exec (.loadDemandDown b pct) s = .next (withDev s ((d.setIsl b { d.isl b with load := (d.isl b).load - 1 }).settle b 5))) ∧
    (∀ b pace, b < 24 → d.powered b = true →
      let low := (d.set Fld.PWR_PACE_PACE b pace).set Fld.PWR_PACE_PACE_LOW b 1
      let asked := (low.setIsl b { d.isl b with pace := max (d.isl b).pace (d.levelOf b + 1) }).set Fld.PWR_ISLAND_STAT_PACE_RAISED b 1
      (1000 ≤ pace ∨ (d.isl b).target.isSome = true → exec (.paceLow b pace) s = .next (withDev s (d.set Fld.PWR_PACE_PACE b pace))) ∧
      (pace < 1000 → (d.isl b).target = none → exec (.paceLow b pace) s = .next (withDev s (
        if d.levelOf b < 3 ∨ d.levelOf b = 3 ∧ asked.l4Fits = true then (if b < 14 then asked.settle b 6 else asked.follow d 6)
        else (low.set Fld.PWR_STAT_PACE_FAIL 0 1).logPower 5 b (toWord pace)))))

/-- R388 to R391, R404: what a rail, a die, RESET_N and PERST0_N do, out of reset and into it. That a rail's event waits for
firmware that runs, that a POWER_ON reset by a rail lasts until the rail is back, what a rail that goes into warning in reset
leaves, and the free temperature of a die that has cooled after a trip are the model's choices (log entries 23 and 39). R320,
R404, R425: a GO write to DBG_RESET_CTRL of a block that can be reset, or of a region to be power-cycled, the end of a DEBUG
reset, and the end of a BLOCK or REGION reset. -/
def Obligations.Resets : Prop :=
  (∀ (s : State),
     let d := s.toDev
     let owed (x : Dev) (code r : Nat) := (x.setPwr fun p => { p with events := p.events ++ [(code, r)] }).railEvents
     (∀ r mv, r < 7 → 100 * mv < 94 * railNominal r → d.on? Fld.PWR_RAIL_STAT_WARN r = false →
       let w := (d.railState r true).set Fld.PWR_RAIL_STAT_MILLIVOLTS r mv
       let x := (((w.set Fld.PWR_RAIL_STAT_WARN_SEEN r 1).bump .PWR_WARN_COUNT).settleAll 7).logPower 1 r (toWord mv)
       exec (.railWarn r mv) s = .next (withDev s (if d.inReset then w else owed x 0x8006 r))) ∧
     (∀ r mv, r < 7 → 96 * railNominal r < 100 * mv → d.on? Fld.PWR_RAIL_STAT_WARN r = true →
       let w := (d.railState r false).set Fld.PWR_RAIL_STAT_MILLIVOLTS r mv
       let x := w.logPower 2 r (toWord mv)
       exec (.railWarnClear r mv) s = .next (withDev s (
         if d.inReset then (w.setPwr fun p => { p with railHold := p.railHold.filter (· ≠ r) }).porEnds
         else owed (if x.railsGood then ((x.settleAll 8).attestResume).mgmtResume else x) 0x8007 r))) ∧
     (d.inReset = false → exec .perst0N s = .next (withDev s (d.afterReset false 0x60000000))) ∧
     (∀ r mv, r < 7 → 100 * mv < 90 * railNominal r → d.pwr.railHold.contains r = false →
       let held := ((d.railState r true).set Fld.PWR_RAIL_STAT_MILLIVOLTS r mv).setPwr fun p => { p with railHold := p.railHold ++ [r] }
       exec (.railReset r mv) s = .next (withDev s
         (held.afterReset true (toWord (2 ^ 29 + (held.pwr.railHold.map fun i => 2 ^ i).foldl (· + ·) 0))))) ∧
     (∀ die t, die < 4 → d.pwr.hotDies.contains die = false → d.thermHot ≤ t →
       let x := ((d.setTemp die t).setHot (d.pwr.hotDies ++ [die])).logPower 3 die (toWord (unsignedOf 32 t))
       exec (.dieHot die t) s = .next (withDev s (if die = 0 then x.settleAll 10 else x))) ∧
     (∀ die t, d.pwr.hotDies.contains die = true → t < d.thermHot - 80 →
       let x := ((d.setTemp die t).setHot (d.pwr.hotDies.filter (· ≠ die))).logPower 4 die (toWord (unsignedOf 32 t))
       exec (.dieHotClear die t) s = .next (withDev s (if die = 0 then x.settleAll 10 else x))) ∧
     (∀ die t, die < 4 → d.pwr.tripped = false → 2000 ≤ t →
       exec (.thermalTrip die t) s = .next (withDev s
         ((((d.setTemp die t).emit (.tripPin true)).setPwr fun p => { p with tripped := true }).afterReset true 0x40000000))) ∧
     (d.pwr.tripped = true →
       exec .thermalTripEnd s = .next (withDev s 
         ((((List.range 4).foldl Dev.cooled (d.emit (.tripPin false))).setPwr fun p => { p with tripped := false }).porEnds))) ∧
     (d.pwr.resetN = false →
       exec .resetNAssert s = .next (withDev s ((d.setPwr fun p => { p with resetN := true }).afterReset true 0))) ∧
     (d.pwr.resetN = true →
       exec .resetNRise s = .next (withDev s ((d.setPwr fun p => { p with resetN := false }).porEnds)))) ∧
  (∀ (s : State),
     (∀ (req : Requester) (w : Word) (l : Loc),
       let a := devAt .DBG_RESET_CTRL 0
       let e := s.toDev.noteJtag req
       let t := bitsOf w 4 0
       Reaches s.toDev req (regLoc .DBG_RESET_CTRL 0) l a → w.getLsbD 31 = true → e.on? Fld.DBG_RESET_CTRL_BUSY = false →
       (w.getLsbD 8 = false ∧ resettable t = true) ∨ (w.getLsbD 8 = true ∧ t < 4) →
       let reset := if w.getLsbD 8 then (e.setPwr fun p => { p with offByCmd := p.offByCmd.filter (· ≠ t) }).cycle t [] else e.resetBlock t
       let busy := (reset.wr .DBG_RESET_CTRL 0 0 (w &&& 0x11F)).set Fld.DBG_RESET_CTRL_BUSY 0 1
       let ordered : Dev := { busy with dbg := { ordered := some t } }
       exec (.debugReset req w) s = .next (withDev s (((ordered.setIsl t { busy.isl t with resetting := some (busy.isl t).resetting.join }).logWrite
         req l (e.regSource l (.reg a)) (regFunction l (.reg a)) e.now w false false).emit (.answer req .done)))) ∧
     (∀ b, s.toDev.inReset = false → s.toDev.dbg.ordered = some b → s.toDev.rising b = false →
       let x := s.toDev.isl b
       let ended := (s.toDev.set Fld.DBG_RESET_CTRL_BUSY 0 0).setIsl b { x with resetting := none }
       let e : Dev := { ended with dbg := {} }
       exec .debugResetDone s = .next (withDev s (match x.resetting.join with
         | some n => e.replyOk n
         | none => e))) ∧
     (∀ b cmd, s.toDev.inReset = false → s.toDev.dbg.ordered ≠ some b → (s.toDev.isl b).resetting = some cmd →
       let e := s.toDev.setIsl b { s.toDev.isl b with resetting := none }
       exec (.blockResetEnd b) s = .next (withDev s (Dev.railEvents (match cmd with
         | some n => e.replyOk n
         | none => e)))))

/-! ## Ports (chapter 15) -/

/-- R371, R374, R377 to R381: the port commands on parameters that are in range. PORT_SET of a port that is disabled, or that
its word disables, writes PRT_PORT_CFG with ENABLE 0, then the other words, then PRT_PORT_CFG. FAULT_SET lets go what the
injector holds, starts its count anew and seeds its generator, unless the TRNG has failed. That FAULT_SET releases what is
held, that EN = 0 of STEPDOWN_SET checks no field, and that PORT_SET's writes are recorded as a control core's are the model's
choices (log entries 38 and 40). -/
def Obligations.PortCommands : Prop :=
  ∀ (s : State) (c : Cmd) (n : Nat) (a : Accepted) (p : Bytes) (e : Dev),
    let w := le32 p 0
    let port := bitsOf w 4 0
    (Taken s.toDev 0x0C01 c n a p e → port < 18 →
      let cfg := le32 p 4
      let len := bitsOf (le32 p 12) 13 0
      comboOk port (bitsOf cfg 3 0) (bitsOf cfg 5 4) (bitsOf cfg 7 6) = true → (cfg.getLsbD 9 = true → bitsOf cfg 5 4 = 0) →
      1514 ≤ len → len ≤ 9728 → (e.on? Fld.PRT_PORT_CFG_ENABLE port && cfg.getLsbD 31) = false →
      let off := e.portWord .PRT_PORT_CFG port (e.rd .PRT_PORT_CFG port &&& 0x7FFFFFFF)
      exec (.portSet c) s = .next (withDev s
        ((((off.portWord .PRT_FC_CFG port (le32 p 8)).portWord .PRT_MAX_LEN port (toWord len)).portWord .PRT_PORT_CFG port cfg).replyOk n))) ∧
    (Taken s.toDev 0x0C02 c n a p e → port < 18 →
      exec (.portState c) s = .next (withDev s (e.replyOk n
        ([e.linkStat port, e.rd .PRT_PORT_CFG port, e.rd .PRT_FC_CFG port, e.rd .PRT_PAUSE_WDOG port] ++ e.itemWords .PRT_STEPDOWN port)))) ∧
    (Taken s.toDev 0x0C03 c n a p e →
      let func := w.getLsbD 30
      let idx := bitsOf w 9 0
      let who := a.cmd.issuer
      (who < 4 ∧ (func = true → pfOf idx = who)) ∨ (4 ≤ who ∧ func = true ∧ idx = who ∧ (e.rd .FNC_PRIV who).getLsbD 0 = true) →
      (func = false → idx < 18) → (func = true → e.exists? idx = true) → bitsOf w 28 27 ≠ 3 →
      bitsOf w 26 25 ≠ 3 → (w.getLsbD 31 = true → faultOk p = true) → (bitsOf w 28 27 ≠ 2 → le32 p 8 = 0 ∧ le32 p 12 = 0) →
      let k := if func then idx else 2 * idx + b2n (w.getLsbD 29)
      let held := (e.injector func k).held.map (·.1)
      let fresh (seed : Nat) (x : Dev) : Dev :=
        (((((x.setInjector func k { seed := seed }).letGo func k held).wrWords (if func then .PRT_FAULT_FUNC else .PRT_FAULT_PORT) k
          (wordsOf p 4)).logFault func k true (w.getLsbD 29) (bitsOf w 26 25)).replyOk n)
      exec (.faultSet c) s = .next (withDev s (
        if e.on? Fld.SEC_STAT_TRNG_FAIL then fresh (e.injector func k).seed e else fresh e.drawNat.1 e.drawNat.2))) ∧
    (Taken s.toDev 0x0C04 c n a p e → port < 18 → w.getLsbD 31 = false →
      exec (.stepdownSet c) s = .next (withDev s (((e.wrWords .PRT_STEPDOWN port (wordsOf p 3)).stepUp port).replyOk n))) ∧
    (Taken s.toDev 0x0C04 c n a p e → port < 16 → w.getLsbD 31 = true → e.on? Fld.PRT_PORT_CFG_ENABLE port = true →
      e.phyOf port = 0 → e.on? Fld.PRT_PORT_CFG_AN port = true → 5 ≤ e.modeOf port → e.modeOf port ≤ 7 →
      e.modeOf port + 1 ≤ bitsOf w 11 8 → bitsOf w 11 8 ≤ 8 → bitsOf (le32 p 4) 31 16 < bitsOf (le32 p 4) 15 0 →
      bitsOf (le32 p 4) 15 0 < modeRate (bitsOf w 11 8) → bitsOf (le32 p 8) 15 0 ≠ 0 → e.gateActive port = false →
      exec (.stepdownSet c) s = .next (withDev s ((e.wrWords .PRT_STEPDOWN port (wordsOf p 3)).replyOk n))) ∧
    (Taken s.toDev 0x0C05 c n a p e → port < 18 → bitsOf (le32 p 4) 31 16 ≠ 0 →
      exec (.pauseWdogSet c) s = .next (withDev s ((e.wr .PRT_PAUSE_WDOG port 0 (le32 p 4)).replyOk n)))

/-- R39, R40, R363: the receive side of an enabled port with link: a runt and a frame with a bad FCS are counted and dropped;
a good one is stamped, with an external PHY's latency taken off, and goes to the port's receive injector. That the row is
presented at the frame's first bit is the model's choice (log entry 42), and how many codewords a port's FEC has corrected is
a free number (log entry 38). R361, R362, R374 to R376: the link comes up, not within 5 ms of a step or a return, and goes
down; the interval of a port without step-down, a step to the next lower mode with its FEC, negotiation and training, and a
step that the partner does not accept. R366 to R371, R379: the ends of a stop and of a holdoff, the watchdog of a stop while a
gate list is active, the refresh of a flow-control frame, and the end of an injector's hold. That a pause stop counts from the
end of its frame, and its watchdog from when a gate list is active, are the model's choices (log entries 38 and 23). -/
def Obligations.PortEvents : Prop :=
  (∀ (s : State) (port : Nat) (bytes : Bytes), s.toDev.inReset = false → port < 18 →
     s.toDev.on? Fld.PRT_PORT_CFG_ENABLE port = true → s.toDev.linkUp? port = true →
     let d := s.toDev
     let heard := d.setPort port { d.port port with bitsRx := (d.port port).bitsRx + 8 * (bytes.length + 24) }
     let seen (ok : Bool) : Dev :=
       if (d.port port).fec = 0 then heard
       else
         let x := heard.drawNat.2.drawNat.2.bumpBy .PRT_FEC_CORR port heard.drawNat.1
         if ok then x else x.bumpBy .PRT_FEC_UNCORR port heard.drawNat.2.drawNat.1
     (∀ fcsOk, bytes.length < 60 → exec (.frameReceive port bytes fcsOk) s = .next (withDev s ((seen fcsOk).bump .PRT_RX_RUNT port))) ∧
     (60 ≤ bytes.length → exec (.frameReceive port bytes false) s = .next (withDev s ((seen false).bump .PRT_RX_FCS_ERR port))) ∧
     (60 ≤ bytes.length →
       let delay := if d.phyOf port = 0 then 0 else d.get Fld.MER_PHY_DELAY_RX_DELAY port
       let stamp := (d.now + 2 ^ 72 - delay) % 2 ^ 72
       let f : Frame := { inPort := port, stamp := stamp, bytes := bytes, stage := .buffers, seq := d.nextFrame, since := d.ref }
       let r := (seen true).addFrame f
       exec (.frameReceive port bytes true) s = .next (withDev s (r.2.rxInject port r.1 f)))) ∧
  (∀ (s : State) (port : Nat), s.toDev.inReset = false → port < 18 →
     let d := s.toDev
     (∀ phyOk, d.on? Fld.PRT_PORT_CFG_ENABLE port = true → d.curMode port ≠ 0 → d.linkUp? port = false → (d.phyOf port = 0 ∨ phyOk = true) →
       (d.port port).downTill ≤ d.ref →
       exec (.linkUp port phyOk) s = .next (withDev s ((d.linkSet port true).setPort port { d.port port with stepAt := none }))) ∧
     (d.linkUp? port = true →
       let down := (d.linkSet port false).setLine port { d.line port with busy := none, aside := none }
       let cut := ((d.line port).busy.map fun b => down.abortTx port b.copy).getD down
       let cut2 := ((d.line port).aside.map fun x => cut.abortTx port x.1).getD cut
       exec (.linkDown port) s = .next (withDev s (cut2.stopsTakeEffect port))) ∧
     ((d.rd .PRT_STEPDOWN port).getLsbD 31 = false → (d.port port).interval + 1000000 ≤ d.ref →
       let x := d.port port
       let low := max x.bitsRx x.bitsTx < 1000 * bitsOf (d.rd .PRT_STEPDOWN port 1) 31 16
       exec (.stepdownInterval port) s = .next (withDev s (d.setPort port { x with
         bitsRx := 0, bitsTx := 0, interval := d.ref, quiet := if low then x.quiet + 1 else 0, dropped := false }))) ∧
     (let x := d.port port
      let bits := max x.bitsRx x.bitsTx
      let w (i : Nat) := d.rd .PRT_STEPDOWN port i
      let quiet := if bits < 1000 * bitsOf (w 1) 31 16 then x.quiet + 1 else 0
      (w 0).getLsbD 31 = true → d.on? Fld.PRT_LINK_STAT_STEPPED port = false → x.interval + 1000000 ≤ d.ref → d.linkUp? port = true →
       d.curMode port < bitsOf (w 0) 11 8 → bitsOf (w 2) 15 0 ≤ quiet → x.modeSince + 1000000 * bitsOf (w 2) 31 16 ≤ d.ref →
       x.noStep ≤ d.ref →
       let mode := d.curMode port + 1
       let e := (d.setPort port { x with bitsRx := 0, bitsTx := 0, interval := d.ref, quiet := quiet, dropped := false }).linkFails port
       let fec := if mode = 6 ∧ d.get Fld.PRT_PORT_CFG_FEC port = 1 then 1 else 0
       let put := ((e.set Fld.PRT_LINK_STAT_CUR_MODE port mode).set Fld.PRT_LINK_STAT_STEPPED port 1).setPort port { e.port port with
         modeSince := d.ref, quiet := 0, dropped := false, stepAt := none, downTill := d.ref + 5000000, fec := fec }
       let said := if d.on? Fld.PRT_PORT_CFG_AN port then put.emit (.negotiate port mode fec) else put
       let trained := if d.on? Fld.PRT_PORT_CFG_TRAIN port then said.emit (.train port mode) else said
       exec (.stepdownInterval port) s = .next (withDev s (trained.setPort port { trained.port port with stepAt := some d.ref }))) ∧
     (∀ t, (d.port port).stepAt = some t → d.linkUp? port = false → t + 50000000 ≤ d.ref →
       let back := d.runMode port (d.modeOf port) false 5000000
       exec (.stepdownAcceptTimeout port) s = .next (withDev s (back.setPort port { back.port port with
         noStep := d.ref + 1000000 * bitsOf (d.rd .PRT_STEPDOWN port 2) 31 16 })))) ∧
  (∀ (s : State) (port prio : Nat), s.toDev.inReset = false →
     let d := s.toDev
     let x := d.port port
     (∀ r, x.stops.look? 8 = some r → r.ends ≤ d.ref →
       exec (.pauseExpiry port) s = .next (withDev s (d.setPort port { x with stops := x.stops.erase 8 }))) ∧
     (∀ r, prio < 8 → x.stops.look? prio = some r → r.ends ≤ d.ref →
       exec (.pfcExpiry port prio) s = .next (withDev s (d.setPort port { x with stops := x.stops.erase prio }))) ∧
     (∀ r, x.stops.look? prio = some r → d.gateActive port = true → r.inForce = true →
       r.since + 10000 * d.get Fld.PRT_PAUSE_WDOG_LIMIT port ≤ d.ref →
       let hold := d.get Fld.PRT_PAUSE_WDOG_HOLDOFF port
       let freed := d.setPort port { x with stops := x.stops.erase prio,
                                            holdoffs := if hold = 0 then x.holdoffs else x.holdoffs.put prio (d.ref + 10000 * hold) }
       exec (.pauseWdogExpiry port prio) s = .next (withDev s
         ((freed.bump .PRT_PAUSE_WDOG_CNT port).logNow 0x12 port none 0x600 (toWord port) (toWord (2 ^ prio))))) ∧
     (∀ t, x.holdoffs.look? prio = some t → t ≤ d.ref →
       exec (.wdogHoldoffEnd port prio) s = .next (withDev s (d.setPort port { x with holdoffs := x.holdoffs.erase prio }))) ∧
     (∀ t, x.sent.look? prio = some t → t ≤ d.ref → d.xon port ≤ d.heldBytes port prio →
       exec (.fcRefresh port prio) s = .next (withDev s (d.fcXoff port prio))) ∧
     (∀ (func tx : Bool) (n : Nat),
       let k := if func then n else 2 * n + b2n tx
       let j := d.injector func k
       exec (.reorderTimeout func tx n) s = .next (withDev s
         ((d.setInjector func k { j with held := j.held.filter fun h => d.ref < h.2.2 }).letGo func k
           ((j.held.filter fun h => h.2.2 ≤ d.ref).map (·.1))))))

/-! ## Legends and sheets (chapter 5) -/

/-- R15, R66, R466, R51, R118, R345: the legend that is made of a frame from a port, of a frame from a function, and what
becomes of a frame whose port has no function, whose function has changed its generation, whose order slot is full (it goes on
untracked, R50, and is counted), or whose source is no member of its VLAN; a frame that ends with RECIRC, and one that
SLOW_VERDICT reinjects, is queued again with TRAVERSE one higher, or ends where TRAVERSE is at its limit. The fields that a
new legend's words hold beside the named ones (log entry 23), the region that a reinjected frame goes to (log entry 44) and
the reason code of a frame outside its VLAN (log entry 3) are the model's choices. -/
def Obligations.LegendMaking : Prop :=
  ∀ (s : State) (id : Nat) (f : Frame),
    (s.toDev.inReset = false → s.toDev.frame? id = some f → f.stage = .legend → s.toDev.diverts f = false →
      let d := s.toDev
      let port := srcIsPort f.inPort
      let fn := if port then d.get Fld.PRT_DEF_FUNC_FUNCTION f.inPort else f.owner
      let hash := flowHash f.bytes
      let slot := orderSlot fn hash
      let full := decide (64 ≤ d.slotLoad slot)
      let sheet := d.pinFor fn f.stamp
      let g : Frame :=
        { f with lg := newLegend f fn (d.gen fn) hash, owner := fn, gen := d.gen fn, slot := if full then none else some slot,
                 charge := if sheet = 0 then none else some sheet }
      let kept := d.updFrame id fun _ => g
      let e := (if full then kept.bump .TMG_RESEQ_UNTRACKED else kept).logGen 0x01 f.inPort (some (fn, d.gen fn)) f.stamp
        (toWord (f.inPort * 2 ^ 24 + f.bytes.length)) hash (toWord (f.chain.headD 0))
      let place := if port then e.rd .PCA_PORT_REGION f.inPort else e.rd .PCA_HOST_REGION
      let outside := if port then e.bump .VSW_PORT_VLAN_DROP f.inPort else e.bump .VSW_FUNC_VLAN_DROP fn
      (port = true → d.exists? fn = false →
        exec (.legendMake id) s = .next (withDev s ((d.bump .PRT_RX_NOFUNC f.inPort).endFrame id))) ∧
      (port = false → d.gen fn ≠ f.gen → exec (.legendMake id) s = .next (withDev s (d.endFrame id))) ∧
      ((if port then d.exists? fn = true else d.gen fn = f.gen) →
        (∀ v, e.vlanOf g f.inPort fn = some v → v.2.hasSource f.inPort fn = true →
          exec (.legendMake id) s = .next (withDev s (e.enqueueLegend id (regionFor place hash)))) ∧
        ((∀ v, e.vlanOf g f.inPort fn = some v → v.2.hasSource f.inPort fn = false) →
          exec (.legendMake id) s = .next (withDev s (outside.dropFrame id 42 (Config.dropReason 9)))))) ∧
    (∀ t,
      let x := issued s.toDev t
      let e := (s.toDev.issueTo t).setThread t x
      let fn := lgGet f.lg lgFunction
      let again := e.updFrame id fun y => { y with lg := lgSet y.lg lgTraverse (lgGet y.lg lgTraverse + 1) }
      let deep := e.updFrame id fun y => { y with lg := lgSet y.lg lgException 8 }
      Issues s.toDev t (encEnd 2 0 0) → x.frame = some id → e.frame? id = some f → lgGet f.lg lgException = 0 →
      lgOn f.lg lgFragment = false → 
      (lgOn f.lg lgSlowPath = false → lgGet f.lg lgDest ≠ 2 → lgOn f.lg lgEncrypt = false →
        lgGet f.lg lgTraverse < e.traverseMax fn →
        exec (.recirc t 0 0) s = .next (after s t ((again.enqueueLegend id (regionOf t)).freeThread t))) ∧
      (e.traverseMax fn ≤ lgGet f.lg lgTraverse → ((deep.bump .CLS_EXC_COUNT 8).rd .CLS_EXC_DISP fn).getLsbD 8 = false →
        exec (.recirc t 0 0) s = .next (after s t ((((deep.bump .CLS_EXC_COUNT 8).bump .CLS_EXC_DROP fn).dropFrame id
          (32 + regionOf t) 0x00030008).freeThread t)))) ∧
    (∀ (c : Cmd) (n : Nat) (a : Accepted) (p : Bytes) (e : Dev) (x : SlowEnt), Taken s.toDev 0x1001 c n a p e →
      let h := (le32 p 0).toNat
      let fn := lgGet f.lg lgFunction
      let out := e.unslow h
      let lg := lgSet (lgSet (lgSet f.lg lgSlowPath 0) lgException 0) lgInPort 25
      let back := out.updFrame id fun y => { y with lg := lg, inPort := 25 }
      let again := back.updFrame id fun y => { y with lg := lgSet y.lg lgTraverse (lgGet y.lg lgTraverse + 1) }
      e.vcl.slow.look? h = some x → x.owner = a.fn → e.ref < x.deadline → x.frame = id → e.frame? id = some f →
      e.staleFrame f = false → bitsOf (le32 p 4) 1 0 = 1 →
      (lgGet f.lg lgTraverse < out.traverseMax fn → exec (.slowVerdict c) s = .next (withDev s
        ((again.enqueueLegend id (regionFor (out.rd .PCA_HOST_REGION) (f.lg.getD 5 0))).replyOk n))) ∧
      (out.traverseMax fn ≤ lgGet f.lg lgTraverse → exec (.slowVerdict c) s = .next (withDev s
        (((out.bump .CLS_EXC_DROP fn).dropFrame id 45 0x00030008).replyOk n))))

/-- R121, R122, R125: a CLASSIFY answered from its sheet, and the sheet commands that find the sheet they need: the opening of
an empty bank, a profile, a default, rules added and removed, the discard. R126, R128, R341: a swap gives its instant, 4
microseconds ahead (the model's choice, log entry 27), commits at it and drains the sheet it replaces; the drained sheet is
released; an open that waited too long ends SHEET_BUSY. -/
def Obligations.Sheets : Prop :=
  (∀ (s : State),
     (∀ n r f sh, s.toDev.inReset = false → s.toDev.pca.reqs.look? n = some r → r.kind = 3 → s.toDev.rising 10 = false →
       s.toDev.frame? r.frame = some f → r.blockGen = s.toDev.blockGen 10 → s.toDev.available 10 = true →
       s.toDev.gen r.function = r.fnGen → r.function = f.owner → s.toDev.liveSheet f.owner (lgGet f.lg lgSheet) = some sh →
       let found := s.toDev.ruleFor (regionOf r.thread) f.owner sh r.key
       exec (.classifyReply n) s = .next (withDev s (match found.1 with
         | some v => (found.2.applyResult r.thread r.frame (toWord v)).classDone n r 0 v
         | none => (found.2.applyResult r.thread r.frame sh.dflt).classDone n r 1 sh.dflt.toNat))) ∧
     (∀ (c : Cmd) (n : Nat) (a : Accepted) (p : Bytes) (e : Dev), e.available 10 = true → e.available 9 = true → e.tblClearing 1 = false →
       let f := a.fn
       let w := le32 p 0
       let b := e.banks f
       (Taken s.toDev 0x0401 c n a p e → b.other = .empty →
         let num := b.lastNum % 65535 + 1
         let next : Banks := { b with lastNum := num, openWait := none }
         (w.getLsbD 31 = false →
           exec (.sheetOpen c) s = .next (withDev s ((e.setBanks f { next with other := .staged { num := num } }).replyOk n [toWord num]))) ∧
         (∀ act x, w.getLsbD 31 = true → b.active = some act →
           let staged := e.setBanks f { next with other := .staged { num := num, dflt := act.dflt, profiles := act.profiles } }
           staged.copyRules num (e.sheetRules f act.num) = some x →
           exec (.sheetOpen c) s = .next (withDev s (x.replyOk n [toWord num])))) ∧
       (∀ sh, b.other = .staged sh →
         (Taken s.toDev 0x0402 c n a p e → ((e.sheetRules f sh.num).any fun x => x.2.qual % 8 == bitsOf w 2 0) = false →
           exec (.sheetProfile c) s = .next (withDev s ((e.setStaged f { sh with
             profiles := if w.getLsbD 31 then sh.profiles.put (bitsOf w 2 0) (paramKey p 4) else sh.profiles.erase (bitsOf w 2 0) }).replyOk n))) ∧
         (Taken s.toDev 0x0403 c n a p e → bitsOf w 3 0 = 0 → bitsOf w 5 4 ≠ 3 →
           exec (.sheetDefault c) s = .next (withDev s ((e.setStaged f { sh with dflt := w }).replyOk n))) ∧
         (Taken s.toDev 0x0404 c n a p e →
           let made := e.addRules f sh (records p 8 32 w.toNat)
           made.2.1 = .ok → exec (.ruleAdd c) s = .next (withDev s (made.2.2.replyOk n [toWord made.1]))) ∧
         (Taken s.toDev 0x0405 c n a p e →
           let made := e.delRules f sh (records p 4 20 w.toNat)
           made.2.1 = .ok → exec (.ruleDel c) s = .next (withDev s (made.2.2.replyOk n [toWord made.1]))) ∧
         (Taken s.toDev 0x0407 c n a p e →
           exec (.sheetDiscard c) s = .next (withDev s (((e.removeSheet f sh.num).setBanks f { b with other := .empty }).replyOk n)))))) ∧
  (∀ (s : State),
     (∀ (c : Cmd) (n : Nat) (a : Accepted) (p : Bytes) (e : Dev) (sh : Sheet), Taken s.toDev 0x0406 c n a p e →
       e.available 10 = true → (e.banks a.fn).other = .staged sh →
       exec (.sheetSwap c) s = .next (withDev s (e.setBanks a.fn { e.banks a.fn with swapAt := some (a.stamp + 4000 * 256, n) }))) ∧
     (∀ f, s.toDev.inReset = false →
       let d := s.toDev
       let b := d.banks f
       (∀ sh t n, b.other = .staged sh → b.swapAt = some (t, n) → t ≤ d.now →
         let old := match b.active with
           | some x => OtherBank.draining x
           | none => OtherBank.empty
         exec (.sheetSwapCommit f) s = .next (withDev s (((d.setBanks f { b with
           active := some { sh with since := t }, other := old, swapAt := none, drainAfter := t + 2000000 * 256 }).commit n).replyOk n
             (toWord sh.num :: stampWords t)))) ∧
       (∀ sh, b.other = .draining sh → d.pinned f = 0 → b.drainAfter ≤ d.now →
         let gone := (d.removeSheet f sh.num).setBanks f { b with other := .empty, openWait := none }
         exec (.sheetRelease f) s = .next (withDev s (match b.openWait with
           | some (_, copy, n) => gone.stageSheet n f copy
           | none => gone))) ∧
       (∀ limit copy n, b.openWait = some (limit, copy, n) → limit ≤ d.ref →
         exec (.sheetOpenTimeout f) s = .next (withDev s ((d.setBanks f { b with openWait := none }).reply n .sheetBusy)))))

/-! ## Tables (chapter 6) -/

/-- R136, R139, R145, R146, R154, R469, R471, R474: the table commands on a table that is enabled, granted and not clearing;
TABLE_CREATE is committed when it is applied and replies when the clearing ends. What TABLE_CREATE and ENTRY_WRITE take and
refuse beside the rules' words are readings of log entry 23 (its premises here shut those cases out). -/
def Obligations.TableCommands : Prop :=
  ∀ (s : State) (c : Cmd) (n : Nat) (a : Accepted) (p : Bytes) (e : Dev), e.available 9 = true →
    let w := le32 p 0
    let t := bitsOf w 5 0
    (Taken s.toDev 0x0501 c n a p e → 4 ≤ t → e.tblEnabled t = false →
      let base := bitsOf (le32 p 4) 20 0
      let l := bitsOf (le32 p 8) 4 0
      let size := if l = 0 then 0 else 2 ^ clampTo 10 20 l
      base + size ≤ e.partBuckets →
      (∀ k m, k < 64 → k ≠ t → e.tblEnabled k = true → e.tblLog2 k = some m → size = 0 ∨
        e.get Fld.TBL_DESC_BASE_BASE k + 2 ^ m ≤ base ∨ base + size ≤ e.get Fld.TBL_DESC_BASE_BASE k) →
      let placed := (e.wr .TBL_DESC_BASE t 0 (toWord base)).wr .TBL_DESC_SEED t 0 (le32 p 12)
      exec (.tableCreate c) s = .next (withDev s
        ((((placed.set Fld.TBL_DESC_CFG_LOG2_BUCKETS t l).set Fld.TBL_DESC_CFG_ENABLE t 1).startClearing t).commit n))) ∧
    (Taken s.toDev 0x0502 c n a p e →
      let k := 2 * a.fn + t / 32
      let bit := BitVec.ofNat 32 (2 ^ (t % 32))
      let old := e.rd .TBL_FUNC_GRANT k
      exec (.tableGrant c) s = .next (withDev s ((e.wr .TBL_FUNC_GRANT k 0 (if w.getLsbD 31 then old ||| bit else old &&& ~~~ bit)).replyOk n))) ∧
    ((t = 0 ∨ 3 < t) → (4 ≤ a.cmd.issuer → t ≠ 0 ∧ e.tblGranted a.cmd.issuer t = true) → e.tblEnabled t = true → e.tblClearing t = false →
      (Taken s.toDev 0x0503 c n a p e →
        let x := e.hostEntry t a.fn (slice p 4 32)
        let m := x.toMatch
        (∀ q old, e.findEntry m = some (q, old) → e.moveFits q old.fn x.fn = true →
          exec (.entryWrite c) s = .next (withDev s (((e.putEntry q x).logTable t a.fn (e.updIndex m (some q)) 1 .ok).replyOk n))) ∧
        (∀ q y, e.findEntry m = none → e.insertEntry x false = some (q, y) →
          exec (.entryWrite c) s = .next (withDev s ((y.logTable t a.fn (y.updIndex m (some q)) 1 .ok).replyOk n)))) ∧
      (Taken s.toDev 0x0506 c n a p e → (w.getLsbD 30 = true → t = 0) →
        let picked (x : Entry) : Bool := x.table == t && (!(w.getLsbD 31 || a.cmd.issuer ≥ 4) || x.fn == a.fn) &&
          (!w.getLsbD 30 || natBits x.key 59 48 == bitsOf (le32 p 4) 27 16)
        let hit := (e.tbl.slots.cells.filter fun x => picked x.2).map (fun x => (Place.slot x.1, x.2))
          ++ (e.tbl.ovf.cells.filter fun x => picked x.2).map fun x => (Place.ovf x.1, x.2)
        let flushed := hit.foldl (fun (x : Dev) y => (x.dropEntry y.1).logTable t y.2.fn (e.updIndex y.2.toMatch (some y.1)) 3 .ok) e
        exec (.tableFlush c) s = .next (withDev s (flushed.replyOk n [toWord hit.length])))) ∧
    (let m := entryMatch p a.fn
      ∀ q x, (m.table = 0 ∨ 3 < m.table) → (4 ≤ a.cmd.issuer → m.table ≠ 0 ∧ e.tblGranted a.cmd.issuer m.table = true) →
      e.tblEnabled m.table = true → e.tblClearing m.table = false → e.findEntry m = some (q, x) →
      (Taken s.toDev 0x0504 c n a p e →
        exec (.entryDelete c) s = .next (withDev s (((e.dropEntry q).logTable m.table x.fn (e.updIndex m (some q)) 2 .ok).replyOk n))) ∧
      (Taken s.toDev 0x0505 c n a p e → exec (.entryRead c) s = .next (withDev s (e.replyOk n (e.entryWords q x))))) ∧
    (∀ v6 len key, routeOf p = some (v6, len, key) →
      let f := a.fn
      let table := 2 + b2n v6
      let m := routeMatch v6 f len key
      e.tblClearing table = false →
      (Taken s.toDev 0x0507 c n a p e →
        (len = 0 → exec (.lpmAdd c) s = .next (withDev s (((e.setTbl fun x => { x with
          dflt := x.dflt.put (2 * f + b2n v6) (le p 20 8) }).logTable table f 0xFFFFFFFF 4 .ok).replyOk n))) ∧
        (∀ q x, len ≠ 0 → e.findEntry m = some (q, x) → exec (.lpmAdd c) s = .next (withDev s
          (((e.putEntry q { x with result := le p 20 8 }).logTable table f (e.updIndex m (some q)) 4 .ok).replyOk n))) ∧
        (∀ q y, len ≠ 0 → e.findEntry m = none → e.insertEntry
            { key := m.key, result := le p 20 8, static := true, ageEn := false, table := table, fn := f, qual := m.qual } false = some (q, y) →
          exec (.lpmAdd c) s = .next (withDev s ((y.logTable table f (y.updIndex m (some q)) 4 .ok).replyOk n)))) ∧
      (Taken s.toDev 0x0508 c n a p e →
        (∀ r, len = 0 → e.tbl.dflt.look? (2 * f + b2n v6) = some r → exec (.lpmDel c) s = .next (withDev s (((e.setTbl fun x => { x with
          dflt := x.dflt.erase (2 * f + b2n v6) }).logTable table f 0xFFFFFFFF 5 .ok).replyOk n))) ∧
        (∀ q x, len ≠ 0 → e.findEntry m = some (q, x) → exec (.lpmDel c) s = .next (withDev s
          (((e.dropEntry q).logTable table f (e.updIndex m (some q)) 5 .ok).replyOk n))))) ∧
    (Taken s.toDev 0x0509 c n a p e → exec (.lpmFilter c) s = .next (withDev s
      (if w.getLsbD 31 then
        ((List.range 4).foldl (fun (x : Dev) k => x.wr .TBL_LPM6_FILTER (4 * a.fn + k) 0 (le32 p (4 + 4 * k))) e).replyOk n
      else (e.wr .TBL_LPM4_FILTER a.fn 0 (le32 p 4)).replyOk n)))

/-- R15, R99, R143, R150, R152, R153, R474: a lookup is answered and its reply fills the slot it was made for; a learn and a
refresh are taken from the front of their queues; the scan starts its pass and visits a bucket; a clearing ends; an
uncorrectable error of a bucket marks it, of a frame's buffer drops its copies, the one on the line too, then the frame, and
counts it, of an MRAM word loses the word, and of an engine resets the engine; a corrected error is counted for its die, of
MRAM in SEC_MRAM_CORR. A learn while table 0 is disabled is inserted, entries of the overflow are visited with their home
bucket (log entry 23), the lookup's reply keeps its slot's order as log entry 44 says, a failed bucket offers no room and hits
nothing (log entry 25), and which block an engine's error resets, what counts the frames and how a frame on the line ends are
log entry 48: the model's choices. -/
def Obligations.TableEvents : Prop :=
  ∀ (s : State), s.toDev.inReset = false →
    let d := s.toDev
    (∀ n r, d.pca.reqs.look? n = some r → r.kind ≠ 3 → r.prefetch = false → r.answer = none → d.rising 9 = false →
      let a := d.lookupAnswer r
      exec (.tableLookup n) s = .next (withDev s (a.2.setReqs fun x => x.put n { r with answer := some a.1 }))) ∧
    (∀ n r o len v, d.pca.reqs.look? n = some r → r.answer = some (o, len, v) → r.blockGen = d.blockGen 9 →
      exec (.lookupReply n) s = .next (withDev s ((d.setReqs fun x => x.erase n).fillSlot r n o len v))) ∧
    (∀ r rest, d.tbl.learnQ = r :: rest → d.tblOn = true → d.tblClearing 0 = false → d.gen r.fn = r.gen →
      exec .learnApply s = .next (withDev s ((d.setTbl fun x => { x with learnQ := rest }).learn r))) ∧
    (∀ n k f q rest place entry, d.tbl.refreshQ = (n, k, f, q) :: rest →
      d.findEntry { table := n, key := k, fn := f, qual := q } = some (place, entry) →
      exec .ageRefresh s = .next (withDev s ((d.setTbl fun x => { x with refreshQ := rest }).putEntry place { entry with age := 0 }))) ∧
    (d.tblOn = true → (∀ t, d.tbl.lastPass = some t → t + scanPeriod d.tbl.passCfg ≤ d.ref) →
      exec .scanPassStart s = .next (withDev s
        (d.setTbl fun x => { x with scan := some (d.ref, 0), lastPass := some d.ref, passCfg := d.rd .TBL_AGE_CFG }))) ∧
    (∀ start b, d.tbl.scan = some (start, b) → d.tblOn = true → start + scanPeriod d.tbl.passCfg * b / d.partBuckets ≤ d.ref →
      d.bucketInUse b = true → d.bucketFailed b = false →
      let moved := d.setTbl fun x => { x with scan := if b + 1 < d.partBuckets then some (start, b + 1) else none }
      let slots := (List.range 4).filterMap fun i => (d.tbl.slots.look? (4 * b + i)).map fun e => (Place.slot (4 * b + i), e)
      let spilt := (d.tbl.ovf.cells.filter fun c => d.homeOf c.2 == some b).map fun c => (Place.ovf c.1, c.2)
      let live := (slots ++ spilt).filter fun x => d.tblEnabled x.2.table
      exec .scanVisit s = .next (withDev s ((live.foldl (fun y x => y.scanPlace x.1 x.2) moved).trimSpill b))) ∧
    (∀ n, n < 64 → d.tblClearing n = true →
      let x := d.set Fld.TBL_DESC_CFG_CLEARING n 0
      exec (.tableClearDone n) s = .next (withDev s
        (match x.vcl.cmds.first? fun _ a => a.opcode == 0x0501 && a.started && bitsOf (le32 a.params 0) 5 0 == n with
        | some (c, _) => x.replyOk c
        | none => x))) ∧
    (∀ b, b < d.partBuckets →
      exec (.eccUncorrectable (.bucket b)) s = .next (withDev s (d.setTbl fun x => { x with failed := x.failed.put b () }))) ∧
    (∀ id, (d.frame? id).isSome = true →
      let lost := (d.failCopies id 45 (Config.dropReason 30)).loseFrame id 45 (Config.dropReason 30)
      exec (.eccUncorrectable (.frame id)) s = .next (withDev s { lost with ecc := { lost.ecc with frames := satCount lost.ecc.frames } })) ∧
    (∀ die, exec (.eccUncorrectable (.corrected die)) s = .next (withDev s { d with ecc := { d.ecc with
      corrected := d.ecc.corrected.put die (satCount (d.ecc.corrected.getD die 0)) } })) ∧
    (∀ k, let b := if k = 5 then 4 else if k = 24 then 12 else k
      let reset := d.resetBlock b
      exec (.eccUncorrectable (.engine k)) s = .next (withDev s (reset.setIsl b { reset.isl b with
        resetting := some (reset.isl b).resetting.join }))) ∧
    (∀ at_, exec (.eccUncorrectable (.mram at_)) s = .next (withDev s (d.mramLose at_)) ∧
      exec (.eccUncorrectable (.mramCorrected at_)) s = .next (withDev s (d.bump .SEC_MRAM_CORR)))

/-! ## The virtual switch (chapter 7) -/

/-- R163, R168, R169, R176, R341: the commands of the switch on records in range, naming what they need; a change that takes
effect for what begins later is replied to once every earlier copy has been issued (what counts as issued is the model's
choice, log entry 22). -/
def Obligations.SwitchCommands : Prop :=
  ∀ (s : State),
    (∀ (c : Cmd) (n : Nat) (a : Accepted) (p : Bytes) (e : Dev), e.available 11 = true →
      let w := le32 p 0
      let x := bitsOf w 11 0
      let many := bitsOf (le32 p 0x10C) 4 0
      let tuns := (List.range (min many 16)).map fun i => le p (0x110 + 2 * i) 2
      let cnt := (le32 p 4).toNat
      let dests := (List.range cnt).map fun i => le p (8 + 2 * i) 2
      let record := wordsOf (p.drop 4) 32
      let settled (y : Dev) : Dev := if (y.commit n).tunnelBusy then y.commit n else (y.commit n).replyOk n
      (Taken s.toDev 0x0601 c n a p e → x ≠ 0 → x ≠ 4095 → many ≤ 16 → (∀ t, t ∈ tuns → t < 4096) →
        let v : Vlan :=
          { fid := bitsOf w 27 16, floodUc := w.getLsbD 31, floodMc := w.getLsbD 30, ports := (le32 p 4).toNat,
            untagPorts := (le32 p 8).toNat, funcs := le p 12 128, untagFuncs := le p 0x8C 128, tunnels := tuns }
        exec (.vlanSet c) s = .next (withDev s (settled (e.setVsw fun y => { y with vlans := y.vlans.put x v })))) ∧
      (Taken s.toDev 0x0602 c n a p e → (e.vsw.vlans.look? x).isSome = true →
        exec (.vlanDel c) s = .next (withDev s ((e.setVsw fun y => { y with vlans := y.vlans.erase x }).replyOk n))) ∧
      (Taken s.toDev 0x0603 c n a p e → cnt ≤ 64 → dests.all groupDest = true →
        exec (.groupSet c) s = .next (withDev s
          (settled (e.setVsw fun y => { y with groups := y.groups.put x (Machine.Group.mk (bitsOf w 27 16) dests) })))) ∧
      (Taken s.toDev 0x0604 c n a p e → (e.vsw.groups.look? x).isSome = true →
        exec (.groupDel c) s = .next (withDev s (settled (e.setVsw fun y => { y with groups := y.groups.erase x })))) ∧
      (Taken s.toDev 0x0605 c n a p e → tunnelRecordOk record = true →
        exec (.tunnelSet c) s = .next (withDev s ((e.setVsw fun y => { y with tunnels := y.tunnels.put x record }).replyOk n))) ∧
      (∀ r, Taken s.toDev 0x0606 c n a p e → e.vsw.tunnels.look? x = some r →
        exec (.tunnelDel c) s = .next (withDev s (settled (e.setVsw fun y => { y with tunnels := y.tunnels.erase x }))))) ∧
    (∀ (c : Cmd) (n : Nat) (a : Accepted) (p : Bytes) (e : Dev), Taken s.toDev 0x0607 c n a p e →
      exec (.vrfSet c) s = .next (withDev s ((e.setVsw fun y => { y with
        routerMac := y.routerMac.put a.fn ((le32 p 0).toNat * 2 ^ 16 + bitsOf (le32 p 4) 31 16) }).replyOk n))) ∧
    (∀ n a, s.toDev.inReset = false → s.toDev.vcl.cmds.look? n = some a → a.opcode / 256 = 6 → a.started = true → a.committed = true →
      s.toDev.tunnelBusy = false → exec (.switchDrainReply n) s = .next (withDev s (s.toDev.replyOk n)))

/-- R163, R174, R198: a verdict's frame at the switch. A recirculated one with ENCRYPT goes to the IPsec slots; one to be
terminated loses its outer headers and is classified again, a Geneve frame with O = 1 goes to the slow path, and one that its
endpoint does not match is dropped; one whose verdict stands is admitted by its VLAN at its source and destination, learned
where asked, and copied to its set and its mirrors; one outside its VLAN, or whose ESP slot does not fit, is dropped; one that
would go back to where it came from goes to its mirrors alone. The reason codes of the drops are open (log entry 3), and an
endpoint that a function does not hold is an isolation drop (log entry 46): the model's choices. -/
def Obligations.Switching : Prop :=
  ∀ (s : State) (id : Nat) (f : Frame), s.toDev.inReset = false → s.toDev.frame? id = some f → s.toDev.staleFrame f = false →
    s.toDev.available 11 = true →
    let d := s.toDev
    (∀ r, f.stage = .toSwitch (some r) → lgOn f.lg lgEncrypt = true →
      exec (.switchFrame id) s = .next (withDev s
        (((d.updFrame id fun x => { x with stage := .espIn r, since := d.ref }).moveFrame id 97).espEnqueue (lgGet f.lg lgFunction) (.espIn id)))) ∧
    (∀ r, f.stage = .toSwitch (some r) → lgOn f.lg lgEncrypt = false → geneveO f.bytes = true →
      exec (.switchFrame id) s = .next (withDev s (d.slowPath id 42 0))) ∧
    (∀ r, f.stage = .toSwitch (some r) → lgOn f.lg lgEncrypt = false → geneveO f.bytes = false →
      (∀ rec, d.vsw.tunnels.look? (lgGet f.lg lgTunnel) = some rec → termination rec f.bytes = none) →
      exec (.switchFrame id) s = .next (withDev s ((d.bump .VSW_TUN_MISMATCH).dropFrame id 42 (Config.dropReason 8)))) ∧
    (∀ r rec start lin, f.stage = .toSwitch (some r) → lgOn f.lg lgEncrypt = false → geneveO f.bytes = false →
      d.vsw.tunnels.look? (lgGet f.lg lgTunnel) = some rec → termination rec f.bytes = some (start, lin) →
      exec (.switchFrame id) s = .next (withDev s ((d.updFrame id fun x => { x with
        bytes := slice x.bytes start lin, lg := lgSet (lgSet x.lg lgFrameLen lin) lgDecap 1,
        decap := some (4096 * lgGet f.lg lgTunnel + epVid rec) }).recirculate id r))) ∧
    (∀ sel v, f.stage = .toSwitch none →
      let fn := lgGet f.lg lgFunction
      let inPort := lgGet f.lg lgInPort
      let dest := lgGet f.lg lgDest
      let x : SwCtx := { sel := sel, vlan := v, inPort := inPort, fn := fn, bytes := f.bytes, hash := f.lg.getD 5 0 }
      let learned := if lgOn f.lg lgLearn then
          d.learnSubmit { fid := v.fid, mac := be f.bytes 6 6, inPort := inPort, fn := fn, gen := lgGet f.lg lgGeneration,
                          stamp := d.ingress f.lg, tunnel := f.decap.map (· / 4096) }
        else d
      let set := learned.destSet x f.lg f.decap.isSome
      d.vlanOf f inPort fn = some (sel, v) → v.hasSource inPort fn = true →
      d.holdsFrame x f.lg f.decap.isSome = true →
      let fitting : Prop := lgOn f.lg lgEncrypt = true → d.cipOn = true → d.espFits (lgGet f.lg lgKeySlot) fn 3 = true
      (¬ fitting →
        let refused := d.espRefused (lgGet f.lg lgKeySlot) fn 3
        exec (.switchFrame id) s = .next (withDev s (refused.1.dropFrame id 42 refused.2))) ∧
      (fitting → (dest = sourceDest inPort fn → viaEndpoint f.lg dest = true) →
        let nowhere : Bool := dest / 2 ^ 13 == 2 && !learned.exists? (dest % 2 ^ 13)
        let counted := if (set.isEmpty && (destDrops dest || dest == 1)) || nowhere then learned.bump .VSW_NO_DEST else learned
        let plan := counted.planAll x set
        let mirror := plan.2.mirrors x (lgOn f.lg lgMirror) plan.1
        exec (.switchFrame id) s = .next (withDev s (mirror.2.replicate id f (plan.1 ++ mirror.1) 5))) ∧
      (fitting → dest = sourceDest inPort fn → viaEndpoint f.lg dest = false →
        let mirror := (learned.bump .VSW_HAIRPIN_DROP).mirrors x (lgOn f.lg lgMirror) []
        exec (.switchFrame id) s = .next (withDev s (mirror.2.replicate id f mirror.1 7)))) ∧
    (f.stage = .toSwitch none →
      let fn := lgGet f.lg lgFunction
      let inPort := lgGet f.lg lgInPort
      (∀ sel v, d.vlanOf f inPort fn = some (sel, v) → v.hasSource inPort fn = false ∨ d.holdsFrame
        { sel := sel, vlan := v, inPort := inPort, fn := fn, bytes := f.bytes, hash := f.lg.getD 5 0 } f.lg f.decap.isSome = false →
        exec (.switchFrame id) s = .next (withDev s ((d.bump .FNC_ISOLATION_DROP fn).dropFrame id 42 (Config.dropReason 6)))))

/-! ## Insets, functions and the host interface (chapters 4, 12 and 13) -/

/-- R66, R104, R105, R307: an inset that the loader takes and finds room for, its commit in a region, the end of the old one's
drain, an unload and a set of bindings; a virtual function without FNC_PRIV bit 1 is DENIED. Where the firmware places the
text (log entry 20), which other groups it takes out of the masks and what the reply holds beside the bound and the digest
(log entry 44) are the model's choices. -/
def Obligations.Insets : Prop :=
  ∀ (s : State),
    (∀ (c : Cmd) (n : Nat) (a : Accepted) (p : Bytes) (e : Dev),
      let f := a.fn
      let reads := [(le p 0 8, (le32 p 8).toNat)]
      let may (x : Dev) : Prop := 4 ≤ a.cmd.issuer → (x.rd .FNC_PRIV a.cmd.issuer).getLsbD 1 = true
      (Taken s.toDev 0x0301 c n a p e → ¬ may e → ∀ obj, exec (.insetLoad c obj) s = .next (withDev s (e.reply n .denied))) ∧
      (Taken s.toDev 0x0302 c n a p e → ¬ may e → exec (.insetBind c) s = .next (withDev s (e.reply n .denied))) ∧
      (Taken s.toDev 0x0303 c n a p e → ¬ may e → exec (.insetUnload c) s = .next (withDev s (e.reply n .denied))) ∧
      (∀ bytes o' ready, Taken s.toDev 0x0301 c n a p o' → may o' → o'.pca.changes.look? f = none → (le32 p 12).toNat ≤ 16 →
        let from_ := ((o'.vcl.cmds.look? n).map (·.cmd.issuer)).getD 0
        o'.ownReach from_ reads = (.ready, ready) →
        let e := ready.putReads from_ reads
        let o := tlamond (slice bytes 0 (le32 p 8).toNat)
        let maps := (List.range (le32 p 12).toNat).map fun i => ((le32 p (16 + 8 * i)).toNat, (byteAt p (20 + 8 * i)).toNat)
        let cs := e.groupClusters f
        ∀ bases x wins y, e.loaderRefuses f o maps = none → e.placeAll 0x1000 0x4000 1 o.text.length e.textUsed cs = (some bases, x) →
          x.placeAll 0x40000 0x80000 1024 o.rgn x.rgnUsed (cs.map (· / 4)).eraseDups = (some wins, y) →
          let bound := (o.figures.map (·.2)).getD 0
          let granted := if o.chanMask ≠ 0 ∨ o.softMask ≠ 0 then e.exclusive f else []
          let i : Inset :=
            { function := f, text := o.text, base := bases, rgnBase := wins, priv := o.priv, rgn := o.rgn,
              entries := o.entries.map fun e => (e.1, e.2.1, e.2.2.1),
              handles := o.handles.map fun h => (e.handleTable f h.2.1 maps h.2.2).getD 0,
              handleKinds := o.handles.map (·.2.1), chanMask := o.chanMask, softMask := o.softMask, granted := granted, bound := bound }
          let k := y.pca.insets.nextKey
          let placed := (((y.setPca fun q => { q with insets := q.insets.put k i }).zeroWindows i).setGroupMasks f cs).grantInset f o granted
          exec (.insetLoad c (some bytes)) s = .next (withDev s (placed.startChange f (some k) bound (some n)))) ∧
      (Taken s.toDev 0x0302 c n a p e → may e →
        let rs := (List.range (le32 p 0).toNat).map fun i => (le32 p (4 + 8 * i), le32 p (8 + 8 * i))
        let seq := e.pca.binds + 1
        (∀ r, r ∈ rs → e.bindRefuses f r.1 = none) →
        exec (.insetBind c) s = .next (withDev s
          ((rs.foldl (fun x r => x.bindRecord f seq r.1 r.2) (e.setPca fun q => { q with binds := seq })).replyOk n))) ∧
      (Taken s.toDev 0x0303 c n a p e → may e → e.pca.changes.look? f = none →
        exec (.insetUnload c) s = .next (withDev s (if (e.insetInForce f).isSome then e.startChange f none 0 (some n) else e.replyOk n)))) ∧
    (∀ f r ch, s.toDev.inReset = false → s.toDev.pca.changes.look? f = some ch → ch.regions.contains r = true →
      exec (.insetCommitApply f r) s = .next (withDev s (s.toDev.setPca fun q => { q with
        insetAt := match ch.new with
          | some k => q.insetAt.put (4 * f + r) k
          | none => q.insetAt.erase (4 * f + r)
        changes := q.changes.put f { ch with regions := ch.regions.filter (· ≠ r) } }))) ∧
    (∀ f ch, s.toDev.inReset = false → s.toDev.pca.changes.look? f = some ch → ch.regions = [] → s.toDev.oldInsetRuns f ch.new = false →
      let freed := (s.toDev.setPca fun q => { q with
        changes := q.changes.erase f, insets := q.insets.keep fun k i => i.function != f || some k == ch.new }).set Fld.FNC_INSET_STAT_DRAINING f 0
      exec (.insetDrainEnd f) s = .next (withDev s (match ch.cmd, ch.new with
        | some n, some k => freed.loadReply n k
        | some n, none => freed.replyOk n
        | none, _ => freed)))

/-- R295, R307, R317, R318, R323, R324, R325, R326: the commands of functions where they are not refused, and the two drains
that end. -/
def Obligations.FunctionCommands : Prop :=
  ∀ (s : State),
    (∀ (c : Cmd) (n : Nat) (a : Accepted) (p : Bytes) (e : Dev),
      let f := a.fn
      let base := bitsOf (le32 p 0) 13 0
      let count := bitsOf (le32 p 4) 6 0
      (Taken s.toDev 0x0902 c n a p e → count ≤ 64 → base + count ≤ 16384 → e.qpOverlaps f base count = false →
        (∀ i, i < e.qpCount f → e.qpBusy (e.qpBase f + i) = false) → (∀ i, i < count → e.qpBusy (base + i) = false) →
        exec (.qpAssign c) s = .next (withDev s (((e.wr .FNC_QP_MAP f 0 (toWord (count * 2 ^ 24 + base))).rssDefault f).replyOk n))) ∧
      (Taken s.toDev 0x0903 c n a p e → 4 ≤ f →
        exec (.funcPrivSet c) s = .next (withDev s ((e.wr .FNC_PRIV f 0 (le32 p 0 &&& 3)).replyOk n))) ∧
      (Taken s.toDev 0x0B01 c n a p e →
        exec (.funcReset c) s = .next (withDev s (((e.genChange f 4).commit n).updReset f fun r => { r with cmds := r.cmds ++ [n] }))) ∧
      (Taken s.toDev 0x0B02 c n a p e → e.fnState f = 0 → (e.sto.conns.first? fun _ x => x.fn == f && x.live) = none →
        (e.banks f).other = .empty →
        let begun : Dev := { e with fnc := { e.fnc with freezes := e.fnc.freezes.put f { z := e.now, cmd := some n } } }
        exec (.funcFreeze c) s = .next (withDev s
          (((begun.set Fld.FNC_FUNC_STATE_STATE f 2).set Fld.FNC_FUNC_STATE_SAVED f 0).commit n))) ∧
      (∀ ident key x z b, Taken s.toDev 0x0B03 c n a p e → e.fnState f = 3 → e.on? Fld.SEC_STAT_TRNG_FAIL = false → e.mramBad 0x3000 0x4000 = false →
        e.saveDomain = (some (ident, key), x) → x.fnc.freezes.look? f = some z → x.vcl.cmds.look? n = some b →
        let clear := (x.imageSections f).filter fun s => !s.2.isEmpty
        let keys := x.keySection f
        let secs := clear ++ [(12, keys)]
        let body := clear.flatMap fun s => s.2.flatMap id
        let pre := 96 + 16 * secs.length
        let total := pre + body.length + 144 * keys.length
        total ≤ (le32 p 8).toNat →
        let iv := x.drawBytes 12
        let rnd := iv.2.drawBytes 8
        let aad := imageHeader total secs.length f (e.gen f) ident z.z iv.1 rnd.1 ++ (directory pre secs).flatMap id ++ body
        let sealed := sized (144 * keys.length) (gcmSeal key iv.1 aad (keys.flatMap id))
        let tag := sized 16 (gcmTag key iv.1 aad sealed)
        exec (.funcSave c) s = .next (withDev s
          (((rnd.2.hostPut b.cmd.issuer (le p 0 8) (overwrite (aad ++ sealed) 0x30 tag)).set Fld.FNC_FUNC_STATE_SAVED f 1).replyOk n
            [toWord total]))) ∧
      (∀ raw ready, Taken s.toDev 0x0B04 c n a p e →
        let from_ := ((e.vcl.cmds.look? n).map (·.cmd.issuer)).getD 0
        let reads := [(le p 0 8, (le32 p 8).toNat)]
        let b := sized (le32 p 8).toNat raw
        let read := ready.putReads from_ reads
        e.ownReach from_ reads = (.ready, ready) → read.mramBad 0x3000 0x4000 = false →
        exec (.funcRestore c none) s = .next (withDev s ((read.hostError from_).reply n .hostErr)) ∧
        exec (.funcRestore c (some raw)) s = .next (withDev s (match read.restoreRefuses f b with
          | some why => read.reply n .badParam (wordBytes [toWord why])
          | none => ((read.genChange f 6 (some n)).commit n).updReset f fun r => { r with restore := some (n, b) }))) ∧
      (Taken s.toDev 0x0B05 c n a p e → e.fnState f = 3 →
        let spent (x : KeySlot) : KeySlot :=
          if krOwner x.record = f ∧ x.state = 1 ∧ (krType x.record = 3 ∨ krType x.record = 5) then { x with state := 2 } else x
        let keyed := if e.on? Fld.FNC_FUNC_STATE_SAVED f = true then e.setCip fun x => { x with slots := x.slots.mapVals fun _ y => spent y } else e
        let freed : Dev := { keyed with fnc := { keyed.fnc with freezes := keyed.fnc.freezes.erase f } }
        exec (.funcThaw c) s = .next (withDev s
          ((((freed.set Fld.FNC_FUNC_STATE_STATE f 0).set Fld.FNC_FUNC_STATE_SAVED f 0).hostFlush f).replyOk n)))) ∧
    (∀ f z, s.toDev.inReset = false → s.toDev.fnState f = 2 → s.toDev.dmaBusy f = false → s.toDev.fnc.freezes.look? f = some z →
      let frozen := (s.toDev.unfetch f).set Fld.FNC_FUNC_STATE_STATE f 3
      let done : Dev := { frozen with fnc := { frozen.fnc with freezes := frozen.fnc.freezes.put f { z with cmd := none } } }
      exec (.freezeDrainEnd f) s = .next (withDev s (match z.cmd with
        | some n => done.replyOk n
        | none => done))) ∧
    (∀ f r, s.toDev.inReset = false → s.toDev.fnState f = 1 → s.toDev.resetDrained f = true → s.toDev.fnc.resets.look? f = some r →
      r.restore = none →
      let d := s.toDev
      let cleared : Dev := { d with fnc := { d.fnc with resets := d.fnc.resets.erase f } }
      let ready := ((cleared.set Fld.FNC_FUNC_STATE_STATE f 0).set Fld.FNC_FUNC_STATE_RESET_DONE f 1).writeGenRec f r.stamp r.reason r.discarded
      let told := (r.cmds.foldl (fun x n => x.replyOk n) ready).event (pfOf f) 0x8004
        (wordBytes [toWord f, toWord (r.reason + d.gen f * 2 ^ 16)])
      exec (.funcResetDrainEnd f) s = .next (withDev s (if r.flr then told.emit (.flrDone f) else told)))

/-- R285, R288, R290, R292, R305: what PCIe does to functions: FLR, NumVFs and VF Enable, the power states, a link going down
and up, PERST1_N, ATS invalidations, and an MSI-X vector unmasked with its pending bit set. -/
def Obligations.HostEvents : Prop :=
  ∀ (s : State), s.toDev.inReset = false →
    let d := s.toDev
    let resetAll (why : Nat) (fs : List Nat) : Dev := fs.foldl (fun x g => x.genChange g why) d
    let dropped (link : Nat) : Dev :=
      let fs := (d.linkFns link).filter d.exists?
      (fs.foldl (fun x g => x.cfgReset g false) (resetAll 3 fs)).wr .HIF_LINK_STAT link 0 0
    (∀ f, d.exists? f = true →
      let fs := if f < 4 then f :: d.vfsOf f else [f]
      exec (.flr f) s = .next (withDev s ((fs.foldl (fun x g => x.cfgReset g true) (resetAll 1 fs)).updReset f fun r => { r with flr := true })) ∧
      exec (.d3hotEnter f) s = .next (withDev s (d.setFnCfg f { d.hif.cfg.getD f {} with d3hot := true })) ∧
      ((d.hif.cfg.getD f {}).d3hot = true →
        let awake := (d.setFnCfg f { d.hif.cfg.getD f {} with d3hot := false }).hostFlush f
        exec (.d0Enter f) s = .next (withDev s
          ((awake.mbx.holding.filter fun p => p.receiver == f).foldl (fun x p => x.postDeliver p.sender f) awake)))) ∧
    (∀ k, k < 4 →
      let v := d.hif.sriov.getD k {}
      exec (.vfEnableSet k) s = .next (withDev s (d.setSriov k { v with vfEnable := true })) ∧
      (v.vfEnable = true →
        let off := (d.vfsOf k).foldl (fun x g => (x.genChange g 2).cfgReset g false) d
        exec (.vfEnableClear k) s = .next (withDev s (off.setSriov k { off.hif.sriov.getD k {} with vfEnable := false }))) ∧
      (∀ n, v.vfEnable = false → n ≤ 255 →
        exec (.numvfsWrite k n) s = .next (withDev s (d.setSriov k { v with numVfs := n })))) ∧
    (∀ link, ((d.linkFns link).filter d.exists?) ≠ [] → exec (.pcieLinkDown link) s = .next (withDev s (dropped link))) ∧
    (d.on? Fld.HIF_LINK_CFG_DUAL = true → ((d.linkFns 1).filter d.exists?) ≠ [] → exec .perst1N s = .next (withDev s (dropped 1))) ∧
    (∀ link rate width, rate < 16 → width < 64 → (link = 0 ∨ link = 1 ∧ d.on? Fld.HIF_LINK_CFG_DUAL = true) →
      exec (.pcieLinkUp link rate width) s = .next (withDev s
        (d.wr .HIF_LINK_STAT link 0 (toWord (2 ^ 31 + rate * 2 ^ 16 + width))))) ∧
    (∀ f tag page, exec (.atsInvalidation f tag page) s = .next (withDev s ({ d with
      dma := { d.dma with atc := d.dma.atc.erase (atcKey f (page * 4096)), invals := d.dma.invals ++ [(f, tag, page)] } }))) ∧
    (∀ f tag page, (d.dma.invals.find? fun i => i.1 == f && i.2.1 == tag) = some (f, tag, page) → d.invalBusy f page = false →
      let gone : Dev := { d with dma := { d.dma with invals := d.dma.invals.erase (f, tag, page) } }
      exec (.atsInvalComplete f tag) s = .next (withDev s ((gone.bump .HIF_ATS_INVAL).emit (.invalidated f tag)))) ∧
    (∀ f vec w, vec < msixCount f → w.getLsbD 0 = false → d.canAccess (.host f) = true →
      d.spotAt (.host f) (.msix f (16 * vec + 12)) = .vector f vec 3 → d.hostBarred (.host f) (.vector f vec 3) = false →
      d.standby = false → d.unavailable (.vector f vec 3) = none → (d.hif.msix.getD (2048 * f + vec) {}).pending = true →
      (d.hif.cfg.getD f {}).msixEnable = true → (d.hif.cfg.getD f {}).msixMask = false →
      reach (.host f) (.msix f (16 * vec + 12)) = some (.msix f (16 * vec + 12)) →
      let v := d.hif.msix.getD (2048 * f + vec) {}
      let open_ : Dev := { d with hif := { d.hif with msix := d.hif.msix.putD {} (2048 * f + vec) { v with masked := false, pending := false } } }
      exec (.msixVectorUnmask f vec w) s = .next (withDev s (((open_.holdVector f vec).hostOut f (.msix f vec)).emit (.answer (.host f) .done))))

/-! ## Scheduling, gates and policing (chapter 9) -/

/-- R217, R218, R219, R221, R223: the traffic manager's commands on records in range, and what they answer. That GATE_SET with
ENABLE 0 replies zeros, and that stops count against the watchdog from the moment at which a list becomes active, are readings
of log entry 23. -/
def Obligations.TrafficCommands : Prop :=
  ∀ (s : State) (c : Cmd) (n : Nat) (a : Accepted) (p : Bytes) (e : Dev), e.available 6 = true →
    let w := le32 p 0
    let k := bitsOf w 12 0
    let r := wordsOf (p.drop 4) 4
    (Taken s.toDev 0x0801 c n a p e →
      let port := bitsOf w 4 0
      let count := bitsOf (le32 p 4) 26 16
      let base := le p 8 8
      let cycle := (le32 p 16).toNat
      let ext := (le32 p 20).toNat
      port < 18 → gateListOk p count cycle ext (e.preemption port) = true →
      (w.getLsbD 31 = false →
        exec (.gateSet c) s = .next (withDev s ((e.gateEnd port).replyOk n [0, 0, 0, 0, 0]).contourGates)) ∧
      (w.getLsbD 31 = true →
        let need := ceilDiv (a.stamp + 2000 * 256) 256
        let skip := if need ≤ base then 0 else ceilDiv (need - base) cycle
        let t := base + skip * cycle
        let l : GateList :=
          { entries := gateEntries p count, base := base, cycle := cycle, ext := ext, init := bitsOf (le32 p 4) 7 0, t := t, n := skip }
        let g := e.gate port
        let held := e.setGate port { g with pending := some l, hold := if g.oper.isSome then none else some l.init }
        let told := ((held.set Fld.TMG_GATE_STAT_BASE_ADVANCED port (b2n (0 < skip))).wr .TMG_GATE_STAT port 1 (toWord skip)).wr
          .TMG_GATE_STAT port 2 (toWord (skip / 2 ^ 32))
        let begun :=
          if g.oper.isSome || g.pending.isSome then told
          else told.setPort port { told.port port with stops := (told.port port).stops.mapVals fun _ x => { x with since := e.ref } }
        exec (.gateSet c) s = .next (withDev s
          ((begun.stepdownOff port).replyOk n (stampWords (256 * t) ++ [toWord skip, toWord (skip / 2 ^ 32)])).contourGates))) ∧
    (Taken s.toDev 0x0802 c n a p e →
      let w0 := r.getD 0 0
      let w1 := r.getD 1 0
      bitsOf w0 13 10 = 0 → bitsOf w1 31 29 = 0 → bitsOf w1 15 14 = 0 → r.getD 2 0 = 0 → r.getD 3 0 = 0 → bitsOf w0 27 26 ≠ 3 →
      (w0.getLsbD 30 = true → bitsOf w0 9 0 < 4) →
      exec (.filterSet c) s = .next (withDev s ((e.setTm fun x => { x with
        filters := x.filters.put k { e.tm.filters.getD k { w0 := 0, w1 := 0 } with w0 := w0, w1 := w1, blocked := false } }).replyOk n))) ∧
    (Taken s.toDev 0x0803 c n a p e →
      let f := e.tm.filters.getD k { w0 := 0, w1 := 0 }
      let read := if w.getLsbD 31 then
          e.updFilter k fun y => { y with matched := 0, passed := 0, oversize := 0, meterDrops := 0, blocked := false }
        else e
      exec (.filterStats c) s = .next (withDev s (read.replyOk n
        [toWord f.matched, toWord f.passed, toWord f.oversize, toWord f.meterDrops, toWord (b2n f.blocked)]))) ∧
    (Taken s.toDev 0x0804 c n a p e → bitsOf (r.getD 2 0) 26 24 = 0 → bitsOf (r.getD 3 0) 31 24 = 0 →
      let full (x : Word) : Nat := bitsOf x 23 0 * (256 * 8000000)
      let m : Meter :=
        { cir := (r.getD 0 0).toNat, eir := (r.getD 1 0).toNat, w2 := r.getD 2 0, w3 := r.getD 3 0,
          tc := full (r.getD 2 0), te := full (r.getD 3 0), last := e.now }
      exec (.meterSet c) s = .next (withDev s ((e.setTm fun x => { x with meters := x.meters.put k m }).replyOk n))) ∧
    (Taken s.toDev 0x0805 c n a p e →
      let w0 := le32 p 4
      let w1 := le32 p 8
      w0.getLsbD 30 = false → bitsOf w0 23 0 = 0 → bitsOf w1 15 0 = 0 → 1 ≤ bitsOf w0 29 24 → bitsOf w0 29 24 ≤ 32 → bitsOf w1 31 16 ≠ 0 →
      exec (.cbSet c) s = .next (withDev s ((e.setCb (bitsOf w 11 0) { w0 := w0, w1 := w1 }).replyOk n))) ∧
    (∀ x, Taken s.toDev 0x0806 c n a p e → e.tm.cb.look? (bitsOf w 11 0) = some x →
      let read := if w.getLsbD 31 then
          e.setCb (bitsOf w 11 0) { x with tagless := 0, rogue := 0, discarded := 0, outOfOrder := 0, resets := 0 }
        else e
      exec (.cbStats c) s = .next (withDev s (read.replyOk n
        [toWord x.tagless, toWord x.rogue, toWord x.discarded, toWord x.outOfOrder, toWord x.resets])))

/-- R22, R52, R210, R212, R214, R221, R222, R224, R228, R229, R367, R370, R373: the admission of a frame's copies; the
scheduler's choice, which takes the head of the queue that the highest class with a free line picks, charges it, and hands it
to its launch slot or to the cipher engine; the launch; the end of a frame on the line; the timeouts of recovery, resequencing
and residency; and the gate events: the entry and the list that come into force, with the gates they leave, and preemptable
traffic that gives the line up. Frames of a new class or port begin their round robin at the lowest number (log entry 18);
reason codes are open (log entry 3); a start is dated back within the present cycle (log entry 1); late, underrun and
flow-control details are log entries 49, 30 and 38, a frame held by recovery is log entry 43: the model's choices. -/
def Obligations.TrafficEvents : Prop :=
  ∀ (s : State), s.toDev.inReset = false →
    let d := s.toDev
    (∀ id f, d.frame? id = some f → d.rising 6 = false → d.available 6 = true → d.staleFrame f = false →
      let ids := (d.copies.cells.filter fun c => c.2.frame == id && c.2.stage == .admitting).map (·.1)
      let policed : Policed × Dev := if f.filtered then (.pass (lgGet f.lg lgColour), d) else d.police id f
      let seen := policed.2.updFrame id fun x => { x with filtered := true }
      ids ≠ [] →
      (∀ r, policed.1 = .drop r → exec (.tmFrameAdmit id) s = .next (withDev s
        (((seen.copies.cells.filter fun c => c.2.frame == id).map (·.1)).foldl (fun y c => y.dropCopy c 44 r) seen))) ∧
      (∀ colour, policed.1 = .pass colour →
        let marked := (seen.updCopies id fun c => { c with lg := lgSet c.lg lgColour colour }).updFrame id fun x =>
          { x with lg := lgSet x.lg lgColour colour }
        exec (.tmFrameAdmit id) s = .next (withDev s (ids.foldl (fun y c =>
          match y.copy? c with
          | none => y
          | some x => if x.dest < 1000 then y.admitPort c x ((marked.frame? id).bind (·.rtag)) else y.handDma c x) marked)))) ∧
    (∀ n x t, d.tm.cb.look? n = some x → x.lastPass = some t → t + x.resetMs * 1000000 ≤ d.ref →
      exec (.cbResetTimeout n) s = .next (withDev s
        (d.setCb n { x with takeAny := true, resets := addCount x.resets, lastPass := none }))) ∧
    (∀ p, p < 18 → d.available 6 = true → d.on? Fld.TMG_CTRL_ENABLE = true → d.txWaiting p < 32 →
      let at_ := d.nowLine + d.lead p
      let free (k : Nat) : Nat := d.planFree p k
      let start (k : Nat) : Nat := if free k ≤ at_ && at_ < free k + 2 * lineNs then free k else max (free k) at_
      let ready (k : Nat) : Prop := free k ≤ at_ ∧ d.canSend p k = true ∧
        ∃ g q gDef qDef y, d.pick p k (start k) = some (g, q, gDef, qDef) ∧ d.head q = some y
      ((∀ k, k < 8 → ¬ ready k) → exec (.schedulerSelect p) s = .next s) ∧
      (∀ tc g q gDef qDef id c, tc < 8 → (∀ k, tc < k → k < 8 → ¬ ready k) → free tc ≤ at_ → d.canSend p tc = true →
        d.pick p tc (start tc) = some (g, q, gDef, qDef) → d.head q = some (id, c) →
        (∀ x, d.reseqCheck p id c = (false, x) → exec (.schedulerSelect p) s = .next (withDev s
          (x.selectFrom p d.nowLine (d.tm.queues.size + 1 + tc) (tc + 1)))) ∧
        (∀ x, d.reseqCheck p id c = (true, x) →
          let n := x.charged p c
          let out := x.setQueue q ((x.queue q).drop 1)
          let ends := start tc + (n + 20) * x.byteTime p
          let express := x.preemption p && !x.preemptable p tc
          let paid := (out.setTm fun t => { t with gDef := payDeficit gDef (8 * g + tc) n, qDef := payDeficit qDef q n,
                                                   gLast := t.gLast.put (8 * p + tc) g, qLast := t.qLast.put (8 * g + tc) q }).emptied q
          let planned := paid.setLine p { out.line p with tFree := if express then max (out.line p).tFree ends else ends,
                                                          tFreeX := if express then ends else (out.line p).tFreeX }
          let delay := min (x.ref - c.admitted) 0xFFFFFFFF
          let timed := if (planned.rd .TMG_QUEUE_DELAY_MAX q).toNat < delay then planned.wr .TMG_QUEUE_DELAY_MAX q 0 (toWord delay)
            else planned
          (x.macsecApplies p c = false → exec (.schedulerSelect p) s = .next (withDev s
            ((timed.updCopy id fun y => { y with stage := .launch q (start tc) }).moveCopy id p))) ∧
          (x.macsecApplies p c = true → timed.cipTakes = true → exec (.schedulerSelect p) s = .next (withDev s
            (((timed.updCopy id fun y => { y with stage := .macsec q (start tc) }).moveCopy id 97).setCip fun y =>
              { y with txQ := y.txQ ++ [id] }))) ∧
          (x.macsecApplies p c = true → timed.cipTakes = false → exec (.schedulerSelect p) s = .next (withDev s
            (timed.cipRefused.dropCopy id 43 (cipReason timed 11))))))) ∧
    (∀ p id t, ((d.held_ p).find? fun h => h.2 ≤ d.ref) = some (id, t) →
      exec (.reseqTimeout p) s = .next (withDev s (d.reseqRelease p id 1))) ∧
    (∀ p, p < 18 → d.linkUp? p = true →
      let cut := (d.preemptClosed p).fcRetry p
      let ready := (cut.launchSlots p).filter fun e => cut.canSend p (cut.qClass e.2.2.1)
      let counted := cut.countLate p ready
      let first := (cut.launchHeads ready).find? fun e =>
        cut.startFits p (cut.qClass e.2.2.1) e.2.2.2 e.2.1 && cut.lineTakes p (cut.qClass e.2.2.1)
      exec (.frameLaunch p) s = .next (withDev s (match first with
        | some (id, c, q, z) => if (cut.line p).busy.isSome then counted.preempt p else counted.startCopy p id q z c
        | none => counted.resumeAside p))) ∧
    (∀ id c q, d.copy? id = some c → c.stage = .queued q → 2 ^ 55 ≤ d.now - d.ingress c.lg →
      exec (.residencyDiscard id) s = .next (withDev s
        (((d.unqueue q id).bump .TMG_RESIDENCY_DROP c.dest).dropCopy id 44 (Config.dropReason 21)))) ∧
    (∀ p l, (d.gate p).oper = some l →
      let at_ := (d.gate p).place l d.nowNs
      let k := at_.1.toNat
      let i := at_.2
      ((d.gate p).pending.any fun n => n.t ≤ d.nowNs) = false → ¬ ((d.gate p).entry = i ∧ (d.gate p).cycle = k) →
      exec (.gateEntryChange p) s = .next (withDev s ((d.setGate p { d.gate p with
        entry := i, gates := l.mask i, cycle := k, started := ((d.gate p).started + (k - (d.gate p).cycle)) % 2 ^ 32,
        holding := if l.op i = 1 then true else if l.op i = 2 then false else (d.gate p).holding }).preemptClosed p))) ∧
    (∀ p l, (d.gate p).pending = some l → l.t ≤ d.nowNs →
      let cut := d.preemptClosed p
      let g := cut.gate p
      let at_ := l.pos (max l.t d.nowNs)
      let i := at_.2.1
      let extended := (g.oper.bind fun o => extension o l).isSome
      let ended := ((g.oper.map fun o => (g.place o (l.t - 1)).1).getD g.cycle - (g.cycle : Int)).toNat
      let begun := cut.setGate p { g with
        oper := some l, pending := none, hold := none, entry := i, gates := l.mask i, cycle := at_.1.toNat,
        started := (g.started + ended + at_.1.toNat + 1) % 2 ^ 32,
        holding := if l.op i = 1 then true else if l.op i = 2 then false else g.holding }
      exec (.gateListStart p) s = .next (withDev s (((begun.set Fld.TMG_GATE_STAT_EXTENDED p (b2n extended)).logAt 0x14 44 none
        (256 * l.t) (toWord p) (toWord l.n) (Config.gateFlags (b2n (0 < l.n) + 2 * b2n extended))).preemptClosed p))) ∧
    (∀ p b, (d.line p).busy = some b → b.ends ≤ d.refLine →
      let free := ((d.setLine p { d.line p with busy := none }).stopsTakeEffect p).fcRetry p
      (free.copy? b.copy = none → exec (.frameTxEnd p) s = .next (withDev s free)) ∧
      (∀ c q z, free.copy? b.copy = some c → c.stage = .line q z →
        (c.cutAt = none → exec (.frameTxEnd p) s = .next (withDev s ((free.bump .PRT_TX_FRAMES p).endCopy b.copy))) ∧
        (c.cutAt ≠ none →
          let step := free.get Fld.TMG_QUEUE_SCHED_CT_STEP q
          let counted := free.bump .PRT_TX_UNDERRUN p
          exec (.frameTxEnd p) s = .next (withDev s
            ((if step < 6 then counted.set Fld.TMG_QUEUE_SCHED_CT_STEP q (step + 1) else counted).dropCopy b.copy p 0x00050001))))) ∧
    (∀ p, d.holds p = true →
      let cut (b : OnLine) (n : Nat) : Dev :=
        (((d.setLine p { d.line p with busy := none, aside := some (b.copy, b.before + n),
                                       idleAt := b.began + (24 + n) * d.byteTime p }).bump .TMG_PREEMPT_COUNT p).reshape b.copy fun x =>
          { x with gap := 16 * d.byteTime p }).stopsTakeEffect p
      ((d.line p).busy = none → exec (.preemptableHold p) s = .next s) ∧
      (∀ b c q z, (d.line p).busy = some b → d.copy? b.copy = some c → c.stage = .line q z →
        let mask := 2 ^ d.qClass q
        let opens := ((d.gate p).at d.nowNs).opens false mask
        let soon := if d.canPreempt p then cut b (d.sentNow p b) else d
        (d.preemptable p (d.qClass q) = false → exec (.preemptableHold p) s = .next s) ∧
        (d.preemptable p (d.qClass q) = true →
          (opens = true → exec (.preemptableHold p) s = .next (withDev s soon)) ∧
          (opens = false → (d.gate p).closeAt mask ((d.nowLine + b.began - d.refLine) / lineNs) = none →
            exec (.preemptableHold p) s = .next (withDev s soon)) ∧
          (∀ e, opens = false → (d.gate p).closeAt mask ((d.nowLine + b.began - d.refLine) / lineNs) = some e →
            (b.ends + d.nowLine ≤ d.refLine + e * lineNs → exec (.preemptableHold p) s = .next s) ∧
            (d.refLine + e * lineNs < b.ends + d.nowLine →
              (d.cutBy p (e * lineNs) b c = none → exec (.preemptableHold p) s = .next (withDev s soon)) ∧
              (∀ n, d.cutBy p (e * lineNs) b c = some n → exec (.preemptableHold p) s = .next (withDev s (cut b n))))))))

/-! ## Buffers, the DMA engine and late gather (chapter 10) -/

/-- R240, R241, R243, R258, R305: a buffer request decided on arrival or by its stamp, with everything the requester then
does; a share freed by its owner, and refused to another; a DMA window set; the holdoff of an interrupt that waits. Which free
buffers are granted is open (log entry 20). R247, R257, R288, R298, R300: a descriptor fetch of a plain queue pair whose ring
has an entry, once the translations that it needs are there: an entry or a descriptor that breaks the rules completes with
BAD_PARAM, one that cannot be read with HOST_ERR, a good receive descriptor waits for frames and a good transmit descriptor
asks for its buffers. While a translation is to come nothing is read. A TAG that could not be read is a free value, what a
fetch reads ahead is free too, and the descriptors that break the rules are those of log entry 31: the model's choices. -/
def Obligations.BuffersAndDescriptors : Prop :=
  (∀ (s : State),
     (s.toDev.inReset = false →
       let d := s.toDev
       (∀ id r, d.bpm.reqs.look? id = some r → r.arrived = false → d.rising 13 = false → d.available 13 = true →
         d.on? Fld.BPM_CTRL_ENABLE = true →
         let made := d.decideFrom id r 4 r.pool false
         exec (.bufferRequest id) s = .next (withDev s (made.2.bufFinish id r made.1 fun n ch e => e.stoBuffers n ch))) ∧
       (∀ pool id r rest, d.waitingOf pool = (id, r) :: rest → d.available 13 = true → d.on? Fld.BPM_CTRL_ENABLE = true →
         (r.stamp + 64 * 256 < d.now ∨ d.on? Fld.MER_CTRL_ENABLE = false) →
         let made := d.decideFrom id r 4 pool true
         exec (.bufferStampDecide pool) s = .next (withDev s (made.2.bufFinish id r made.1 fun n ch e => e.stoBuffers n ch))) ∧
       (∀ party h,
         let refused := (d.bump .BPM_FREE_DENIED).logNow 0x12 45 none 0x500 (toWord h) (toWord party)
         let given (t : Tbl Grant) (b : Nat) : Tbl Grant := match t.look? b with
           | some x =>
             if x.owners.contains party = false then t
             else if x.owners.length ≤ 1 then t.erase b
             else t.put b { x with owners := x.owners.erase party }
           | none => t
         (∀ g, d.bpm.grants.look? h = some g →
           exec (.bufferFree party h) s = .next (withDev s
             (if g.owners.contains party then { d with bpm := { d.bpm with
               grants := ((chainFrom d.bpm.grants 256 h).filter fun b =>
                 ((d.bpm.grants.look? b).map (·.owners.contains party)).getD false).foldl given d.bpm.grants } }
              else refused))) ∧
         (d.bpm.grants.look? h = none → exec (.bufferFree party h) s = .next (withDev s refused))) ∧
       (∀ q rx f, d.qpOwner q = some f → d.on? Fld.HIF_QP_CTX_IRQ_EN q = true → d.fnState f ≠ 1 → d.fnState f ≠ 3 →
         (if d.irqSide q rx then (d.qp q).rxWait else (d.qp q).txWait) = true →
         (if d.irqSide q rx then (d.qp q).rxHold else (d.qp q).txHold) ≤ d.ref →
         exec (.irqHoldoffEnd q rx) s = .next (withDev s (d.sendIrq q f rx)))) ∧
     (∀ (c : Cmd) (n : Nat) (a : Accepted) (p : Bytes) (e : Dev), Taken s.toDev 0x0901 c n a p e → e.available 7 = true →
       let w := le32 p 0
       let k := 8 * a.fn + bitsOf w 2 0
       let base := le p 4 8
       let pages := bitsOf (le32 p 12) 19 0
       let v := w.getLsbD 31
       (v = true → base % 4096 = 0 ∧ pages ≠ 0) →
       exec (.dmaWindowSet c) s = .next (withDev s
         ((((e.wr .DMA_PF_WIN k 0 (if v then toWord base else 0)).wr .DMA_PF_WIN k 1 (if v then toWord (base / 2 ^ 32) else 0)).wr
           .DMA_PF_WIN k 2 (if v then toWord (2 ^ 31 + pages) else 0)).replyOk n)))) ∧
  (∀ (s : State) (q f : Nat) (rx : Bool) (entry : Bytes), s.toDev.inReset = false →
     let d := s.toDev
     let x := d.qp q
     let fetched := if rx then x.rxFetched else x.txFetched
     let tail := if rx then x.rxTail else x.txTail
     let size := if rx then d.rxSize q else d.txSize q
     let ring := if rx then d.qpAddr q 8 else d.qpAddr q 4
     let place := (ring + 16 * (fetched % size), 16)
     d.qpOwner q = some f → d.dmaIssues = true → d.fetches f = true → d.on? Fld.HIF_QP_CTX_ENABLE q = true →
     d.on? Fld.HIF_QP_CTX_MODE q = false → fetched ≠ tail →
     sub32 (if rx then x.rxcTail else x.txcTail) (if rx then x.rxcHead else x.txcHead) + d.descCount q rx < size →
     d.dma.descs.look? (descKey q rx fetched) = none →
     let read := ((d.setQp q (if rx then { x with rxFetched := inc32 fetched } else { x with txFetched := inc32 fetched })).putReads f
       [place]).prefetch q f ring size 16 (inc32 fetched) tail
     let a := le entry 0 8
     let blank : Desc :=
       { qp := q, idx := fetched, rx := rx, fn := f, gen := d.gen f, tag := bitsOf (le32 entry 8) 15 0,
         path := { d.qpPath q rx with desc := some fetched }, late := false, stampReq := false, total := 0, txTime := 0, elems := [],
         fetched := d.now }
     let entryOk : Prop := bitsOf (le32 entry 8) 31 16 = 0 ∧ le32 entry 12 = 0 ∧ a % 16 = 0
     (∀ e desc, (d.reachPages f [place]).1 = .waits →
       exec (.descriptorFetch q rx e desc) s = .next (withDev s (d.reachPages f [place]).2)) ∧
     ((d.reachPages f [place]).1 = .ready →
       (∀ desc,
         let lost := (read.hostError f).drawWord
         let y : Desc := { blank with tag := bitsOf lost.1 15 0 }
         exec (.descriptorFetch q rx none desc) s = .next (withDev s ((lost.2.putDesc y).descFail y .hostErr))) ∧
       (∀ desc, ¬entryOk →
         exec (.descriptorFetch q rx (some entry) desc) s = .next (withDev s ((read.putDesc blank).descFail blank .badParam))) ∧
       (entryOk → (d.reachPages f [(a, 16)]).1 = .ready → exec (.descriptorFetch q rx (some entry) none) s = .next (withDev s
         ((((read.putReads f [(a, 16)]).hostError f).putDesc blank).descFail blank .hostErr))) ∧
       (∀ bs, entryOk →
         let r := readDesc bs a
         let got := read.putReads f r.reads
         let y : Desc :=
           { blank with path := { blank.path with barrier := r.barrier }, late := r.late, stampReq := r.stamp, total := r.total,
                        txTime := r.txTime, elems := r.elems }
         (d.reachPages f r.reads).1 = .ready →
         (r.ok = false → exec (.descriptorFetch q rx (some entry) (some bs)) s = .next (withDev s ((got.putDesc y).descFail y .badParam))) ∧
         (r.ok = true → rx = true → r.late = false → r.stamp = false →
           exec (.descriptorFetch q rx (some entry) (some bs)) s = .next (withDev s (got.putDesc y))) ∧
         (r.ok = true → rx = false → r.total ≤ 9728 → r.late = false → d.ctxOf q = none →
           exec (.descriptorFetch q rx (some entry) (some bs)) s = .next (withDev s
             ((got.putDesc { y with got := List.replicate r.total 0 }).askBuffers (chanParty (d.qpChan q false)) r.total
               (.descriptor q fetched)))) ∧
         (r.ok = true → rx = false → r.total ≤ 9728 → r.late = true → (d.ctxOf q).isSome = true →
           exec (.descriptorFetch q rx (some entry) (some bs)) s = .next (withDev s (got.putDesc y))))))

/-- R245, R248, R288, R289, R304: a burst that the engine issues, a late gather's before all others, unless no window holds it
any more (a command whose held data has left completes with it, log entry 31); the data of a burst as its user takes it; a
failed burst, which is counted and reported, and whose descriptor, window, copy, command or record ends as HOST_ERR with the
bursts that wait for it; a translation that completes, with what it wakes or fails; a copy placed in a receive buffer. Ties of
the arbitration begin at the lowest number (log entry 18); a denied translation of a write is a host error and the write is
discarded (log entry 31); the translation that a full cache gives up is open (log entry 31): the model's choices. -/
def Obligations.HostTransfers : Prop :=
  ∀ (s : State), s.toDev.inReset = false →
    let d := s.toDev
    let fails (x : Dev) (id : Nat) : Dev :=
      x.failBurst id (fun c pdu g => g.stoReadFail c pdu) (fun c cid g => g.stoPlaceFail c cid) fun r g => g.tlsZeroed r
    (∀ id b, d.dmaIssues = true → d.lateDue = some (id, b) →
      ((d.inWindow b.fn b.addr b.len).isSome = true → d.translated b.fn b.addr = true →
        exec (.dmaBurstIssue false) s = .next (withDev s (d.issueBurst id b).stoDue)) ∧
      (d.inWindow b.fn b.addr b.len = none →
        exec (.dmaBurstIssue false) s = .next (withDev s ((d.denyLate id b).burstIssue false d.dma.bursts.size).stoDue))) ∧
    (∀ (write : Bool) c id b, d.dmaIssues = true → (write = false → d.lateDue = none) →
      d.chooseChan write (d.nextBursts write) = some (c, id, b) → d.translated b.fn b.addr = true →
      let key (x : Nat) : Nat := 2 * x + b2n write
      let passed := (((d.nextBursts write).map (·.1)).filter (· ≠ c)).foldl
        (fun (t : Tbl Nat) x => t.putD 0 (key x) (t.getD (key x) 0 + 1)) d.dma.passed
      exec (.dmaBurstIssue write) s = .next (withDev s (({ d with dma := { d.dma with
        passed := passed.putD 0 (key c) 0, lastAt := d.dma.lastAt.put (key (d.get Fld.DMA_CHAN_CFG_PRIO c)) c } } : Dev).issueBurst id b).stoDue)) ∧
    (∀ id b data, d.dma.bursts.look? id = some b → b.write = false → b.issued = true → d.gen b.fn = b.gen →
      let done := d.dropBurst id
      let bytes := (padTo data b.len).take b.len
      (∀ q i pos x, b.for_ = .gather q i pos → d.dma.descs.look? (descKey q false i) = some x →
        let y : Desc := { x with got := overwrite x.got pos bytes, reads := x.reads - 1 }
        let kept : Dev := { done with dma := { done.dma with descs := done.dma.descs.put (descKey q false i) y } }
        exec (.dmaReadCompletion id data) s = .next (withDev s (if y.reads = 0 then kept.gathered y else kept))) ∧
      (∀ k o pos, b.for_ = .late k o pos →
        exec (.dmaReadCompletion id data) s = .next (withDev s
          ((done.updWin k o fun w => { w with got := overwrite w.got pos bytes, reads := w.reads - 1, arrived := some d.now }).lgWhole k o))) ∧
      (∀ conn pdu pos, b.for_ = .storage conn pdu pos →
        exec (.dmaReadCompletion id data) s = .next (withDev s (done.stoRead conn pdu pos bytes)))) ∧
    ((∀ (x : Dev) (id : Nat) (b : Burst), x.dma.bursts.look? id = some b →
        let gone : Dev := { x with dma := { x.dma with bursts := x.dma.bursts.erase id } }
        let lost := (gone.bump .HIF_HOST_ERR).emit (.aer b.fn)
        let left (y : Dev) (t : Tbl Burst) : Dev := { y with dma := { y.dma with bursts := t } }
        (x.gen b.fn ≠ b.gen → (∀ w, b.for_ ≠ .cancelled (some w)) → fails x id = gone) ∧
        (∀ k o, x.gen b.fn ≠ b.gen → b.for_ = .cancelled (some (k, o)) → fails x id = gone.lgArrived k o) ∧
        (x.gen b.fn = b.gen →
          (∀ q i pos z, b.for_ = .gather q i pos → lost.dma.descs.look? (descKey q false i) = some z → z.rx = false →
            let mine (y : Burst) : Bool := match y.for_ with
              | .gather q' i' _ => q' == q && i' == i
              | _ => false
            let rest := left lost ((lost.dma.bursts.keep fun _ y => !(mine y && !y.issued)).mapVals fun _ y =>
              if mine y then { y with for_ := .cancelled none } else y)
            fails x id = (((rest.freeShare z.chain (chanParty z.path.chan)).txComplete z.qp z.idx .hostErr none false 0).handOn q)) ∧
          (∀ k o pos w, b.for_ = .late k o pos → lost.lgWin k o = some w →
            let told := lost.updWin k o fun v => { v with failed := true, reads := v.reads - 1, arrived := some x.now }
            fails x id = match w.idx with
              | some i => if w.failed then told else told.txComplete (told.get Fld.DMA_LG_CTX_QP k) i .hostErr none false 0
              | none => told) ∧
          (∀ c pos, b.for_ = .place c pos →
            let rest := left lost (lost.dma.bursts.keep fun _ y => y.issued || (match y.for_ with
              | .place c' _ => c' != c
              | _ => true))
            let spoilt := left rest (rest.dma.bursts.mapVals fun _ y => match y.for_ with
              | .completion q _ rx =>
                if y.path.queue == b.path.queue && y.path.desc == b.path.desc && !y.issued then
                  { y with for_ := .completion q Status.hostErr.code rx,
                           data := List.replicate 12 0 ++ bytesLE 2 Status.hostErr.code ++ slice y.data 14 2 ++ List.replicate 12 0
                             ++ slice y.data 28 4 }
                else y
              | _ => y)
            fails x id = spoilt.endCopy c) ∧
          (∀ c pdu pos z p, b.for_ = .storage c pdu pos → lost.conn? c = some z → (z.outQ.find? fun y => y.num == pdu) = some p →
            fails x id = (((lost.stoComplete c p.cid none .hostErr false).stoFlush c).stoSettle c)) ∧
          (∀ c cid len, b.for_ = .placed c cid len →
            let rest := left lost (lost.dma.bursts.keep fun _ y => y.issued || (match y.for_ with
              | .placed c' k' _ => !(c' == c && k' == cid)
              | _ => true))
            fails x id = (((rest.stoComplete c cid none .hostErr false).stoFlush c).stoSettle c)) ∧
          (∀ r z, b.for_ = .zeroRead r → lost.sto.records.look? r = some z → z.zeroing = true → fails x id = lost.tlsFailed r) ∧
          (∀ k o, b.for_ = .cancelled (some (k, o)) → fails x id = lost.lgArrived k o))) ∧
      (∀ n b, d.dma.bursts.look? n = some b →
        exec (.hostReadError (.burst n)) s = .next (withDev s (if b.write = false ∧ b.issued = true then fails d n else d))) ∧
      (∀ f page,
        let k := atcKey f (page * 4096)
        let waiting := d.dma.bursts.cells.filter fun e => e.2.missed && e.2.fn == f && e.2.addr / 4096 == page
        let asked := d.dma.asked.look? k == some false
        let awake := waiting.foldl (fun t e => t.put e.1 { e.2 with missed := false }) d.dma.bursts
        (waiting = [] → asked = false → ∀ granted, exec (.atsTranslationCompletion f page granted) s = .next s) ∧
        ((waiting ≠ [] ∨ asked = true) →
          (∀ p, d.dma.atc.size < 4096 → exec (.atsTranslationCompletion f page (some p)) s = .next (withDev s
            (({ d with dma := { d.dma with bursts := awake, asked := if asked then d.dma.asked.erase k else d.dma.asked,
                                           atc := d.dma.atc.put k p } } : Dev).hostFlush f))) ∧
          exec (.atsTranslationCompletion f page none) s = .next (withDev s
            ((waiting.foldl (fun x e => fails x e.1) { d with dma := { d.dma with
              bursts := awake, asked := if asked then d.dma.asked.put k true else d.dma.asked } }).hostFlush f))))) ∧
    (∀ id c n x y, d.copy? id = some c → c.stage = .dma n →
      let f := c.dest - 1000
      d.rising 7 = false → d.dmaOn = true → d.gen f = c.gen → d.exists? f = true → (∀ g, d.frame? c.frame = some g → d.staleFrame g = false) →
      d.fnState f < 2 →
      ((d.dma.handed.takeWhile fun h => h.1 != id).any fun h => h.2 == n && ((d.copy? h.1).map (·.dest)) == some c.dest &&
        (match ((d.copy? h.1).map (·.stage) : Option CopyStage) with
          | some (.dma _) => true
          | _ => false)) = false →
      d.rxInjector id f c = (some x, y) → (y.injWord true f 0).getLsbD 29 = true →
      let free := y.releaseRx []
      d.stoOffer id x free = none → n < d.qpCount f → d.on? Fld.HIF_QP_CTX_MODE (d.qpBase f + n) = false →
      d.on? Fld.HIF_QP_CTX_ENABLE (d.qpBase f + n) = true →
      exec (.rxCopyPlace id) s = .next (withDev s (free.placeCopy id (d.qpBase f + n) f x)))

/-- R252, R254, R255: a late gather's read time, with a head to gather and without one; its deadline, which closes the window
with the repeat it calls for; and the log of reads that have not come back, whose STAMP is the moment of writing (log entry
43). What a head that waits for a later TX_TIME, a denied window and a failed element leave is log entries 23 and 31: the
model's choices. -/
def Obligations.LateGather : Prop :=
  ∀ (s : State) (k : Nat), s.toDev.inReset = false →
    let d := s.toDev
    let q := d.get Fld.DMA_LG_CTX_QP k
    let c := d.lgCtx k
    (∀ f o, k < 1024 → d.qpOwner q = some f → d.lgOpening k = some o → d.on? Fld.DMA_LG_CTX_ENABLE k = true → d.dmaOn = true →
      d.fetches f = true →
      let w : LgWin :=
        { tOpen := o, deadline := d.lgDeadlineOf k o, idx := none, fn := f, gen := d.gen f, elems := [], tag := 0, total := 0 }
      ((∀ x, d.lgHead q = some x → o < x.txTime) →
        exec (.lgReadTime k) s = .next (withDev s (d.setLg k { c with wins := c.wins ++ [w], lastOpen := o }))) ∧
      (∀ x, d.lgHead q = some x → x.txTime ≤ o → (∀ e, e ∈ x.elems → (d.inWindow f e.1 e.2).isSome = true) →
        let place := (x.elems.foldl (fun (acc : List (Nat × Nat × Nat) × Nat) e => (acc.1 ++ [(e.1, e.2, acc.2)], acc.2 + e.2)) ([], 0)).1
        let begun : Dev := { d with dma := { d.dma with descs := d.dma.descs.put (descKey q false x.idx) { x with taken := true } } }
        let reads := place.foldl (fun (acc : Nat × Dev) e =>
          if (d.inWindow f e.1 e.2.1).isSome then
            let m := acc.2.queueRead x.path f e.1 e.2.1 e.2.2 fun pos => .late k o pos
            (acc.1 + m.1, m.2)
          else (acc.1, acc.2.bumpBy .DMA_SPEC_DENIED 0 (d.readSplit x.path f e.1 e.2.1).length)) (0, begun)
        let full : LgWin :=
          { w with idx := some x.idx, elems := x.elems, tag := x.tag, total := x.total, denied := false, reads := reads.1,
                   got := List.replicate x.total 0 }
        exec (.lgReadTime k) s = .next (withDev s
          ((reads.2.setLg k { reads.2.lgCtx k with wins := c.wins ++ [full], lastOpen := o }).askBuffers (chanParty x.path.chan) x.total (.lateGather k o))))) ∧
    (∀ w, (c.wins.find? fun w => w.deadline ≤ d.now) = some w →
      let mine (b : Burst) : Bool := match b.for_ with
        | .late k' o _ => k' == k && o == w.tOpen
        | _ => false
      let out := d.dma.bursts.countP fun _ b => mine b && b.issued
      let bursts : Tbl Burst := (d.dma.bursts.keep fun _ b => !(mine b && !b.issued)).mapVals fun _ b =>
        if mine b then { b with for_ := .cancelled (some (k, w.tOpen)) } else b
      let cut : Dev := { d with dma := { d.dma with bursts := bursts } }
      let shut := cut.setLg k { cut.lgCtx k with wins := (cut.lgCtx k).wins.filter (·.tOpen != w.tOpen) }
      let closed := if out = 0 then shut.freeShare w.chain w.party else shut
      let completed := match w.idx with
        | some i => if w.failed then closed else closed.txComplete q i w.outcome.2 none false 0
        | none => closed
      let copied := completed.repeatCopy k
      let counted := copied.2.bump .DMA_LG_CTX k (if w.outcome.1 = 2 then 7 else 6)
      let known : Bool := w.outcome.1 != 1 || out == 0
      let e : LgLog :=
        { tOpen := w.tOpen, deadline := w.deadline, outcome := w.outcome.1, repeated := copied.1, qp := q,
          cycle := d.cycleAt (d.get Fld.DMA_LG_CTX_PORT k) w.tOpen, reads := out, chain := w.chain, party := w.party, written := known }
      let logged := if known then counted.lgLogWrite k e 0xFFFFFFFF else counted
      exec (.lgDeadline k) s = .next (withDev s
        (if out = 0 then logged else logged.setLg k { logged.lgCtx k with logs := (logged.lgCtx k).logs ++ [e] }))) ∧
    (∀ e, (c.logs.find? fun e => !e.written && e.deadline + 100000 * 256 ≤ d.now) = some e →
      exec (.lgEvlogTimeout k) s = .next (withDev s ((d.setLg k { c with
        logs := c.logs.map fun x => if x.tOpen = e.tOpen then { x with written := true } else x }).lgLogWrite k e 0xFFFFFFFF)))

/-! ## The cipher engine (chapter 8) -/

/-- R189, R190, R193, R194, R196, R202, R203: the key commands of a holder, and the MACsec commands of a port. Commands that
change the slot of an operation take effect at a stamp at which none starts on it, and what of the window counts as received
after KEY_WRITE, is the model's choice (log entry 46). -/
def Obligations.KeyCommands : Prop :=
  ∀ (s : State) (c : Cmd) (n : Nat) (a : Accepted) (p : Bytes) (e : Dev), e.available 4 = true →
    let f := a.fn
    let w := le32 p 0
    let k := bitsOf w 13 0
    let port := bitsOf w 4 0
    (Taken s.toDev 0x0701 c n a p e →
      let first := bitsOf (le32 p 4) 13 0
      let count := bitsOf (le32 p 8) 14 0
      let ks := (List.range count).map (first + ·)
      first + count ≤ 16384 → (∀ x g, x ∈ ks → e.cip.grants.look? x = some g → g = f) →
      (w.getLsbD 31 = false → ∀ x, x ∈ ks → e.startedNow x = false) →
      exec (.keyGrant c) s = .next (withDev s
        (if w.getLsbD 31 then (e.setCip fun x => { x with grants := ks.foldl (fun t y => t.put y f) x.grants }).replyOk n
        else
          (((ks.filter fun x => (e.cip.grants.look? x).isSome).foldl (fun x y => x.eraseSlot y)
            (e.setCip fun x => { x with grants := ks.foldl (fun t y => t.erase y) x.grants })).commit n).eraseReplies))) ∧
    (Taken s.toDev 0x0702 c n a p e →
      let r := wordsOf (p.drop 4) 32
      recordOk r = true → krOwner r = f → (e.slot k).state ≠ 4 →
      ((e.cip.grants.look? k = none ∧ f < 4) ∨ (e.cip.grants.look? k = some f ∧ (f < 4 ∨ 3 ≤ krType r))) →
      e.startedNow k = false →
      let old := e.slot k
      let running := (e.cip.cores.first? fun _ o => o.slot == k && o.epoch == old.epoch).isSome
      let kept := e.setCip fun x =>
        { x with retired := if running then x.retired.put old.epoch old else x.retired, writes := x.writes + 1 }
      let fresh : KeySlot := { state := 1, record := r, next := krNext r, window := 1, epoch := e.cip.writes + 1 }
      exec (.keyWrite c) s = .next (withDev s (((kept.setSlot k fresh).commit n).replyOk n (stampWords e.now)))) ∧
    (e.holdsSlot f k = true →
      (Taken s.toDev 0x0703 c n a p e → e.startedNow k = false → exec (.keyErase c) s = .next (withDev s (((e.eraseSlot k).commit n).eraseReplies))) ∧
      (Taken s.toDev 0x0704 c n a p e →
        let x := e.slot k
        exec (.keyState c) s = .next (withDev s (e.replyOk n
          [e.keySlotWord k, toWord x.next, toWord (x.next / 2 ^ 32), toWord x.ops, toWord x.tagFails, toWord x.replayDrops])))) ∧
    (port < 18 →
      (Taken s.toDev 0x0705 c n a p e →
        exec (.macsecPortSet c) s = .next (withDev s
          (((e.wr .CIP_PORT_MACSEC port 0 ((w &&& 0xF0000000) ||| (e.rd .CIP_PORT_MACSEC port &&& 0x00003FFF))).setCip fun x =>
            { x with sci := x.sci.put port (le p 4 8) }).replyOk n))) ∧
      (Taken s.toDev 0x0707 c n a p e → e.startedNow (e.get Fld.CIP_PORT_MACSEC_TX_SLOT port) = false →
        exec (.macsecTxSwitch c) s = .next (withDev s
          (((e.set Fld.CIP_PORT_MACSEC_TX_SLOT port (bitsOf (le32 p 4) 13 0)).commit n).replyOk n (stampWords e.now)))) ∧
      (Taken s.toDev 0x0706 c n a p e →
        let sci := le p 4 8
        let others := (e.cip.rxsc.getD port []).filter fun x => x.sci != sci
        let has := (e.cip.rxsc.getD port []).any fun x => x.sci == sci
        let slots := (List.range 4).map fun i => le p (12 + 2 * i) 2
        (w.getLsbD 31 = true → has = true →
          exec (.macsecRxscSet c) s = .next (withDev s ((e.setCip fun x => { x with rxsc := x.rxsc.putD [] port others }).replyOk n))) ∧
        (w.getLsbD 31 = false → (has = true ∨ (e.cip.rxsc.getD port []).length < 32) →
          (∀ i, i < 4 → slots.getD i 0xFFFF = 0xFFFF ∨
            (slots.getD i 0xFFFF < 16384 ∧ krType (e.slot (slots.getD i 0xFFFF)).record = 2 ∧ krAn (e.slot (slots.getD i 0xFFFF)).record = i)) →
          let sc : RxSc := { sci := sci, slots := slots.map fun x => if x = 0xFFFF then none else some x }
          exec (.macsecRxscSet c) s = .next (withDev s
            ((e.setCip fun x => { x with rxsc := x.rxsc.put port (others ++ [sc]) }).replyOk n)))))

/-- R183 to R185, R187, R190, R192, R195, R197 to R201, R203: a free core takes MACsec transmit first, then MACsec receive on
a core that is not kept for transmit, then the ESP operation or TLS record whose turn it is; what a MACsec frame, an ESP copy
or frame and a TLS record become when their operation completes, their tag, window or length fails, or their slot does not
take them; a receive frame that waited too long; a reseed; an erasure that ends; the read that precedes the zeros of a record.
The reason codes are open (log entry 3); the layouts are those of the standards named, an operation that lengthens a frame
beyond MAX_LEN is dropped, and what comes after the tag is log entry 29, the record that a connection no longer waits for log
entry 47, the refusal of transmit records log entry 32: the model's choices. -/
def Obligations.CipherWork : Prop :=
  ∀ (s : State), s.toDev.inReset = false →
    let d := s.toDev
    (∀ core, d.cipOn = true → core < 12 → (core < 6 ∨ d.available 5 = true) → d.cip.cores.look? core = none →
      (∀ id rest c, d.cip.txQ = id :: rest → d.copy? id = some c →
        let k := d.get Fld.CIP_PORT_MACSEC_TX_SLOT c.dest
        let popped := d.setCip fun x => { x with txQ := x.txQ.filter (· ≠ id) }
        exec (.cipherAdmit core) s = .next (withDev s
          (if (d.slot k).takes 1 then
            (popped.takeValue k).2.startOp core (.tx id) k (popped.takeValue k).1 (d.ownerOf c) c.dest
          else ((popped.bump .CIP_SLOT_DROP).bump .CIP_MACSEC_TX_DROP c.dest).dropCopy id 43 (Config.dropReason 12)))) ∧
      (∀ id since k rest f, d.cip.txQ = [] → d.cip.rxQ = (id, since, k) :: rest → d.reserveTx ≤ core → d.frame? id = some f →
        let popped := d.setCip fun x => { x with rxQ := x.rxQ.filter fun e => e.1 != id }
        exec (.cipherAdmit core) s = .next (withDev s
          (if (d.slot k).takes 2 then popped.startOp core (.rx id) k 0 f.owner f.inPort
          else (popped.bump .CIP_SLOT_DROP).endFrame id))) ∧
      (∀ fn sub cls left, d.cip.txQ = [] → d.cip.rxQ = [] → d.reserveTx ≤ core → d.cipTurn = some ((fn, sub), cls, left) →
        let turned := d.setCip fun x => { x with turnClass := cls, turnsLeft := left, lastFn := x.lastFn.put cls fn,
                                                 espQ := x.espQ.filter fun e => e.2 != sub,
                                                 tlsQ := x.tlsQ.filter fun e => CipSubject.tls e.2 != sub }
        let held (k : Nat) : Bool :=
          (krType (d.slot k).record == 3 || krType (d.slot k).record == 4) && (krOwner (d.slot k).record == fn || krShared (d.slot k).record)
        let fits (k want : Nat) : Bool := krType (d.slot k).record == want
        let counted (k want : Nat) : Dev :=
          let x := if held k then turned else turned.bump .FNC_ISOLATION_DROP fn
          let y := if fits k want && (d.slot k).state == 1 then x else x.bump .CIP_SLOT_DROP
          if fits k want then y else y.bump .CIP_ESP_DROP
        let why (k want : Nat) : Word := Config.dropReason (if !held k then 6 else if fits k want then 12 else 13)
        (∀ id c, sub = .espOut id → d.copy? id = some c → (∀ f, d.frame? c.frame = some f → d.staleFrame f = false) →
          let k := lgGet c.lg lgKeySlot
          let takes := held k && fits k 3 && (d.slot k).state == 1
          let taken := turned.takeValue k
          let size := ((espOut (d.slot k).record taken.1 c (((d.frame? c.frame).map (·.bytes.length)).getD 0)).map (·.length)).getD
            c.bytes.length
          exec (.cipherAdmit core) s = .next (withDev s
            (if takes then (taken.2.startOp core (.espOut id) k taken.1 fn c.dest).askBuffers 97 size (.cipher core)
            else (counted k 3).dropCopy id 43 (why k 3)))) ∧
        (∀ id f, sub = .espIn id → d.frame? id = some f → d.staleFrame f = false →
          let k := lgGet f.lg lgKeySlot
          let takes := held k && fits k 4 && (d.slot k).state == 1
          exec (.cipherAdmit core) s = .next (withDev s
            (if takes then (turned.startOp core (.espIn id) k 0 fn f.inPort).askBuffers 97 f.bytes.length (.cipher core)
            else (counted k 4).dropFrame id 43 (why k 4)))) ∧
        (∀ r z, sub = .tls r → d.sto.records.look? r = some z → d.gen z.fn = z.gen →
          ((d.slot z.slot).takes (if z.tx then 5 else 6) = false → exec (.cipherAdmit core) s = .next (withDev s
            (((turned.bump .CIP_SLOT_DROP).tlsFailed r).tlsFeed))) ∧
          (z.tx = true → (d.slot z.slot).takes 5 = true →
            let taken := turned.takeValue z.slot
            exec (.cipherAdmit core) s = .next (withDev s ((taken.2.startOp core (.tls r) z.slot taken.1 z.fn 0).tlsFeed))) ∧
          (∀ c, z.tx = false → (d.slot z.slot).takes 6 = true →
            let begun := (turned.startOp core (.tls r) z.slot (d.slot z.slot).next z.fn 0).tlsFeed
            let plain := tlsOpen (d.slot z.slot).record (d.slot z.slot).next z.bytes
            let noted := begun.updRec r fun y => { y with inner := plain.2, pos := c.rxPos + c.rxBytes.length, len := plain.1.length }
            tlsRecordOk z.bytes = true → begun.conn? z.conn = some c → exec (.cipherAdmit core) s = .next (withDev s
              (if plain.2 = 23 then noted.updConn z.conn fun y => { y with rxBytes := y.rxBytes ++ plain.1 } else noted)))))) ∧
    (∀ core o id, d.cip.cores.look? core = some o → d.mayLeave o = true →
      (∀ c, o.subject = .tx id → d.copy? id = some c →
        let out := macsecProtect o.record o.value c.bytes
        let free := d.freeCore core c.bytes.length
        exec (.cipherOpComplete core) s = .next (withDev s
          (if d.portMaxLen c.dest < out.length then (free.bump .CIP_MACSEC_TX_DROP c.dest).dropCopy id 43 (Config.dropReason 14)
          else (free.updCopy id fun x => { x with
            bytes := out, lg := lgSet x.lg lgFrameLen out.length,
            stage := match x.stage with
              | .macsec q z => .launch q z
              | st => st }).moveCopy id c.dest))) ∧
      (∀ f, o.subject = .rx id → d.frame? id = some f →
        let k := d.opSlot o
        let left (x : KeySlot) : Dev := (d.setOpSlot o x).freeCore core f.bytes.length
        let pn := recoverPn (krExt o.record) k.next (secTag f.bytes).pn
        (macsecOpen o.record pn f.bytes = none → exec (.cipherOpComplete core) s = .next (withDev s
          (((left { k with tagFails := inc32 k.tagFails }).bump .CIP_MACSEC_RX_DROP f.inPort).endFrame id))) ∧
        (∀ out, macsecOpen o.record pn f.bytes = some out → krReplay o.record = true → pn + krWin o.record < k.next →
          exec (.cipherOpComplete core) s = .next (withDev s
            (((left { k with replayDrops := inc32 k.replayDrops }).bump .CIP_MACSEC_RX_DROP f.inPort).endFrame id))) ∧
        (∀ out, macsecOpen o.record pn f.bytes = some out → (krReplay o.record = true → k.next ≤ pn + krWin o.record) →
          exec (.cipherOpComplete core) s = .next (withDev s
            (((((left (if k.next ≤ pn then { k with next := pn + 1 } else k)).updFrame id fun x =>
              { x with bytes := out, traversed := true, stage := .legend, since := d.ref }).fill f.chain out).moveFrame id f.inPort).bump
              .PRT_RX_FRAMES f.inPort)))) ∧
      (∀ c chain, o.subject = .espOut id → o.chain = some chain → d.copy? id = some c →
        let free := d.freeCore core c.bytes.length
        let frameLen := ((d.frame? c.frame).map (·.bytes.length)).getD 0
        let lost := ((free.freeShare chain 97).bump .CIP_ESP_DROP).dropCopy id 43 (Config.dropReason 13)
        exec (.cipherOpComplete core) s = .next (withDev s (match espOut o.record o.value c frameLen with
          | none => lost
          | some out =>
            if d.portMaxLen c.dest < out.length then lost
            else
              let made := (free.freeShare c.hdr c.party).updCopy id fun x =>
                { x with bytes := out, bare := x.bare.bind fun b => espOut o.record o.value { x with bytes := b } frameLen,
                         lg := lgChain (lgSet x.lg lgFrameLen out.length) chain, hdr := chain, own := true, stage := .admitting }
              ((if c.own then made else made.dropShare c.frame c.party).moveCopy id 104).fill chain out))) ∧
      (∀ f chain r, o.subject = .espIn id → o.chain = some chain → d.frame? id = some f → f.stage = .espIn r →
        let k := d.opSlot o
        let left (x : KeySlot) : Dev := (d.setOpSlot o x).freeCore core f.bytes.length
        let lost (x : KeySlot) : Dev := (((left x).freeShare chain 97).bump .CIP_ESP_DROP).dropFrame id 43 (Config.dropReason 13)
        exec (.cipherOpComplete core) s = .next (withDev s (
          match espIn o.record k.next (lgGet f.lg lgL3) (lgGet f.lg lgPayload) f.bytes with
          | none => lost { k with tagFails := inc32 k.tagFails }
          | some (seq, out) =>
            if replayOk k seq = false then lost { k with replayDrops := inc32 k.replayDrops }
            else
              let made := (((left (replayMark k seq)).freeShare f.chain f.party).updFrame id fun x =>
                { x with bytes := out, chain := chain, traversed := true,
                         lg := lgChain (lgSet (lgSet (lgSet x.lg lgFrameLen out.length) lgDecrypted 1) lgEncrypt 0) chain }).fill chain out
              if lgGet f.lg lgDest = 2 then ((made.frame? id).map fun g => made.terminate id r g).getD made
              else made.recirculate id r))) ∧
      (∀ r z, o.subject = .tls r → d.sto.records.look? r = some z → d.gen z.fn = z.gen →
        (z.tx = true → (d.conn? z.conn).isSome = true →
          let out := tlsSeal o.record o.value z.inner z.bytes
          exec (.cipherOpComplete core) s = .next (withDev s
            (((d.freeCore core (out.length - 5)).updRec r fun y => { y with out := some out }).tlsOut z.conn (d.sto.records.size + 1)))) ∧
        (z.tx = false →
          let k := d.opSlot o
          let size := be z.bytes 3 2
          let passed := ((d.setOpSlot o { k with next := k.next + 1 }).freeCore core size).dropRec r
          let failed := (d.setOpSlot o { k with state := if k.state = 1 then 3 else k.state, tagFails := inc32 k.tagFails }).freeCore core size
          let ok := tlsTagOk o.record o.value z.bytes
          ((∀ c, d.conn? z.conn = some c → c.rxRec ≠ some r) →
            exec (.cipherOpComplete core) s = .next (withDev s (if ok then passed else failed.tlsZero r z))) ∧
          (∀ c, d.conn? z.conn = some c → c.rxRec = some r →
            let idle := passed.updConn z.conn fun y => { y with rxRec := none }
            exec (.cipherOpComplete core) s = .next (withDev s (
              if ok = false then
                (failed.updConn z.conn fun y => if y.live then { y with terminated := true, failing := true, outQ := [] } else y).tlsZero r z
              else if c.live = false then idle
              else if z.inner = 23 then (idle.updConn z.conn fun y => { y with rxOk := y.rxBytes.length }).tlsNext z.conn
              else
                ((idle.updConn z.conn fun y => { y with state := .paused }).emit
                  (.rawRecord c.qp z.conn z.inner (tlsOpen o.record o.value z.bytes).1)).stoPost (idle.qpPath c.qp true) z.conn c
                  [0, 0, 0, 0] .ok 0 false true)))))) ∧
    (∀ id f since k, (d.cip.rxQ.find? fun e => e.1 == id) = some (id, since, k) → since + 500000 ≤ d.ref → d.frame? id = some f →
      exec (.macsecRxTimeout id) s = .next (withDev s
        (((d.setCip fun x => { x with rxQ := x.rxQ.filter fun e => e.1 != id }).bump .CIP_MACSEC_RX_DROP f.inPort).endFrame id))) ∧
    (∀ core, 2 ^ 20 ≤ d.cip.blocks.getD core 0 → d.on? Fld.SEC_STAT_TRNG_FAIL = false →
      let drawn := d.drawBytes 32
      exec (.coreReseed core) s = .next (withDev s (drawn.2.setCip fun x =>
        { x with blocks := x.blocks.put core (x.blocks.getD core 0 - 2 ^ 20), seeds := x.seeds.put core drawn.1 }))) ∧
    (∀ k, (d.slot k).state = 4 → (∀ core o, d.cip.cores.look? core = some o → o.slot ≠ k) →
      exec (.keyEraseDone k) s = .next (withDev s ((d.setSlot k {}).eraseReplies))) ∧
    (∀ k id b ok, (d.dma.bursts.first? fun _ b => b.for_ == .zeroRead k && b.issued) = some (id, b) → d.gen b.fn = b.gen →
      let done := d.dropBurst id
      exec (.tlsZeroReadDone k ok) s = .next (withDev s ((if ok then done else done.hostError b.fn).tlsZeroed k)))

/-! ## The storage engine (chapter 11) -/

/-- R201, R268, R278, R281, R282: the storage commands on a connection of the function that orders them. What STO_CONN_RETURN
does with a RETURNED connection, and what a forced return counts and sends, is the model's choice (log entry 32). -/
def Obligations.StorageCommands : Prop :=
  ∀ (s : State) (c : Cmd) (n : Nat) (a : Accepted) (p : Bytes) (e : Dev), e.available 8 = true →
    let f := a.fn
    let w := le32 p 0
    let k := bitsOf w 13 0
    let slot := bitsOf (le32 p 4) 13 0
    (Taken s.toDev 0x0A01 c n a p e →
      let r := wordsOf (p.drop 4) 36
      let x : Conn :=
        { fn := f, gen := e.gen f, record := r, sndNxt := (r.getD 2 0).toNat, sndUna := (r.getD 2 0).toNat, rcvNxt := (r.getD 3 0).toNat,
          sndWnd := bitsOf (r.getD 4 0) 31 16, cwnd := 10 * bitsOf (r.getD 1 0) 31 16, ssthresh := 2 ^ 30,
          rto := 10000 * bitsOf (r.getD 5 0) 15 0, txSlot := bitsOf (r.getD 10 0) 13 0, rxSlot := bitsOf (r.getD 11 0) 13 0 }
      connReserved r = true → connRanges r = true → templateOk x.v6 x.hdr (wordBytes (r.drop 12)) = true → e.qpOwner x.qp = some f →
      e.on? Fld.HIF_QP_CTX_MODE x.qp = true → (x.tls = true → e.tlsSlotOk f x.txSlot 5 = true ∧ e.tlsSlotOk f x.rxSlot 6 = true) →
      e.connCount f < e.get Fld.STO_FUNC_QUOTA_CONN_LIMIT f → e.conn? k = none →
      exec (.stoConnOffload c) s = .next (withDev s
        (({ e with sto := { e.sto with conns := e.sto.conns.put k x } } : Dev).replyOk n))) ∧
    (Taken s.toDev 0x0A05 c n a p e → e.conn? k = none →
      exec (.stoConnState c) s = .next (withDev s (e.replyOk n [0, 0, 0, 0, 0, 0, 0, 0]))) ∧
    (∀ x, e.conn? k = some x → x.fn = f →
      (Taken s.toDev 0x0A05 c n a p e →
        exec (.stoConnState c) s = .next (withDev s (e.replyOk n ([e.connWord k] ++ x.seqs ++
          [toWord (x.sndWnd * 2 ^ bitsOf (x.word 1) 15 12), toWord x.cwnd, toWord x.retransmits, toWord x.discards])))) ∧
      (Taken s.toDev 0x0A02 c n a p e →
        (x.live = true → w.getLsbD 31 = false → x.returning = none →
          exec (.stoConnReturn c) s = .next (withDev s
            ((e.updConn k fun z => { z with returning := some (n, e.ref + 1000 * (le32 p 4).toNat) }).stoSettle k))) ∧
        (x.live = true → w.getLsbD 31 = true → x.failing = true →
          exec (.stoConnReturn c) s = .next (withDev s (e.updConn k fun z => { z with returning := some (n, e.ref + 2 ^ 64) }))) ∧
        (x.live = true → w.getLsbD 31 = true → x.failing = false →
          exec (.stoConnReturn c) s = .next (withDev s
            ((((e.stoFail k .connLost).bump .STO_CONN_LOST_CNT).event x.fn 0x8003 (wordBytes [toWord k, toWord 6])).connFree k n x)))) ∧
      (Taken s.toDev 0x0A03 c n a p e → x.state = .paused → (w.getLsbD 31 = true → e.tlsSlotOk f slot 6 = true) →
        exec (.stoConnResume c) s = .next (withDev s (((e.updConn k fun z => { z with
          state := .active, rxSlot := if w.getLsbD 31 then slot else z.rxSlot }).tlsNext k).replyOk n))) ∧
      (Taken s.toDev 0x0A04 c n a p e → x.live = true → x.tls = true → x.terminated = false → 1 ≤ (le32 p 8).toNat →
        (le32 p 8).toNat ≤ 64 → e.tlsSlotOk f slot 5 = true →
        exec (.stoConnRekey c) s = .next (withDev s
          (((e.sendRecords k 22 (slice p 12 (le32 p 8).toNat)).updConn k fun z => { z with txSlot := slot }).replyOk n))))

/-- R266, R271, R272, R273, R274, R275, R279, R281: what the storage engine does with a ring entry (without data, with
in-capsule data, with data to send on R2Ts or to place, one that breaks the rules, one that cannot be read), with a segment,
with the four PDU types of a target, and at its timers. The layouts, error codes and timers that R266 names are those of the
standards, the turn of the rings, the answers to entries that break the rules and the fields of a completion without a
received CQE are the model's choices (log entry 32); so is that a command whose data a barrier still holds back completes
after it (log entry 31). -/
def Obligations.StorageEvents : Prop :=
  ∀ (s : State), s.toDev.inReset = false →
    let d := s.toDev
    (∀ q f entry, d.qpOwner q = some f → d.ringTurn q = true →
      let idx := (d.qp q).txFetched
      let at_ := (d.qpAddr q 4 + 128 * (idx % d.txSize q), 128)
      let n := bitsOf (le32 entry 0) 13 0
      let cid := le entry 0x42 2
      let dir := bitsOf (le32 entry 0) 31 30
      let a := le entry 8 8
      d.reachPages f [at_] = (.ready, d) →
      let passed : Dev := { d with sto := { d.sto with lastRing := q } }
      let read (l : List (Nat × Nat)) : Dev :=
        ((passed.setQp q { d.qp q with txFetched := inc32 idx }).putReads f l).prefetch q f (d.qpAddr q 4) (d.txSize q) 128
          (inc32 idx) (d.qp q).txTail
      let txPath : Path := { d.qpPath q false with desc := some idx }
      let rxPath : Path := { d.qpPath q true with desc := some idx }
      let owner : Conn := { fn := f, gen := d.gen f, record := [toWord q], sndNxt := 0, sndUna := 0, rcvNxt := 0, sndWnd := 0, cwnd := 0,
                            ssthresh := 0, rto := 0, txSlot := 0, rxSlot := 0 }
      let ended (x : Dev) (who conn : Nat) (st : Status) : Dev :=
        (x.openCqe who).2.stoPost rxPath conn owner (x.openCqe who).1 st 0 false false
      let begun (x : Dev) (c : Conn) (barrier : Bool) (total : Nat) (elems : List (Nat × Nat)) : Dev :=
        let k : StoCmd :=
          { cid := cid, txPath := { txPath with barrier := barrier }, rxPath := { rxPath with barrier := barrier }, dir := dir,
            total := total, elems := elems }
        let inside := if (le32 entry 0).getLsbD 29 = true ∧ dir = 1 ∧ total ≤ c.icdMax then total else 0
        ((x.updConn n fun z => { z with cmds := z.cmds.put cid k }).queuePdu n k (c.frontOf 4 0 (slice entry 0x40 64) inside) 0 inside
          false).stoFlush n
      (∀ desc,
        let word := ((read [at_]).hostError f).drawWord
        exec (.stoCmdFetch q none desc) s = .next (withDev s
          (ended word.2 (bitsOf word.1 15 0) (bitsOf word.1 29 16) .hostErr))) ∧
      (∀ desc, Machine.entryOk entry = false →
        exec (.stoCmdFetch q (some entry) desc) s = .next (withDev s (ended (read [at_]) cid n .badParam))) ∧
      (∀ desc, Machine.entryOk entry = true → d.conn? n = none →
        exec (.stoCmdFetch q (some entry) desc) s = .next (withDev s (ended (read [at_]) cid n .connLost))) ∧
      (∀ c, Machine.entryOk entry = true → d.conn? n = some c →
        (∀ desc, c.fn ≠ f ∨ c.qp ≠ q ∨ (c.live = true ∧ (c.cmds.look? cid).isSome = true) →
          exec (.stoCmdFetch q (some entry) desc) s = .next (withDev s (ended (read [at_]) cid n .badParam))) ∧
        (∀ desc, c.fn = f → c.qp = q → c.live = false →
          exec (.stoCmdFetch q (some entry) desc) s = .next (withDev s (ended (read [at_]) cid n .connLost))) ∧
        (c.fn = f → c.qp = q → c.live = true → c.cmds.look? cid = none →
          (∀ desc, d.ctxFree c = false → exec (.stoCmdFetch q (some entry) desc) s = .next (withDev s passed)) ∧
          (d.ctxFree c = true →
            (∀ desc, dir = 0 → exec (.stoCmdFetch q (some entry) desc) s = .next (withDev s (begun (read [at_]) c false 0 []))) ∧
            (∀ desc, desc ≠ none → dir ≠ 0 → a % 16 ≠ 0 →
              exec (.stoCmdFetch q (some entry) desc) s = .next (withDev s (ended (read [at_]) cid n .badParam))) ∧
            (dir ≠ 0 → a % 16 = 0 → d.reachPages f [(a, 16)] = (.ready, d) →
              exec (.stoCmdFetch q (some entry) none) s = .next (withDev s
                (ended ((read [at_, (a, 16)]).hostError f) cid n .hostErr))) ∧
            (∀ bs, dir ≠ 0 → a % 16 = 0 →
              let r := readDesc bs a
              d.reachPages f r.reads = (.ready, d) →
              (r.ok = true → r.late = false → r.stamp = false → exec (.stoCmdFetch q (some entry) (some bs)) s = .next (withDev s
                (begun (read (at_ :: r.reads)) c r.barrier r.total r.elems))) ∧
              (r.ok = false ∨ r.late = true ∨ r.stamp = true → exec (.stoCmdFetch q (some entry) (some bs)) s = .next (withDev s
                (ended (read (at_ :: r.reads)) cid n .badParam)))))))) ∧
    (∀ id c n k h1 h2 h3 t e, d.copy? id = some c → c.stage = .storage n → d.conn? n = some k → tcpOf c.bytes = some (h1, h2, h3, t, e) →
      k.live = true → d.available 8 = true → d.gen k.fn = k.gen →
      let flags := (byteAt c.bytes (t + 13)).toNat
      let off := 4 * ((byteAt c.bytes (t + 12)).toNat / 16)
      let bs := slice c.bytes (t + off) (e - (t + off))
      let ended := d.endCopy id
      ((bitN flags 2 = true ∨ bitN flags 0 = true) → exec (.stoSegmentRx id) s = .next (withDev s (ended.connLost n 1))) ∧
      (bitN flags 2 = false → bitN flags 0 = false →
        let acked := if bitN flags 4 then ended.stoAcks n (be c.bytes (t + 8) 4) (be c.bytes (t + 14) 2) bs.isEmpty else ended
        exec (.stoSegmentRx id) s = .next (withDev s ((acked.stoPayload n (be c.bytes (t + 4) 4) bs).stoSettle n)))) ∧
    (∀ n c, d.conn? n = some c →
      (c.live = true → d.stoOn = true → c.want = [] → c.sendable ≠ 0 →
        exec (.stoSegmentTx n) s = .next (withDev s ((d.updConn n fun z => { z with want := [.data c.sendable] }).stoAsk n))) ∧
      (∀ t, c.rtoAt = some t → t ≤ d.ref → c.live = true → d.stoOn = true →
        (c.retries ≤ c.timeouts + 1 → exec (.stoRtoExpiry n) s = .next (withDev s (d.connLost n 2))) ∧
        (c.timeouts + 1 < c.retries →
          let rto := min (2 * c.rto) 1000000000
          exec (.stoRtoExpiry n) s = .next (withDev s ((d.updConn n fun z => { z with
            timeouts := z.timeouts + 1, ssthresh := if z.timeouts = 0 then c.halfFlight else z.ssthresh, cwnd := z.mss, dupAcks := 0,
            rto := rto, rtoAt := some (d.ref + rto) }).stoResend n)))) ∧
      (∀ t, c.ackAt = some t → t ≤ d.ref → c.live = true → d.stoOn = true →
        exec (.stoAckTimer n) s = .next (withDev s (d.stoAck n))) ∧
      (∀ t, c.retryAt = some t → t ≤ d.ref → d.stoOn = true →
        exec (.stoBufferRetry n) s = .next (withDev s ((d.updConn n fun z => { z with retryAt := none }).stoAsk n))) ∧
      (∀ cmd t, c.returning = some (cmd, t) → t ≤ d.ref →
        exec (.stoReturnTimeout n) s = .next (withDev s ((d.updConn n fun z => { z with returning := none }).reply cmd .badState))) ∧
      (∀ flags pdo plen, c.state = .active → c.terminated = false → d.available 8 = true → plen ≤ c.rxOk →
        let cid := le c.rxBytes 8 2
        let off := le c.rxBytes 12 4
        let len := le c.rxBytes 16 4
        (c.pduIn = .good 5 flags pdo plen →
          let who := le c.rxBytes 20 2
          c.outQ.any (·.cid == who) = false →
          let st : Status := if ((c.cmds.look? who).map (·.failed)).getD false then .digestErr else .ok
          exec (.pduCapsuleResp n) s = .next (withDev s
            ((((d.pduDone n plen).stoComplete n who (some (wordsOf (slice c.rxBytes 8 16) 4)) st false).stoFlush n).stoSettle n))) ∧
        (c.pduIn = .good 3 flags pdo plen → exec (.pduC2hTermReq n) s = .next (withDev s (d.connLost n 4))) ∧
        (∀ k, c.pduIn = .good 9 flags pdo plen → c.cmds.look? cid = some k → k.lastSeen = false → k.ended = none →
          off + len ≤ (if k.dir = 1 then k.total else 0) → k.r2ts < c.maxR2t + 1 →
          let taken := (d.pduDone n plen).updConn n fun z => { z with cmds := z.cmds.modify cid fun y => { y with r2ts := y.r2ts + 1 } }
          let count := max 1 (ceilDiv len c.maxH2c)
          exec (.pduR2t n) s = .next (withDev s (((List.range count).foldl (fun x i =>
            let o := off + i * c.maxH2c
            let m := min c.maxH2c (off + len - o)
            let last := i + 1 == count
            let body := bytesLE 2 cid ++ bytesLE 2 (le c.rxBytes 10 2) ++ bytesLE 4 o ++ bytesLE 4 m ++ bytesLE 4 0
            x.queuePdu n k (c.frontOf 6 (4 * b2n last) body m) o m last) taken).stoFlush n))) ∧
        (∀ k, c.pduIn = .good 7 flags pdo plen → c.cmds.look? cid = some k → k.lastSeen = false → k.ended = none →
          off + len ≤ (if k.dir = 2 then k.total else 0) →
          let placed := d.c2hPlace n cid c k pdo off len
          let wrong := c.ddgst && len != 0 && crc32c (slice c.rxBytes pdo len) != le32 c.rxBytes (pdo + len)
          let seen := if wrong then placed.bump .STO_DDGST_ERR else placed
          let noted := (seen.pduDone n plen).updConn n fun z => { z with cmds := z.cmds.modify cid fun y =>
            { y with failed := y.failed || wrong, lastSeen := bitN flags 2 } }
          exec (.pduC2hData n) s = .next (withDev s
            (if bitN flags 3 then
              (((noted.stoComplete n cid (some [0, 0, 0, toWord cid]) (if k.failed || wrong then .digestErr else .ok) true)).stoFlush n).stoSettle n
            else noted)))))

/-! ## The whole machine -/

/-- What a step is: with a command in front of the queue it is that command's meaning on the state with the queue's rest; with
none, one cycle passes and nothing else changes (the tick is the model's choice, log entry 1). A word never spells a command,
as the table gives no row bits (log entry 40). -/
def Obligations.StepRunsCommand : Prop :=
  (∀ (c : Instr) (s : State), step { s with pending := c :: s.pending } = exec c s) ∧
  (∀ s : State, s.pending = [] → step s = .next (withDev s s.toDev.idle)) ∧
  (∀ (s : State) (nbits w : Nat), s.withFetchWord nbits w = s)

/-- Every row completes from every state: it answers a next state, and leaves the queue as it is. -/
def Obligations.EveryRowCompletes : Prop := ∀ (i : Instr) (s : State), ∃ d, exec i s = .next (withDev s d)

/-- A queue of any commands is worked off in its order, one step each, without a stop: after as many steps as commands wait
nothing waits, and what they leave is what their meanings leave one after another. -/
def Obligations.QueueRuns : Prop :=
  ∀ (s : State), ∃ t, Sys2Proof.core.run s.pending.length s = .next t ∧ t.pending = [] ∧
    s.pending.foldl (fun (o : Host.Outcome State Fault Refusal) c =>
      match o with
      | .next u => exec c u
      | other => other) (.next { s with pending := [] }) = .next t

/-- R388 to R391, R404: in a POWER_ON reset only rails, dies, the trip and RESET_N act; any other row changes nothing. -/
def Obligations.ResetHolds : Prop :=
  ∀ (c : Instr) (s : State), s.toDev.inReset = true → actsInReset c = false → exec c s = .next s

/-- R388 to R391, R404: a POWER_ON reset lasts until a rail returns, a tripped die has cooled or RESET_N rises. Every step
from a device in reset leaves it in reset, whatever is commanded, but for those three rows. -/
def Obligations.ResetLasts : Prop :=
  ∀ (s t : State), s.toDev.inReset = true → (∀ c rest, s.pending = c :: rest → endsReset c = false) → step s = .next t →
    t.toDev.inReset = true

/-- The device after reset: out of reset, its sequence done, no frame, copy, request or command in it, every register word at
its reset value, the Meridian at 0 and counting. That firmware does not run before the row BOOT is the model's choice (log
entry 41). -/
def Obligations.ResetState : Prop :=
  let d := State.reset.toDev
  State.reset.pending = [] ∧ d.inReset = false ∧ d.on? Fld.PWR_STAT_POR_DONE = true ∧ d.on? Fld.MER_CTRL_ENABLE = true ∧ d.now = 0 ∧
    (∀ r i w, d.rd r i w = r.reset i w) ∧ (∀ n, d.frame? n = none) ∧ (∀ n, d.copy? n = none) ∧ (∀ f, d.gen f = 0 ∧ d.fnState f = 0) ∧
    (∀ t, (d.thread t).frame = none) ∧ (∀ p, d.linkUp? p = false ∧ d.gateActive p = false) ∧ d.vcl.cmds.size = 0 ∧ Queued State.reset

/-- Well-formed commands stay well formed while they wait: no step makes an ill-formed one. -/
def Obligations.QueueStaysWellFormed : Prop := ∀ (s t : State), Queued s → step s = .next t → Queued t

/-- R294, R410, R411, R472: the address map. Every word of every register outside the pages lies at its window's base plus its
offset, and no other register lies there; the same of the registers of a page, for a queue pair that the function has and for
the registers that only a physical function has. -/
def Obligations.AddressMap : Prop :=
  (∀ (r : Reg) (n w : Nat), n < r.info.count → w < r.info.words → r.hole n w = false → r.info.page = false →
    windowReg r.info.window (r.info.off + 4 * (r.info.words * n + w)) = some { reg := r, item := n, n := n, word := w, page := none }) ∧
  (∀ (d : Dev) (f : Nat) (r : Reg) (n w : Nat), n < r.info.count → w < r.info.words → r.info.page = true →
    (r.perPair = true → n < d.qpCount f) → (r.pfOnly = true → f < 4) →
    d.pageReg f (r.info.off + 4 * (r.info.words * n + w)) =
      some { reg := r, item := d.pageItem f r n, n := n, word := w, page := some f }) ∧
  (∀ (k off : Nat) (a : RegAt), windowReg k off = some a →
    a.reg.info.window = k ∧ off = a.reg.info.off + 4 * (a.reg.info.words * a.n + a.word) ∧ a.n < a.reg.info.count ∧
      a.word < a.reg.info.words)

/-- R288, R332, R338, R430: a command that is accepted in its turn and fails a check of steps 1 to 7 ends with the status of
the first check that fails, changes nothing else, and its own row does nothing; so does one that the ROM in RECOVERY does not
serve, with BAD_STATE. A command whose turn has not come, or whose words the host's memory does not give yet, waits as it is;
one whose words the host denies ends as a host error. That a host error of INDIRECT parameters is counted and reported, and
when a command's turn has come, are log entries 52 and 33: the model's choices. -/
def Obligations.CommandChecks : Prop :=
  ∀ (s : State) (i : Instr) (c : Cmd),
    (commandOf i = some (c.opcode, c) ∨ (i = .nop c ∧ opInfo c.opcode = none)) →
    s.toDev.inReset = false → (s.toDev.accepts c || (s.toDev.runs && s.toDev.waitsTurn c)) = true →
    let follows (x : Dev) : Dev := if s.toDev.pwrState = 3 then x.controlFollows else x
    (∀ x, s.toDev.reachCmd c = (.waits, x) → exec i s = .next (withDev s (follows x))) ∧
    (∀ x, s.toDev.reachCmd c = (.denied, x) →
      let header := (pagesOf (x.cmdRanges c).1).any fun p => !x.translated c.issuer (4096 * p)
      (header = true → exec i s = .next (withDev s (follows (x.adminFail c.issuer c)))) ∧
      (∀ n a d, header = false → x.accept c = some (n, a, d) →
        exec i s = .next (withDev s (follows ((d.hostError c.issuer).reply n .hostErr))))) ∧
    (∀ n a d, (s.toDev.reachCmd c).1 = .ready → s.toDev.accept c = some (n, a, d) →
      (d.hasTurn n a = false → exec i s = .next (withDev s (follows d))) ∧
      (d.hasTurn n a = true →
        let e := d.updCmd n fun x => { x with started := true }
        (∀ st, e.vclCheck c = .error st →
          exec i s = .next (withDev s (follows ((if st = .hostErr then e.hostError a.cmd.issuer else e).reply n st)))) ∧
        (∀ p, e.vclCheck c = .ok p → e.on? Fld.SEC_STAT_RECOVERY = true → romServes c = false →
          exec i s = .next (withDev s (follows (e.reply n .badState))))))

/-- R43: a time pin's FIFO of 16 stamps. An edge that the pin selects appends its stamp while there is room; with 16 in it the
stamp is lost, OVERFLOWS rises to at most 0xFFFF and TIO_OVF is set. A read of an empty FIFO returns zero in all three words.
-/
def Obligations.PinFifo : Prop :=
  ∀ (s : State) (pin : Nat),
    (∀ rising, s.toDev.inReset = false →
      let d := s.toDev
      let o := d.get Fld.MER_TIO_FIFO_STAT_OVERFLOWS pin
      d.pinMode pin = 1 → edgeSelected (d.get Fld.MER_TIO_CTRL_EDGE pin) rising = true →
      exec (.timeIoEdge pin rising) s = .next (withDev s (Dev.logNow
        (if (d.pin pin).fifo.length < 16 then d.setPin pin { d.pin pin with fifo := (d.pin pin).fifo ++ [d.now] }
         else (d.set Fld.MER_TIO_FIFO_STAT_OVERFLOWS pin (min (o + 1) 0xFFFF)).set Fld.MER_STATUS_TIO_OVF 0 1)
        0x0E 51 none (toWord pin) (Config.timeIoEdge rising) 0))) ∧
    (∀ req l, Reaches s.toDev req (regLoc .MER_TIO_STAMP pin) l (devAt .MER_TIO_STAMP pin) → (s.toDev.pin pin).fifo = [] →
      let kept := (s.toDev.noteJtag req).keepLatched (devAt .MER_TIO_STAMP pin) [0, 0, 0]
      exec (.merTioStampRead req pin) s = .next (readOut s req 0 kept) ∧
      ∀ w, w = 1 ∨ w = 2 → kept.readReg (devAt .MER_TIO_STAMP pin w) = (0, kept))

/-- R325: FUNC_SAVE leaves the function FROZEN and notes the save; FUNC_THAW after it turns every ACTIVE ESP_OUT and TLS_TX
slot of the function EXHAUSTED and no other slot; FUNC_THAW with no save since the freeze leaves every slot as it was. Each
completes. -/
def Obligations.SaveThenThaw : Prop :=
  ∀ (s : State) (c : Cmd) (n : Nat) (a : Accepted) (p : Bytes) (e : Dev), e.fnState a.fn = 3 →
    (∀ ident key x z b, Taken s.toDev 0x0B03 c n a p e → e.on? Fld.SEC_STAT_TRNG_FAIL = false →
      e.mramBad 0x3000 0x4000 = false → e.saveDomain = (some (ident, key), x) →
      x.fnc.freezes.look? a.fn = some z → x.vcl.cmds.look? n = some b →
      let secs := ((x.imageSections a.fn).filter fun s => !s.2.isEmpty)
      let total := 96 + 16 * (secs.length + 1) + (secs.flatMap fun s => s.2.flatMap id).length + 144 * (x.keySection a.fn).length
      total ≤ (le32 p 8).toNat →
      ∃ y : Dev, exec (.funcSave c) s = .next (withDev s (y.replyOk n [toWord total])) ∧ y.fnState a.fn = 3 ∧
        y.on? Fld.FNC_FUNC_STATE_SAVED a.fn = true) ∧
    (Taken s.toDev 0x0B05 c n a p e →
      ∃ y : Dev, exec (.funcThaw c) s = .next (withDev s (y.replyOk n)) ∧ y.fnState a.fn = 0 ∧
        (e.on? Fld.FNC_FUNC_STATE_SAVED a.fn = true → ∀ k,
          let x := e.slot k
          y.slot k = if krOwner x.record = a.fn ∧ x.state = 1 ∧ (krType x.record = 3 ∨ krType x.record = 5) then { x with state := 2 } else x) ∧
        (e.on? Fld.FNC_FUNC_STATE_SAVED a.fn = false → ∀ k, y.slot k = e.slot k))

/-- R287, with R245: every write burst that a transfer is cut into carries at most min(512, Max Payload Size) bytes, every
read burst asks for at most min(512, Max Read Request Size), none crosses a 4 KiB boundary, a read with its range rounded
outwards keeps to both, and together they cover the transfer in order. -/
def Obligations.BurstSizes : Prop :=
  ∀ (d : Dev) (path : Path) (f addr : Nat),
    let cfg := d.hif.cfg.getD f {}
    let fits (lim : Nat) (b : Burst) : Prop := 1 ≤ b.len ∧ b.len ≤ min 512 lim ∧ b.addr % 4096 + b.len ≤ 4096 ∧ b.fn = f ∧ b.path = path
    (∀ (data : Bytes) who, 1 ≤ cfg.maxPayload → ∀ k b, (d.queueWrite path f addr data who).dma.bursts.look? k = some b →
      d.dma.bursts.look? k = some b ∨ (b.write = true ∧ fits cfg.maxPayload b)) ∧
    (∀ (n pos : Nat) who, 1 ≤ cfg.maxRead → ∀ k b, (d.queueRead path f addr n pos who).2.dma.bursts.look? k = some b →
      d.dma.bursts.look? k = some b ∨ (b.write = false ∧ fits cfg.maxRead b)) ∧
    (∀ (n pos : Nat) who, 64 ≤ cfg.maxRead → cfg.maxRead % 64 = 0 → ∀ k b,
      (d.queueRead path f addr n pos who).2.dma.bursts.look? k = some b → d.dma.bursts.look? k = none →
      let r := d.readRange b
      r.1 ≤ b.addr ∧ b.addr + b.len ≤ r.1 + r.2 ∧ r.2 ≤ min 512 cfg.maxRead ∧ r.1 % 4096 + r.2 ≤ 4096) ∧
    (∀ lim unit n, (splitBursts lim unit (n + 1) addr n).flatMap (fun b => List.range' b.1 b.2) = List.range' addr n)

/-- R43, R346, and the sizes of the stacks of "Microcode": bounds and canonical forms that a step keeps, from every state. A
row of control flow or a scratch access leaves every thread's return stack at no more than 8 entries and its loop stack at no
more than 4, and local scratch in its canonical form (the fault of a thread and the drop of its frame among what such a row
can do); an edge and a read of a stamp leave every pin FIFO at no more than 16; the delivery of a held post leaves every
mailbox of a function at no more than 16 common and 8 reply places. That an unlisted byte of scratch reads 0 is the model's
choice (log entry 19). -/
def Obligations.BoundsKept : Prop :=
  ∀ (s u : State) (i : Instr) (rest : List Instr), s.pending = i :: rest → step s = .next u →
    let d := s.toDev
    let e := u.toDev
    (∀ (t : Nat) (cnd : BitVec 3) (a b x : BitVec 5) (off : BitVec 13) (rsv : BitVec 10) (target : BitVec 14) (count r8 : BitVec 8)
        (body : BitVec 10) (r21 : BitVec 21) (w : Bool) (size : BitVec 2),
      i ∈ ([.br t cnd a b off, .jmp t rsv target, .call t rsv target, .ret t rsv target, .jclass t rsv target, .jr t a r21,
        .loop t count body r8, .sc t x a w size off] : List Instr) →
      ((∀ k, (d.thread k).rets.length ≤ 8 ∧ (d.thread k).loops.length ≤ 4) → ∀ k, (e.thread k).rets.length ≤ 8 ∧ (e.thread k).loops.length ≤ 4) ∧
      (d.pca.scratch.wf 0 = true → e.pca.scratch.wf 0 = true)) ∧
    (∀ pin rising req, i ∈ ([.timeIoEdge pin rising, .merTioStampRead req pin] : List Instr) →
      (∀ k, (d.pin k).fifo.length ≤ 16) → ∀ k, (e.pin k).fifo.length ≤ 16) ∧
    (∀ sender receiver, i = .postDeliver sender receiver →
      (∀ f, f < 1024 → places (d.box f) false ≤ 16 ∧ places (d.box f) true ≤ 8) →
      ∀ f, f < 1024 → places (e.box f) false ≤ 16 ∧ places (e.box f) true ≤ 8)
end

