-- ==== Sys2Proof/Laws/State.lean ====
section
/-!
SUPPORT. One lemma per field of the device per update of it: an update changes its own field and no other.
-/
namespace Sys2Proof.Machine

variable (d : Dev)

/-! ### wr -/

@[simp] theorem Dev.wr_mer (r : Reg) (i w : Nat) (v : Word) : (d.wr r i w v).mer = d.mer := rfl
@[simp] theorem Dev.wr_log (r : Reg) (i w : Nat) (v : Word) : (d.wr r i w v).log = d.log := rfl
@[simp] theorem Dev.wr_pca (r : Reg) (i w : Nat) (v : Word) : (d.wr r i w v).pca = d.pca := rfl
@[simp] theorem Dev.wr_cls (r : Reg) (i w : Nat) (v : Word) : (d.wr r i w v).cls = d.cls := rfl
@[simp] theorem Dev.wr_tbl (r : Reg) (i w : Nat) (v : Word) : (d.wr r i w v).tbl = d.tbl := rfl
@[simp] theorem Dev.wr_vsw (r : Reg) (i w : Nat) (v : Word) : (d.wr r i w v).vsw = d.vsw := rfl
@[simp] theorem Dev.wr_cip (r : Reg) (i w : Nat) (v : Word) : (d.wr r i w v).cip = d.cip := rfl
@[simp] theorem Dev.wr_tm (r : Reg) (i w : Nat) (v : Word) : (d.wr r i w v).tm = d.tm := rfl
@[simp] theorem Dev.wr_bpm (r : Reg) (i w : Nat) (v : Word) : (d.wr r i w v).bpm = d.bpm := rfl
@[simp] theorem Dev.wr_dma (r : Reg) (i w : Nat) (v : Word) : (d.wr r i w v).dma = d.dma := rfl
@[simp] theorem Dev.wr_sto (r : Reg) (i w : Nat) (v : Word) : (d.wr r i w v).sto = d.sto := rfl
@[simp] theorem Dev.wr_hif (r : Reg) (i w : Nat) (v : Word) : (d.wr r i w v).hif = d.hif := rfl
@[simp] theorem Dev.wr_fnc (r : Reg) (i w : Nat) (v : Word) : (d.wr r i w v).fnc = d.fnc := rfl
@[simp] theorem Dev.wr_mbx (r : Reg) (i w : Nat) (v : Word) : (d.wr r i w v).mbx = d.mbx := rfl
@[simp] theorem Dev.wr_vcl (r : Reg) (i w : Nat) (v : Word) : (d.wr r i w v).vcl = d.vcl := rfl
@[simp] theorem Dev.wr_prt (r : Reg) (i w : Nat) (v : Word) : (d.wr r i w v).prt = d.prt := rfl
@[simp] theorem Dev.wr_pwr (r : Reg) (i w : Nat) (v : Word) : (d.wr r i w v).pwr = d.pwr := rfl
@[simp] theorem Dev.wr_sec (r : Reg) (i w : Nat) (v : Word) : (d.wr r i w v).sec = d.sec := rfl
@[simp] theorem Dev.wr_dbg (r : Reg) (i w : Nat) (v : Word) : (d.wr r i w v).dbg = d.dbg := rfl
@[simp] theorem Dev.wr_ecc (r : Reg) (i w : Nat) (v : Word) : (d.wr r i w v).ecc = d.ecc := rfl
@[simp] theorem Dev.wr_regs (r : Reg) (i w : Nat) (v : Word) : (d.wr r i w v).regs = d.regs.putD (r.reset i w) (regKey r i w) v := rfl
@[simp] theorem Dev.wr_latch (r : Reg) (i w : Nat) (v : Word) : (d.wr r i w v).latch = d.latch := rfl
@[simp] theorem Dev.wr_frames (r : Reg) (i w : Nat) (v : Word) : (d.wr r i w v).frames = d.frames := rfl
@[simp] theorem Dev.wr_copies (r : Reg) (i w : Nat) (v : Word) : (d.wr r i w v).copies = d.copies := rfl
@[simp] theorem Dev.wr_nextFrame (r : Reg) (i w : Nat) (v : Word) : (d.wr r i w v).nextFrame = d.nextFrame := rfl
@[simp] theorem Dev.wr_nextCopy (r : Reg) (i w : Nat) (v : Word) : (d.wr r i w v).nextCopy = d.nextCopy := rfl
@[simp] theorem Dev.wr_fresh (r : Reg) (i w : Nat) (v : Word) : (d.wr r i w v).fresh = d.fresh := rfl
@[simp] theorem Dev.wr_out (r : Reg) (i w : Nat) (v : Word) : (d.wr r i w v).out = d.out := rfl

/-! ### emit -/

@[simp] theorem Dev.emit_mer (o : Out) : (d.emit o).mer = d.mer := rfl
@[simp] theorem Dev.emit_log (o : Out) : (d.emit o).log = d.log := rfl
@[simp] theorem Dev.emit_pca (o : Out) : (d.emit o).pca = d.pca := rfl
@[simp] theorem Dev.emit_cls (o : Out) : (d.emit o).cls = d.cls := rfl
@[simp] theorem Dev.emit_tbl (o : Out) : (d.emit o).tbl = d.tbl := rfl
@[simp] theorem Dev.emit_vsw (o : Out) : (d.emit o).vsw = d.vsw := rfl
@[simp] theorem Dev.emit_cip (o : Out) : (d.emit o).cip = d.cip := rfl
@[simp] theorem Dev.emit_tm (o : Out) : (d.emit o).tm = d.tm := rfl
@[simp] theorem Dev.emit_bpm (o : Out) : (d.emit o).bpm = d.bpm := rfl
@[simp] theorem Dev.emit_dma (o : Out) : (d.emit o).dma = d.dma := rfl
@[simp] theorem Dev.emit_sto (o : Out) : (d.emit o).sto = d.sto := rfl
@[simp] theorem Dev.emit_hif (o : Out) : (d.emit o).hif = d.hif := rfl
@[simp] theorem Dev.emit_fnc (o : Out) : (d.emit o).fnc = d.fnc := rfl
@[simp] theorem Dev.emit_mbx (o : Out) : (d.emit o).mbx = d.mbx := rfl
@[simp] theorem Dev.emit_vcl (o : Out) : (d.emit o).vcl = d.vcl := rfl
@[simp] theorem Dev.emit_prt (o : Out) : (d.emit o).prt = d.prt := rfl
@[simp] theorem Dev.emit_pwr (o : Out) : (d.emit o).pwr = d.pwr := rfl
@[simp] theorem Dev.emit_sec (o : Out) : (d.emit o).sec = d.sec := rfl
@[simp] theorem Dev.emit_dbg (o : Out) : (d.emit o).dbg = d.dbg := rfl
@[simp] theorem Dev.emit_ecc (o : Out) : (d.emit o).ecc = d.ecc := rfl
@[simp] theorem Dev.emit_regs (o : Out) : (d.emit o).regs = d.regs := rfl
@[simp] theorem Dev.emit_latch (o : Out) : (d.emit o).latch = d.latch := rfl
@[simp] theorem Dev.emit_frames (o : Out) : (d.emit o).frames = d.frames := rfl
@[simp] theorem Dev.emit_copies (o : Out) : (d.emit o).copies = d.copies := rfl
@[simp] theorem Dev.emit_nextFrame (o : Out) : (d.emit o).nextFrame = d.nextFrame := rfl
@[simp] theorem Dev.emit_nextCopy (o : Out) : (d.emit o).nextCopy = d.nextCopy := rfl
@[simp] theorem Dev.emit_fresh (o : Out) : (d.emit o).fresh = d.fresh := rfl
@[simp] theorem Dev.emit_out (o : Out) : (d.emit o).out = d.out ++ [o] := rfl

/-! ### setThread -/

@[simp] theorem Dev.setThread_mer (t : Nat) (x : Thread) : (d.setThread t x).mer = d.mer := rfl
@[simp] theorem Dev.setThread_log (t : Nat) (x : Thread) : (d.setThread t x).log = d.log := rfl
@[simp] theorem Dev.setThread_pca (t : Nat) (x : Thread) : (d.setThread t x).pca = { d.pca with threads := d.pca.threads.putD {} t x } := rfl
@[simp] theorem Dev.setThread_cls (t : Nat) (x : Thread) : (d.setThread t x).cls = d.cls := rfl
@[simp] theorem Dev.setThread_tbl (t : Nat) (x : Thread) : (d.setThread t x).tbl = d.tbl := rfl
@[simp] theorem Dev.setThread_vsw (t : Nat) (x : Thread) : (d.setThread t x).vsw = d.vsw := rfl
@[simp] theorem Dev.setThread_cip (t : Nat) (x : Thread) : (d.setThread t x).cip = d.cip := rfl
@[simp] theorem Dev.setThread_tm (t : Nat) (x : Thread) : (d.setThread t x).tm = d.tm := rfl
@[simp] theorem Dev.setThread_bpm (t : Nat) (x : Thread) : (d.setThread t x).bpm = d.bpm := rfl
@[simp] theorem Dev.setThread_dma (t : Nat) (x : Thread) : (d.setThread t x).dma = d.dma := rfl
@[simp] theorem Dev.setThread_sto (t : Nat) (x : Thread) : (d.setThread t x).sto = d.sto := rfl
@[simp] theorem Dev.setThread_hif (t : Nat) (x : Thread) : (d.setThread t x).hif = d.hif := rfl
@[simp] theorem Dev.setThread_fnc (t : Nat) (x : Thread) : (d.setThread t x).fnc = d.fnc := rfl
@[simp] theorem Dev.setThread_mbx (t : Nat) (x : Thread) : (d.setThread t x).mbx = d.mbx := rfl
@[simp] theorem Dev.setThread_vcl (t : Nat) (x : Thread) : (d.setThread t x).vcl = d.vcl := rfl
@[simp] theorem Dev.setThread_prt (t : Nat) (x : Thread) : (d.setThread t x).prt = d.prt := rfl
@[simp] theorem Dev.setThread_pwr (t : Nat) (x : Thread) : (d.setThread t x).pwr = d.pwr := rfl
@[simp] theorem Dev.setThread_sec (t : Nat) (x : Thread) : (d.setThread t x).sec = d.sec := rfl
@[simp] theorem Dev.setThread_dbg (t : Nat) (x : Thread) : (d.setThread t x).dbg = d.dbg := rfl
@[simp] theorem Dev.setThread_ecc (t : Nat) (x : Thread) : (d.setThread t x).ecc = d.ecc := rfl
@[simp] theorem Dev.setThread_regs (t : Nat) (x : Thread) : (d.setThread t x).regs = d.regs := rfl
@[simp] theorem Dev.setThread_latch (t : Nat) (x : Thread) : (d.setThread t x).latch = d.latch := rfl
@[simp] theorem Dev.setThread_frames (t : Nat) (x : Thread) : (d.setThread t x).frames = d.frames := rfl
@[simp] theorem Dev.setThread_copies (t : Nat) (x : Thread) : (d.setThread t x).copies = d.copies := rfl
@[simp] theorem Dev.setThread_nextFrame (t : Nat) (x : Thread) : (d.setThread t x).nextFrame = d.nextFrame := rfl
@[simp] theorem Dev.setThread_nextCopy (t : Nat) (x : Thread) : (d.setThread t x).nextCopy = d.nextCopy := rfl
@[simp] theorem Dev.setThread_fresh (t : Nat) (x : Thread) : (d.setThread t x).fresh = d.fresh := rfl
@[simp] theorem Dev.setThread_out (t : Nat) (x : Thread) : (d.setThread t x).out = d.out := rfl

/-! ### setChan -/

@[simp] theorem Dev.setChan_mer (n : Nat) (l : List (List Word)) : (d.setChan n l).mer = d.mer := rfl
@[simp] theorem Dev.setChan_log (n : Nat) (l : List (List Word)) : (d.setChan n l).log = d.log := rfl
@[simp] theorem Dev.setChan_pca (n : Nat) (l : List (List Word)) : (d.setChan n l).pca = { d.pca with chans := d.pca.chans.putD [] n l } := rfl
@[simp] theorem Dev.setChan_cls (n : Nat) (l : List (List Word)) : (d.setChan n l).cls = d.cls := rfl
@[simp] theorem Dev.setChan_tbl (n : Nat) (l : List (List Word)) : (d.setChan n l).tbl = d.tbl := rfl
@[simp] theorem Dev.setChan_vsw (n : Nat) (l : List (List Word)) : (d.setChan n l).vsw = d.vsw := rfl
@[simp] theorem Dev.setChan_cip (n : Nat) (l : List (List Word)) : (d.setChan n l).cip = d.cip := rfl
@[simp] theorem Dev.setChan_tm (n : Nat) (l : List (List Word)) : (d.setChan n l).tm = d.tm := rfl
@[simp] theorem Dev.setChan_bpm (n : Nat) (l : List (List Word)) : (d.setChan n l).bpm = d.bpm := rfl
@[simp] theorem Dev.setChan_dma (n : Nat) (l : List (List Word)) : (d.setChan n l).dma = d.dma := rfl
@[simp] theorem Dev.setChan_sto (n : Nat) (l : List (List Word)) : (d.setChan n l).sto = d.sto := rfl
@[simp] theorem Dev.setChan_hif (n : Nat) (l : List (List Word)) : (d.setChan n l).hif = d.hif := rfl
@[simp] theorem Dev.setChan_fnc (n : Nat) (l : List (List Word)) : (d.setChan n l).fnc = d.fnc := rfl
@[simp] theorem Dev.setChan_mbx (n : Nat) (l : List (List Word)) : (d.setChan n l).mbx = d.mbx := rfl
@[simp] theorem Dev.setChan_vcl (n : Nat) (l : List (List Word)) : (d.setChan n l).vcl = d.vcl := rfl
@[simp] theorem Dev.setChan_prt (n : Nat) (l : List (List Word)) : (d.setChan n l).prt = d.prt := rfl
@[simp] theorem Dev.setChan_pwr (n : Nat) (l : List (List Word)) : (d.setChan n l).pwr = d.pwr := rfl
@[simp] theorem Dev.setChan_sec (n : Nat) (l : List (List Word)) : (d.setChan n l).sec = d.sec := rfl
@[simp] theorem Dev.setChan_dbg (n : Nat) (l : List (List Word)) : (d.setChan n l).dbg = d.dbg := rfl
@[simp] theorem Dev.setChan_ecc (n : Nat) (l : List (List Word)) : (d.setChan n l).ecc = d.ecc := rfl
@[simp] theorem Dev.setChan_regs (n : Nat) (l : List (List Word)) : (d.setChan n l).regs = d.regs := rfl
@[simp] theorem Dev.setChan_latch (n : Nat) (l : List (List Word)) : (d.setChan n l).latch = d.latch := rfl
@[simp] theorem Dev.setChan_frames (n : Nat) (l : List (List Word)) : (d.setChan n l).frames = d.frames := rfl
@[simp] theorem Dev.setChan_copies (n : Nat) (l : List (List Word)) : (d.setChan n l).copies = d.copies := rfl
@[simp] theorem Dev.setChan_nextFrame (n : Nat) (l : List (List Word)) : (d.setChan n l).nextFrame = d.nextFrame := rfl
@[simp] theorem Dev.setChan_nextCopy (n : Nat) (l : List (List Word)) : (d.setChan n l).nextCopy = d.nextCopy := rfl
@[simp] theorem Dev.setChan_fresh (n : Nat) (l : List (List Word)) : (d.setChan n l).fresh = d.fresh := rfl
@[simp] theorem Dev.setChan_out (n : Nat) (l : List (List Word)) : (d.setChan n l).out = d.out := rfl

/-! ### setPca -/

@[simp] theorem Dev.setPca_mer (f : Pca → Pca) : (d.setPca f).mer = d.mer := rfl
@[simp] theorem Dev.setPca_log (f : Pca → Pca) : (d.setPca f).log = d.log := rfl
@[simp] theorem Dev.setPca_pca (f : Pca → Pca) : (d.setPca f).pca = f d.pca := rfl
@[simp] theorem Dev.setPca_cls (f : Pca → Pca) : (d.setPca f).cls = d.cls := rfl
@[simp] theorem Dev.setPca_tbl (f : Pca → Pca) : (d.setPca f).tbl = d.tbl := rfl
@[simp] theorem Dev.setPca_vsw (f : Pca → Pca) : (d.setPca f).vsw = d.vsw := rfl
@[simp] theorem Dev.setPca_cip (f : Pca → Pca) : (d.setPca f).cip = d.cip := rfl
@[simp] theorem Dev.setPca_tm (f : Pca → Pca) : (d.setPca f).tm = d.tm := rfl
@[simp] theorem Dev.setPca_bpm (f : Pca → Pca) : (d.setPca f).bpm = d.bpm := rfl
@[simp] theorem Dev.setPca_dma (f : Pca → Pca) : (d.setPca f).dma = d.dma := rfl
@[simp] theorem Dev.setPca_sto (f : Pca → Pca) : (d.setPca f).sto = d.sto := rfl
@[simp] theorem Dev.setPca_hif (f : Pca → Pca) : (d.setPca f).hif = d.hif := rfl
@[simp] theorem Dev.setPca_fnc (f : Pca → Pca) : (d.setPca f).fnc = d.fnc := rfl
@[simp] theorem Dev.setPca_mbx (f : Pca → Pca) : (d.setPca f).mbx = d.mbx := rfl
@[simp] theorem Dev.setPca_vcl (f : Pca → Pca) : (d.setPca f).vcl = d.vcl := rfl
@[simp] theorem Dev.setPca_prt (f : Pca → Pca) : (d.setPca f).prt = d.prt := rfl
@[simp] theorem Dev.setPca_pwr (f : Pca → Pca) : (d.setPca f).pwr = d.pwr := rfl
@[simp] theorem Dev.setPca_sec (f : Pca → Pca) : (d.setPca f).sec = d.sec := rfl
@[simp] theorem Dev.setPca_dbg (f : Pca → Pca) : (d.setPca f).dbg = d.dbg := rfl
@[simp] theorem Dev.setPca_ecc (f : Pca → Pca) : (d.setPca f).ecc = d.ecc := rfl
@[simp] theorem Dev.setPca_regs (f : Pca → Pca) : (d.setPca f).regs = d.regs := rfl
@[simp] theorem Dev.setPca_latch (f : Pca → Pca) : (d.setPca f).latch = d.latch := rfl
@[simp] theorem Dev.setPca_frames (f : Pca → Pca) : (d.setPca f).frames = d.frames := rfl
@[simp] theorem Dev.setPca_copies (f : Pca → Pca) : (d.setPca f).copies = d.copies := rfl
@[simp] theorem Dev.setPca_nextFrame (f : Pca → Pca) : (d.setPca f).nextFrame = d.nextFrame := rfl
@[simp] theorem Dev.setPca_nextCopy (f : Pca → Pca) : (d.setPca f).nextCopy = d.nextCopy := rfl
@[simp] theorem Dev.setPca_fresh (f : Pca → Pca) : (d.setPca f).fresh = d.fresh := rfl
@[simp] theorem Dev.setPca_out (f : Pca → Pca) : (d.setPca f).out = d.out := rfl

/-! ### setBanks -/

@[simp] theorem Dev.setBanks_mer (k : Nat) (b : Banks) : (d.setBanks k b).mer = d.mer := rfl
@[simp] theorem Dev.setBanks_log (k : Nat) (b : Banks) : (d.setBanks k b).log = d.log := rfl
@[simp] theorem Dev.setBanks_pca (k : Nat) (b : Banks) : (d.setBanks k b).pca = d.pca := rfl
@[simp] theorem Dev.setBanks_cls (k : Nat) (b : Banks) : (d.setBanks k b).cls = { d.cls with banks := d.cls.banks.putD {} k b } := rfl
@[simp] theorem Dev.setBanks_tbl (k : Nat) (b : Banks) : (d.setBanks k b).tbl = d.tbl := rfl
@[simp] theorem Dev.setBanks_vsw (k : Nat) (b : Banks) : (d.setBanks k b).vsw = d.vsw := rfl
@[simp] theorem Dev.setBanks_cip (k : Nat) (b : Banks) : (d.setBanks k b).cip = d.cip := rfl
@[simp] theorem Dev.setBanks_tm (k : Nat) (b : Banks) : (d.setBanks k b).tm = d.tm := rfl
@[simp] theorem Dev.setBanks_bpm (k : Nat) (b : Banks) : (d.setBanks k b).bpm = d.bpm := rfl
@[simp] theorem Dev.setBanks_dma (k : Nat) (b : Banks) : (d.setBanks k b).dma = d.dma := rfl
@[simp] theorem Dev.setBanks_sto (k : Nat) (b : Banks) : (d.setBanks k b).sto = d.sto := rfl
@[simp] theorem Dev.setBanks_hif (k : Nat) (b : Banks) : (d.setBanks k b).hif = d.hif := rfl
@[simp] theorem Dev.setBanks_fnc (k : Nat) (b : Banks) : (d.setBanks k b).fnc = d.fnc := rfl
@[simp] theorem Dev.setBanks_mbx (k : Nat) (b : Banks) : (d.setBanks k b).mbx = d.mbx := rfl
@[simp] theorem Dev.setBanks_vcl (k : Nat) (b : Banks) : (d.setBanks k b).vcl = d.vcl := rfl
@[simp] theorem Dev.setBanks_prt (k : Nat) (b : Banks) : (d.setBanks k b).prt = d.prt := rfl
@[simp] theorem Dev.setBanks_pwr (k : Nat) (b : Banks) : (d.setBanks k b).pwr = d.pwr := rfl
@[simp] theorem Dev.setBanks_sec (k : Nat) (b : Banks) : (d.setBanks k b).sec = d.sec := rfl
@[simp] theorem Dev.setBanks_dbg (k : Nat) (b : Banks) : (d.setBanks k b).dbg = d.dbg := rfl
@[simp] theorem Dev.setBanks_ecc (k : Nat) (b : Banks) : (d.setBanks k b).ecc = d.ecc := rfl
@[simp] theorem Dev.setBanks_regs (k : Nat) (b : Banks) : (d.setBanks k b).regs = d.regs := rfl
@[simp] theorem Dev.setBanks_latch (k : Nat) (b : Banks) : (d.setBanks k b).latch = d.latch := rfl
@[simp] theorem Dev.setBanks_frames (k : Nat) (b : Banks) : (d.setBanks k b).frames = d.frames := rfl
@[simp] theorem Dev.setBanks_copies (k : Nat) (b : Banks) : (d.setBanks k b).copies = d.copies := rfl
@[simp] theorem Dev.setBanks_nextFrame (k : Nat) (b : Banks) : (d.setBanks k b).nextFrame = d.nextFrame := rfl
@[simp] theorem Dev.setBanks_nextCopy (k : Nat) (b : Banks) : (d.setBanks k b).nextCopy = d.nextCopy := rfl
@[simp] theorem Dev.setBanks_fresh (k : Nat) (b : Banks) : (d.setBanks k b).fresh = d.fresh := rfl
@[simp] theorem Dev.setBanks_out (k : Nat) (b : Banks) : (d.setBanks k b).out = d.out := rfl

/-! ### setTbl -/

@[simp] theorem Dev.setTbl_mer (f : TblEng → TblEng) : (d.setTbl f).mer = d.mer := rfl
@[simp] theorem Dev.setTbl_log (f : TblEng → TblEng) : (d.setTbl f).log = d.log := rfl
@[simp] theorem Dev.setTbl_pca (f : TblEng → TblEng) : (d.setTbl f).pca = d.pca := rfl
@[simp] theorem Dev.setTbl_cls (f : TblEng → TblEng) : (d.setTbl f).cls = d.cls := rfl
@[simp] theorem Dev.setTbl_tbl (f : TblEng → TblEng) : (d.setTbl f).tbl = f d.tbl := rfl
@[simp] theorem Dev.setTbl_vsw (f : TblEng → TblEng) : (d.setTbl f).vsw = d.vsw := rfl
@[simp] theorem Dev.setTbl_cip (f : TblEng → TblEng) : (d.setTbl f).cip = d.cip := rfl
@[simp] theorem Dev.setTbl_tm (f : TblEng → TblEng) : (d.setTbl f).tm = d.tm := rfl
@[simp] theorem Dev.setTbl_bpm (f : TblEng → TblEng) : (d.setTbl f).bpm = d.bpm := rfl
@[simp] theorem Dev.setTbl_dma (f : TblEng → TblEng) : (d.setTbl f).dma = d.dma := rfl
@[simp] theorem Dev.setTbl_sto (f : TblEng → TblEng) : (d.setTbl f).sto = d.sto := rfl
@[simp] theorem Dev.setTbl_hif (f : TblEng → TblEng) : (d.setTbl f).hif = d.hif := rfl
@[simp] theorem Dev.setTbl_fnc (f : TblEng → TblEng) : (d.setTbl f).fnc = d.fnc := rfl
@[simp] theorem Dev.setTbl_mbx (f : TblEng → TblEng) : (d.setTbl f).mbx = d.mbx := rfl
@[simp] theorem Dev.setTbl_vcl (f : TblEng → TblEng) : (d.setTbl f).vcl = d.vcl := rfl
@[simp] theorem Dev.setTbl_prt (f : TblEng → TblEng) : (d.setTbl f).prt = d.prt := rfl
@[simp] theorem Dev.setTbl_pwr (f : TblEng → TblEng) : (d.setTbl f).pwr = d.pwr := rfl
@[simp] theorem Dev.setTbl_sec (f : TblEng → TblEng) : (d.setTbl f).sec = d.sec := rfl
@[simp] theorem Dev.setTbl_dbg (f : TblEng → TblEng) : (d.setTbl f).dbg = d.dbg := rfl
@[simp] theorem Dev.setTbl_ecc (f : TblEng → TblEng) : (d.setTbl f).ecc = d.ecc := rfl
@[simp] theorem Dev.setTbl_regs (f : TblEng → TblEng) : (d.setTbl f).regs = d.regs := rfl
@[simp] theorem Dev.setTbl_latch (f : TblEng → TblEng) : (d.setTbl f).latch = d.latch := rfl
@[simp] theorem Dev.setTbl_frames (f : TblEng → TblEng) : (d.setTbl f).frames = d.frames := rfl
@[simp] theorem Dev.setTbl_copies (f : TblEng → TblEng) : (d.setTbl f).copies = d.copies := rfl
@[simp] theorem Dev.setTbl_nextFrame (f : TblEng → TblEng) : (d.setTbl f).nextFrame = d.nextFrame := rfl
@[simp] theorem Dev.setTbl_nextCopy (f : TblEng → TblEng) : (d.setTbl f).nextCopy = d.nextCopy := rfl
@[simp] theorem Dev.setTbl_fresh (f : TblEng → TblEng) : (d.setTbl f).fresh = d.fresh := rfl
@[simp] theorem Dev.setTbl_out (f : TblEng → TblEng) : (d.setTbl f).out = d.out := rfl

/-! ### setVsw -/

@[simp] theorem Dev.setVsw_mer (f : Vsw → Vsw) : (d.setVsw f).mer = d.mer := rfl
@[simp] theorem Dev.setVsw_log (f : Vsw → Vsw) : (d.setVsw f).log = d.log := rfl
@[simp] theorem Dev.setVsw_pca (f : Vsw → Vsw) : (d.setVsw f).pca = d.pca := rfl
@[simp] theorem Dev.setVsw_cls (f : Vsw → Vsw) : (d.setVsw f).cls = d.cls := rfl
@[simp] theorem Dev.setVsw_tbl (f : Vsw → Vsw) : (d.setVsw f).tbl = d.tbl := rfl
@[simp] theorem Dev.setVsw_vsw (f : Vsw → Vsw) : (d.setVsw f).vsw = f d.vsw := rfl
@[simp] theorem Dev.setVsw_cip (f : Vsw → Vsw) : (d.setVsw f).cip = d.cip := rfl
@[simp] theorem Dev.setVsw_tm (f : Vsw → Vsw) : (d.setVsw f).tm = d.tm := rfl
@[simp] theorem Dev.setVsw_bpm (f : Vsw → Vsw) : (d.setVsw f).bpm = d.bpm := rfl
@[simp] theorem Dev.setVsw_dma (f : Vsw → Vsw) : (d.setVsw f).dma = d.dma := rfl
@[simp] theorem Dev.setVsw_sto (f : Vsw → Vsw) : (d.setVsw f).sto = d.sto := rfl
@[simp] theorem Dev.setVsw_hif (f : Vsw → Vsw) : (d.setVsw f).hif = d.hif := rfl
@[simp] theorem Dev.setVsw_fnc (f : Vsw → Vsw) : (d.setVsw f).fnc = d.fnc := rfl
@[simp] theorem Dev.setVsw_mbx (f : Vsw → Vsw) : (d.setVsw f).mbx = d.mbx := rfl
@[simp] theorem Dev.setVsw_vcl (f : Vsw → Vsw) : (d.setVsw f).vcl = d.vcl := rfl
@[simp] theorem Dev.setVsw_prt (f : Vsw → Vsw) : (d.setVsw f).prt = d.prt := rfl
@[simp] theorem Dev.setVsw_pwr (f : Vsw → Vsw) : (d.setVsw f).pwr = d.pwr := rfl
@[simp] theorem Dev.setVsw_sec (f : Vsw → Vsw) : (d.setVsw f).sec = d.sec := rfl
@[simp] theorem Dev.setVsw_dbg (f : Vsw → Vsw) : (d.setVsw f).dbg = d.dbg := rfl
@[simp] theorem Dev.setVsw_ecc (f : Vsw → Vsw) : (d.setVsw f).ecc = d.ecc := rfl
@[simp] theorem Dev.setVsw_regs (f : Vsw → Vsw) : (d.setVsw f).regs = d.regs := rfl
@[simp] theorem Dev.setVsw_latch (f : Vsw → Vsw) : (d.setVsw f).latch = d.latch := rfl
@[simp] theorem Dev.setVsw_frames (f : Vsw → Vsw) : (d.setVsw f).frames = d.frames := rfl
@[simp] theorem Dev.setVsw_copies (f : Vsw → Vsw) : (d.setVsw f).copies = d.copies := rfl
@[simp] theorem Dev.setVsw_nextFrame (f : Vsw → Vsw) : (d.setVsw f).nextFrame = d.nextFrame := rfl
@[simp] theorem Dev.setVsw_nextCopy (f : Vsw → Vsw) : (d.setVsw f).nextCopy = d.nextCopy := rfl
@[simp] theorem Dev.setVsw_fresh (f : Vsw → Vsw) : (d.setVsw f).fresh = d.fresh := rfl
@[simp] theorem Dev.setVsw_out (f : Vsw → Vsw) : (d.setVsw f).out = d.out := rfl

/-! ### setCip -/

@[simp] theorem Dev.setCip_mer (f : Cip → Cip) : (d.setCip f).mer = d.mer := rfl
@[simp] theorem Dev.setCip_log (f : Cip → Cip) : (d.setCip f).log = d.log := rfl
@[simp] theorem Dev.setCip_pca (f : Cip → Cip) : (d.setCip f).pca = d.pca := rfl
@[simp] theorem Dev.setCip_cls (f : Cip → Cip) : (d.setCip f).cls = d.cls := rfl
@[simp] theorem Dev.setCip_tbl (f : Cip → Cip) : (d.setCip f).tbl = d.tbl := rfl
@[simp] theorem Dev.setCip_vsw (f : Cip → Cip) : (d.setCip f).vsw = d.vsw := rfl
@[simp] theorem Dev.setCip_cip (f : Cip → Cip) : (d.setCip f).cip = f d.cip := rfl
@[simp] theorem Dev.setCip_tm (f : Cip → Cip) : (d.setCip f).tm = d.tm := rfl
@[simp] theorem Dev.setCip_bpm (f : Cip → Cip) : (d.setCip f).bpm = d.bpm := rfl
@[simp] theorem Dev.setCip_dma (f : Cip → Cip) : (d.setCip f).dma = d.dma := rfl
@[simp] theorem Dev.setCip_sto (f : Cip → Cip) : (d.setCip f).sto = d.sto := rfl
@[simp] theorem Dev.setCip_hif (f : Cip → Cip) : (d.setCip f).hif = d.hif := rfl
@[simp] theorem Dev.setCip_fnc (f : Cip → Cip) : (d.setCip f).fnc = d.fnc := rfl
@[simp] theorem Dev.setCip_mbx (f : Cip → Cip) : (d.setCip f).mbx = d.mbx := rfl
@[simp] theorem Dev.setCip_vcl (f : Cip → Cip) : (d.setCip f).vcl = d.vcl := rfl
@[simp] theorem Dev.setCip_prt (f : Cip → Cip) : (d.setCip f).prt = d.prt := rfl
@[simp] theorem Dev.setCip_pwr (f : Cip → Cip) : (d.setCip f).pwr = d.pwr := rfl
@[simp] theorem Dev.setCip_sec (f : Cip → Cip) : (d.setCip f).sec = d.sec := rfl
@[simp] theorem Dev.setCip_dbg (f : Cip → Cip) : (d.setCip f).dbg = d.dbg := rfl
@[simp] theorem Dev.setCip_ecc (f : Cip → Cip) : (d.setCip f).ecc = d.ecc := rfl
@[simp] theorem Dev.setCip_regs (f : Cip → Cip) : (d.setCip f).regs = d.regs := rfl
@[simp] theorem Dev.setCip_latch (f : Cip → Cip) : (d.setCip f).latch = d.latch := rfl
@[simp] theorem Dev.setCip_frames (f : Cip → Cip) : (d.setCip f).frames = d.frames := rfl
@[simp] theorem Dev.setCip_copies (f : Cip → Cip) : (d.setCip f).copies = d.copies := rfl
@[simp] theorem Dev.setCip_nextFrame (f : Cip → Cip) : (d.setCip f).nextFrame = d.nextFrame := rfl
@[simp] theorem Dev.setCip_nextCopy (f : Cip → Cip) : (d.setCip f).nextCopy = d.nextCopy := rfl
@[simp] theorem Dev.setCip_fresh (f : Cip → Cip) : (d.setCip f).fresh = d.fresh := rfl
@[simp] theorem Dev.setCip_out (f : Cip → Cip) : (d.setCip f).out = d.out := rfl

/-! ### setTm -/

@[simp] theorem Dev.setTm_mer (f : Tm → Tm) : (d.setTm f).mer = d.mer := rfl
@[simp] theorem Dev.setTm_log (f : Tm → Tm) : (d.setTm f).log = d.log := rfl
@[simp] theorem Dev.setTm_pca (f : Tm → Tm) : (d.setTm f).pca = d.pca := rfl
@[simp] theorem Dev.setTm_cls (f : Tm → Tm) : (d.setTm f).cls = d.cls := rfl
@[simp] theorem Dev.setTm_tbl (f : Tm → Tm) : (d.setTm f).tbl = d.tbl := rfl
@[simp] theorem Dev.setTm_vsw (f : Tm → Tm) : (d.setTm f).vsw = d.vsw := rfl
@[simp] theorem Dev.setTm_cip (f : Tm → Tm) : (d.setTm f).cip = d.cip := rfl
@[simp] theorem Dev.setTm_tm (f : Tm → Tm) : (d.setTm f).tm = f d.tm := rfl
@[simp] theorem Dev.setTm_bpm (f : Tm → Tm) : (d.setTm f).bpm = d.bpm := rfl
@[simp] theorem Dev.setTm_dma (f : Tm → Tm) : (d.setTm f).dma = d.dma := rfl
@[simp] theorem Dev.setTm_sto (f : Tm → Tm) : (d.setTm f).sto = d.sto := rfl
@[simp] theorem Dev.setTm_hif (f : Tm → Tm) : (d.setTm f).hif = d.hif := rfl
@[simp] theorem Dev.setTm_fnc (f : Tm → Tm) : (d.setTm f).fnc = d.fnc := rfl
@[simp] theorem Dev.setTm_mbx (f : Tm → Tm) : (d.setTm f).mbx = d.mbx := rfl
@[simp] theorem Dev.setTm_vcl (f : Tm → Tm) : (d.setTm f).vcl = d.vcl := rfl
@[simp] theorem Dev.setTm_prt (f : Tm → Tm) : (d.setTm f).prt = d.prt := rfl
@[simp] theorem Dev.setTm_pwr (f : Tm → Tm) : (d.setTm f).pwr = d.pwr := rfl
@[simp] theorem Dev.setTm_sec (f : Tm → Tm) : (d.setTm f).sec = d.sec := rfl
@[simp] theorem Dev.setTm_dbg (f : Tm → Tm) : (d.setTm f).dbg = d.dbg := rfl
@[simp] theorem Dev.setTm_ecc (f : Tm → Tm) : (d.setTm f).ecc = d.ecc := rfl
@[simp] theorem Dev.setTm_regs (f : Tm → Tm) : (d.setTm f).regs = d.regs := rfl
@[simp] theorem Dev.setTm_latch (f : Tm → Tm) : (d.setTm f).latch = d.latch := rfl
@[simp] theorem Dev.setTm_frames (f : Tm → Tm) : (d.setTm f).frames = d.frames := rfl
@[simp] theorem Dev.setTm_copies (f : Tm → Tm) : (d.setTm f).copies = d.copies := rfl
@[simp] theorem Dev.setTm_nextFrame (f : Tm → Tm) : (d.setTm f).nextFrame = d.nextFrame := rfl
@[simp] theorem Dev.setTm_nextCopy (f : Tm → Tm) : (d.setTm f).nextCopy = d.nextCopy := rfl
@[simp] theorem Dev.setTm_fresh (f : Tm → Tm) : (d.setTm f).fresh = d.fresh := rfl
@[simp] theorem Dev.setTm_out (f : Tm → Tm) : (d.setTm f).out = d.out := rfl

/-! ### setMer -/

@[simp] theorem Dev.setMer_mer (f : Mer → Mer) : (d.setMer f).mer = f d.mer := rfl
@[simp] theorem Dev.setMer_log (f : Mer → Mer) : (d.setMer f).log = d.log := rfl
@[simp] theorem Dev.setMer_pca (f : Mer → Mer) : (d.setMer f).pca = d.pca := rfl
@[simp] theorem Dev.setMer_cls (f : Mer → Mer) : (d.setMer f).cls = d.cls := rfl
@[simp] theorem Dev.setMer_tbl (f : Mer → Mer) : (d.setMer f).tbl = d.tbl := rfl
@[simp] theorem Dev.setMer_vsw (f : Mer → Mer) : (d.setMer f).vsw = d.vsw := rfl
@[simp] theorem Dev.setMer_cip (f : Mer → Mer) : (d.setMer f).cip = d.cip := rfl
@[simp] theorem Dev.setMer_tm (f : Mer → Mer) : (d.setMer f).tm = d.tm := rfl
@[simp] theorem Dev.setMer_bpm (f : Mer → Mer) : (d.setMer f).bpm = d.bpm := rfl
@[simp] theorem Dev.setMer_dma (f : Mer → Mer) : (d.setMer f).dma = d.dma := rfl
@[simp] theorem Dev.setMer_sto (f : Mer → Mer) : (d.setMer f).sto = d.sto := rfl
@[simp] theorem Dev.setMer_hif (f : Mer → Mer) : (d.setMer f).hif = d.hif := rfl
@[simp] theorem Dev.setMer_fnc (f : Mer → Mer) : (d.setMer f).fnc = d.fnc := rfl
@[simp] theorem Dev.setMer_mbx (f : Mer → Mer) : (d.setMer f).mbx = d.mbx := rfl
@[simp] theorem Dev.setMer_vcl (f : Mer → Mer) : (d.setMer f).vcl = d.vcl := rfl
@[simp] theorem Dev.setMer_prt (f : Mer → Mer) : (d.setMer f).prt = d.prt := rfl
@[simp] theorem Dev.setMer_pwr (f : Mer → Mer) : (d.setMer f).pwr = d.pwr := rfl
@[simp] theorem Dev.setMer_sec (f : Mer → Mer) : (d.setMer f).sec = d.sec := rfl
@[simp] theorem Dev.setMer_dbg (f : Mer → Mer) : (d.setMer f).dbg = d.dbg := rfl
@[simp] theorem Dev.setMer_ecc (f : Mer → Mer) : (d.setMer f).ecc = d.ecc := rfl
@[simp] theorem Dev.setMer_regs (f : Mer → Mer) : (d.setMer f).regs = d.regs := rfl
@[simp] theorem Dev.setMer_latch (f : Mer → Mer) : (d.setMer f).latch = d.latch := rfl
@[simp] theorem Dev.setMer_frames (f : Mer → Mer) : (d.setMer f).frames = d.frames := rfl
@[simp] theorem Dev.setMer_copies (f : Mer → Mer) : (d.setMer f).copies = d.copies := rfl
@[simp] theorem Dev.setMer_nextFrame (f : Mer → Mer) : (d.setMer f).nextFrame = d.nextFrame := rfl
@[simp] theorem Dev.setMer_nextCopy (f : Mer → Mer) : (d.setMer f).nextCopy = d.nextCopy := rfl
@[simp] theorem Dev.setMer_fresh (f : Mer → Mer) : (d.setMer f).fresh = d.fresh := rfl
@[simp] theorem Dev.setMer_out (f : Mer → Mer) : (d.setMer f).out = d.out := rfl

/-! ### setPort -/

@[simp] theorem Dev.setPort_mer (p : Nat) (x : Port) : (d.setPort p x).mer = d.mer := rfl
@[simp] theorem Dev.setPort_log (p : Nat) (x : Port) : (d.setPort p x).log = d.log := rfl
@[simp] theorem Dev.setPort_pca (p : Nat) (x : Port) : (d.setPort p x).pca = d.pca := rfl
@[simp] theorem Dev.setPort_cls (p : Nat) (x : Port) : (d.setPort p x).cls = d.cls := rfl
@[simp] theorem Dev.setPort_tbl (p : Nat) (x : Port) : (d.setPort p x).tbl = d.tbl := rfl
@[simp] theorem Dev.setPort_vsw (p : Nat) (x : Port) : (d.setPort p x).vsw = d.vsw := rfl
@[simp] theorem Dev.setPort_cip (p : Nat) (x : Port) : (d.setPort p x).cip = d.cip := rfl
@[simp] theorem Dev.setPort_tm (p : Nat) (x : Port) : (d.setPort p x).tm = d.tm := rfl
@[simp] theorem Dev.setPort_bpm (p : Nat) (x : Port) : (d.setPort p x).bpm = d.bpm := rfl
@[simp] theorem Dev.setPort_dma (p : Nat) (x : Port) : (d.setPort p x).dma = d.dma := rfl
@[simp] theorem Dev.setPort_sto (p : Nat) (x : Port) : (d.setPort p x).sto = d.sto := rfl
@[simp] theorem Dev.setPort_hif (p : Nat) (x : Port) : (d.setPort p x).hif = d.hif := rfl
@[simp] theorem Dev.setPort_fnc (p : Nat) (x : Port) : (d.setPort p x).fnc = d.fnc := rfl
@[simp] theorem Dev.setPort_mbx (p : Nat) (x : Port) : (d.setPort p x).mbx = d.mbx := rfl
@[simp] theorem Dev.setPort_vcl (p : Nat) (x : Port) : (d.setPort p x).vcl = d.vcl := rfl
@[simp] theorem Dev.setPort_prt (p : Nat) (x : Port) : (d.setPort p x).prt = { d.prt with ports := d.prt.ports.putD {} p x } := rfl
@[simp] theorem Dev.setPort_pwr (p : Nat) (x : Port) : (d.setPort p x).pwr = d.pwr := rfl
@[simp] theorem Dev.setPort_sec (p : Nat) (x : Port) : (d.setPort p x).sec = d.sec := rfl
@[simp] theorem Dev.setPort_dbg (p : Nat) (x : Port) : (d.setPort p x).dbg = d.dbg := rfl
@[simp] theorem Dev.setPort_ecc (p : Nat) (x : Port) : (d.setPort p x).ecc = d.ecc := rfl
@[simp] theorem Dev.setPort_regs (p : Nat) (x : Port) : (d.setPort p x).regs = d.regs := rfl
@[simp] theorem Dev.setPort_latch (p : Nat) (x : Port) : (d.setPort p x).latch = d.latch := rfl
@[simp] theorem Dev.setPort_frames (p : Nat) (x : Port) : (d.setPort p x).frames = d.frames := rfl
@[simp] theorem Dev.setPort_copies (p : Nat) (x : Port) : (d.setPort p x).copies = d.copies := rfl
@[simp] theorem Dev.setPort_nextFrame (p : Nat) (x : Port) : (d.setPort p x).nextFrame = d.nextFrame := rfl
@[simp] theorem Dev.setPort_nextCopy (p : Nat) (x : Port) : (d.setPort p x).nextCopy = d.nextCopy := rfl
@[simp] theorem Dev.setPort_fresh (p : Nat) (x : Port) : (d.setPort p x).fresh = d.fresh := rfl
@[simp] theorem Dev.setPort_out (p : Nat) (x : Port) : (d.setPort p x).out = d.out := rfl

/-! ### setPwr -/

@[simp] theorem Dev.setPwr_mer (f : Pwr → Pwr) : (d.setPwr f).mer = d.mer := rfl
@[simp] theorem Dev.setPwr_log (f : Pwr → Pwr) : (d.setPwr f).log = d.log := rfl
@[simp] theorem Dev.setPwr_pca (f : Pwr → Pwr) : (d.setPwr f).pca = d.pca := rfl
@[simp] theorem Dev.setPwr_cls (f : Pwr → Pwr) : (d.setPwr f).cls = d.cls := rfl
@[simp] theorem Dev.setPwr_tbl (f : Pwr → Pwr) : (d.setPwr f).tbl = d.tbl := rfl
@[simp] theorem Dev.setPwr_vsw (f : Pwr → Pwr) : (d.setPwr f).vsw = d.vsw := rfl
@[simp] theorem Dev.setPwr_cip (f : Pwr → Pwr) : (d.setPwr f).cip = d.cip := rfl
@[simp] theorem Dev.setPwr_tm (f : Pwr → Pwr) : (d.setPwr f).tm = d.tm := rfl
@[simp] theorem Dev.setPwr_bpm (f : Pwr → Pwr) : (d.setPwr f).bpm = d.bpm := rfl
@[simp] theorem Dev.setPwr_dma (f : Pwr → Pwr) : (d.setPwr f).dma = d.dma := rfl
@[simp] theorem Dev.setPwr_sto (f : Pwr → Pwr) : (d.setPwr f).sto = d.sto := rfl
@[simp] theorem Dev.setPwr_hif (f : Pwr → Pwr) : (d.setPwr f).hif = d.hif := rfl
@[simp] theorem Dev.setPwr_fnc (f : Pwr → Pwr) : (d.setPwr f).fnc = d.fnc := rfl
@[simp] theorem Dev.setPwr_mbx (f : Pwr → Pwr) : (d.setPwr f).mbx = d.mbx := rfl
@[simp] theorem Dev.setPwr_vcl (f : Pwr → Pwr) : (d.setPwr f).vcl = d.vcl := rfl
@[simp] theorem Dev.setPwr_prt (f : Pwr → Pwr) : (d.setPwr f).prt = d.prt := rfl
@[simp] theorem Dev.setPwr_pwr (f : Pwr → Pwr) : (d.setPwr f).pwr = f d.pwr := rfl
@[simp] theorem Dev.setPwr_sec (f : Pwr → Pwr) : (d.setPwr f).sec = d.sec := rfl
@[simp] theorem Dev.setPwr_dbg (f : Pwr → Pwr) : (d.setPwr f).dbg = d.dbg := rfl
@[simp] theorem Dev.setPwr_ecc (f : Pwr → Pwr) : (d.setPwr f).ecc = d.ecc := rfl
@[simp] theorem Dev.setPwr_regs (f : Pwr → Pwr) : (d.setPwr f).regs = d.regs := rfl
@[simp] theorem Dev.setPwr_latch (f : Pwr → Pwr) : (d.setPwr f).latch = d.latch := rfl
@[simp] theorem Dev.setPwr_frames (f : Pwr → Pwr) : (d.setPwr f).frames = d.frames := rfl
@[simp] theorem Dev.setPwr_copies (f : Pwr → Pwr) : (d.setPwr f).copies = d.copies := rfl
@[simp] theorem Dev.setPwr_nextFrame (f : Pwr → Pwr) : (d.setPwr f).nextFrame = d.nextFrame := rfl
@[simp] theorem Dev.setPwr_nextCopy (f : Pwr → Pwr) : (d.setPwr f).nextCopy = d.nextCopy := rfl
@[simp] theorem Dev.setPwr_fresh (f : Pwr → Pwr) : (d.setPwr f).fresh = d.fresh := rfl
@[simp] theorem Dev.setPwr_out (f : Pwr → Pwr) : (d.setPwr f).out = d.out := rfl

/-! ### setIsl -/

@[simp] theorem Dev.setIsl_mer (b : Nat) (x : Island) : (d.setIsl b x).mer = d.mer := rfl
@[simp] theorem Dev.setIsl_log (b : Nat) (x : Island) : (d.setIsl b x).log = d.log := rfl
@[simp] theorem Dev.setIsl_pca (b : Nat) (x : Island) : (d.setIsl b x).pca = d.pca := rfl
@[simp] theorem Dev.setIsl_cls (b : Nat) (x : Island) : (d.setIsl b x).cls = d.cls := rfl
@[simp] theorem Dev.setIsl_tbl (b : Nat) (x : Island) : (d.setIsl b x).tbl = d.tbl := rfl
@[simp] theorem Dev.setIsl_vsw (b : Nat) (x : Island) : (d.setIsl b x).vsw = d.vsw := rfl
@[simp] theorem Dev.setIsl_cip (b : Nat) (x : Island) : (d.setIsl b x).cip = d.cip := rfl
@[simp] theorem Dev.setIsl_tm (b : Nat) (x : Island) : (d.setIsl b x).tm = d.tm := rfl
@[simp] theorem Dev.setIsl_bpm (b : Nat) (x : Island) : (d.setIsl b x).bpm = d.bpm := rfl
@[simp] theorem Dev.setIsl_dma (b : Nat) (x : Island) : (d.setIsl b x).dma = d.dma := rfl
@[simp] theorem Dev.setIsl_sto (b : Nat) (x : Island) : (d.setIsl b x).sto = d.sto := rfl
@[simp] theorem Dev.setIsl_hif (b : Nat) (x : Island) : (d.setIsl b x).hif = d.hif := rfl
@[simp] theorem Dev.setIsl_fnc (b : Nat) (x : Island) : (d.setIsl b x).fnc = d.fnc := rfl
@[simp] theorem Dev.setIsl_mbx (b : Nat) (x : Island) : (d.setIsl b x).mbx = d.mbx := rfl
@[simp] theorem Dev.setIsl_vcl (b : Nat) (x : Island) : (d.setIsl b x).vcl = d.vcl := rfl
@[simp] theorem Dev.setIsl_prt (b : Nat) (x : Island) : (d.setIsl b x).prt = d.prt := rfl
@[simp] theorem Dev.setIsl_pwr (b : Nat) (x : Island) : (d.setIsl b x).pwr = { d.pwr with islands := d.pwr.islands.putD {} b x } := rfl
@[simp] theorem Dev.setIsl_sec (b : Nat) (x : Island) : (d.setIsl b x).sec = d.sec := rfl
@[simp] theorem Dev.setIsl_dbg (b : Nat) (x : Island) : (d.setIsl b x).dbg = d.dbg := rfl
@[simp] theorem Dev.setIsl_ecc (b : Nat) (x : Island) : (d.setIsl b x).ecc = d.ecc := rfl
@[simp] theorem Dev.setIsl_regs (b : Nat) (x : Island) : (d.setIsl b x).regs = d.regs := rfl
@[simp] theorem Dev.setIsl_latch (b : Nat) (x : Island) : (d.setIsl b x).latch = d.latch := rfl
@[simp] theorem Dev.setIsl_frames (b : Nat) (x : Island) : (d.setIsl b x).frames = d.frames := rfl
@[simp] theorem Dev.setIsl_copies (b : Nat) (x : Island) : (d.setIsl b x).copies = d.copies := rfl
@[simp] theorem Dev.setIsl_nextFrame (b : Nat) (x : Island) : (d.setIsl b x).nextFrame = d.nextFrame := rfl
@[simp] theorem Dev.setIsl_nextCopy (b : Nat) (x : Island) : (d.setIsl b x).nextCopy = d.nextCopy := rfl
@[simp] theorem Dev.setIsl_fresh (b : Nat) (x : Island) : (d.setIsl b x).fresh = d.fresh := rfl
@[simp] theorem Dev.setIsl_out (b : Nat) (x : Island) : (d.setIsl b x).out = d.out := rfl

/-! ### setSec -/

@[simp] theorem Dev.setSec_mer (f : Sec → Sec) : (d.setSec f).mer = d.mer := rfl
@[simp] theorem Dev.setSec_log (f : Sec → Sec) : (d.setSec f).log = d.log := rfl
@[simp] theorem Dev.setSec_pca (f : Sec → Sec) : (d.setSec f).pca = d.pca := rfl
@[simp] theorem Dev.setSec_cls (f : Sec → Sec) : (d.setSec f).cls = d.cls := rfl
@[simp] theorem Dev.setSec_tbl (f : Sec → Sec) : (d.setSec f).tbl = d.tbl := rfl
@[simp] theorem Dev.setSec_vsw (f : Sec → Sec) : (d.setSec f).vsw = d.vsw := rfl
@[simp] theorem Dev.setSec_cip (f : Sec → Sec) : (d.setSec f).cip = d.cip := rfl
@[simp] theorem Dev.setSec_tm (f : Sec → Sec) : (d.setSec f).tm = d.tm := rfl
@[simp] theorem Dev.setSec_bpm (f : Sec → Sec) : (d.setSec f).bpm = d.bpm := rfl
@[simp] theorem Dev.setSec_dma (f : Sec → Sec) : (d.setSec f).dma = d.dma := rfl
@[simp] theorem Dev.setSec_sto (f : Sec → Sec) : (d.setSec f).sto = d.sto := rfl
@[simp] theorem Dev.setSec_hif (f : Sec → Sec) : (d.setSec f).hif = d.hif := rfl
@[simp] theorem Dev.setSec_fnc (f : Sec → Sec) : (d.setSec f).fnc = d.fnc := rfl
@[simp] theorem Dev.setSec_mbx (f : Sec → Sec) : (d.setSec f).mbx = d.mbx := rfl
@[simp] theorem Dev.setSec_vcl (f : Sec → Sec) : (d.setSec f).vcl = d.vcl := rfl
@[simp] theorem Dev.setSec_prt (f : Sec → Sec) : (d.setSec f).prt = d.prt := rfl
@[simp] theorem Dev.setSec_pwr (f : Sec → Sec) : (d.setSec f).pwr = d.pwr := rfl
@[simp] theorem Dev.setSec_sec (f : Sec → Sec) : (d.setSec f).sec = f d.sec := rfl
@[simp] theorem Dev.setSec_dbg (f : Sec → Sec) : (d.setSec f).dbg = d.dbg := rfl
@[simp] theorem Dev.setSec_ecc (f : Sec → Sec) : (d.setSec f).ecc = d.ecc := rfl
@[simp] theorem Dev.setSec_regs (f : Sec → Sec) : (d.setSec f).regs = d.regs := rfl
@[simp] theorem Dev.setSec_latch (f : Sec → Sec) : (d.setSec f).latch = d.latch := rfl
@[simp] theorem Dev.setSec_frames (f : Sec → Sec) : (d.setSec f).frames = d.frames := rfl
@[simp] theorem Dev.setSec_copies (f : Sec → Sec) : (d.setSec f).copies = d.copies := rfl
@[simp] theorem Dev.setSec_nextFrame (f : Sec → Sec) : (d.setSec f).nextFrame = d.nextFrame := rfl
@[simp] theorem Dev.setSec_nextCopy (f : Sec → Sec) : (d.setSec f).nextCopy = d.nextCopy := rfl
@[simp] theorem Dev.setSec_fresh (f : Sec → Sec) : (d.setSec f).fresh = d.fresh := rfl
@[simp] theorem Dev.setSec_out (f : Sec → Sec) : (d.setSec f).out = d.out := rfl

/-! ### setQp -/

@[simp] theorem Dev.setQp_mer (q : Nat) (x : QpSt) : (d.setQp q x).mer = d.mer := rfl
@[simp] theorem Dev.setQp_log (q : Nat) (x : QpSt) : (d.setQp q x).log = d.log := rfl
@[simp] theorem Dev.setQp_pca (q : Nat) (x : QpSt) : (d.setQp q x).pca = d.pca := rfl
@[simp] theorem Dev.setQp_cls (q : Nat) (x : QpSt) : (d.setQp q x).cls = d.cls := rfl
@[simp] theorem Dev.setQp_tbl (q : Nat) (x : QpSt) : (d.setQp q x).tbl = d.tbl := rfl
@[simp] theorem Dev.setQp_vsw (q : Nat) (x : QpSt) : (d.setQp q x).vsw = d.vsw := rfl
@[simp] theorem Dev.setQp_cip (q : Nat) (x : QpSt) : (d.setQp q x).cip = d.cip := rfl
@[simp] theorem Dev.setQp_tm (q : Nat) (x : QpSt) : (d.setQp q x).tm = d.tm := rfl
@[simp] theorem Dev.setQp_bpm (q : Nat) (x : QpSt) : (d.setQp q x).bpm = d.bpm := rfl
@[simp] theorem Dev.setQp_dma (q : Nat) (x : QpSt) : (d.setQp q x).dma = { d.dma with qps := d.dma.qps.putD {} q x } := rfl
@[simp] theorem Dev.setQp_sto (q : Nat) (x : QpSt) : (d.setQp q x).sto = d.sto := rfl
@[simp] theorem Dev.setQp_hif (q : Nat) (x : QpSt) : (d.setQp q x).hif = d.hif := rfl
@[simp] theorem Dev.setQp_fnc (q : Nat) (x : QpSt) : (d.setQp q x).fnc = d.fnc := rfl
@[simp] theorem Dev.setQp_mbx (q : Nat) (x : QpSt) : (d.setQp q x).mbx = d.mbx := rfl
@[simp] theorem Dev.setQp_vcl (q : Nat) (x : QpSt) : (d.setQp q x).vcl = d.vcl := rfl
@[simp] theorem Dev.setQp_prt (q : Nat) (x : QpSt) : (d.setQp q x).prt = d.prt := rfl
@[simp] theorem Dev.setQp_pwr (q : Nat) (x : QpSt) : (d.setQp q x).pwr = d.pwr := rfl
@[simp] theorem Dev.setQp_sec (q : Nat) (x : QpSt) : (d.setQp q x).sec = d.sec := rfl
@[simp] theorem Dev.setQp_dbg (q : Nat) (x : QpSt) : (d.setQp q x).dbg = d.dbg := rfl
@[simp] theorem Dev.setQp_ecc (q : Nat) (x : QpSt) : (d.setQp q x).ecc = d.ecc := rfl
@[simp] theorem Dev.setQp_regs (q : Nat) (x : QpSt) : (d.setQp q x).regs = d.regs := rfl
@[simp] theorem Dev.setQp_latch (q : Nat) (x : QpSt) : (d.setQp q x).latch = d.latch := rfl
@[simp] theorem Dev.setQp_frames (q : Nat) (x : QpSt) : (d.setQp q x).frames = d.frames := rfl
@[simp] theorem Dev.setQp_copies (q : Nat) (x : QpSt) : (d.setQp q x).copies = d.copies := rfl
@[simp] theorem Dev.setQp_nextFrame (q : Nat) (x : QpSt) : (d.setQp q x).nextFrame = d.nextFrame := rfl
@[simp] theorem Dev.setQp_nextCopy (q : Nat) (x : QpSt) : (d.setQp q x).nextCopy = d.nextCopy := rfl
@[simp] theorem Dev.setQp_fresh (q : Nat) (x : QpSt) : (d.setQp q x).fresh = d.fresh := rfl
@[simp] theorem Dev.setQp_out (q : Nat) (x : QpSt) : (d.setQp q x).out = d.out := rfl

/-! ### setLg -/

@[simp] theorem Dev.setLg_mer (k : Nat) (x : LgCtx) : (d.setLg k x).mer = d.mer := rfl
@[simp] theorem Dev.setLg_log (k : Nat) (x : LgCtx) : (d.setLg k x).log = d.log := rfl
@[simp] theorem Dev.setLg_pca (k : Nat) (x : LgCtx) : (d.setLg k x).pca = d.pca := rfl
@[simp] theorem Dev.setLg_cls (k : Nat) (x : LgCtx) : (d.setLg k x).cls = d.cls := rfl
@[simp] theorem Dev.setLg_tbl (k : Nat) (x : LgCtx) : (d.setLg k x).tbl = d.tbl := rfl
@[simp] theorem Dev.setLg_vsw (k : Nat) (x : LgCtx) : (d.setLg k x).vsw = d.vsw := rfl
@[simp] theorem Dev.setLg_cip (k : Nat) (x : LgCtx) : (d.setLg k x).cip = d.cip := rfl
@[simp] theorem Dev.setLg_tm (k : Nat) (x : LgCtx) : (d.setLg k x).tm = d.tm := rfl
@[simp] theorem Dev.setLg_bpm (k : Nat) (x : LgCtx) : (d.setLg k x).bpm = d.bpm := rfl
@[simp] theorem Dev.setLg_dma (k : Nat) (x : LgCtx) : (d.setLg k x).dma = { d.dma with ctxs := d.dma.ctxs.putD {} k x } := rfl
@[simp] theorem Dev.setLg_sto (k : Nat) (x : LgCtx) : (d.setLg k x).sto = d.sto := rfl
@[simp] theorem Dev.setLg_hif (k : Nat) (x : LgCtx) : (d.setLg k x).hif = d.hif := rfl
@[simp] theorem Dev.setLg_fnc (k : Nat) (x : LgCtx) : (d.setLg k x).fnc = d.fnc := rfl
@[simp] theorem Dev.setLg_mbx (k : Nat) (x : LgCtx) : (d.setLg k x).mbx = d.mbx := rfl
@[simp] theorem Dev.setLg_vcl (k : Nat) (x : LgCtx) : (d.setLg k x).vcl = d.vcl := rfl
@[simp] theorem Dev.setLg_prt (k : Nat) (x : LgCtx) : (d.setLg k x).prt = d.prt := rfl
@[simp] theorem Dev.setLg_pwr (k : Nat) (x : LgCtx) : (d.setLg k x).pwr = d.pwr := rfl
@[simp] theorem Dev.setLg_sec (k : Nat) (x : LgCtx) : (d.setLg k x).sec = d.sec := rfl
@[simp] theorem Dev.setLg_dbg (k : Nat) (x : LgCtx) : (d.setLg k x).dbg = d.dbg := rfl
@[simp] theorem Dev.setLg_ecc (k : Nat) (x : LgCtx) : (d.setLg k x).ecc = d.ecc := rfl
@[simp] theorem Dev.setLg_regs (k : Nat) (x : LgCtx) : (d.setLg k x).regs = d.regs := rfl
@[simp] theorem Dev.setLg_latch (k : Nat) (x : LgCtx) : (d.setLg k x).latch = d.latch := rfl
@[simp] theorem Dev.setLg_frames (k : Nat) (x : LgCtx) : (d.setLg k x).frames = d.frames := rfl
@[simp] theorem Dev.setLg_copies (k : Nat) (x : LgCtx) : (d.setLg k x).copies = d.copies := rfl
@[simp] theorem Dev.setLg_nextFrame (k : Nat) (x : LgCtx) : (d.setLg k x).nextFrame = d.nextFrame := rfl
@[simp] theorem Dev.setLg_nextCopy (k : Nat) (x : LgCtx) : (d.setLg k x).nextCopy = d.nextCopy := rfl
@[simp] theorem Dev.setLg_fresh (k : Nat) (x : LgCtx) : (d.setLg k x).fresh = d.fresh := rfl
@[simp] theorem Dev.setLg_out (k : Nat) (x : LgCtx) : (d.setLg k x).out = d.out := rfl

/-! ### setBufReqs -/

@[simp] theorem Dev.setBufReqs_mer (f : Tbl BufReq → Tbl BufReq) : (d.setBufReqs f).mer = d.mer := rfl
@[simp] theorem Dev.setBufReqs_log (f : Tbl BufReq → Tbl BufReq) : (d.setBufReqs f).log = d.log := rfl
@[simp] theorem Dev.setBufReqs_pca (f : Tbl BufReq → Tbl BufReq) : (d.setBufReqs f).pca = d.pca := rfl
@[simp] theorem Dev.setBufReqs_cls (f : Tbl BufReq → Tbl BufReq) : (d.setBufReqs f).cls = d.cls := rfl
@[simp] theorem Dev.setBufReqs_tbl (f : Tbl BufReq → Tbl BufReq) : (d.setBufReqs f).tbl = d.tbl := rfl
@[simp] theorem Dev.setBufReqs_vsw (f : Tbl BufReq → Tbl BufReq) : (d.setBufReqs f).vsw = d.vsw := rfl
@[simp] theorem Dev.setBufReqs_cip (f : Tbl BufReq → Tbl BufReq) : (d.setBufReqs f).cip = d.cip := rfl
@[simp] theorem Dev.setBufReqs_tm (f : Tbl BufReq → Tbl BufReq) : (d.setBufReqs f).tm = d.tm := rfl
@[simp] theorem Dev.setBufReqs_bpm (f : Tbl BufReq → Tbl BufReq) : (d.setBufReqs f).bpm = { d.bpm with reqs := f d.bpm.reqs } := rfl
@[simp] theorem Dev.setBufReqs_dma (f : Tbl BufReq → Tbl BufReq) : (d.setBufReqs f).dma = d.dma := rfl
@[simp] theorem Dev.setBufReqs_sto (f : Tbl BufReq → Tbl BufReq) : (d.setBufReqs f).sto = d.sto := rfl
@[simp] theorem Dev.setBufReqs_hif (f : Tbl BufReq → Tbl BufReq) : (d.setBufReqs f).hif = d.hif := rfl
@[simp] theorem Dev.setBufReqs_fnc (f : Tbl BufReq → Tbl BufReq) : (d.setBufReqs f).fnc = d.fnc := rfl
@[simp] theorem Dev.setBufReqs_mbx (f : Tbl BufReq → Tbl BufReq) : (d.setBufReqs f).mbx = d.mbx := rfl
@[simp] theorem Dev.setBufReqs_vcl (f : Tbl BufReq → Tbl BufReq) : (d.setBufReqs f).vcl = d.vcl := rfl
@[simp] theorem Dev.setBufReqs_prt (f : Tbl BufReq → Tbl BufReq) : (d.setBufReqs f).prt = d.prt := rfl
@[simp] theorem Dev.setBufReqs_pwr (f : Tbl BufReq → Tbl BufReq) : (d.setBufReqs f).pwr = d.pwr := rfl
@[simp] theorem Dev.setBufReqs_sec (f : Tbl BufReq → Tbl BufReq) : (d.setBufReqs f).sec = d.sec := rfl
@[simp] theorem Dev.setBufReqs_dbg (f : Tbl BufReq → Tbl BufReq) : (d.setBufReqs f).dbg = d.dbg := rfl
@[simp] theorem Dev.setBufReqs_ecc (f : Tbl BufReq → Tbl BufReq) : (d.setBufReqs f).ecc = d.ecc := rfl
@[simp] theorem Dev.setBufReqs_regs (f : Tbl BufReq → Tbl BufReq) : (d.setBufReqs f).regs = d.regs := rfl
@[simp] theorem Dev.setBufReqs_latch (f : Tbl BufReq → Tbl BufReq) : (d.setBufReqs f).latch = d.latch := rfl
@[simp] theorem Dev.setBufReqs_frames (f : Tbl BufReq → Tbl BufReq) : (d.setBufReqs f).frames = d.frames := rfl
@[simp] theorem Dev.setBufReqs_copies (f : Tbl BufReq → Tbl BufReq) : (d.setBufReqs f).copies = d.copies := rfl
@[simp] theorem Dev.setBufReqs_nextFrame (f : Tbl BufReq → Tbl BufReq) : (d.setBufReqs f).nextFrame = d.nextFrame := rfl
@[simp] theorem Dev.setBufReqs_nextCopy (f : Tbl BufReq → Tbl BufReq) : (d.setBufReqs f).nextCopy = d.nextCopy := rfl
@[simp] theorem Dev.setBufReqs_fresh (f : Tbl BufReq → Tbl BufReq) : (d.setBufReqs f).fresh = d.fresh := rfl
@[simp] theorem Dev.setBufReqs_out (f : Tbl BufReq → Tbl BufReq) : (d.setBufReqs f).out = d.out := rfl

/-! ### setAq -/

@[simp] theorem Dev.setAq_mer (k : Nat) (q : Aq) : (d.setAq k q).mer = d.mer := rfl
@[simp] theorem Dev.setAq_log (k : Nat) (q : Aq) : (d.setAq k q).log = d.log := rfl
@[simp] theorem Dev.setAq_pca (k : Nat) (q : Aq) : (d.setAq k q).pca = d.pca := rfl
@[simp] theorem Dev.setAq_cls (k : Nat) (q : Aq) : (d.setAq k q).cls = d.cls := rfl
@[simp] theorem Dev.setAq_tbl (k : Nat) (q : Aq) : (d.setAq k q).tbl = d.tbl := rfl
@[simp] theorem Dev.setAq_vsw (k : Nat) (q : Aq) : (d.setAq k q).vsw = d.vsw := rfl
@[simp] theorem Dev.setAq_cip (k : Nat) (q : Aq) : (d.setAq k q).cip = d.cip := rfl
@[simp] theorem Dev.setAq_tm (k : Nat) (q : Aq) : (d.setAq k q).tm = d.tm := rfl
@[simp] theorem Dev.setAq_bpm (k : Nat) (q : Aq) : (d.setAq k q).bpm = d.bpm := rfl
@[simp] theorem Dev.setAq_dma (k : Nat) (q : Aq) : (d.setAq k q).dma = d.dma := rfl
@[simp] theorem Dev.setAq_sto (k : Nat) (q : Aq) : (d.setAq k q).sto = d.sto := rfl
@[simp] theorem Dev.setAq_hif (k : Nat) (q : Aq) : (d.setAq k q).hif = { d.hif with aqs := d.hif.aqs.putD {} k q } := rfl
@[simp] theorem Dev.setAq_fnc (k : Nat) (q : Aq) : (d.setAq k q).fnc = d.fnc := rfl
@[simp] theorem Dev.setAq_mbx (k : Nat) (q : Aq) : (d.setAq k q).mbx = d.mbx := rfl
@[simp] theorem Dev.setAq_vcl (k : Nat) (q : Aq) : (d.setAq k q).vcl = d.vcl := rfl
@[simp] theorem Dev.setAq_prt (k : Nat) (q : Aq) : (d.setAq k q).prt = d.prt := rfl
@[simp] theorem Dev.setAq_pwr (k : Nat) (q : Aq) : (d.setAq k q).pwr = d.pwr := rfl
@[simp] theorem Dev.setAq_sec (k : Nat) (q : Aq) : (d.setAq k q).sec = d.sec := rfl
@[simp] theorem Dev.setAq_dbg (k : Nat) (q : Aq) : (d.setAq k q).dbg = d.dbg := rfl
@[simp] theorem Dev.setAq_ecc (k : Nat) (q : Aq) : (d.setAq k q).ecc = d.ecc := rfl
@[simp] theorem Dev.setAq_regs (k : Nat) (q : Aq) : (d.setAq k q).regs = d.regs := rfl
@[simp] theorem Dev.setAq_latch (k : Nat) (q : Aq) : (d.setAq k q).latch = d.latch := rfl
@[simp] theorem Dev.setAq_frames (k : Nat) (q : Aq) : (d.setAq k q).frames = d.frames := rfl
@[simp] theorem Dev.setAq_copies (k : Nat) (q : Aq) : (d.setAq k q).copies = d.copies := rfl
@[simp] theorem Dev.setAq_nextFrame (k : Nat) (q : Aq) : (d.setAq k q).nextFrame = d.nextFrame := rfl
@[simp] theorem Dev.setAq_nextCopy (k : Nat) (q : Aq) : (d.setAq k q).nextCopy = d.nextCopy := rfl
@[simp] theorem Dev.setAq_fresh (k : Nat) (q : Aq) : (d.setAq k q).fresh = d.fresh := rfl
@[simp] theorem Dev.setAq_out (k : Nat) (q : Aq) : (d.setAq k q).out = d.out := rfl

/-! ### setFnCfg -/

@[simp] theorem Dev.setFnCfg_mer (k : Nat) (c : FnCfg) : (d.setFnCfg k c).mer = d.mer := rfl
@[simp] theorem Dev.setFnCfg_log (k : Nat) (c : FnCfg) : (d.setFnCfg k c).log = d.log := rfl
@[simp] theorem Dev.setFnCfg_pca (k : Nat) (c : FnCfg) : (d.setFnCfg k c).pca = d.pca := rfl
@[simp] theorem Dev.setFnCfg_cls (k : Nat) (c : FnCfg) : (d.setFnCfg k c).cls = d.cls := rfl
@[simp] theorem Dev.setFnCfg_tbl (k : Nat) (c : FnCfg) : (d.setFnCfg k c).tbl = d.tbl := rfl
@[simp] theorem Dev.setFnCfg_vsw (k : Nat) (c : FnCfg) : (d.setFnCfg k c).vsw = d.vsw := rfl
@[simp] theorem Dev.setFnCfg_cip (k : Nat) (c : FnCfg) : (d.setFnCfg k c).cip = d.cip := rfl
@[simp] theorem Dev.setFnCfg_tm (k : Nat) (c : FnCfg) : (d.setFnCfg k c).tm = d.tm := rfl
@[simp] theorem Dev.setFnCfg_bpm (k : Nat) (c : FnCfg) : (d.setFnCfg k c).bpm = d.bpm := rfl
@[simp] theorem Dev.setFnCfg_dma (k : Nat) (c : FnCfg) : (d.setFnCfg k c).dma = d.dma := rfl
@[simp] theorem Dev.setFnCfg_sto (k : Nat) (c : FnCfg) : (d.setFnCfg k c).sto = d.sto := rfl
@[simp] theorem Dev.setFnCfg_hif (k : Nat) (c : FnCfg) : (d.setFnCfg k c).hif = { d.hif with cfg := d.hif.cfg.putD {} k c } := rfl
@[simp] theorem Dev.setFnCfg_fnc (k : Nat) (c : FnCfg) : (d.setFnCfg k c).fnc = d.fnc := rfl
@[simp] theorem Dev.setFnCfg_mbx (k : Nat) (c : FnCfg) : (d.setFnCfg k c).mbx = d.mbx := rfl
@[simp] theorem Dev.setFnCfg_vcl (k : Nat) (c : FnCfg) : (d.setFnCfg k c).vcl = d.vcl := rfl
@[simp] theorem Dev.setFnCfg_prt (k : Nat) (c : FnCfg) : (d.setFnCfg k c).prt = d.prt := rfl
@[simp] theorem Dev.setFnCfg_pwr (k : Nat) (c : FnCfg) : (d.setFnCfg k c).pwr = d.pwr := rfl
@[simp] theorem Dev.setFnCfg_sec (k : Nat) (c : FnCfg) : (d.setFnCfg k c).sec = d.sec := rfl
@[simp] theorem Dev.setFnCfg_dbg (k : Nat) (c : FnCfg) : (d.setFnCfg k c).dbg = d.dbg := rfl
@[simp] theorem Dev.setFnCfg_ecc (k : Nat) (c : FnCfg) : (d.setFnCfg k c).ecc = d.ecc := rfl
@[simp] theorem Dev.setFnCfg_regs (k : Nat) (c : FnCfg) : (d.setFnCfg k c).regs = d.regs := rfl
@[simp] theorem Dev.setFnCfg_latch (k : Nat) (c : FnCfg) : (d.setFnCfg k c).latch = d.latch := rfl
@[simp] theorem Dev.setFnCfg_frames (k : Nat) (c : FnCfg) : (d.setFnCfg k c).frames = d.frames := rfl
@[simp] theorem Dev.setFnCfg_copies (k : Nat) (c : FnCfg) : (d.setFnCfg k c).copies = d.copies := rfl
@[simp] theorem Dev.setFnCfg_nextFrame (k : Nat) (c : FnCfg) : (d.setFnCfg k c).nextFrame = d.nextFrame := rfl
@[simp] theorem Dev.setFnCfg_nextCopy (k : Nat) (c : FnCfg) : (d.setFnCfg k c).nextCopy = d.nextCopy := rfl
@[simp] theorem Dev.setFnCfg_fresh (k : Nat) (c : FnCfg) : (d.setFnCfg k c).fresh = d.fresh := rfl
@[simp] theorem Dev.setFnCfg_out (k : Nat) (c : FnCfg) : (d.setFnCfg k c).out = d.out := rfl

/-! ### setHolding -/

@[simp] theorem Dev.setHolding_mer (l : List HeldPost) : (d.setHolding l).mer = d.mer := rfl
@[simp] theorem Dev.setHolding_log (l : List HeldPost) : (d.setHolding l).log = d.log := rfl
@[simp] theorem Dev.setHolding_pca (l : List HeldPost) : (d.setHolding l).pca = d.pca := rfl
@[simp] theorem Dev.setHolding_cls (l : List HeldPost) : (d.setHolding l).cls = d.cls := rfl
@[simp] theorem Dev.setHolding_tbl (l : List HeldPost) : (d.setHolding l).tbl = d.tbl := rfl
@[simp] theorem Dev.setHolding_vsw (l : List HeldPost) : (d.setHolding l).vsw = d.vsw := rfl
@[simp] theorem Dev.setHolding_cip (l : List HeldPost) : (d.setHolding l).cip = d.cip := rfl
@[simp] theorem Dev.setHolding_tm (l : List HeldPost) : (d.setHolding l).tm = d.tm := rfl
@[simp] theorem Dev.setHolding_bpm (l : List HeldPost) : (d.setHolding l).bpm = d.bpm := rfl
@[simp] theorem Dev.setHolding_dma (l : List HeldPost) : (d.setHolding l).dma = d.dma := rfl
@[simp] theorem Dev.setHolding_sto (l : List HeldPost) : (d.setHolding l).sto = d.sto := rfl
@[simp] theorem Dev.setHolding_hif (l : List HeldPost) : (d.setHolding l).hif = d.hif := rfl
@[simp] theorem Dev.setHolding_fnc (l : List HeldPost) : (d.setHolding l).fnc = d.fnc := rfl
@[simp] theorem Dev.setHolding_mbx (l : List HeldPost) : (d.setHolding l).mbx = { d.mbx with holding := l } := rfl
@[simp] theorem Dev.setHolding_vcl (l : List HeldPost) : (d.setHolding l).vcl = d.vcl := rfl
@[simp] theorem Dev.setHolding_prt (l : List HeldPost) : (d.setHolding l).prt = d.prt := rfl
@[simp] theorem Dev.setHolding_pwr (l : List HeldPost) : (d.setHolding l).pwr = d.pwr := rfl
@[simp] theorem Dev.setHolding_sec (l : List HeldPost) : (d.setHolding l).sec = d.sec := rfl
@[simp] theorem Dev.setHolding_dbg (l : List HeldPost) : (d.setHolding l).dbg = d.dbg := rfl
@[simp] theorem Dev.setHolding_ecc (l : List HeldPost) : (d.setHolding l).ecc = d.ecc := rfl
@[simp] theorem Dev.setHolding_regs (l : List HeldPost) : (d.setHolding l).regs = d.regs := rfl
@[simp] theorem Dev.setHolding_latch (l : List HeldPost) : (d.setHolding l).latch = d.latch := rfl
@[simp] theorem Dev.setHolding_frames (l : List HeldPost) : (d.setHolding l).frames = d.frames := rfl
@[simp] theorem Dev.setHolding_copies (l : List HeldPost) : (d.setHolding l).copies = d.copies := rfl
@[simp] theorem Dev.setHolding_nextFrame (l : List HeldPost) : (d.setHolding l).nextFrame = d.nextFrame := rfl
@[simp] theorem Dev.setHolding_nextCopy (l : List HeldPost) : (d.setHolding l).nextCopy = d.nextCopy := rfl
@[simp] theorem Dev.setHolding_fresh (l : List HeldPost) : (d.setHolding l).fresh = d.fresh := rfl
@[simp] theorem Dev.setHolding_out (l : List HeldPost) : (d.setHolding l).out = d.out := rfl

/-! ### updConn -/

@[simp] theorem Dev.updConn_mer (n : Nat) (f : Conn → Conn) : (d.updConn n f).mer = d.mer := rfl
@[simp] theorem Dev.updConn_log (n : Nat) (f : Conn → Conn) : (d.updConn n f).log = d.log := rfl
@[simp] theorem Dev.updConn_pca (n : Nat) (f : Conn → Conn) : (d.updConn n f).pca = d.pca := rfl
@[simp] theorem Dev.updConn_cls (n : Nat) (f : Conn → Conn) : (d.updConn n f).cls = d.cls := rfl
@[simp] theorem Dev.updConn_tbl (n : Nat) (f : Conn → Conn) : (d.updConn n f).tbl = d.tbl := rfl
@[simp] theorem Dev.updConn_vsw (n : Nat) (f : Conn → Conn) : (d.updConn n f).vsw = d.vsw := rfl
@[simp] theorem Dev.updConn_cip (n : Nat) (f : Conn → Conn) : (d.updConn n f).cip = d.cip := rfl
@[simp] theorem Dev.updConn_tm (n : Nat) (f : Conn → Conn) : (d.updConn n f).tm = d.tm := rfl
@[simp] theorem Dev.updConn_bpm (n : Nat) (f : Conn → Conn) : (d.updConn n f).bpm = d.bpm := rfl
@[simp] theorem Dev.updConn_dma (n : Nat) (f : Conn → Conn) : (d.updConn n f).dma = d.dma := rfl
@[simp] theorem Dev.updConn_sto (n : Nat) (f : Conn → Conn) : (d.updConn n f).sto = { d.sto with conns := d.sto.conns.modify n f } := rfl
@[simp] theorem Dev.updConn_hif (n : Nat) (f : Conn → Conn) : (d.updConn n f).hif = d.hif := rfl
@[simp] theorem Dev.updConn_fnc (n : Nat) (f : Conn → Conn) : (d.updConn n f).fnc = d.fnc := rfl
@[simp] theorem Dev.updConn_mbx (n : Nat) (f : Conn → Conn) : (d.updConn n f).mbx = d.mbx := rfl
@[simp] theorem Dev.updConn_vcl (n : Nat) (f : Conn → Conn) : (d.updConn n f).vcl = d.vcl := rfl
@[simp] theorem Dev.updConn_prt (n : Nat) (f : Conn → Conn) : (d.updConn n f).prt = d.prt := rfl
@[simp] theorem Dev.updConn_pwr (n : Nat) (f : Conn → Conn) : (d.updConn n f).pwr = d.pwr := rfl
@[simp] theorem Dev.updConn_sec (n : Nat) (f : Conn → Conn) : (d.updConn n f).sec = d.sec := rfl
@[simp] theorem Dev.updConn_dbg (n : Nat) (f : Conn → Conn) : (d.updConn n f).dbg = d.dbg := rfl
@[simp] theorem Dev.updConn_ecc (n : Nat) (f : Conn → Conn) : (d.updConn n f).ecc = d.ecc := rfl
@[simp] theorem Dev.updConn_regs (n : Nat) (f : Conn → Conn) : (d.updConn n f).regs = d.regs := rfl
@[simp] theorem Dev.updConn_latch (n : Nat) (f : Conn → Conn) : (d.updConn n f).latch = d.latch := rfl
@[simp] theorem Dev.updConn_frames (n : Nat) (f : Conn → Conn) : (d.updConn n f).frames = d.frames := rfl
@[simp] theorem Dev.updConn_copies (n : Nat) (f : Conn → Conn) : (d.updConn n f).copies = d.copies := rfl
@[simp] theorem Dev.updConn_nextFrame (n : Nat) (f : Conn → Conn) : (d.updConn n f).nextFrame = d.nextFrame := rfl
@[simp] theorem Dev.updConn_nextCopy (n : Nat) (f : Conn → Conn) : (d.updConn n f).nextCopy = d.nextCopy := rfl
@[simp] theorem Dev.updConn_fresh (n : Nat) (f : Conn → Conn) : (d.updConn n f).fresh = d.fresh := rfl
@[simp] theorem Dev.updConn_out (n : Nat) (f : Conn → Conn) : (d.updConn n f).out = d.out := rfl

/-! ### updFrame -/

@[simp] theorem Dev.updFrame_mer (n : Nat) (f : Frame → Frame) : (d.updFrame n f).mer = d.mer := rfl
@[simp] theorem Dev.updFrame_log (n : Nat) (f : Frame → Frame) : (d.updFrame n f).log = d.log := rfl
@[simp] theorem Dev.updFrame_pca (n : Nat) (f : Frame → Frame) : (d.updFrame n f).pca = d.pca := rfl
@[simp] theorem Dev.updFrame_cls (n : Nat) (f : Frame → Frame) : (d.updFrame n f).cls = d.cls := rfl
@[simp] theorem Dev.updFrame_tbl (n : Nat) (f : Frame → Frame) : (d.updFrame n f).tbl = d.tbl := rfl
@[simp] theorem Dev.updFrame_vsw (n : Nat) (f : Frame → Frame) : (d.updFrame n f).vsw = d.vsw := rfl
@[simp] theorem Dev.updFrame_cip (n : Nat) (f : Frame → Frame) : (d.updFrame n f).cip = d.cip := rfl
@[simp] theorem Dev.updFrame_tm (n : Nat) (f : Frame → Frame) : (d.updFrame n f).tm = d.tm := rfl
@[simp] theorem Dev.updFrame_bpm (n : Nat) (f : Frame → Frame) : (d.updFrame n f).bpm = d.bpm := rfl
@[simp] theorem Dev.updFrame_dma (n : Nat) (f : Frame → Frame) : (d.updFrame n f).dma = d.dma := rfl
@[simp] theorem Dev.updFrame_sto (n : Nat) (f : Frame → Frame) : (d.updFrame n f).sto = d.sto := rfl
@[simp] theorem Dev.updFrame_hif (n : Nat) (f : Frame → Frame) : (d.updFrame n f).hif = d.hif := rfl
@[simp] theorem Dev.updFrame_fnc (n : Nat) (f : Frame → Frame) : (d.updFrame n f).fnc = d.fnc := rfl
@[simp] theorem Dev.updFrame_mbx (n : Nat) (f : Frame → Frame) : (d.updFrame n f).mbx = d.mbx := rfl
@[simp] theorem Dev.updFrame_vcl (n : Nat) (f : Frame → Frame) : (d.updFrame n f).vcl = d.vcl := rfl
@[simp] theorem Dev.updFrame_prt (n : Nat) (f : Frame → Frame) : (d.updFrame n f).prt = d.prt := rfl
@[simp] theorem Dev.updFrame_pwr (n : Nat) (f : Frame → Frame) : (d.updFrame n f).pwr = d.pwr := rfl
@[simp] theorem Dev.updFrame_sec (n : Nat) (f : Frame → Frame) : (d.updFrame n f).sec = d.sec := rfl
@[simp] theorem Dev.updFrame_dbg (n : Nat) (f : Frame → Frame) : (d.updFrame n f).dbg = d.dbg := rfl
@[simp] theorem Dev.updFrame_ecc (n : Nat) (f : Frame → Frame) : (d.updFrame n f).ecc = d.ecc := rfl
@[simp] theorem Dev.updFrame_regs (n : Nat) (f : Frame → Frame) : (d.updFrame n f).regs = d.regs := rfl
@[simp] theorem Dev.updFrame_latch (n : Nat) (f : Frame → Frame) : (d.updFrame n f).latch = d.latch := rfl
@[simp] theorem Dev.updFrame_frames (n : Nat) (f : Frame → Frame) : (d.updFrame n f).frames = d.frames.modify n f := rfl
@[simp] theorem Dev.updFrame_copies (n : Nat) (f : Frame → Frame) : (d.updFrame n f).copies = d.copies := rfl
@[simp] theorem Dev.updFrame_nextFrame (n : Nat) (f : Frame → Frame) : (d.updFrame n f).nextFrame = d.nextFrame := rfl
@[simp] theorem Dev.updFrame_nextCopy (n : Nat) (f : Frame → Frame) : (d.updFrame n f).nextCopy = d.nextCopy := rfl
@[simp] theorem Dev.updFrame_fresh (n : Nat) (f : Frame → Frame) : (d.updFrame n f).fresh = d.fresh := rfl
@[simp] theorem Dev.updFrame_out (n : Nat) (f : Frame → Frame) : (d.updFrame n f).out = d.out := rfl

/-! ### updCopy -/

@[simp] theorem Dev.updCopy_mer (n : Nat) (f : Copy → Copy) : (d.updCopy n f).mer = d.mer := rfl
@[simp] theorem Dev.updCopy_log (n : Nat) (f : Copy → Copy) : (d.updCopy n f).log = d.log := rfl
@[simp] theorem Dev.updCopy_pca (n : Nat) (f : Copy → Copy) : (d.updCopy n f).pca = d.pca := rfl
@[simp] theorem Dev.updCopy_cls (n : Nat) (f : Copy → Copy) : (d.updCopy n f).cls = d.cls := rfl
@[simp] theorem Dev.updCopy_tbl (n : Nat) (f : Copy → Copy) : (d.updCopy n f).tbl = d.tbl := rfl
@[simp] theorem Dev.updCopy_vsw (n : Nat) (f : Copy → Copy) : (d.updCopy n f).vsw = d.vsw := rfl
@[simp] theorem Dev.updCopy_cip (n : Nat) (f : Copy → Copy) : (d.updCopy n f).cip = d.cip := rfl
@[simp] theorem Dev.updCopy_tm (n : Nat) (f : Copy → Copy) : (d.updCopy n f).tm = d.tm := rfl
@[simp] theorem Dev.updCopy_bpm (n : Nat) (f : Copy → Copy) : (d.updCopy n f).bpm = d.bpm := rfl
@[simp] theorem Dev.updCopy_dma (n : Nat) (f : Copy → Copy) : (d.updCopy n f).dma = d.dma := rfl
@[simp] theorem Dev.updCopy_sto (n : Nat) (f : Copy → Copy) : (d.updCopy n f).sto = d.sto := rfl
@[simp] theorem Dev.updCopy_hif (n : Nat) (f : Copy → Copy) : (d.updCopy n f).hif = d.hif := rfl
@[simp] theorem Dev.updCopy_fnc (n : Nat) (f : Copy → Copy) : (d.updCopy n f).fnc = d.fnc := rfl
@[simp] theorem Dev.updCopy_mbx (n : Nat) (f : Copy → Copy) : (d.updCopy n f).mbx = d.mbx := rfl
@[simp] theorem Dev.updCopy_vcl (n : Nat) (f : Copy → Copy) : (d.updCopy n f).vcl = d.vcl := rfl
@[simp] theorem Dev.updCopy_prt (n : Nat) (f : Copy → Copy) : (d.updCopy n f).prt = d.prt := rfl
@[simp] theorem Dev.updCopy_pwr (n : Nat) (f : Copy → Copy) : (d.updCopy n f).pwr = d.pwr := rfl
@[simp] theorem Dev.updCopy_sec (n : Nat) (f : Copy → Copy) : (d.updCopy n f).sec = d.sec := rfl
@[simp] theorem Dev.updCopy_dbg (n : Nat) (f : Copy → Copy) : (d.updCopy n f).dbg = d.dbg := rfl
@[simp] theorem Dev.updCopy_ecc (n : Nat) (f : Copy → Copy) : (d.updCopy n f).ecc = d.ecc := rfl
@[simp] theorem Dev.updCopy_regs (n : Nat) (f : Copy → Copy) : (d.updCopy n f).regs = d.regs := rfl
@[simp] theorem Dev.updCopy_latch (n : Nat) (f : Copy → Copy) : (d.updCopy n f).latch = d.latch := rfl
@[simp] theorem Dev.updCopy_frames (n : Nat) (f : Copy → Copy) : (d.updCopy n f).frames = d.frames := rfl
@[simp] theorem Dev.updCopy_copies (n : Nat) (f : Copy → Copy) : (d.updCopy n f).copies = d.copies.modify n f := rfl
@[simp] theorem Dev.updCopy_nextFrame (n : Nat) (f : Copy → Copy) : (d.updCopy n f).nextFrame = d.nextFrame := rfl
@[simp] theorem Dev.updCopy_nextCopy (n : Nat) (f : Copy → Copy) : (d.updCopy n f).nextCopy = d.nextCopy := rfl
@[simp] theorem Dev.updCopy_fresh (n : Nat) (f : Copy → Copy) : (d.updCopy n f).fresh = d.fresh := rfl
@[simp] theorem Dev.updCopy_out (n : Nat) (f : Copy → Copy) : (d.updCopy n f).out = d.out := rfl

/-! ### updCmd -/

@[simp] theorem Dev.updCmd_mer (n : Nat) (f : Accepted → Accepted) : (d.updCmd n f).mer = d.mer := rfl
@[simp] theorem Dev.updCmd_log (n : Nat) (f : Accepted → Accepted) : (d.updCmd n f).log = d.log := rfl
@[simp] theorem Dev.updCmd_pca (n : Nat) (f : Accepted → Accepted) : (d.updCmd n f).pca = d.pca := rfl
@[simp] theorem Dev.updCmd_cls (n : Nat) (f : Accepted → Accepted) : (d.updCmd n f).cls = d.cls := rfl
@[simp] theorem Dev.updCmd_tbl (n : Nat) (f : Accepted → Accepted) : (d.updCmd n f).tbl = d.tbl := rfl
@[simp] theorem Dev.updCmd_vsw (n : Nat) (f : Accepted → Accepted) : (d.updCmd n f).vsw = d.vsw := rfl
@[simp] theorem Dev.updCmd_cip (n : Nat) (f : Accepted → Accepted) : (d.updCmd n f).cip = d.cip := rfl
@[simp] theorem Dev.updCmd_tm (n : Nat) (f : Accepted → Accepted) : (d.updCmd n f).tm = d.tm := rfl
@[simp] theorem Dev.updCmd_bpm (n : Nat) (f : Accepted → Accepted) : (d.updCmd n f).bpm = d.bpm := rfl
@[simp] theorem Dev.updCmd_dma (n : Nat) (f : Accepted → Accepted) : (d.updCmd n f).dma = d.dma := rfl
@[simp] theorem Dev.updCmd_sto (n : Nat) (f : Accepted → Accepted) : (d.updCmd n f).sto = d.sto := rfl
@[simp] theorem Dev.updCmd_hif (n : Nat) (f : Accepted → Accepted) : (d.updCmd n f).hif = d.hif := rfl
@[simp] theorem Dev.updCmd_fnc (n : Nat) (f : Accepted → Accepted) : (d.updCmd n f).fnc = d.fnc := rfl
@[simp] theorem Dev.updCmd_mbx (n : Nat) (f : Accepted → Accepted) : (d.updCmd n f).mbx = d.mbx := rfl
@[simp] theorem Dev.updCmd_vcl (n : Nat) (f : Accepted → Accepted) : (d.updCmd n f).vcl = { d.vcl with cmds := d.vcl.cmds.modify n f } := rfl
@[simp] theorem Dev.updCmd_prt (n : Nat) (f : Accepted → Accepted) : (d.updCmd n f).prt = d.prt := rfl
@[simp] theorem Dev.updCmd_pwr (n : Nat) (f : Accepted → Accepted) : (d.updCmd n f).pwr = d.pwr := rfl
@[simp] theorem Dev.updCmd_sec (n : Nat) (f : Accepted → Accepted) : (d.updCmd n f).sec = d.sec := rfl
@[simp] theorem Dev.updCmd_dbg (n : Nat) (f : Accepted → Accepted) : (d.updCmd n f).dbg = d.dbg := rfl
@[simp] theorem Dev.updCmd_ecc (n : Nat) (f : Accepted → Accepted) : (d.updCmd n f).ecc = d.ecc := rfl
@[simp] theorem Dev.updCmd_regs (n : Nat) (f : Accepted → Accepted) : (d.updCmd n f).regs = d.regs := rfl
@[simp] theorem Dev.updCmd_latch (n : Nat) (f : Accepted → Accepted) : (d.updCmd n f).latch = d.latch := rfl
@[simp] theorem Dev.updCmd_frames (n : Nat) (f : Accepted → Accepted) : (d.updCmd n f).frames = d.frames := rfl
@[simp] theorem Dev.updCmd_copies (n : Nat) (f : Accepted → Accepted) : (d.updCmd n f).copies = d.copies := rfl
@[simp] theorem Dev.updCmd_nextFrame (n : Nat) (f : Accepted → Accepted) : (d.updCmd n f).nextFrame = d.nextFrame := rfl
@[simp] theorem Dev.updCmd_nextCopy (n : Nat) (f : Accepted → Accepted) : (d.updCmd n f).nextCopy = d.nextCopy := rfl
@[simp] theorem Dev.updCmd_fresh (n : Nat) (f : Accepted → Accepted) : (d.updCmd n f).fresh = d.fresh := rfl
@[simp] theorem Dev.updCmd_out (n : Nat) (f : Accepted → Accepted) : (d.updCmd n f).out = d.out := rfl

/-! ### The queue of commands -/

@[simp] theorem State.onAlways_eq (s : State) (f : Dev → Dev) : s.onAlways f = .next { s with toDev := f s.toDev } := rfl

theorem State.on_out {s : State} (h : s.toDev.inReset = false) (f : Dev → Dev) : s.on f = .next { s with toDev := f s.toDev } := by
  simp [State.on, h]

theorem State.on_held {s : State} (h : s.toDev.inReset = true) (f : Dev → Dev) : s.on f = .next s := by
  simp [State.on, h]

/-- Whatever an operation does, its row answers a next state and leaves the queue as it is. -/
theorem State.on_next (s : State) (f : Dev → Dev) : ∃ t : State, s.on f = .next t ∧ t.pending = s.pending := ⟨_, rfl, rfl⟩

theorem State.onAlways_next (s : State) (f : Dev → Dev) : ∃ t : State, s.onAlways f = .next t ∧ t.pending = s.pending := ⟨_, rfl, rfl⟩

end Sys2Proof.Machine
end

