-- ==== Sys2Proof/Laws/Tbl.lean ====
section
/-!
SUPPORT. Sparse tables: what is read after a write, and that every operation keeps the canonical form.
-/
namespace Sys2Proof

variable {α β : Type}

/-! ## Reading after writing -/

theorem Tbl.lookCells_putCells (k j : Nat) (v : α) (l : List (Nat × α)) :
    Tbl.lookCells j (Tbl.putCells k v l) = if j = k then some v else Tbl.lookCells j l := by
  induction l with
  | nil =>
    by_cases h : k = j
    · simp [Tbl.putCells, Tbl.lookCells, h]
    · simp [Tbl.putCells, Tbl.lookCells, h, Ne.symm h]
  | cons c rest ih =>
    obtain ⟨k', v'⟩ := c
    unfold Tbl.putCells
    split
    · by_cases h : k = j
      · simp [Tbl.lookCells, h]
      · simp [Tbl.lookCells, h, Ne.symm h]
    · split
      · rename_i h1 h2
        subst h2
        by_cases h : k' = j
        · simp [Tbl.lookCells, h]
        · simp [Tbl.lookCells, h, Ne.symm h]
      · rename_i h1 h2
        by_cases h : k' = j
        · subst h
          simp [Tbl.lookCells, h2]
        · simp [Tbl.lookCells, h, ih]

@[simp] theorem Tbl.look_put (t : Tbl α) (k : Nat) (v : α) : (t.put k v).look? k = some v := by
  simp [Tbl.look?, Tbl.put, Tbl.lookCells_putCells]

theorem Tbl.look_put_ne (t : Tbl α) {k j : Nat} (v : α) (h : j ≠ k) : (t.put k v).look? j = t.look? j := by
  simp [Tbl.look?, Tbl.put, Tbl.lookCells_putCells, h]

theorem Tbl.lookCells_filter (k j : Nat) (l : List (Nat × α)) :
    Tbl.lookCells j (l.filter fun c => !(c.1 == k)) = if j = k then none else Tbl.lookCells j l := by
  induction l with
  | nil => simp [Tbl.lookCells]
  | cons c rest ih =>
    obtain ⟨k', v'⟩ := c
    by_cases h : k' = k
    · subst h
      by_cases h2 : k' = j
      · subst h2; simp [ih]
      · simp [ih, Tbl.lookCells, h2]
    · by_cases h2 : k' = j
      · subst h2; simp [Tbl.lookCells, h]
      · simp [Tbl.lookCells, h, h2, ih]

@[simp] theorem Tbl.look_erase (t : Tbl α) (k : Nat) : (t.erase k).look? k = none := by
  simp [Tbl.look?, Tbl.erase, Tbl.lookCells_filter]

theorem Tbl.look_erase_ne (t : Tbl α) {k j : Nat} (h : j ≠ k) : (t.erase k).look? j = t.look? j := by
  simp [Tbl.look?, Tbl.erase, Tbl.lookCells_filter, h]

@[simp] theorem Tbl.getD_put (t : Tbl α) (k : Nat) (v d : α) : (t.put k v).getD k d = v := by simp [Tbl.getD]

theorem Tbl.getD_put_ne (t : Tbl α) {k j : Nat} (v d : α) (h : j ≠ k) : (t.put k v).getD j d = t.getD j d := by
  simp [Tbl.getD, Tbl.look_put_ne t v h]

@[simp] theorem Tbl.getD_putD [DecidableEq α] (t : Tbl α) (d : α) (k : Nat) (v : α) : (t.putD d k v).getD k d = v := by
  unfold Tbl.putD
  split
  · next h => simp [Tbl.getD, h]
  · simp [Tbl.getD]

theorem Tbl.getD_putD_ne [DecidableEq α] (t : Tbl α) (d e : α) {k j : Nat} (v : α) (h : j ≠ k) :
    (t.putD d k v).getD j e = t.getD j e := by
  unfold Tbl.putD
  split <;> simp [Tbl.getD, Tbl.look_put_ne, Tbl.look_erase_ne, h]

/-! ## The canonical form -/

/-- Keys of a list of cells are all above `k`. -/
def Tbl.above (k : Nat) (l : List (Nat × α)) : Prop := ∀ c ∈ l, k < c.1

theorem Tbl.rising_cons {c : Nat × α} {l : List (Nat × α)} :
    Tbl.rising (c :: l) = true ↔ Tbl.above c.1 l ∧ Tbl.rising l = true := by
  induction l generalizing c with
  | nil => simp [Tbl.rising, Tbl.above]
  | cons e rest ih =>
    simp only [Tbl.rising, Bool.and_eq_true, decide_eq_true_eq]
    constructor
    · rintro ⟨h1, h2⟩
      refine ⟨?_, h2⟩
      intro x hx
      rcases List.mem_cons.1 hx with rfl | hx
      · exact h1
      · exact Nat.lt_trans h1 ((ih.1 h2).1 x hx)
    · rintro ⟨h1, h2⟩
      exact ⟨h1 e (List.mem_cons_self ..), h2⟩

theorem Tbl.mem_putCells {k : Nat} {v : α} {l : List (Nat × α)} {c : Nat × α} (h : c ∈ Tbl.putCells k v l) :
    c = (k, v) ∨ c ∈ l := by
  induction l with
  | nil => simpa [Tbl.putCells] using h
  | cons e rest ih =>
    obtain ⟨k', v'⟩ := e
    unfold Tbl.putCells at h
    split at h
    · simpa using h
    · split at h
      · rcases List.mem_cons.1 h with h | h
        · exact .inl h
        · exact .inr (List.mem_cons_of_mem _ h)
      · rcases List.mem_cons.1 h with h | h
        · exact .inr (h ▸ List.mem_cons_self ..)
        · rcases ih h with h | h
          · exact .inl h
          · exact .inr (List.mem_cons_of_mem _ h)

theorem Tbl.rising_putCells {k : Nat} {v : α} {l : List (Nat × α)} (h : Tbl.rising l = true) :
    Tbl.rising (Tbl.putCells k v l) = true := by
  induction l with
  | nil => rfl
  | cons e rest ih =>
    obtain ⟨k', v'⟩ := e
    have hr := Tbl.rising_cons.1 h
    unfold Tbl.putCells
    split
    · next hk =>
      refine Tbl.rising_cons.2 ⟨?_, h⟩
      intro c hc
      rcases List.mem_cons.1 hc with rfl | hc
      · exact hk
      · exact Nat.lt_trans hk (hr.1 c hc)
    · split
      · next hk =>
        subst hk
        exact Tbl.rising_cons.2 hr
      · next h1 h2 =>
        refine Tbl.rising_cons.2 ⟨?_, ih hr.2⟩
        intro c hc
        rcases Tbl.mem_putCells hc with rfl | hc
        · show k' < k
          omega
        · exact hr.1 c hc

theorem Tbl.rising_filter {p : Nat × α → Bool} {l : List (Nat × α)} (h : Tbl.rising l = true) :
    Tbl.rising (l.filter p) = true := by
  induction l with
  | nil => rfl
  | cons e rest ih =>
    have hr := Tbl.rising_cons.1 h
    rw [List.filter_cons]
    split
    · exact Tbl.rising_cons.2 ⟨fun c hc => hr.1 c ((List.mem_filter.1 hc).1), ih hr.2⟩
    · exact ih hr.2

/-- Writing through `putD` keeps the canonical form. -/
theorem Tbl.wf_putD [DecidableEq α] {t : Tbl α} {d : α} {k : Nat} {v : α} (h : t.wf d = true) : (t.putD d k v).wf d = true := by
  simp only [Tbl.wf, Bool.and_eq_true, List.all_eq_true, decide_eq_true_eq] at h ⊢
  unfold Tbl.putD
  split
  · exact ⟨Tbl.rising_filter h.1, fun c hc => h.2 c ((List.mem_filter.1 hc).1)⟩
  · next hv =>
    refine ⟨Tbl.rising_putCells h.1, fun c hc => ?_⟩
    rcases Tbl.mem_putCells hc with rfl | hc
    · exact hv
    · exact h.2 c hc

theorem Tbl.rising_put {t : Tbl α} {k : Nat} {v : α} (h : Tbl.rising t.cells = true) : Tbl.rising (t.put k v).cells = true :=
  Tbl.rising_putCells h

theorem Tbl.rising_erase {t : Tbl α} {k : Nat} (h : Tbl.rising t.cells = true) : Tbl.rising (t.erase k).cells = true :=
  Tbl.rising_filter h

end Sys2Proof
end

