-- ==== Sys2Proof/Laws/Registers.lean ====
section
/-!
SUPPORT. Register words: a word written is the word read, and no other word changes.
-/
namespace Sys2Proof.Machine

/-- A word reads as it was written. -/
@[simp] theorem Dev.rd_wr (d : Dev) (r : Reg) (i w : Nat) (v : Word) : (d.wr r i w v).rd r i w = v := by
  simp [Dev.rd, Dev.wr]

/-- A write leaves every word with another key as it was. -/
theorem Dev.rd_wr_ne (d : Dev) {r r' : Reg} {i i' w w' : Nat} (v : Word) (h : regKey r' i' w' ≠ regKey r i w) :
    (d.wr r i w v).rd r' i' w' = d.rd r' i' w' := by
  simp [Dev.rd, Dev.wr, Tbl.getD_putD_ne _ _ _ _ h]

/-- Setting a field writes its word and nothing else. -/
theorem Dev.set_eq (d : Dev) (f : Field) (i v : Nat) : d.set f i v = d.wr f.reg i f.word (setBits (d.rd f.reg i f.word) f.hi f.lo v) := rfl

/-- A counter that is not full counts one more. -/
theorem Dev.rd_bump (d : Dev) (r : Reg) (i w : Nat) :
    (d.bump r i w).rd r i w = BitVec.ofNat 32 (min ((d.rd r i w).toNat + 1) 0xFFFFFFFF) := by
  simp [Dev.bump, Dev.bumpBy]

end Sys2Proof.Machine
end

