-- ==== Sys2Proof/Laws/Access.lean ====
section
/-!
SUPPORT. What a register access that reaches its register does, said once: the write and the read of `Safety.Reaches`.
-/
namespace Sys2Proof.Machine

open Sys2Proof.Safety

/-- A write that reaches an ordinary register. -/
theorem regWrite_reaches {s : State} {req : Requester} {loc l : Loc} {a : RegAt} {v : Word} {f : Dev → Dev}
    (h : Reaches s.toDev req loc l a)
    (hr : a.reg ≠ .DBG_RESET_CTRL ∧ a.reg ≠ .DBG_THREAD_GREG ∧ a.reg ≠ .DBG_THREAD_PC)
    (hf : (stored (s.toDev.noteJtag req) a v).afterWrite a ((s.toDev.noteJtag req).rd a.reg a.item a.word) v =
      f (stored (s.toDev.noteJtag req) a v)) :
    withDev s (s.toDev.regWrite req loc v) = wrote s req l a v f := by
  refine congrArg (withDev s) ?_
  have hl : ∀ f o, l ≠ .msix f o := by
    intro f o hc
    have := h.at_
    subst hc
    simp only [Dev.spotAt] at this
    repeat' split at this
    all_goals exact Spot.noConfusion this
  have hw : (s.toDev.noteJtag req).writeReg a l v = (ignored (s.toDev.noteJtag req) a v,
      if ignored (s.toDev.noteJtag req) a v then (f (stored (s.toDev.noteJtag req) a v)).flagIgnored a l
      else f (stored (s.toDev.noteJtag req) a v)) := by
    rw [← hf]
    unfold Dev.writeReg ignored stored
    simp only [hr.1, hr.2.1, hr.2.2, decide_false, Bool.false_and, Bool.or_self, Bool.false_eq_true, if_false]
    split <;> simp_all
  simp only [Dev.regWrite, h.seen, h.may, if_true, answered, Dev.writeAt, h.at_, h.open_, h.awake, h.there, if_false,
    Bool.false_eq_true, hw, reduceCtorEq]

/-- A read that reaches a register. -/
theorem regRead_reaches {s : State} {req : Requester} {loc l : Loc} {a : RegAt} {v : Word} {e : Dev}
    (h : Reaches s.toDev req loc l a) (hr : (s.toDev.noteJtag req).readReg a = (v, e)) :
    withDev s (s.toDev.regRead req loc) = readOut s req v e := by
  refine congrArg (withDev s) ?_
  simp only [Dev.regRead, h.seen, h.may, if_true, answered, Dev.readAt, h.at_, h.open_, h.awake, h.there, if_false,
    Bool.false_eq_true, hr, reduceCtorEq]

/-- The row whose meaning is such a write. -/
theorem exec_wrote {s : State} {i : Instr} {req : Requester} {loc l : Loc} {a : RegAt} {v : Word} {f g : Dev → Dev}
    (h : Reaches s.toDev req loc l a) (hi : exec i s = s.on g) (hg : g s.toDev = s.toDev.regWrite req loc v)
    (hr : a.reg ≠ .DBG_RESET_CTRL ∧ a.reg ≠ .DBG_THREAD_GREG ∧ a.reg ≠ .DBG_THREAD_PC)
    (hf : (stored (s.toDev.noteJtag req) a v).afterWrite a ((s.toDev.noteJtag req).rd a.reg a.item a.word) v =
      f (stored (s.toDev.noteJtag req) a v)) :
    exec i s = .next (wrote s req l a v f) := by
  rw [hi, State.on_out h.out, hg, ← regWrite_reaches h hr hf]
  rfl

/-- The row whose meaning is such a read. -/
theorem exec_read {s : State} {i : Instr} {req : Requester} {loc l : Loc} {a : RegAt} {v : Word} {e : Dev} {g : Dev → Dev}
    (h : Reaches s.toDev req loc l a) (hi : exec i s = s.on g) (hg : g s.toDev = s.toDev.regRead req loc)
    (hr : (s.toDev.noteJtag req).readReg a = (v, e)) : exec i s = .next (readOut s req v e) := by
  rw [hi, State.on_out h.out, hg, ← regRead_reaches h hr]
  rfl

end Sys2Proof.Machine
end

