-- ==== Sys2Proof/Laws/Shared.lean ====
section
/-!
SUPPORT. What the operations that many meanings share can do: a transfer to a host, memory that pools share, the control cluster's
island, the buffers that a copy gives back.
-/
namespace Sys2Proof.Machine

/-- A message of a function in D0 that is not FROZEN and has nothing waiting goes out at once (R290, R305, R323). -/
theorem Dev.hostOut_msix (d : Dev) (f g vec : Nat) (awake : d.silent f = false) (none : d.hif.deferred.filter (·.1 == f) = []) :
    d.hostOut f (.msix g vec) = d.emit (.msix g vec) := by simp [Dev.hostOut, awake, none]

/-- A write of such a function goes out as soon as its page is translated (R288). -/
theorem Dev.hostOut_write (d : Dev) (f g a : Nat) (bs : Bytes) (r : Bool) (awake : d.silent f = false)
    (none : d.hif.deferred.filter (·.1 == f) = []) :
    d.hostOut f (.hostWrite g a bs r) = Dev.hostSend f [.hostWrite g a bs r] d := by simp [Dev.hostOut, awake, none]

/-- A function in D3hot, or FROZEN, has its transfers kept, the last one last, and nothing is put out; a message that waits already
is not kept twice. -/
theorem Dev.hostOut_kept (d : Dev) (f : Nat) (o : Out) (asleep : d.silent f = true) (fresh : (f, o) ∉ d.hif.deferred) :
    (d.hostOut f o).hif.deferred = d.hif.deferred ++ [(f, o)] ∧ (d.hostOut f o).out = d.out := by
  cases o <;> simp [Dev.hostOut, asleep, fresh]

/-- Pools that lie apart share no memory: filling a chain changes nothing else (R235). -/
theorem Dev.fill_apart (d : Dev) (chain : List Nat) (data : Bytes) (apart : d.poolsApart = true) : d.fill chain data = d := by
  simp [Dev.fill, Dev.fillAt, apart]

/-- Nor does a write of a table slot. -/
theorem Dev.slotWritten_apart (d : Dev) (k : Nat) (apart : d.poolsApart = true) : d.slotWritten k = d := by
  simp [Dev.slotWritten, apart]

/-- Outside STANDBY the control cluster's island stays as it is (R402). -/
theorem Dev.controlFollows_awake (d : Dev) (awake : d.pwrState ≠ 3) : d.controlFollows = d := by
  simp [Dev.controlFollows, awake]

/-- Outside STANDBY a Vucel command does what the firmware does, and no more. -/
theorem Dev.vucel_awake (d : Dev) (ops : Nat → Bool) (c : Cmd) (body : Nat → Accepted → Bytes → Dev → Dev) (awake : d.pwrState ≠ 3) :
    d.vucel ops c body = d.runVucel ops c body := by simp [Dev.vucel, awake]

/-- A port that has sent no XOFF has nothing to take back when its held bytes fall (R369). -/
theorem Dev.fcFall_quiet (d : Dev) (p : Nat) (quiet : (d.port p).sent = ⟨[]⟩) : d.fcFall p = d := by
  simp [Dev.fcFall, quiet, Tbl.keys]

/-- A copy that leaves changes nothing where the port of its frame has sent no XOFF. -/
theorem Dev.copyLeft_quiet (d : Dev) (c : Copy) (quiet : ∀ f, d.frame? c.frame = some f → (d.port f.inPort).sent = ⟨[]⟩) :
    d.copyLeft c = d := by
  unfold Dev.copyLeft
  split
  · exact d.fcFall_quiet _ (quiet _ ‹_›)
  · rfl

end Sys2Proof.Machine
end

