-- ==== Sys2Proof/Laws/Threads.lean ====
section
/-!
SUPPORT. What an instruction of a thread does, said once: a thread that issues it runs its body and nothing else.
-/
namespace Sys2Proof.Machine

open Sys2Proof.Safety

/-- A thread reads as it was set. -/
@[simp] theorem Dev.thread_setThread (d : Dev) (t : Nat) (x : Thread) : (d.setThread t x).thread t = x := by
  simp [Dev.thread]

/-- Setting a thread leaves every other thread as it was. -/
theorem Dev.thread_setThread_ne (d : Dev) {t u : Nat} (x : Thread) (h : u ≠ t) : (d.setThread t x).thread u = d.thread u := by
  simp [Dev.thread, Tbl.getD_putD_ne _ _ _ _ h]

/-- g0 reads 0. -/
@[simp] theorem Thread.reg_zero (x : Thread) : x.reg 0 = 0 := rfl

/-- A write to g0 is discarded. -/
@[simp] theorem Thread.setReg_zero (x : Thread) (v : Word) : x.setReg 0 v = x := rfl

/-- A register reads as it was written. -/
theorem Thread.reg_setReg (x : Thread) {n : Nat} (v : Word) (h : n ≠ 0) : (x.setReg n v).reg n = v := by
  simp [Thread.reg, Thread.setReg, h]

/-- Writing a register leaves every other one as it was. -/
theorem Thread.reg_setReg_ne (x : Thread) {n m : Nat} (v : Word) (h : m ≠ n) : (x.setReg n v).reg m = x.reg m := by
  unfold Thread.setReg Thread.reg
  split
  · rfl
  · split
    · rfl
    · simp [Tbl.getD_putD_ne _ _ _ _ h]

/-- A legal instruction that a thread issues runs its body on the thread, counted, after the issue slot. -/
theorem Dev.instr_issues {d : Dev} {t : Nat} {w : Word} (h : Issues d t w) (body : Thread → Dev → Dev) :
    d.instr t w true body = (body (issued d t) (d.issueTo t)).endStep t := by
  obtain ⟨f, hf, hs⟩ := h.frame
  have hb : ¬ (d.thread t).limit ≤ (d.thread t).budget := Nat.not_le.2 h.budget
  unfold Dev.instr
  simp only [h.thread, h.region, h.ready, h.chosen, decide_true, Bool.true_and, beq_self_eq_true, if_true, hf, hs]
  cases hi : (d.thread t).insetMode with
  | false => simp [hb, issued, hi]
  | true =>
    obtain ⟨h1, h2, h3⟩ := h.text hi
    simp [h1, h2, h3, hb, issued, hi]

/-- The next state of a row that is such an instruction: `hf` names the row's operation, `hg` its body. -/
theorem exec_instr {s : State} {i : Instr} {t : Nat} {w : Word} {f : Dev → Dev} {body : Thread → Dev → Dev}
    (h : Issues s.toDev t w) (hf : exec i s = s.on f) (hg : f s.toDev = s.toDev.instr t w true body) :
    exec i s = .next (after s t (body (issued s.toDev t) (s.toDev.issueTo t))) := by
  rw [hf, State.on_out h.out, hg, Dev.instr_issues h]
  rfl

end Sys2Proof.Machine
end

