-- ==== Sys2Proof/Laws/Vucel.lean ====
section
/-!
SUPPORT. What a Vucel command does, said once: a command whose turn has come and whose common checks pass runs its own body.
-/
namespace Sys2Proof.Machine

open Sys2Proof.Safety

/-- A taken command runs its body on the device that the common checks leave. -/
theorem Dev.vucel1_taken {d e : Dev} {op n : Nat} {c : Cmd} {a : Accepted} {p : Bytes} (h : Taken d op c n a p e)
    (body : Nat → Accepted → Bytes → Dev → Dev) : d.vucel1 op c body = body n a p e := by
  obtain ⟨d1, h1, h2, h3⟩ := h.accept
  subst h3
  have hc := h.check
  have hr := h.recovery
  have hg := h.reach
  unfold Dev.vucel1 Dev.vucel Dev.runVucel
  simp only [if_neg h.awake, h.opcode, beq_self_eq_true, Bool.not_true, h.accepts, Bool.or_self, Bool.false_eq_true, if_false]
  generalize d.reachCmd c = r at hg
  obtain ⟨g, x⟩ := r
  subst hg
  simp only [h1, h2, hc, Bool.not_true, Bool.false_eq_true, if_false]
  split
  · next hx =>
    simp only [Bool.and_eq_true, Bool.not_eq_true'] at hx
    have := hr hx.1
    simp_all
  · rfl

/-- The next state of a row that is such a command. -/
theorem exec_vucel {s : State} {i : Instr} {op n : Nat} {c : Cmd} {a : Accepted} {p : Bytes} {e : Dev}
    {f : Dev → Dev} {body : Nat → Accepted → Bytes → Dev → Dev}
    (h : Taken s.toDev op c n a p e) (hf : exec i s = s.on f) (hg : f s.toDev = s.toDev.vucel1 op c body) :
    exec i s = .next (withDev s (body n a p e)) := by
  rw [hf, State.on_out h.out, hg, Dev.vucel1_taken h]
  rfl

/-- The next state of a row out of reset. -/
theorem exec_out {s : State} {i : Instr} {f : Dev → Dev} (h : s.toDev.inReset = false) (hf : exec i s = s.on f) :
    exec i s = .next (withDev s (f s.toDev)) := by
  rw [hf, State.on_out h]
  rfl

/-- A block that is there lets a command go on. -/
theorem Dev.needBlock_there {d : Dev} {b n : Nat} (h : d.available b = true) (k : Dev → Dev) :
    d.needBlock b n k = k d := by
  simp [Dev.needBlock, h]

end Sys2Proof.Machine
end

