-- ==== Sys2Proof/Tests/Slice0.lean ====
section
/-!
SUPPORT. Tests: an ill-formed term for each check of WellFormed, a few single steps, and for every statement that has
hypotheses a state and operands that meet them together (one `witness_` theorem a statement, a conjunct a clause). Clauses
whose hypotheses ask what an open value of Config is (a signature that verifies, a library entry's cost) have no such witness.
-/
namespace Sys2Proof.Tests
open Sys2Proof Sys2Proof.Machine Sys2Proof.Safety
set_option Elab.async false

/-! ## What the checks of WellFormed refuse -/

/-- A command for the first checks of commands: well formed but for what a test puts into it. -/
def plain (issuer : Nat) (packet : Bytes) (entry : Bytes := []) : Cmd :=
  { via := .admin, issuer := issuer, packet := packet, entry := entry }

theorem smoke_port : Instr.wf (.linkDown 18) = false := by decide +kernel
theorem smoke_frame : Instr.wf (.frameReceive 0 [] true) = false := by decide +kernel
theorem smoke_priority : Instr.wf (.fcRefresh 0 8) = false := by decide +kernel
theorem smoke_region : Instr.wf (.dispatch 4) = false := by decide +kernel
theorem smoke_thread : Instr.wf (.threadTimerExpiry 512) = false := by decide +kernel
theorem smoke_core : Instr.wf (.closedWaitDetect 128) = false := by decide +kernel
theorem smoke_cipher_core : Instr.wf (.cipherAdmit 12) = false := by decide +kernel
theorem smoke_channel : Instr.wf (.channelDisable .core 128 0) = false := by decide +kernel
theorem smoke_general_register : Instr.wf (.dbgThreadGregWrite .core 32 0) = false := by decide +kernel
theorem smoke_table : Instr.wf (.tableClearDone 64) = false := by decide +kernel
theorem smoke_key_slot : Instr.wf (.keyEraseDone 16384) = false := by decide +kernel
theorem smoke_stream : Instr.wf (.cbResetTimeout 4096) = false := by decide +kernel
theorem smoke_shaper : Instr.wf (.shaperEnable .core 8192 0) = false := by decide +kernel
theorem smoke_party : Instr.wf (.bufferFree 128 0) = false := by decide +kernel
theorem smoke_pool : Instr.wf (.bufferStampDecide 4) = false := by decide +kernel
theorem smoke_queue_pair : Instr.wf (.irqHoldoffEnd 16384 true) = false := by decide +kernel
theorem smoke_local_queue_pair : Instr.wf (.txDoorbell .core 0 64 0) = false := by decide +kernel
theorem smoke_connection : Instr.wf (.stoAckTimer 16384) = false := by decide +kernel
theorem smoke_context : Instr.wf (.lgReadTime 1024) = false := by decide +kernel
theorem smoke_vector : Instr.wf (.msixVectorUnmask 0 2048 0) = false := by decide +kernel
theorem smoke_function : Instr.wf (.flr 1024) = false := by decide +kernel
theorem smoke_physical_function : Instr.wf (.vfEnableSet 4) = false := by decide +kernel
theorem smoke_num_vfs : Instr.wf (.numvfsWrite 0 65536) = false := by decide +kernel
theorem smoke_failed_read : Instr.wf (.hostReadError (.admin 4)) = false := by decide +kernel
theorem smoke_link : Instr.wf (.pcieLinkDown 2) = false := by decide +kernel
theorem smoke_rate : Instr.wf (.pcieLinkUp 0 6 16) = false := by decide +kernel
theorem smoke_width : Instr.wf (.pcieLinkUp 0 5 0) = false := by decide +kernel
theorem smoke_tag : Instr.wf (.atsInvalComplete 0 32) = false := by decide +kernel
theorem smoke_page : Instr.wf (.atsInvalidation 0 0 (2 ^ 52)) = false := by decide +kernel
theorem smoke_pin : Instr.wf (.timeIoEdge 4 true) = false := by decide +kernel
theorem smoke_stamp_word : Instr.wf (.merLoadWrite .core 3 0) = false := by decide +kernel
theorem smoke_block : Instr.wf (.blockResetEnd 25) = false := by decide +kernel
theorem smoke_island : Instr.wf (.loadDemandUp 24 50) = false := by decide +kernel
theorem smoke_percentage : Instr.wf (.loadDemandDown 0 101) = false := by decide +kernel
theorem smoke_pace : Instr.wf (.paceLow 0 65536) = false := by decide +kernel
theorem smoke_rail : Instr.wf (.railWarn 7 900) = false := by decide +kernel
theorem smoke_millivolts : Instr.wf (.railReset 0 65536) = false := by decide +kernel
theorem smoke_die : Instr.wf (.dieHot 4 0) = false := by decide +kernel
theorem smoke_temperature : Instr.wf (.thermalTrip 0 (-32769)) = false := by decide +kernel
theorem smoke_injector : Instr.wf (.reorderTimeout false true 18) = false := by decide +kernel
theorem smoke_requester : Instr.wf (.merNowRead (.host 1024)) = false := by decide +kernel
theorem smoke_location : Instr.wf (.registerRead .core (.page 0 0x10000) 4) = false := by decide +kernel
theorem smoke_size : Instr.wf (.registerRead .core (.dev 0) 2) = false := by decide +kernel
theorem smoke_value : Instr.wf (.registerWrite .core (.dev 0) 4 (2 ^ 32)) = false := by decide +kernel
theorem smoke_error_place : Instr.wf (.eccUncorrectable (.engine 25)) = false := by decide +kernel
theorem smoke_corrected_error : Instr.wf (.eccUncorrectable (.corrected 4)) = false := by decide +kernel
theorem smoke_smbus : Instr.wf (.smbBlockWrite (List.replicate 256 0) true) = false := by decide +kernel
theorem smoke_ring_entry : Instr.wf (.descriptorFetch 0 true (some [0]) none) = false := by decide +kernel
theorem smoke_descriptor : Instr.wf (.descriptorFetch 0 true none (some [0])) = false := by decide +kernel
theorem smoke_bucket : Instr.wf (.tokenRefill (some 1024)) = false := by decide +kernel
theorem smoke_issuer : Instr.wf (.nop (plain 1024 [])) = false := by decide +kernel
theorem smoke_entry : Instr.wf (.nop (plain 0 [] (List.replicate 33 0))) = false := by decide +kernel
theorem smoke_packet : Instr.wf (.nop (plain 0 (List.replicate 65568 0))) = false := by decide +kernel

/-! ## What a witness is -/

/-- A command of `issuer` for function `fn` with parameter words `ps`, its header laid out as R330 has it. -/
def cmd (op fn : Nat) (ps : List Word) (issuer : Nat := fn) : Cmd :=
  { via := .admin, issuer := issuer,
    packet := wordBytes ([toWord (op * 2 ^ 16), 0, toWord (fn * 2 ^ 22 + 4 * ps.length), 0, 0, 0, 0, 0] ++ ps),
    entry := bytesLE 8 0 ++ bytesLE 4 (32 + 4 * ps.length) ++ List.replicate 20 0 }

/-- A device with firmware running and one command, number 0, that waits in its turn. -/
def waits (d : Dev) (c : Cmd) (committed : Bool := false) : Dev :=
  { d with vcl := { d.vcl with up := true, cmds := ⟨[(0, { cmd := c, opcode := c.opcode, fn := c.fn, issuerGen := d.gen c.issuer, fnGen := d.gen c.fn,
                                                           stamp := 0, ring := 0, mgmt := none, started := false, committed := committed })]⟩ } }

/-- What a command that waits is taken as. -/
def took (d : Dev) (op : Nat) (c : Cmd) : Option (Nat × Accepted × Bytes × Dev) :=
  if d.inReset || d.pwrState == 3 || c.opcode != op || !(d.accepts c || (d.runs && d.waitsTurn c)) || (d.reachCmd c).1 != .ready then none
  else
    match d.accept c with
    | none => none
    | some (n, a, d1) =>
      let e := d1.updCmd n fun x => { x with started := true }
      match e.vclCheck c with
      | .error _ => none
      | .ok p => if d1.hasTurn n a && !e.on? Fld.SEC_STAT_RECOVERY then some (n, a, p, e) else none

theorem took_taken {d e : Dev} {op n : Nat} {c : Cmd} {a : Accepted} {p : Bytes} (h : took d op c = some (n, a, p, e)) :
    Taken d op c n a p e := by
  unfold took at h
  split at h
  · cases h
  · rename_i h0
    simp only [Bool.or_eq_true, beq_iff_eq, bne_iff_ne, ne_eq, Bool.not_eq_true', not_or, Bool.not_eq_true, Decidable.not_not, Bool.not_eq_false] at h0
    split at h
    · cases h
    · rename_i n1 a1 d1 h1
      simp only at h
      split at h
      · cases h
      · rename_i p1 h2
        split at h
        · rename_i h3
          simp only [Option.some.injEq, Prod.mk.injEq] at h
          obtain ⟨rfl, rfl, rfl, rfl⟩ := h
          simp only [Bool.and_eq_true, Bool.not_eq_true'] at h3
          exact ⟨h0.1.1.1.1, h0.1.1.1.2, h0.1.1.2, by simpa using h0.1.2, h0.2, ⟨d1, h1, h3.1, rfl⟩, h2, fun hr => by rw [h3.2] at hr; cases hr⟩
        · cases h

/-- Some state takes a command of this opcode, and its record, parameters and device meet `H`. -/
def HasTaken (op : Nat) (H : Nat → Accepted → Bytes → Dev → Prop) : Prop :=
  ∃ (s : State) (c : Cmd) (n : Nat) (a : Accepted) (p : Bytes) (e : Dev), Taken s.toDev op c n a p e ∧ H n a p e

theorem takes {op : Nat} {H : Nat → Accepted → Bytes → Dev → Prop} [∀ n a p e, Decidable (H n a p e)] (d : Dev) (c : Cmd)
    (h : ((took d op c).map fun x => decide (H x.1 x.2.1 x.2.2.1 x.2.2.2)) = some true) : HasTaken op H := by
  cases ht : took d op c with
  | none => rw [ht] at h; cases h
  | some x =>
    obtain ⟨n, a, p, e⟩ := x
    rw [ht] at h
    exact ⟨{ toDev := d }, c, n, a, p, e, took_taken ht, by simpa using h⟩

/-- What `Issues` asks of a thread in vendor mode, whatever word it issues. -/
def vendorIssues (d : Dev) (t : Nat) : Bool :=
  !d.inReset && decide (t < 512) && d.available (regionOf t) && d.threadState t == 2 && d.mayIssue t &&
    ((d.thread t).frame.bind d.frame?).any (fun f => !d.staleFrame f) && !(d.thread t).insetMode &&
    decide ((d.thread t).budget < (d.thread t).limit)

theorem vendorIssues_issues {d : Dev} {t : Nat} (h : vendorIssues d t = true) (w : Word) : Issues d t w := by
  simp only [vendorIssues, Bool.and_eq_true, Bool.not_eq_true', decide_eq_true_eq, beq_iff_eq, Option.any_eq_true] at h
  obtain ⟨⟨⟨⟨⟨⟨⟨h1, h2⟩, h3⟩, h4⟩, hc⟩, ⟨f, h5, h6⟩⟩, h7⟩, h8⟩ := h
  exact ⟨h1, h2, h3, h4, hc, ⟨f, h5, h6⟩, fun h => (Bool.false_ne_true (h7.symm.trans h)).elim, h8⟩

/-- What `Issues` asks of a thread that issues the word `w`, in either mode. -/
def canIssue (d : Dev) (t : Nat) (w : Word) : Bool :=
  let x := d.thread t
  !d.inReset && decide (t < 512) && d.available (regionOf t) && d.threadState t == 2 && d.mayIssue t &&
    (x.frame.bind d.frame?).any (fun f => !d.staleFrame f) && decide (x.budget < x.limit) &&
    (!x.insetMode || (decide (d.insetBase t x ≤ x.pc) && ((d.insetOf x).bind fun i => i.text[x.pc - d.insetBase t x]?) == some w && insetLegal w))

theorem canIssue_issues {d : Dev} {t : Nat} {w : Word} (h : canIssue d t w = true) : Issues d t w := by
  simp only [canIssue, Bool.and_eq_true, Bool.or_eq_true, Bool.not_eq_true', decide_eq_true_eq, beq_iff_eq, Option.any_eq_true] at h
  obtain ⟨⟨⟨⟨⟨⟨⟨h1, h2⟩, h3⟩, h4⟩, hc⟩, ⟨f, h5, h6⟩⟩, h8⟩, h7⟩ := h
  refine ⟨h1, h2, h3, h4, hc, ⟨f, h5, h6⟩, fun hm => ?_, h8⟩
  rcases h7 with h7 | h7
  · rw [h7] at hm; cases hm
  · exact ⟨h7.1.1, h7.1.2, h7.2⟩

/-- Some thread issues the word `w`, and with the device and the thread as the instruction finds them it meets `H`. -/
def HasIssued (w : Word) (H : Nat → Thread → Dev → Prop) : Prop :=
  ∃ (s : State) (t : Nat), Issues s.toDev t w ∧ H t (issued s.toDev t) (s.toDev.issueTo t)

theorem issues {w : Word} {H : Nat → Thread → Dev → Prop} [∀ t x e, Decidable (H t x e)] (d : Dev) (t : Nat)
    (h : (canIssue d t w && decide (H t (issued d t) (d.issueTo t))) = true) : HasIssued w H := by
  simp only [Bool.and_eq_true, decide_eq_true_eq] at h
  exact ⟨{ toDev := d }, t, canIssue_issues h.1, h.2⟩

/-- A device with a thread 0 that holds the frame 0, of 64 bytes. -/
def running (x : Thread := {}) : Dev :=
  { pca := { threads := ⟨[(0, { x with frame := some 0 })]⟩ },
    frames := ⟨[(0, { inPort := 0, stamp := 0, bytes := List.replicate 64 0, stage := .onThread 0 })]⟩ }

/-- What `Reaches` asks, and the location as the target sees it. -/
def reached (d : Dev) (req : Requester) (loc : Loc) (a : RegAt) : Option Loc :=
  if d.inReset || !d.canAccess req then none
  else
    match reach req loc with
    | none => none
    | some l =>
      let e := d.noteJtag req
      if e.spotAt req l = .reg a ∧ e.hostBarred req (.reg a) = false ∧ (e.standby && !standbyAnswers req (.reg a)) = false ∧
          e.unavailable (.reg a) = none then some l
      else none

theorem reached_reaches {d : Dev} {req : Requester} {loc l : Loc} {a : RegAt} (h : reached d req loc a = some l) :
    Reaches d req loc l a := by
  unfold reached at h
  split at h
  · cases h
  · rename_i h0
    simp only [Bool.or_eq_true, Bool.not_eq_true', not_or, Bool.not_eq_true, Bool.not_eq_false] at h0
    split at h
    · cases h
    · rename_i l1 h1
      simp only at h
      split at h
      · rename_i h2
        cases h
        exact ⟨h0.1, h0.2, h1, h2.1, h2.2.1, h2.2.2.1, h2.2.2.2⟩
      · cases h

/-- Some access at `loc` reaches the register word `a`, and the device meets `H`. -/
def HasReached (loc : Loc) (a : Dev → RegAt) (H : Dev → Prop) : Prop :=
  ∃ (s : State) (req : Requester) (l : Loc), Reaches s.toDev req loc l (a (s.toDev.noteJtag req)) ∧ H (s.toDev.noteJtag req)

theorem reaches {loc : Loc} {a : Dev → RegAt} {H : Dev → Prop} [∀ e, Decidable (H e)] (d : Dev) (req : Requester)
    (h : ((reached d req loc (a (d.noteJtag req))).isSome && decide (H (d.noteJtag req))) = true) : HasReached loc a H := by
  simp only [Bool.and_eq_true, decide_eq_true_eq, Option.isSome_iff_exists] at h
  obtain ⟨⟨l, hl⟩, h2⟩ := h
  exact ⟨{ toDev := d }, req, l, reached_reaches hl, h2⟩

/-- Some device that is out of reset meets `H`. -/
def HasDev (H : Dev → Prop) : Prop := ∃ s : State, s.toDev.inReset = false ∧ H s.toDev

theorem meets {H : Dev → Prop} [∀ d, Decidable (H d)] (d : Dev) (h : (!d.inReset && decide (H d)) = true) : HasDev H := by
  simp only [Bool.and_eq_true, Bool.not_eq_true', decide_eq_true_eq] at h
  exact ⟨{ toDev := d }, h.1, h.2⟩

/-! ## Threads and their instructions -/

/-- Every word of `Arithmetic` is issued by one thread; the statement asks no more of it. -/
theorem witness_Arithmetic : (∃ (s : State) (t : Nat), ∀ w, Issues s.toDev t w) ∧ ∃ n m : Nat, n ≠ 0 ∧ m ≠ n :=
  ⟨⟨{ toDev := running }, 0, vendorIssues_issues (by decide +kernel)⟩, ⟨31, 0, by decide⟩⟩

theorem witness_Control :
    HasIssued (encBr 5 1 2 (-1)) (fun _ _ _ => (-1 : BitVec 13) ≠ 0 ∧ (5 : BitVec 3).toNat < 6) ∧
    HasIssued (encJump 1 0 16383) (fun _ x _ => x.rets.length < 8) ∧
    HasIssued (encJump 2 0 0) (fun _ x _ => (x.rets.head?.map fun r => decide (r.parse = none)) = some true) ∧
    HasIssued (encJr 1 0) (fun _ x _ => x.insetMode = false) ∧
    HasIssued (encLoop 255 1023 0) (fun _ x _ => (255 : BitVec 8) ≠ 0 ∧ (1023 : BitVec 10) ≠ 0 ∧ x.loops.length < 4) ∧
    HasIssued (encJump 3 0 0) (fun _ x e => (x.frame.bind e.frame?).isSome = true ∧ (e.classBind x 0 0).isNone = true) :=
  ⟨issues running 0 (by decide +kernel), issues running 0 (by decide +kernel),
   issues (running { rets := [{ pc := 1, inset := false }] }) 0 (by decide +kernel), issues running 0 (by decide +kernel),
   issues running 0 (by decide +kernel), issues running 0 (by decide +kernel)⟩

theorem witness_Accesses :
    HasIssued (encPw 1 0 true 2 0 252) (fun _ x _ => (2 : BitVec 2) ≠ 3 ∧ x.addr 0 252 + 2 ^ 2 ≤ 256) ∧
    HasIssued (encLg 1 false 0 0 31 0) (fun _ x e => 0 + 31 ≤ 31 ∧ (x.frame.bind e.frame?).isSome = true) ∧
    HasIssued (encLg 1 true 6 0 0 0) (fun _ x e => 0 + 0 ≤ 31 ∧ (x.frame.bind e.frame?).isSome = true ∧
      fieldMask 0 0 &&& ~~~ (if x.insetMode then insetMask 6 else vendorMask 6) = 0) ∧
    HasIssued (encMem 0x12 1 0 true 2 0) (fun t x e => x.addr 0 0 % 4 = 0 ∧ e.mapAddr t x (x.addr 0 0) (sizeBytes 2) = some (.scratch 0)) ∧
    (∃ key n j : Nat, ∀ i < n, j ≠ key + i) ∧
    HasIssued (encMem 0x12 1 1 true 2 0) (fun t x e => x.addr 1 0 % 4 = 0 ∧
      (e.mapAddr t x (x.addr 1 0) (sizeBytes 2) matches some (.region _)) = true) ∧
    HasDev (fun d => ((d.thread 0).pend matches .region true 4 0 1) = true) ∧
    HasIssued (encMem 0x13 1 0 true 2 60) (fun _ x e => ((x.frame.bind e.frame?).any fun f => decide (x.addr 0 60 + 2 ^ 2 ≤ f.bytes.length)) = true) ∧
    HasDev (fun d => d.available 7 = true ∧ d.available 13 = true ∧ d.blockGen 7 = 0 ∧ d.blockGen 13 = 0 ∧ ((d.thread 0).pend matches .buf true 2 60 1 0 0) = true ∧
      ((d.thread 0).frame.bind d.frame?).isSome = true) :=
  ⟨issues running 0 (by decide +kernel), issues running 0 (by decide +kernel), issues running 0 (by decide +kernel),
   issues running 0 (by decide +kernel), ⟨4, 4, 8, by omega⟩,
   issues (running { g := ⟨[(1, 0x80000)]⟩ }) 0 (by decide +kernel),
   meets (running { pend := .region true 4 0 1 }) (by decide +kernel), issues running 0 (by decide +kernel),
   meets (running { pend := .buf true 2 60 1 0 0 }) (by decide +kernel)⟩

/-- A device whose thread 0 has four lookups outstanding. -/
def fourLookups : Dev :=
  let r : LookReq := { thread := 0, slot := 1, kind := 0, table := 5, key := 0, prefetch := true, function := 0, fnGen := 0, blockGen := 0,
                       frame := 0, stamp := 0, answer := none }
  let d := running
  { d with pca := { d.pca with reqs := ⟨[(0, r), (1, r), (2, r), (3, r)]⟩ } }

theorem witness_LookupRequests :
    HasIssued (encLookup 3 0 5 0 false 0) (fun t x e => (e.lookupTable x 5).isSome = true ∧ e.lookOut t < 4 ∧ (x.ls.getD 3 .empty matches .waiting _) = false) ∧
    HasIssued (encLookup 3 2 5 0 false 0) (fun _ x e => (e.lookupTable x 5).isSome = true ∧ (x.ls.getD 3 .empty matches .waiting _) = true) ∧
    HasIssued (encLookup 3 2 5 0 false 0) (fun t x e => (e.lookupTable x 5).isSome = true ∧ e.lookOut t ≥ 4) ∧
    HasIssued (encLookup 0 2 0 0 true 0) (fun t x e => (e.lookupTable x 0).isSome = true ∧ e.lookOut t < 4 ∧ (2 : BitVec 2) ≠ 3) ∧
    HasIssued (encLookup 0 2 0 0 true 0) (fun t x e => (e.lookupTable x 0).isSome = true ∧ e.lookOut t ≥ 4 ∧ (2 : BitVec 2) ≠ 3) ∧
    HasIssued (encLookup 0 3 0 0 false 0) (fun t x e => e.lookOut t < 4 ∧ (x.ls.getD 0 .empty matches .waiting _) = false) ∧
    HasIssued (encLookup 0 3 0 0 false 0) (fun t _ e => e.lookOut t ≥ 4) ∧
    HasIssued (encLookup 0 3 0 0 false 0) (fun _ x _ => (x.ls.getD 0 .empty matches .waiting _) = true) ∧
    HasIssued (encLdres 1 0 2 0) (fun _ x _ => (2 : BitVec 2) ≠ 3 ∧ (x.ls.getD 0 .empty matches .waiting _) = true) ∧
    HasIssued (encLdres 1 0 2 0) (fun _ x _ => (2 : BitVec 2) ≠ 3 ∧ (x.ls.getD 0 .empty matches .ready ..) = true) :=
  ⟨issues running 0 (by decide +kernel), issues (running { ls := ⟨[(3, .waiting 0)]⟩ }) 0 (by decide +kernel),
   issues fourLookups 0 (by decide +kernel), issues running 0 (by decide +kernel), issues fourLookups 0 (by decide +kernel),
   issues running 0 (by decide +kernel), issues fourLookups 0 (by decide +kernel), issues (running { ls := ⟨[(0, .waiting 0)]⟩ }) 0 (by decide +kernel),
   issues (running { ls := ⟨[(0, .waiting 0)]⟩ }) 0 (by decide +kernel),
   issues (running { ls := ⟨[(0, .ready 0 1 2)]⟩ }) 0 (by decide +kernel)⟩

/-- A thread on an enabled channel 0 of cluster 0 which may write and read it. -/
def onChannel (x : Thread := {}) (entries : List (List Word) := []) : Dev :=
  let d := running x
  ((({ d with pca := { d.pca with chans := ⟨[(0, entries)]⟩ } } : Dev).set Fld.PCA_CHAN_CFG_ENABLE 0 1).wr .PCA_CHAN_WRITERS 0 0 1).wr
    .PCA_CHAN_READERS 0 0 1

/-- The thread of `onChannel` in inset mode, its inset granted the channels of `mask` in cluster 0 and with the word `w` as its text. -/
def insetOnChannel (w : Word) (mask : Nat) : Dev :=
  let d := onChannel { insetMode := true, pc := 0x1000, inset := some 0 }
  let i : Inset :=
    { function := 0, text := [w], base := ⟨[(0, 0x1000)]⟩, rgnBase := ⟨[]⟩, priv := 0, rgn := 0, entries := [], handles := [],
      handleKinds := [], chanMask := mask, softMask := 0, granted := [0], bound := 0 }
  { d with pca := { d.pca with insets := ⟨[(0, i)]⟩ } }

/-- A reservation of channel 0 that is live, and one that is gone. -/
def liveRes : Resv := { chan := 0, live := true, data := [] }

theorem witness_ChannelOperations :
    HasIssued (encChan 0 0 4 0 1 0) (fun t x e => x.insetMode = false ∧ (e.rd .PCA_CHAN_WRITERS 0).getLsbD (t % 32) = true ∧
      e.on? Fld.PCA_CHAN_CFG_ENABLE 0 = true ∧ x.resCount < 3 ∧ x.rv.look? 0 = none ∧ ((e.setThread t x).tryReserve t 0 0).isSome = true) ∧
    HasIssued (encChan 1 0 4 2 1 0) (fun t x e => x.insetMode = false ∧ (e.rd .PCA_CHAN_WRITERS 0).getLsbD (t % 32) = true ∧
      ((x.rv.look? 2).any fun r => r.chan == 0 && r.live) = true) ∧
    HasIssued (encChan 2 0 4 2 1 0) (fun t x e => x.insetMode = false ∧ (e.rd .PCA_CHAN_WRITERS 0).getLsbD (t % 32) = true ∧
      ((x.rv.look? 2).any fun r => r.chan == 0 && r.live) = true) ∧
    HasIssued (encChan 3 0 28 0 1 0) (fun t x e => x.insetMode = false ∧ (e.rd .PCA_CHAN_READERS 0).getLsbD (t % 32) = true ∧
      e.on? Fld.PCA_CHAN_CFG_ENABLE 0 = true ∧ (e.chanEntries 0).isEmpty = false) ∧
    HasIssued (encChan 3 0 28 0 1 0) (fun t x e => x.insetMode = false ∧ (e.rd .PCA_CHAN_READERS 0).getLsbD (t % 32) = true ∧
      e.on? Fld.PCA_CHAN_CFG_ENABLE 0 = true ∧ (e.chanEntries 0).isEmpty = true) ∧
    HasIssued (encChan 0 1 4 0 1 0) (fun _ x e => x.insetMode = true ∧
      ((e.insetOf x).map fun i => if i.granted.contains 0 then i.chanMask else 0) = some 1 ∧ (1 : Nat).testBit 1 = false) ∧
    HasIssued (encChan 0 0 4 0 1 0) (fun _ x e => x.insetMode = true ∧
      ((e.insetOf x).map fun i => if i.granted.contains 0 then i.chanMask else 0) = some 1 ∧ e.on? Fld.PCA_CHAN_CFG_ENABLE 0 = true) ∧
    HasIssued (encChan 0 1 4 0 1 0) (fun t x e => x.insetMode = false ∧ (e.rd .PCA_CHAN_WRITERS 1).getLsbD (t % 32) = false) ∧
    HasIssued (encChan 0 1 4 0 1 0) (fun t x e => x.insetMode = false ∧ (e.rd .PCA_CHAN_WRITERS 1).getLsbD (t % 32) = true ∧
      e.on? Fld.PCA_CHAN_CFG_ENABLE 1 = false) ∧
    HasIssued (encChan 0 0 4 0 1 0) (fun t x e => (e.rd .PCA_CHAN_WRITERS 0).getLsbD (t % 32) = true ∧ 3 ≤ x.resCount) ∧
    HasIssued (encChan 0 0 4 0 1 0) (fun t x e => (e.rd .PCA_CHAN_WRITERS 0).getLsbD (t % 32) = true ∧ x.resCount < 3 ∧
      x.rv.look? 0 = none ∧ ((e.setThread t x).tryReserve t 0 0).isSome = false) ∧
    HasIssued (encChan 0 0 4 0 1 0) (fun t x e => (e.rd .PCA_CHAN_WRITERS 0).getLsbD (t % 32) = true ∧ x.resCount < 3 ∧
      x.rv.look? 0 = some liveRes ∧
      (let y := (((e.setThread t { x with rv := x.rv.erase 0 }).bump .PCA_CHAN_ABANDON (clusterOf t)).chanSpace 0)
       ((y.setThread t { x with rv := x.rv.erase 0, events := (y.thread t).events }).tryReserve t 0 0).isSome = true)) ∧
    HasIssued (encChan 1 0 4 2 1 0) (fun t x e => (e.rd .PCA_CHAN_WRITERS 0).getLsbD (t % 32) = true ∧ x.rv.look? 2 = none) ∧
    HasIssued (encChan 2 0 4 2 1 0) (fun t x e => (e.rd .PCA_CHAN_WRITERS 0).getLsbD (t % 32) = true ∧ x.rv.look? 2 = none) ∧
    HasIssued (encChan 2 0 4 2 1 0) (fun t x e => (e.rd .PCA_CHAN_WRITERS 0).getLsbD (t % 32) = true ∧
      ((x.rv.look? 2).any fun r => r.chan == 0 && !r.live) = true) :=
  ⟨issues onChannel 0 (by decide +kernel),
   issues (onChannel { rv := ⟨[(2, { chan := 0, live := true, data := [] })]⟩ }) 0 (by decide +kernel),
   issues (onChannel { rv := ⟨[(2, { chan := 0, live := true, data := [] })]⟩ }) 0 (by decide +kernel),
   issues (onChannel {} [[1, 2, 3, 4]]) 0 (by decide +kernel), issues onChannel 0 (by decide +kernel),
   issues (insetOnChannel (encChan 0 1 4 0 1 0) 1) 0 (by decide +kernel), issues (insetOnChannel (encChan 0 0 4 0 1 0) 1) 0 (by decide +kernel),
   issues onChannel 0 (by decide +kernel), issues (onChannel.wr .PCA_CHAN_WRITERS 1 0 1) 0 (by decide +kernel),
   issues (onChannel { rv := ⟨[(0, liveRes), (1, liveRes), (2, liveRes)]⟩ }) 0 (by decide +kernel),
   issues ((onChannel {} (List.replicate 128 [])).set Fld.PCA_CHAN_CFG_DEPTH 0 1) 0 (by decide +kernel),
   issues (onChannel { rv := ⟨[(0, liveRes)]⟩ }) 0 (by decide +kernel), issues onChannel 0 (by decide +kernel), issues onChannel 0 (by decide +kernel),
   issues (onChannel { rv := ⟨[(2, { liveRes with live := false })]⟩ }) 0 (by decide +kernel)⟩

theorem witness_EventsAndTime :
    HasIssued (encWait 1 30 0) (fun _ _ _ => (30 : BitVec 5).toNat % 2 = 0) ∧
    HasIssued (encSignal 3 31 31 0) (fun t x e => x.insetMode = false ∧
      (e.rd .PCA_EVT_SRC (32 * clusterOf t + 31)).getLsbD (t % 32) = true) ∧
    HasIssued (encTimer 29 0) (fun _ _ _ => (29 : BitVec 5).toNat ≤ 29) ∧
    HasIssued (encTime 29 0) (fun _ _ _ => (29 : BitVec 5).toNat ≤ 29) ∧
    HasDev (fun d => (d.pca.msgs.getD 3 []).head? = some (511, 2)) ∧
    HasDev (fun d => ((d.thread 0).timer.any fun due => decide (due ≤ d.now)) = true) :=
  ⟨issues running 0 (by decide +kernel), issues (running.wr .PCA_EVT_SRC 31 0 1) 0 (by decide +kernel), issues running 0 (by decide +kernel),
   issues running 0 (by decide +kernel), meets { pca := { msgs := ⟨[(3, [(511, 2)])]⟩ } } (by decide +kernel),
   meets (running { timer := some 0 }) (by decide +kernel)⟩

/-- The library's budget clause names an entry that R109 lists, with room under the limit. -/
theorem witness_FrameEndsAndLibrary :
    HasIssued (encEnd 3 255 0) (fun _ x _ => x.frame = some 0 ∧ x.insetMode = false) ∧
    HasIssued (encLibcall 1 0) (fun _ x _ => ((libMax 1).any fun most => decide (x.budget + most ≤ x.limit)) = true ∧ x.rets.length < 8) :=
  ⟨issues running 0 (by decide +kernel), issues running 0 (by decide +kernel)⟩

/-- A device whose region 0 serves: one legend waits in its sub-queue 0 and thread 0 is enabled and idle. -/
def serving : Dev :=
  ({ pca := { rq := ⟨[(0, [0])]⟩ }, frames := ⟨[(0, { inPort := 0, stamp := 0, bytes := List.replicate 64 0, stage := .queued 0 0 })]⟩ } : Dev).set
    Fld.PCA_THREAD_CTRL_ENABLE 0 1

/-- The device of `running` at issuing slot 1, with its thread 0 as the core's current thread. -/
def onSlotOne : Dev :=
  let d := running
  { d with pca := { d.pca with cores := ⟨[(0, { slotCount := 1, current := some 0 })]⟩ } }

theorem witness_DispatchAndWatch :
    HasDev (fun d => d.regionUp 0 = true ∧
      roundRobin 16 (((d.pca.rqLast.look? 0).map (· + 1)).getD 0)
        (fun k => (d.pca.rq.getD (16 * 0 + k) []).head?.isSome && (d.chooseThread 0 k).isSome) = some 0 ∧
      d.pca.rq.getD 0 [] = [0] ∧ d.chooseThread 0 0 = some 0 ∧ ((d.frame? 0).any fun f => !d.staleFrame f) = true) ∧
    HasDev (fun d => d.mayIssue 0 = true) ∧
    HasDev (fun d => (d.core 0).slotCount % clampTo 4 16 (d.get Fld.PCA_CORE_CFG_SLOT_N 0) = 0 ∧ d.threadState 0 = 2 ∧
      (d.thread 0).stallTo ≤ (d.core 0).slotCount) ∧
    HasDev (fun d => (d.core 0).slotCount % clampTo 4 16 (d.get Fld.PCA_CORE_CFG_SLOT_N 0) = 1 ∧ d.threadState 1 ≠ 2 ∧
      (d.core 0).current = some 0 ∧ d.threadState 0 = 2 ∧ (d.thread 0).stallTo ≤ (d.core 0).slotCount ∧
      ∀ j, j < 4 → d.threadState j = 2 → d.on? Fld.PCA_THREAD_CTRL_PRIO j = false) ∧
    HasDev (fun d => ∀ j, j < 4 → d.threadState (4 * 127 + j) ≠ 2) ∧
    HasDev (fun d => d.closedWait 0 = true) ∧
    HasDev (fun d => (d.thread 0).frame = some 0 ∧ (d.thread 0).halted = true ∧ (d.thread 0).haltAt + 2 ^ 44 ≤ d.ref) :=
  ⟨meets serving (by decide +kernel), meets running (by decide +kernel), meets running (by decide +kernel), meets onSlotOne (by decide +kernel),
   meets {} (by decide +kernel), meets ([1, 2, 3].foldl (fun d k => d.set Fld.PCA_THREAD_CTRL_ENABLE k 0) ((running { pend := .evt 1 0 }).wr .PCA_EVT_SRC 0 0 1)) (by decide +kernel),
   meets { running { halted := true } with mer := { refCycles := 2 ^ 43 } } (by decide +kernel)⟩

/-! ## Meridian time -/

theorem witness_TimeAdjustments :
    HasTaken 0x0201 (fun _ _ p e => e.mer.rateFits (signedOf 64 (le p 0 8)) = true) ∧
    HasTaken 0x0202 (fun _ _ p e => e.on? Fld.MER_CTRL_ENABLE = true ∧ (signedOf 32 (le p 0 4)).natAbs ≤ 256000000 ∧
      1 ≤ bitsOf (le32 p 4) 9 0 ∧ bitsOf (le32 p 4) 9 0 ≤ 1000) ∧
    HasTaken 0x0203 (fun _ _ p e => e.on? Fld.MER_CTRL_ENABLE = true ∧ 0 ≤ signedOf 32 (le p 0 4) ∧ signedOf 32 (le p 0 4) ≤ 1000000000) ∧
    HasTaken 0x0203 (fun _ _ p e => e.on? Fld.MER_CTRL_ENABLE = true ∧ -1000000 ≤ signedOf 32 (le p 0 4) ∧ signedOf 32 (le p 0 4) < 0 ∧
      e.mer.stepLeft + (signedOf 32 (le p 0 4)).natAbs * (256 * stampUnit) ≤ 1000000 * (256 * stampUnit)) ∧
    HasTaken 0x0204 (fun _ _ _ e => e.on? Fld.MER_CTRL_ENABLE = false) :=
  let c1 := cmd 0x0201 0 [5, 0]
  let c2 := cmd 0x0202 0 [toWord (2 ^ 32 - 256000000), 1000]
  let c3 := cmd 0x0203 0 [1000000000]
  let c4 := cmd 0x0203 0 [toWord (2 ^ 32 - 1000000)]
  let c5 := cmd 0x0204 0 [1, 2, 3]
  ⟨takes (waits {} c1) c1 (by decide +kernel), takes (waits {} c2) c2 (by decide +kernel), takes (waits {} c3) c3 (by decide +kernel),
   takes (waits {} c4) c4 (by decide +kernel), takes (waits (({} : Dev).set Fld.MER_CTRL_ENABLE 0 0) c5) c5 (by decide +kernel)⟩

/-- An output pin 0 with its first edge at stamp 0. -/
def edgePin : Dev :=
  (((({} : Dev).set Fld.MER_TIO_CTRL_ENABLE 0 1).set Fld.MER_TIO_CTRL_MODE 0 2).wr .MER_TIO_PERIOD 0 0 1000)

theorem witness_TimeEventsAndPins :
    HasDev (fun d => d.mer.slewPpm ≠ 0 ∧ d.mer.slewLeft = 0) ∧
    HasDev (fun d => d.mer.stepping = true ∧ d.mer.stepLeft = 0) ∧
    HasDev (fun d => d.on? Fld.MER_STATUS_REF_LOST = false) ∧
    HasDev (fun d => ((d.nextEdge 0 (d.pin 0).edgeFrom).any fun t => decide (t ≤ d.now)) = true) ∧
    HasDev (fun d => (d.pin 3).high = true ∧ (d.pin 3).pulseEnd ≤ d.ref) :=
  ⟨meets { mer := { slewPpm := -5 } } (by decide +kernel), meets { mer := { stepping := true } } (by decide +kernel),
   meets {} (by decide +kernel), meets edgePin (by decide +kernel),
   meets { mer := { pins := ⟨[(3, { high := true })]⟩ } } (by decide +kernel)⟩

theorem witness_MeridianCycle :
    (∃ s : State, s.pending = [] ∧ s.toDev.inReset = true) ∧
    (∃ s : State, s.pending = [] ∧ s.toDev.inReset = false ∧ s.toDev.on? Fld.MER_CTRL_ENABLE = false) ∧
    (∃ s : State, s.pending = [] ∧ s.toDev.inReset = false ∧ s.toDev.on? Fld.MER_CTRL_ENABLE = true ∧
      s.toDev.mer.rateA.natAbs = 281474976710 ∧ s.toDev.mer.slewPpm = -1000 ∧ s.toDev.mer.slewLeft < 0 ∧ 0 < s.toDev.mer.stepLeft) ∧
    ∃ s : State, s.pending = [] ∧ s.toDev.inReset = false ∧ s.toDev.on? Fld.MER_CTRL_ENABLE = true ∧ 0 < s.toDev.mer.slewPpm ∧
      0 < s.toDev.mer.slewLeft :=
  ⟨⟨{ toDev := { pwr := { resetN := true } } }, by decide +kernel⟩, ⟨{ toDev := ({} : Dev).set Fld.MER_CTRL_ENABLE 0 0 }, by decide +kernel⟩,
   ⟨{ toDev := { mer := { rateA := -281474976710, slewPpm := -1000, slewLeft := -9, stepLeft := 11 } } }, by decide +kernel⟩,
   ⟨{ toDev := { mer := { slewPpm := 7, slewLeft := 9 } } }, by decide +kernel⟩⟩

theorem witness_PinFifo :
    HasDev (fun d => d.pinMode 0 = 1 ∧ edgeSelected (d.get Fld.MER_TIO_CTRL_EDGE 0) true = true ∧ (d.pin 0).fifo.length = 16) ∧
    HasReached (regLoc .MER_TIO_STAMP 3) (fun _ => devAt .MER_TIO_STAMP 3) (fun e => (e.pin 3).fifo = []) :=
  ⟨meets ((({ mer := { pins := ⟨[(0, { fifo := List.replicate 16 0 })]⟩ } } : Dev).set Fld.MER_TIO_CTRL_ENABLE 0 1).set Fld.MER_TIO_CTRL_MODE 0 1) (by decide +kernel),
   reaches {} .core (by decide +kernel)⟩

/-! ## Register accesses -/

theorem witness_RegisterAccesses :
    HasReached (regLoc .MER_CTRL 0) (fun _ => devAt .MER_CTRL 0) (fun _ => locAligned (regLoc .MER_CTRL 0) 4 = true ∧
      Reg.MER_CTRL ≠ .DBG_RESET_CTRL ∧ Reg.MER_CTRL ≠ .DBG_THREAD_GREG ∧ Reg.MER_CTRL ≠ .DBG_THREAD_PC) ∧
    HasReached (regLoc .MER_LOAD 0) (fun _ => devAt .MER_LOAD 0) (fun _ => locAligned (regLoc .MER_LOAD 0) 8 = true) ∧
    HasReached (regLoc .MER_STATUS 0) (fun _ => devAt .MER_STATUS 0) (fun _ => locAligned (regLoc .MER_STATUS 0) 4 = true ∧
      Reg.MER_STATUS.latches = false ∧ Reg.MER_STATUS ≠ .MBX_SEND) :=
  ⟨reaches {} .core (by decide +kernel), reaches {} .core (by decide +kernel), reaches {} (.host 0) (by decide +kernel)⟩

/-- What every clause of `AccessErrors` asks of an access. -/
abbrev Accesses (s : State) (req : Requester) (loc l : Loc) : Prop :=
  s.toDev.inReset = false ∧ s.toDev.canAccess req = true ∧ reach req loc = some l ∧ (s.toDev.noteJtag req).standby = false

theorem witness_AccessErrors :
    (∃ (s : State) (req : Requester) (loc l : Loc), Accesses s req loc l ∧ (∀ f, req ≠ .host f) ∧
      locAligned loc 4 = true ∧ (s.toDev.noteJtag req).spotAt req l = .reserved) ∧
    (∃ (s : State) (req : Requester) (loc l : Loc) (size : Nat), Accesses s req loc l ∧ (∀ f, req ≠ .host f) ∧ size = 2) ∧
    (∃ (s : State) (req : Requester) (loc l : Loc), Accesses s req loc l ∧ (∀ f, req ≠ .host f) ∧ locAligned loc 8 = false) ∧
    (∃ (s : State) (loc l : Loc), Accesses s (.host 0) loc l ∧ ((s.toDev.noteJtag (.host 0)).hif.cfg.getD 0 {}).d3hot = false ∧
      locAligned loc 4 = false) ∧
    (∃ (s : State) (req : Requester) (loc l : Loc) (a : RegAt), Accesses s req loc l ∧ locAligned loc 4 = true ∧
      (s.toDev.noteJtag req).spotAt req l = .reg a ∧
      (s.toDev.noteJtag req).hostBarred req (.reg a) = false ∧ (s.toDev.noteJtag req).unavailable (.reg a) = some 4) ∧
    (∃ (s : State) (loc l : Loc), Accesses s (.host 0) loc l ∧ ((s.toDev.noteJtag (.host 0)).hif.cfg.getD 0 {}).d3hot = true) ∧
    (∃ (s : State) (req : Requester) (loc l : Loc), Accesses s req loc l ∧ locAligned loc 8 = true) :=
  ⟨⟨{}, .core, .dev 0x3FEFFFC, .dev 0x3FEFFFC, by decide +kernel, by simp, by decide +kernel⟩,
   ⟨{}, .core, .dev 0, .dev 0, 2, by decide +kernel, by simp, rfl⟩,
   ⟨{}, .jtag, .dev 4, .dev 4, by decide +kernel, by simp, by decide +kernel⟩,
   ⟨{}, .page 0 2, .page 0 2, by decide +kernel⟩,
   ⟨{ toDev := ({} : Dev).set Fld.PWR_ISLAND_STAT_ON 4 0 }, .core, regLoc .CIP_PORT_MACSEC 0, regLoc .CIP_PORT_MACSEC 0, devAt .CIP_PORT_MACSEC 0,
    by decide +kernel⟩,
   ⟨{ toDev := { hif := { cfg := ⟨[(0, { d3hot := true })]⟩ } } }, .page 0 0, .page 0 0, by decide +kernel⟩,
   ⟨{}, .core, .dev 0, .dev 0, by decide +kernel⟩⟩

theorem witness_ThreadControls :
    HasReached (regLoc .DBG_THREAD_CTRL 511) (fun _ => devAt .DBG_THREAD_CTRL 511) (fun _ => 511 < 512) ∧
    HasReached (regLoc .PCA_THREAD_CTRL 511) (fun _ => devAt .PCA_THREAD_CTRL 511) (fun _ => 511 < 512) ∧
    HasReached (regLoc .DBG_THREAD_GREG 31) (fun _ => devAt .DBG_THREAD_GREG 31) (fun e => e.selectedHalted = some 0 ∧ 31 < 32) ∧
    HasReached (regLoc .DBG_THREAD_PC 0) (fun _ => devAt .DBG_THREAD_PC 0) (fun e => e.selectedHalted = some 0) :=
  ⟨reaches {} .core (by decide +kernel), reaches {} .core (by decide +kernel),
   reaches (running { halted := true }) .core (by decide +kernel), reaches (running { halted := true }) .core (by decide +kernel)⟩

theorem witness_Enables :
    HasReached (regLoc .PRT_PORT_CFG 17) (fun _ => devAt .PRT_PORT_CFG 17) (fun e => (e.rd .PRT_PORT_CFG 17).getLsbD 31 = false) ∧
    HasReached (regLoc .PRT_PORT_CFG 0) (fun _ => devAt .PRT_PORT_CFG 0) (fun e => (e.rd .PRT_PORT_CFG 0).getLsbD 31 = true) ∧
    HasReached (regLoc .TBL_DESC_CFG 63) (fun _ => devAt .TBL_DESC_CFG 63) (fun e => (e.rd .TBL_DESC_CFG 63).getLsbD 31 = false) ∧
    HasReached (regLoc .TBL_DESC_CFG 63) (fun _ => devAt .TBL_DESC_CFG 63) (fun e => (e.rd .TBL_DESC_CFG 63).getLsbD 31 = true) ∧
    HasReached (regLoc .TBL_CTRL 0) (fun _ => devAt .TBL_CTRL 0) (fun e => (e.rd .TBL_CTRL).getLsbD 31 = false) ∧
    HasReached (regLoc .TBL_CTRL 0) (fun _ => devAt .TBL_CTRL 0) (fun e => (e.rd .TBL_CTRL).getLsbD 31 = true) ∧
    HasReached (regLoc .TMG_SHAPER_CTRL 8191) (fun _ => devAt .TMG_SHAPER_CTRL 8191) (fun e => (e.rd .TMG_SHAPER_CTRL 8191).getLsbD 31 = false) ∧
    HasReached (regLoc .TMG_SHAPER_CTRL 8191) (fun _ => devAt .TMG_SHAPER_CTRL 8191) (fun e => (e.rd .TMG_SHAPER_CTRL 8191).getLsbD 31 = true) ∧
    HasReached (regLoc .PCA_CHAN_CFG 127) (fun _ => devAt .PCA_CHAN_CFG 127) (fun _ => (0 : Word).getLsbD 31 = false) ∧
    HasReached (regLoc .MER_LOAD 0 2) (fun _ => devAt .MER_LOAD 0 2) (fun e => e.on? Fld.MER_CTRL_ENABLE = false) ∧
    HasReached (regLoc .MER_CTRL 0) (fun _ => devAt .MER_CTRL 0) (fun e => (e.rd .MER_CTRL).getLsbD 0 = false) ∧
    HasReached (regLoc .MER_CTRL 0) (fun _ => devAt .MER_CTRL 0) (fun e => (e.rd .MER_CTRL).getLsbD 0 = true) ∧
    HasReached (regLoc .DBG_LOG_CTRL 0) (fun _ => devAt .DBG_LOG_CTRL 0) (fun e => (e.rd .DBG_LOG_CTRL).getLsbD 31 = false) :=
  ⟨reaches (({} : Dev).wr .PRT_PORT_CFG 17 0 0) .core (by decide +kernel), reaches (({} : Dev).wr .PRT_PORT_CFG 0 0 (BitVec.ofNat 32 (2 ^ 31))) .core (by decide +kernel),
   reaches (({} : Dev).wr .TBL_DESC_CFG 63 0 0) .core (by decide +kernel), reaches (({} : Dev).wr .TBL_DESC_CFG 63 0 (BitVec.ofNat 32 (2 ^ 31))) .core (by decide +kernel),
   reaches (({} : Dev).wr .TBL_CTRL 0 0 0) .core (by decide +kernel), reaches (({} : Dev).wr .TBL_CTRL 0 0 (BitVec.ofNat 32 (2 ^ 31))) .core (by decide +kernel),
   reaches (({} : Dev).wr .TMG_SHAPER_CTRL 8191 0 0) .core (by decide +kernel), reaches (({} : Dev).wr .TMG_SHAPER_CTRL 8191 0 (BitVec.ofNat 32 (2 ^ 31))) .core (by decide +kernel),
   reaches {} .core (by decide +kernel), reaches (({} : Dev).wr .MER_CTRL 0 0 0) .core (by decide +kernel),
   reaches (({} : Dev).wr .MER_CTRL 0 0 0) .core (by decide +kernel), reaches (({} : Dev).wr .MER_CTRL 0 0 1) .core (by decide +kernel),
   reaches (({} : Dev).wr .DBG_LOG_CTRL 0 0 0) .core (by decide +kernel)⟩

theorem witness_LatchingReads :
    HasReached (regLoc .MER_NOW 0) (fun _ => devAt .MER_NOW 0) (fun _ => True) ∧
    HasReached (regLoc .MER_LOAD 0) (fun _ => devAt .MER_LOAD 0) (fun _ => True) ∧
    HasReached (regLoc .MER_TIO_TARGET 3) (fun _ => devAt .MER_TIO_TARGET 3) (fun _ => True) ∧
    HasReached (regLoc .MER_RATE_ADJ 0) (fun _ => devAt .MER_RATE_ADJ 0) (fun _ => True) ∧
    HasReached (regLoc .MER_TIO_STAMP 3) (fun _ => devAt .MER_TIO_STAMP 3) (fun e => (e.pin 3).fifo = []) ∧
    HasReached (regLoc .MER_TIO_STAMP 3) (fun _ => devAt .MER_TIO_STAMP 3) (fun e => (e.pin 3).fifo = [7]) ∧
    HasReached (regLoc .TMG_GATE_STAT 17) (fun _ => devAt .TMG_GATE_STAT 17) (fun _ => 17 < 18) ∧
    HasReached (regLoc .FNC_GEN_REC 1023) (fun _ => devAt .FNC_GEN_REC 1023) (fun _ => 1023 < 1024) ∧
    HasReached (pageLoc 3 .MBX_RX_STAMP 0) (fun d => pageAt d 3 .MBX_RX_STAMP) (fun _ => True) :=
  ⟨reaches {} .core (by decide +kernel), reaches {} .core (by decide +kernel), reaches {} .core (by decide +kernel),
   reaches {} .core (by decide +kernel), reaches {} .core (by decide +kernel),
   reaches { mer := { pins := ⟨[(3, { fifo := [7] })]⟩ } } .core (by decide +kernel), reaches {} .core (by decide +kernel),
   reaches {} .core (by decide +kernel), reaches {} (.host 3) (by decide +kernel)⟩

/-- PF0 with the device's first 64 queue pairs, the other physical functions with none; its pair 63 enabled. -/
def paired : Dev :=
  ([1, 2, 3].foldl (fun (d : Dev) f => d.wr .FNC_QP_MAP f 0 0) (({} : Dev).wr .FNC_QP_MAP 0 0 (toWord (64 * 2 ^ 24)))).set Fld.HIF_QP_CTX_ENABLE 63 1

theorem witness_DoorbellsAndQueues :
    HasReached (pageLoc 0 .HIF_TX_TAIL 63) (fun e => pageAt e 0 .HIF_TX_TAIL 63) (fun e =>
      let b := stored e (pageAt e 0 .HIF_TX_TAIL 63) 1
      b.fnState 0 ≠ 1 ∧ b.on? Fld.HIF_QP_CTX_ENABLE (b.qpBase 0 + 63) = true) ∧
    HasReached (pageLoc 0 .HIF_RX_TAIL 63) (fun e => pageAt e 0 .HIF_RX_TAIL 63) (fun e =>
      let b := stored e (pageAt e 0 .HIF_RX_TAIL 63) 1
      b.fnState 0 ≠ 1 ∧ b.on? Fld.HIF_QP_CTX_ENABLE (b.qpBase 0 + 63) = true) ∧
    HasReached (pageLoc 0 .HIF_TXC_HEAD 63) (fun e => pageAt e 0 .HIF_TXC_HEAD 63) (fun e => (stored e (pageAt e 0 .HIF_TXC_HEAD 63) 1).fnState 0 ≠ 1) ∧
    HasReached (pageLoc 0 .HIF_RXC_HEAD 63) (fun e => pageAt e 0 .HIF_RXC_HEAD 63) (fun e => (stored e (pageAt e 0 .HIF_RXC_HEAD 63) 1).fnState 0 ≠ 1) ∧
    HasReached (pageLoc 3 .HIF_AQ_TAIL 0) (fun e => pageAt e 3 .HIF_AQ_TAIL) (fun e =>
      let b := stored e (pageAt e 3 .HIF_AQ_TAIL) 1
      b.fnState 3 ≠ 1 ∧ b.on? Fld.HIF_AQ_CFG_ENABLE 3 = true) ∧
    HasReached (pageLoc 3 .HIF_AQC_HEAD 0) (fun e => pageAt e 3 .HIF_AQC_HEAD) (fun e => (stored e (pageAt e 3 .HIF_AQC_HEAD) 1).fnState 3 ≠ 1) ∧
    HasReached (pageLoc 0 .HIF_QP_CTX 63) (fun e => pageAt e 0 .HIF_QP_CTX 63) (fun _ => 63 < 64) ∧
    HasReached (pageLoc 3 .HIF_AQ_CFG 0) (fun e => pageAt e 3 .HIF_AQ_CFG) (fun _ => 3 < 4) :=
  ⟨reaches paired (.host 0) (by decide +kernel), reaches paired (.host 0) (by decide +kernel), reaches paired (.host 0) (by decide +kernel),
   reaches paired (.host 0) (by decide +kernel), reaches (({} : Dev).set Fld.HIF_AQ_CFG_ENABLE 3 1) (.host 3) (by decide +kernel),
   reaches {} (.host 3) (by decide +kernel), reaches paired (.host 0) (by decide +kernel), reaches {} (.host 3) (by decide +kernel)⟩

/-- PF0 about to send its virtual function of number 4 a message of 256 bytes. -/
def mailing : Dev :=
  (((({ hif := { sriov := ⟨[(0, { vfEnable := true, numVfs := 255 })]⟩ } } : Dev).set Fld.MBX_TX_CTRL_DEST 0 4).set Fld.MBX_TX_CTRL_KIND 0 1).set
    Fld.MBX_TX_CTRL_LEN 0 256)

theorem witness_MailboxAccesses :
    HasReached (pageLoc 0 .MBX_SEND 0) (fun e => pageAt e 0 .MBX_SEND) (fun e => e.sendRefusal 0 = none ∧ e.mailDomain (e.txDest 0) = true ∧
      e.hasRoom 0 (e.txDest 0) = true ∧ e.postHeld 0 (e.txDest 0) = false) ∧
    HasReached (pageLoc 0 .MBX_POST 0) (fun e => pageAt e 0 .MBX_POST) (fun e =>
      let b := stored e (pageAt e 0 .MBX_POST) 1
      b.sendRefusal 0 = none ∧ b.mailDomain (b.txDest 0) = true ∧ b.hasRoom 0 (b.txDest 0) = true ∧ b.postHeld 0 (b.txDest 0) = false) ∧
    HasReached (pageLoc 0 .MBX_POST 0) (fun e => pageAt e 0 .MBX_POST) (fun e =>
      let b := stored e (pageAt e 0 .MBX_POST) 1
      b.sendRefusal 0 = none ∧ b.mailDomain (b.txDest 0) = false ∧ b.mbx.holding.length < 1024) ∧
    HasReached (pageLoc 0 .MBX_RING 0) (fun e => pageAt e 0 .MBX_RING) (fun e =>
      let b := stored e (pageAt e 0 .MBX_RING) 1
      b.txDest 0 < 1024 ∧ b.mayMail 0 (b.txDest 0) 1 = true) ∧
    HasReached (pageLoc 0 .MBX_RX_POP 0) (fun e => pageAt e 0 .MBX_RX_POP) (fun _ => (1 : Word).getLsbD 0 = true) :=
  ⟨reaches mailing (.host 0) (by decide +kernel), reaches mailing (.host 0) (by decide +kernel),
   reaches { mailing with hif := { mailing.hif with cfg := ⟨[(4, { d3hot := true })]⟩ } } (.host 0) (by decide +kernel),
   reaches mailing (.host 0) (by decide +kernel),
   reaches {} (.host 0) (by decide +kernel)⟩

/-! ## Firmware, trust and identity -/

theorem witness_DeviceCommands :
    HasTaken 0x0100 (fun _ _ _ _ => True) ∧ HasTaken 0x0101 (fun _ _ _ _ => True) ∧ HasTaken 0x0104 (fun _ _ _ _ => True) ∧
    HasTaken 0x0102 (fun n _ p e => (le32 p 0).getLsbD 30 = false ∧ (le32 p 16).toNat ≤ 65536 ∧
      (le32 p 4).toNat + (le32 p 16).toNat ≤ 0x1000000 ∧
      (e.ownReach (((e.vcl.cmds.look? n).map (·.cmd.issuer)).getD 0) [(le p 8 8, (le32 p 16).toNat)]).1 = .ready) ∧
    HasTaken 0x0102 (fun n _ p e => (le32 p 0).getLsbD 30 = true ∧ (le32 p 16).toNat ≤ 65536 ∧
      (le32 p 4).toNat + (le32 p 16).toNat ≤ 0x1000000 ∧ e.railsGood = true ∧ e.on? Fld.SEC_STAT_RECOVERY = false ∧
      (e.ownReach (((e.vcl.cmds.look? n).map (·.cmd.issuer)).getD 0) [(le p 8 8, (le32 p 16).toNat)]).1 = .ready) ∧
    HasTaken 0x0102 (fun _ _ p _ => 0x1000000 < (le32 p 4).toNat + (le32 p 16).toNat) ∧
    HasTaken 0x0105 (fun _ _ _ _ => True) :=
  let c0 := cmd 0x0100 0 []
  let c1 := cmd 0x0101 0 []
  let c2 := cmd 0x0104 0 []
  let c3 := cmd 0x0102 0 [0, 0xFF0000, 0, 0, 65536]
  let c4 := cmd 0x0105 0 []
  let c5 := cmd 0x0102 0 [toWord (2 ^ 30), 0, 0, 0, 0]
  let c6 := cmd 0x0102 0 [0, 0xFF0001, 0, 0, 65536]
  ⟨takes (waits {} c0) c0 (by decide +kernel), takes (waits {} c1) c1 (by decide +kernel), takes (waits {} c2) c2 (by decide +kernel),
   takes (waits {} c3) c3 (by decide +kernel), takes (waits {} c5) c5 (by decide +kernel), takes (waits {} c6) c6 (by decide +kernel),
   takes (waits {} c4) c4 (by decide +kernel)⟩

/-- No clause asks for an image whose signatures verify: that they do is a case of the conclusion. -/
theorem witness_FirmwareStart :
    HasTaken 0x0103 (fun _ _ _ e => e.on? Fld.VCL_FW_STATE_STAGED = true ∧ e.mramBad 0x2000 0x3000 = false ∧ e.railsGood = true) ∧
    HasDev (fun d => (d.vcl.switch.any fun w => !w.stopped && decide (w.start + 10000000 ≤ d.ref)) = true) ∧
    HasDev (fun d => (d.vcl.switch.any fun w => w.stopped) = true ∧ d.mayStart (1 - d.image) = true) ∧
    HasDev (fun d => (d.vcl.switch.any fun w => w.stopped) = true ∧ d.mayStart (1 - d.image) = false) ∧
    HasDev (fun d => d.vcl.up = false ∧ d.on? Fld.SEC_STAT_RECOVERY = false ∧ d.on? Fld.PWR_STAT_POR_DONE = true) :=
  let c := cmd 0x0103 0 [0]
  ⟨takes (waits (({} : Dev).set Fld.VCL_FW_STATE_STAGED 0 1) c) c (by decide +kernel), meets { vcl := { switch := some { start := 0, cmd := 0, stopped := false } }, mer := { refCycles := 5000000 } } (by decide +kernel),
   meets { vcl := { switch := some { start := 0, cmd := 0, stopped := true } } } (by decide +kernel),
   meets (({ vcl := { switch := some { start := 0, cmd := 0, stopped := true } }, sec := { nor := ⟨[(1, List.replicate 64 1)]⟩ } } : Dev).set
      Fld.PWR_STAT_WARN 0 1) (by decide +kernel),
   meets {} (by decide +kernel)⟩

theorem witness_AttestationAndRandom :
    HasTaken 0x0E01 (fun _ a p e => (a.cmd.via.oob = true → attestAddr p = 0) ∧ (le32 p 0).getLsbD 31 = false ∧ e.sec.pkgTokens ≠ 0 ∧
      e.fnTokens a.fn ≠ 0 ∧ e.nextIndex < 2 ^ 30 ∧ (∀ r ∈ e.attestReads a p, e.mramBad r.1 r.2 = false) ∧ e.mayProceed = true ∧ e.sec.attests = []) ∧
    HasDev (fun d => d.sec.keygen.isSome = true ∧ d.railsGood = true) ∧ HasDev (fun d => d.sec.keygen.isSome = true ∧ d.railsGood = false) ∧
    HasDev (fun d => d.vcl.up = true) ∧
    HasDev (fun d => d.sec.pkgAt + d.pkgInterval ≤ d.ref) ∧
    HasDev (fun d => d.sec.fnAt.getD 1023 d.sec.fnFrom + d.fnInterval ≤ d.ref) ∧
    HasTaken 0x0E06 (fun _ _ p e => 1 ≤ bitsOf (le32 p 0) 6 0 ∧ bitsOf (le32 p 0) 6 0 ≤ 64 ∧ e.on? Fld.SEC_STAT_TRNG_FAIL = false) ∧
    HasDev (fun d => d.on? Fld.SEC_STAT_TRNG_FAIL = false ∧ d.sec.drbgAt + 1000000 ≤ d.ref) ∧
    HasDev (fun d => d.on? Fld.SEC_STAT_TRNG_FAIL = true ∧ d.sec.trngAt + 1000000000 ≤ d.ref) :=
  let c1 := cmd 0x0E01 0 [0, 0, 0, 0, 0, 0, 0, 0, 0, 0, 0, 0]
  let c2 := cmd 0x0E06 1023 [64] 3
  ⟨takes (waits (({} : Dev).set Fld.SEC_STAT_SIGN_READY 0 1) c1) c1 (by decide +kernel), meets { sec := { keygen := some 0 } } (by decide +kernel),
   meets (({ sec := { keygen := some 0 } } : Dev).set Fld.PWR_STAT_WARN 0 1) (by decide +kernel),
   meets { vcl := { up := true } } (by decide +kernel), meets { mer := { refCycles := 2 ^ 60 } } (by decide +kernel),
   meets { mer := { refCycles := 2 ^ 60 } } (by decide +kernel),
   takes (waits { hif := { sriov := ⟨[(3, { vfEnable := true, numVfs := 255 })]⟩ } } c2) c2 (by decide +kernel),
   meets { mer := { refCycles := 500000 } } (by decide +kernel),
   meets (({ mer := { refCycles := 500000000 } } : Dev).set Fld.SEC_STAT_TRNG_FAIL 0 1) (by decide +kernel)⟩

/-- A device with an owner record in MRAM and the domains of `l`. -/
def ownedBy (l : List Nat) : Dev :=
  { sec := { mram := { owner := some ⟨[], [], []⟩, domains := ⟨l.map fun k => (k, ⟨[], [], []⟩)⟩ } } }

/-- No clause asks for a key that unwraps or a signature that verifies: both outcomes are cases of the conclusion. -/
theorem witness_TrustWrites :
    (∃ f g : Nat, g ≠ f) ∧
    HasTaken 0x0E02 (fun _ _ p e => e.railsGood = true ∧ e.mramBad (cartoucheAt e.sec.mram.selector) (cartoucheAt e.sec.mram.selector + 1024) = false ∧
      bitsOf (le32 p 0) 9 0 % 8 = 0 ∧ (le32 p 4).toNat % 8 = 0 ∧ bitsOf (le32 p 0) 9 0 + (le32 p 4).toNat = 1024 ∧ (le32 p 4).toNat ≠ 0) ∧
    HasTaken 0x0E03 (fun _ a p e => e.railsGood = true ∧ pfOf (bitsOf (le32 p 0) 9 0) = a.cmd.issuer ∧ e.exists? (bitsOf (le32 p 0) 9 0) = true) ∧
    HasTaken 0x0E04 (fun _ _ p e => e.railsGood = true ∧ e.mramBad 0x2000 0x3000 = false ∧ (le32 p 0).getLsbD 31 = false ∧ (le32 p 4).toNat = 100 ∧
      e.owner?.isNone = true) ∧
    HasTaken 0x0E04 (fun _ _ p e => e.railsGood = true ∧ e.mramBad 0x2000 0x3000 = false ∧ (le32 p 0).getLsbD 31 = false ∧ (le32 p 4).toNat = 2928 ∧
      e.owner?.isSome = true) ∧
    HasTaken 0x0E04 (fun _ _ p e => e.railsGood = true ∧ e.mramBad 0x2000 0x3000 = false ∧ (le32 p 0).getLsbD 31 = true ∧ (le32 p 4).toNat = 2820 ∧
      e.owner?.isSome = true) ∧
    HasTaken 0x0E05 (fun _ _ p e => e.railsGood = true ∧ e.mramBad 0x2000 0x4000 = false ∧ e.owner?.isSome = true ∧ bitsOf (le32 p 0) 7 0 = 3 ∧
      (le32 p 0).getLsbD 31 = false ∧ (le32 p 4).toNat = 40) ∧
    HasTaken 0x0E05 (fun _ _ p e => e.railsGood = true ∧ e.mramBad 0x2000 0x4000 = false ∧ e.owner?.isSome = true ∧ bitsOf (le32 p 0) 7 0 = 3 ∧
      (le32 p 0).getLsbD 31 = true ∧ (le32 p 4).toNat = 0) ∧
    HasTaken 0x0B06 (fun _ _ p e => e.railsGood = true ∧ e.mramBad 0x2000 0x4000 = false ∧ e.owner?.isSome = true ∧
      (le32 p 0).getLsbD 31 = false ∧ (le32 p 8).toNat = 40 ∧ (e.sec.mram.domains.look? (le32 p 4).toNat).isNone = true ∧ e.sec.mram.domains.size = 4) ∧
    HasTaken 0x0B06 (fun _ _ p e => e.railsGood = true ∧ e.mramBad 0x2000 0x4000 = false ∧ e.owner?.isSome = true ∧
      (le32 p 0).getLsbD 31 = true ∧ (le32 p 8).toNat = 0) :=
  let c1 := cmd 0x0E02 0 [1016, 8, 1, 2]
  let c2 := cmd 0x0E03 3 (3 :: List.replicate 16 7)
  let c3 := cmd 0x0E04 0 (0 :: 100 :: List.replicate 25 7)
  let c4 := cmd 0x0E04 0 (0 :: 2928 :: List.replicate 732 7)
  let c5 := cmd 0x0E04 0 (toWord (2 ^ 31) :: 2820 :: List.replicate 705 7)
  let c6 := cmd 0x0E05 0 (3 :: 40 :: List.replicate 10 7)
  let c7 := cmd 0x0E05 0 [toWord (2 ^ 31 + 3), 0]
  let c8 := cmd 0x0B06 0 (0 :: 9 :: 40 :: List.replicate 10 7)
  let c9 := cmd 0x0B06 0 [toWord (2 ^ 31), 9, 0]
  ⟨⟨0, 1, by decide⟩, takes (waits {} c1) c1 (by decide +kernel), takes (waits {} c2) c2 (by decide +kernel), takes (waits {} c3) c3 (by decide +kernel),
   takes (waits (ownedBy []) c4) c4 (by decide +kernel), takes (waits (ownedBy []) c5) c5 (by decide +kernel),
   takes (waits (ownedBy []) c6) c6 (by decide +kernel), takes (waits (ownedBy []) c7) c7 (by decide +kernel),
   takes (waits (ownedBy [1, 2, 3, 4]) c8) c8 (by decide +kernel), takes (waits (ownedBy []) c9) c9 (by decide +kernel)⟩

/-! ## The slow path, held posts, SMBus and the management VLAN -/

/-- A device that holds frame 0 on the slow path for PF0 under handle 5, until `due`. -/
def slowly (due : Nat := 1) : Dev :=
  { frames := ⟨[(0, { inPort := 0, stamp := 0, bytes := List.replicate 64 0, stage := .slow 0 5 })]⟩,
    vcl := { slow := ⟨[(5, { frame := 0, owner := 0, deadline := due })]⟩ } }

theorem witness_Mail :
    (∀ action : Fin 3, HasTaken 0x1001 (fun _ a p e => (le32 p 0).toNat = 5 ∧ bitsOf (le32 p 4) 1 0 = action ∧
      ((e.vcl.slow.look? 5).any fun x => decide (x.owner = a.fn) && decide (e.ref < x.deadline) && (e.frame? x.frame).any fun f => !e.staleFrame f) = true ∧
      (action = 2 → bitsOf (le32 p 4) 21 16 < e.qpCount a.fn))) ∧
    HasTaken 0x1001 (fun _ a p e => (le32 p 0).toNat = 5 ∧ ((e.vcl.slow.look? 5).any fun x => decide (x.owner ≠ a.fn)) = true) ∧
    HasTaken 0x1001 (fun _ a p e => (le32 p 0).toNat = 5 ∧
      ((e.vcl.slow.look? 5).any fun x => decide (x.owner = a.fn) && decide (x.deadline ≤ e.ref)) = true) ∧
    HasDev (fun d => ((d.vcl.slow.look? 5).any fun x => decide (x.deadline ≤ d.ref)) = true) ∧
    HasDev (fun d => (d.mbx.holding.find? fun q => q.sender == 0 && q.receiver == 4).isSome = true ∧ d.mailDomain 4 = true ∧
      d.hasRoom 0 4 = true) :=
  ⟨fun action =>
     match action with
     | 0 => let c := cmd 0x1001 0 [5, 0]; takes (waits slowly c) c (by decide +kernel)
     | 1 => let c := cmd 0x1001 0 [5, 1]; takes (waits slowly c) c (by decide +kernel)
     | 2 => let c := cmd 0x1001 0 [5, 2 + 2 ^ 16 * 63]
            takes (waits ((slowly).wr .FNC_QP_MAP 0 0 (toWord (64 * 2 ^ 24))) c) c (by decide +kernel),
   (let c := cmd 0x1001 1 [5, 0]; takes (waits slowly c) c (by decide +kernel)),
   (let c := cmd 0x1001 0 [5, 0]; takes (waits (slowly 0) c) c (by decide +kernel)),
   meets (slowly 0) (by decide +kernel),
   meets { mailing with mbx := { holding := [{ sender := 0, receiver := 4, kind := 1, bytes := [], senderGen := 0, receiverGen := 0 }] } }
     (by decide +kernel)⟩

/-- The head of a management frame to 02-00-00-00-00-01 in VLAN 5 with key 3, a header alone as its packet and the counter
2^24 x `hi` + `c`. -/
def mgmtHead (hi c : Byte) : Bytes :=
  bytesBE 6 0x020000000001 ++ bytesBE 6 0x020000000002 ++ bytesBE 6 0x8100000588B5 ++ bytesLE 4 0x01000003 ++ [0, 0, 0, 0, hi, 0, 0, c]
    ++ List.replicate 32 0

/-- The registers of a device that diverts such frames, with its rails good or in warning. -/
def divertRegs (warn : Nat) : Tbl Word :=
  ((((((({} : Dev).wr .VCL_MGMT_MAC_HI 0 0 0x02000000).set Fld.VCL_MGMT_MAC_LO_MAC 0 1).set Fld.VCL_MGMT_CFG_ENABLE 0 1).set Fld.VCL_MGMT_CFG_PORTS 0 4
    |>.set Fld.VCL_MGMT_CFG_VID 0 5).set Fld.PWR_STAT_WARN 0 warn)).regs

/-- One such frame in a device that holds key 3, its tag `tag`. -/
def managed (warn : Nat) (hi c : Byte) (tag : Bytes) : Dev :=
  { sec := { mram := { mgmtKeys := ⟨[(3, ⟨⟨[], [], []⟩, ⟨[], [], []⟩⟩)]⟩ } }, regs := divertRegs warn,
    frames := ⟨[(0, { inPort := 2, stamp := 0, bytes := mgmtHead hi c ++ tag, stage := .legend })]⟩ }

/-- Key 3 as that device holds it. -/
def heldKey : MgmtKey := { key := (⟨[], [], []⟩ : Sealed).plain }

/-- The tag that authenticates it. -/
def mgmtTag (hi c : Byte) : Bytes := gcmTag heldKey.key ([0#8, 0, 0, 0] ++ bytesBE 8 (2 ^ 24 * hi.toNat + c.toNat)) (mgmtHead hi c) []

/-- What `OutOfBand` asks of a diverted frame, but for its tag. -/
def Diverted (d : Dev) (counter : Nat) (pkt aad tag : Bytes) : Prop :=
  ∃ f, d.frame? 0 = some f ∧ f.stage = .legend ∧ d.diverts f = true ∧ d.vcl.mgmtQ.length < 64 ∧
    mgmtParts f.bytes = some (3, counter, pkt, aad, tag) ∧ d.mramBad 0x3000 0x4000 = false ∧ d.mgmtKey 3 = some heldKey

theorem slice_before (h t : Bytes) (i n : Nat) (hl : i + n ≤ h.length) : slice (h ++ t) i n = slice h i n :=
  List.map_congr_left fun k hk => by
    have := List.mem_range.1 hk
    simp only [List.getD_eq_getElem?_getD]
    rw [List.getElem?_append_left (by omega)]

theorem slice_behind (h t : Bytes) : slice (h ++ t) h.length t.length = t :=
  List.ext_getElem (by simp [slice]) fun k hk hk' => by simp [slice, hk']

theorem mgmtHead_length (hi c : Byte) : (mgmtHead hi c).length = 62 := by simp [mgmtHead, bytesBE, bytesLE]

theorem managed_diverted (warn : Nat) (hi c : Byte) (tag : Bytes)
    (hc : (warn = 0 ∧ hi = 0 ∧ c = 0) ∨ (warn = 0 ∧ hi = 0 ∧ c = 1) ∨ (warn = 1 ∧ hi = 1 ∧ c = 1)) (h : tag.length = 16) :
    Diverted (managed warn hi c tag) (2 ^ 24 * hi.toNat + c.toNat) (List.replicate 32 0) (mgmtHead hi c) tag := by
  have hl := mgmtHead_length hi c
  have hb : ∀ i n, i + n ≤ 62 → be (mgmtHead hi c ++ tag) i n = be (mgmtHead hi c) i n := fun i n hi => by
    rw [be, slice_before _ _ _ _ (by omega)]; rfl
  have hp : mgmtParts (mgmtHead hi c ++ tag) = some (3, 2 ^ 24 * hi.toNat + c.toNat, List.replicate 32 0, mgmtHead hi c, tag) := by
    have ht : (((mgmtHead hi c ++ tag).drop 30).take ((mgmtHead hi c ++ tag).length - 46)) = (mgmtHead hi c).drop 30 := by
      rw [List.drop_append_of_le_length (by omega), List.length_append, hl, h, List.take_append_of_le_length (by simp [hl]),
        List.take_of_length_le (by simp [hl])]
    have hw : le32 (mgmtHead hi c ++ tag) 18 = le32 (mgmtHead hi c) 18 := by
      rw [le32, le, slice_before _ _ _ _ (by omega)]; rfl
    have hs := slice_behind (mgmtHead hi c) tag
    rw [hl, h] at hs
    unfold mgmtParts
    rw [if_neg (by simp only [List.length_append, hl, h]; omega)]
    simp only [ht, hw, hb 22 8 (by omega)]
    have hk : min ((mgmtHead hi c).drop 30).length (32 + bitsOf (le32 ((mgmtHead hi c).drop 30) 8) 16 0) = 32 ∧
        ¬ bitsOf (le32 (mgmtHead hi c) 18) 31 24 ≠ 1 ∧
        bitsOf (le32 (mgmtHead hi c) 18) 7 0 = 3 ∧ be (mgmtHead hi c) 22 8 = 2 ^ 24 * hi.toNat + c.toNat ∧
        ((mgmtHead hi c).drop 30).take 32 = List.replicate 32 0 ∧ (mgmtHead hi c).take (30 + 32) = mgmtHead hi c := by
      obtain ⟨_, rfl, rfl⟩ | ⟨_, rfl, rfl⟩ | ⟨_, rfl, rfl⟩ := hc <;> decide +kernel
    rw [hk.1, if_neg hk.2.1, hs, List.take_append_of_le_length (by omega), hk.2.2.1, hk.2.2.2.1, hk.2.2.2.2.1, hk.2.2.2.2.2]
  refine ⟨{ inPort := 2, stamp := 0, bytes := mgmtHead hi c ++ tag, stage := .legend }, rfl, rfl, ?_, Nat.zero_lt_succ 63, hp, rfl, rfl⟩
  simp only [Dev.diverts, hb 0 6 (by omega), hb 12 2 (by omega), hb 14 2 (by omega), hb 16 2 (by omega)]
  have hd : ∀ r i w, (managed warn hi c tag).rd r i w = ({ regs := divertRegs warn } : Dev).rd r i w := fun _ _ _ => rfl
  have hg : ∀ F i, (managed warn hi c tag).get F i = ({ regs := divertRegs warn } : Dev).get F i := fun _ _ => rfl
  have ho : ∀ F i, (managed warn hi c tag).on? F i = ({ regs := divertRegs warn } : Dev).on? F i := fun _ _ => rfl
  simp only [hd, hg, ho]
  obtain ⟨rfl, rfl, rfl⟩ | ⟨rfl, rfl, rfl⟩ | ⟨rfl, rfl, rfl⟩ := hc <;> decide +kernel

theorem managed_out (w : Nat) (hi c : Byte) (t : Bytes) : (managed w hi c t).inReset = false := by
  show ({} : Dev).inReset = false
  decide +kernel

/-- The rails of such a device, and the tag that it accepts. -/
theorem managed_rails : (∀ t, (managed 0 0 1 t).railsGood = true) ∧ ∀ t, (managed 1 1 1 t).railsGood = false := by
  have ho : ∀ w hi c t, (managed w hi c t).railsGood = ({ regs := divertRegs w } : Dev).railsGood := fun _ _ _ _ => rfl
  simp only [ho]
  exact ⟨fun _ => by decide +kernel, fun _ => by decide +kernel⟩

theorem mgmtTag_ok (hi c : Byte) (h : 0 < 2 ^ 24 * hi.toNat + c.toNat) :
    (mgmtTag hi c).length = 16 ∧ mgmtOk heldKey (2 ^ 24 * hi.toNat + c.toNat) (mgmtHead hi c) (mgmtTag hi c) = true :=
  ⟨by simp [mgmtTag, gcmTag, bytesBE, bytesLE], by simp only [mgmtOk, mgmtTag, beq_self_eq_true, Bool.and_true]; exact decide_eq_true h⟩

theorem witness_OutOfBand :
    HasDev (fun d => d.vcl.smbBusy = true) ∧ HasDev (fun d => d.vcl.smbBusy = false) ∧
    HasDev (fun d => d.pwrState = 3 ∧ d.controlWanted = true) ∧ HasDev (fun d => d.pwrState = 3 ∧ d.controlWanted = false) ∧
    HasDev (fun d => d.pwrState ≠ 3) ∧
    (∃ (s : State) (counter : Nat) (pkt aad tag : Bytes), s.toDev.inReset = false ∧ Diverted s.toDev counter pkt aad tag ∧
      mgmtOk heldKey counter aad tag = false) ∧
    (∃ (s : State) (counter : Nat) (pkt aad tag : Bytes), s.toDev.inReset = false ∧ Diverted s.toDev counter pkt aad tag ∧
      mgmtOk heldKey counter aad tag = true ∧ s.toDev.railsGood = true) ∧
    (∃ (s : State) (counter : Nat) (pkt aad tag : Bytes), s.toDev.inReset = false ∧ Diverted s.toDev counter pkt aad tag ∧
      mgmtOk heldKey counter aad tag = true ∧ s.toDev.railsGood = false ∧ counter / 65536 * 65536 ≠ heldKey.highKept) :=
  ⟨meets { vcl := { smbBusy := true } } (by decide +kernel), meets {} (by decide +kernel),
   meets (({ vcl := { smb := some [] } } : Dev).set Fld.PWR_STAT_STATE 0 3) (by decide +kernel),
   meets (({} : Dev).set Fld.PWR_STAT_STATE 0 3) (by decide +kernel), meets {} (by decide +kernel),
   ⟨{ toDev := managed 0 0 0 (List.replicate 16 0) }, _, _, _, _, managed_out .., managed_diverted 0 0 0 _ (.inl ⟨rfl, rfl, rfl⟩) rfl,
    by simp [mgmtOk, heldKey]⟩,
   ⟨{ toDev := managed 0 0 1 (mgmtTag 0 1) }, _, _, _, _, managed_out .., managed_diverted 0 0 1 _ (.inr (.inl ⟨rfl, rfl, rfl⟩))
      (mgmtTag_ok 0 1 (by decide)).1, (mgmtTag_ok 0 1 (by decide)).2, managed_rails.1 _⟩,
   ⟨{ toDev := managed 1 1 1 (mgmtTag 1 1) }, _, _, _, _, managed_out .., managed_diverted 1 1 1 _ (.inr (.inr ⟨rfl, rfl, rfl⟩))
      (mgmtTag_ok 1 1 (by decide)).1, (mgmtTag_ok 1 1 (by decide)).2, managed_rails.2 _, by decide⟩⟩
/-! ## Power, contour and reset -/

/-- A gate list of two entries, a cycle of 4000 ns: classes of `m` open for 1000 ns, then all closed. -/
def twoEntries (m : Nat) : GateList :=
  { entries := [(1000, 0, m), (3000, 0, 0)], base := 0, cycle := 4000, ext := 0, init := 0, t := 0, n := 0 }

theorem witness_PowerAndContour :
    (∀ keep : Bool, HasTaken 0x0D01 (fun _ a p e =>
      let w0 := le32 p 0
      let b := bitsOf w0 4 0
      a.committed = false ∧ contourOk w0 (le32 p 4) = true ∧
      ((List.range 18).all fun q => !(e.leadRec q).islands.testBit b || (e.leadRec q).covers (bitsOf w0 10 8)) = true ∧
      (e.contourApply b w0 (le32 p 4)).l4Fits = true ∧ w0.getLsbD 31 = keep)) ∧
    HasTaken 0x0D01 (fun _ a _ _ => a.committed = true) ∧
    HasTaken 0x0D02 (fun _ _ p e =>
      let b := bitsOf (le32 p 0) 4 0
      let l := leadOf (le32 p 0) (le32 p 4)
      let set := (e.wr .PWR_LEAD_CFG b 0 (le32 p 0)).wr .PWR_LEAD_CFG b 1 (le32 p 4)
      b ≤ 17 ∧ l.level ≤ 4 ∧ l.islands < 2 ^ 14 ∧ l.islands ≠ 0 ∧ 400 ≤ l.lead ∧
      ((List.range 14).all fun i => !l.islands.testBit i || l.covers (e.islFloor i)) = true ∧ set.l4Fits = true) ∧
    HasTaken 0x0D02 (fun _ _ p _ => bitsOf (le32 p 0) 4 0 ≤ 17 ∧ (leadOf (le32 p 0) (le32 p 4)).level ≤ 4 ∧
      (leadOf (le32 p 0) (le32 p 4)).islands = 0) ∧
    HasTaken 0x0D05 (fun _ _ _ _ => True) ∧
    HasTaken 0x0D04 (fun _ _ p e => bitsOf (le32 p 0) 9 8 = 0 ∧ bitsOf (le32 p 0) 4 0 = 8 ∧ e.offRefused 8 = none) ∧
    HasTaken 0x0D04 (fun _ _ p e => bitsOf (le32 p 0) 9 8 = 1 ∧ bitsOf (le32 p 0) 4 0 = 8 ∧ e.rising 8 = true) ∧
    HasTaken 0x0D04 (fun _ _ p e => bitsOf (le32 p 0) 9 8 = 1 ∧ bitsOf (le32 p 0) 4 0 = 8 ∧ e.rising 8 = false ∧ e.islOn 8 = true) ∧
    HasTaken 0x0D04 (fun _ _ p e => bitsOf (le32 p 0) 9 8 = 1 ∧ bitsOf (le32 p 0) 4 0 = 8 ∧ e.rising 8 = false ∧ e.islOn 8 = false) ∧
    HasTaken 0x0D04 (fun _ _ p e => bitsOf (le32 p 0) 9 8 = 1 ∧ bitsOf (le32 p 0) 4 0 = 23 ∧ e.rising 23 = false ∧ e.islOn 23 = false) ∧
    HasTaken 0x0D04 (fun _ _ p e => bitsOf (le32 p 0) 9 8 = 2 ∧ bitsOf (le32 p 0) 4 0 = 5 ∧ e.offRefused 5 = none) ∧
    HasTaken 0x0D04 (fun _ _ p _ => bitsOf (le32 p 0) 9 8 = 3 ∧ resettable (bitsOf (le32 p 0) 4 0) = true ∧ bitsOf (le32 p 0) 4 0 ≤ 23) ∧
    HasTaken 0x0D03 (fun _ _ p e => bitsOf (le32 p 0) 10 8 ≤ 4 ∧ bitsOf (le32 p 0) 1 0 = 2 ∧
      ((List.range 4).any fun r => r != bitsOf (le32 p 0) 5 4 && e.leadNames r) = false) ∧
    HasTaken 0x0D03 (fun _ _ p _ => bitsOf (le32 p 0) 10 8 ≤ 4 ∧ bitsOf (le32 p 0) 1 0 = 3) ∧
    HasDev (fun d => d.available 3 = true ∧ (d.isl 3).reload.isSome = true) :=
  let c1 := cmd 0x0D01 0 [5 + 2 ^ 13, 100 * 256 + 50]
  let k1 := cmd 0x0D01 0 [toWord (2 ^ 31) + 5 + 2 ^ 13, 100 * 256 + 50]
  let z2 := cmd 0x0D02 0 [17, 0]
  let c9 := cmd 0x0D04 0 [23 + 256, 0]
  let c10 := cmd 0x0D03 0 [3]
  let c2 := cmd 0x0D02 0 [17 + 4 * 32 + 2 ^ 21, 360 + 2 ^ 16]
  let c3 := cmd 0x0D05 0 []
  let c4 := cmd 0x0D04 0 [8, 0]
  let c5 := cmd 0x0D04 0 [8 + 256, 0]
  let c6 := cmd 0x0D04 0 [5 + 512, 0]
  let c7 := cmd 0x0D04 0 [13 + 768, 0]
  let c8 := cmd 0x0D03 0 [2 + 3 * 16 + 4 * 256]
  ⟨fun keep => match keep with
     | false => takes (waits {} c1) c1 (by decide +kernel)
     | true => takes (waits {} k1) k1 (by decide +kernel),
   takes (waits {} k1 true) k1 (by decide +kernel), takes (waits {} c2) c2 (by decide +kernel), takes (waits {} z2) z2 (by decide +kernel),
   takes (waits {} c3) c3 (by decide +kernel), takes (waits {} c4) c4 (by decide +kernel),
   takes (waits { pwr := { islands := ⟨[(8, { target := some (1, 12), rising := true })]⟩ } } c5) c5 (by decide +kernel),
   takes (waits {} c5) c5 (by decide +kernel), takes (waits (({} : Dev).set Fld.PWR_ISLAND_STAT_ON 8 0) c5) c5 (by decide +kernel),
   takes (waits (({} : Dev).set Fld.PWR_ISLAND_STAT_ON 23 0) c9) c9 (by decide +kernel),
   takes (waits {} c6) c6 (by decide +kernel), takes (waits {} c7) c7 (by decide +kernel), takes (waits {} c8) c8 (by decide +kernel),
   takes (waits {} c10) c10 (by decide +kernel),
   meets { pwr := { islands := ⟨[(3, { reload := some 0 })]⟩ } } (by decide +kernel)⟩

/-- Port 0 with a window of class 0 of which its lead record tells island 13. -/
def windowed : Dev :=
  (((({ tm := { gates := ⟨[(0, { oper := some (twoEntries 1) })]⟩ } } : Dev).set Fld.TMG_GATE_CTRL_CONTOUR_WATCH 0 1).wr .PWR_LEAD_CFG 0 0
    (toWord (4 * 32 + 2 ^ 21))).wr .PWR_LEAD_CFG 0 1 (toWord 360))

theorem witness_ContourEvents :
    HasDev (fun d => (d.leadRec 0).islands ≠ 0 ∧ d.gateActive 0 = true ∧
      ((d.dueWindow 0).any fun w => decide (w.1 ≤ d.nowNs + (d.leadRec 0).lead)) = true) ∧
    HasDev (fun d => (d.isl 13).target = some (4, 2)) ∧
    HasDev (fun d => d.loadMoves 13 = true ∧ (d.isl 13).upPct ≤ 100 ∧ (d.isl 13).load < 4) ∧
    HasDev (fun d => d.loadMoves 13 = true ∧ 0 ≤ (d.isl 13).downPct ∧ 0 < (d.isl 13).load) ∧
    HasDev (fun d => d.powered 23 = true ∧ 1000 ≤ 1000) ∧
    HasDev (fun d => 999 < 1000 ∧ d.powered 13 = true ∧ (d.isl 13).target = none ∧ d.levelOf 13 < 3) ∧
    HasDev (fun d => 999 < 1000 ∧ d.powered 13 = true ∧ (d.isl 13).target = none ∧ d.levelOf 13 = 4) :=
  ⟨meets windowed (by decide +kernel), meets { pwr := { islands := ⟨[(13, { target := some (4, 2) })]⟩ } } (by decide +kernel),
   meets (({} : Dev).set Fld.PWR_ISLAND_STAT_MODE 13 1) (by decide +kernel),
   meets (({ pwr := { islands := ⟨[(13, { load := 1 })]⟩ } } : Dev).set Fld.PWR_ISLAND_STAT_MODE 13 1) (by decide +kernel),
   meets {} (by decide +kernel), meets (({} : Dev).set Fld.PWR_ISLAND_STAT_LEVEL 13 2) (by decide +kernel),
   meets (({} : Dev).set Fld.PWR_ISLAND_STAT_LEVEL 13 4) (by decide +kernel)⟩

theorem witness_Resets :
    HasDev (fun d => 100 * 1127 < 94 * railNominal 6 ∧ d.on? Fld.PWR_RAIL_STAT_WARN 6 = false) ∧
    HasDev (fun d => 96 * railNominal 6 < 100 * 1153 ∧ d.on? Fld.PWR_RAIL_STAT_WARN 6 = true) ∧
    (∃ s : State, 100 * 1079 < 90 * railNominal 6 ∧ s.toDev.pwr.railHold.contains 6 = false) ∧
    (∃ s : State, s.toDev.pwr.hotDies.contains 3 = false ∧ s.toDev.thermHot ≤ 1840) ∧
    (∃ s : State, s.toDev.pwr.hotDies.contains 3 = true ∧ (0 : Int) < s.toDev.thermHot - 80) ∧
    (∃ s : State, s.toDev.pwr.tripped = false) ∧ (∃ s : State, s.toDev.pwr.tripped = true) ∧
    (∃ s : State, s.toDev.pwr.resetN = false) ∧ (∃ s : State, s.toDev.pwr.resetN = true) ∧
    HasReached (regLoc .DBG_RESET_CTRL 0) (fun _ => devAt .DBG_RESET_CTRL 0) (fun e =>
      let w : Word := 0x80000004
      w.getLsbD 31 = true ∧ e.on? Fld.DBG_RESET_CTRL_BUSY = false ∧ w.getLsbD 8 = false ∧ resettable (bitsOf w 4 0) = true) ∧
    HasReached (regLoc .DBG_RESET_CTRL 0) (fun _ => devAt .DBG_RESET_CTRL 0) (fun e =>
      let w : Word := 0x80000103
      w.getLsbD 31 = true ∧ e.on? Fld.DBG_RESET_CTRL_BUSY = false ∧ w.getLsbD 8 = true ∧ bitsOf w 4 0 < 4) ∧
    HasDev (fun d => d.dbg.ordered = some 4 ∧ d.rising 4 = false) ∧
    HasDev (fun d => d.dbg.ordered ≠ some 4 ∧ (d.isl 4).resetting = some none) :=
  ⟨meets {} (by decide +kernel), meets (({} : Dev).set Fld.PWR_RAIL_STAT_WARN 6 1) (by decide +kernel),
   ⟨{}, by decide +kernel⟩, ⟨{}, by decide +kernel⟩, ⟨{ toDev := { pwr := { hotDies := [3] } } }, by decide +kernel⟩, ⟨{}, rfl⟩,
   ⟨{ toDev := { pwr := { tripped := true } } }, rfl⟩, ⟨{}, rfl⟩, ⟨{ toDev := { pwr := { resetN := true } } }, rfl⟩,
   reaches {} .core (by decide +kernel), reaches {} .core (by decide +kernel), meets { dbg := { ordered := some 4 } } (by decide +kernel),
   meets { pwr := { islands := ⟨[(4, { resetting := some none })]⟩ } } (by decide +kernel)⟩

/-! ## Ports -/

theorem witness_PortCommands :
    HasTaken 0x0C01 (fun _ _ p e =>
      let port := bitsOf (le32 p 0) 4 0
      let cfg := le32 p 4
      let len := bitsOf (le32 p 12) 13 0
      port < 18 ∧ comboOk port (bitsOf cfg 3 0) (bitsOf cfg 5 4) (bitsOf cfg 7 6) = true ∧ (cfg.getLsbD 9 = true → bitsOf cfg 5 4 = 0) ∧
      1514 ≤ len ∧ len ≤ 9728 ∧ (e.on? Fld.PRT_PORT_CFG_ENABLE port && cfg.getLsbD 31) = false) ∧
    HasTaken 0x0C02 (fun _ _ p _ => bitsOf (le32 p 0) 4 0 < 18) ∧
    HasTaken 0x0C03 (fun _ a p _ =>
      let w := le32 p 0
      a.cmd.issuer < 4 ∧ w.getLsbD 30 = false ∧ bitsOf w 9 0 < 18 ∧ bitsOf w 28 27 ≠ 3 ∧ bitsOf w 26 25 ≠ 3 ∧
      (w.getLsbD 31 = true → faultOk p = true) ∧ (bitsOf w 28 27 ≠ 2 → le32 p 8 = 0 ∧ le32 p 12 = 0)) ∧
    HasTaken 0x0C03 (fun _ a p e =>
      let w := le32 p 0
      a.cmd.issuer = 4 ∧ w.getLsbD 30 = true ∧ bitsOf w 9 0 = 4 ∧ (e.rd .FNC_PRIV 4).getLsbD 0 = true ∧ e.exists? 4 = true ∧
      w.getLsbD 31 = false ∧ bitsOf w 28 27 ≠ 3 ∧ bitsOf w 26 25 ≠ 3 ∧ (bitsOf w 28 27 ≠ 2 → le32 p 8 = 0 ∧ le32 p 12 = 0)) ∧
    HasTaken 0x0C04 (fun _ _ p _ => bitsOf (le32 p 0) 4 0 < 18 ∧ (le32 p 0).getLsbD 31 = false) ∧
    HasTaken 0x0C04 (fun _ _ p e =>
      let w := le32 p 0
      let port := bitsOf w 4 0
      port < 16 ∧ w.getLsbD 31 = true ∧ e.on? Fld.PRT_PORT_CFG_ENABLE port = true ∧ e.phyOf port = 0 ∧
      e.on? Fld.PRT_PORT_CFG_AN port = true ∧ 5 ≤ e.modeOf port ∧ e.modeOf port ≤ 7 ∧ e.modeOf port + 1 ≤ bitsOf w 11 8 ∧ bitsOf w 11 8 ≤ 8 ∧
      bitsOf (le32 p 4) 31 16 < bitsOf (le32 p 4) 15 0 ∧ bitsOf (le32 p 4) 15 0 < modeRate (bitsOf w 11 8) ∧
      bitsOf (le32 p 8) 15 0 ≠ 0 ∧ e.gateActive port = false) ∧
    HasTaken 0x0C05 (fun _ _ p _ => bitsOf (le32 p 0) 4 0 < 18 ∧ bitsOf (le32 p 4) 31 16 ≠ 0) :=
  let c1 := cmd 0x0C01 0 [17, toWord (2 ^ 31 + 5), 0, 9728]
  let c2 := cmd 0x0C02 3 [17]
  let c3 := cmd 0x0C03 0 [toWord (2 ^ 31 + 17), 31, 0, 0]
  let v3 := cmd 0x0C03 4 [toWord (2 ^ 30 + 4), 0, 0, 0]
  let c4 := cmd 0x0C04 0 [17, 0, 0]
  let c5 := cmd 0x0C04 0 [toWord (2 ^ 31 + 15 + 8 * 256), 2 * 2 ^ 16 + 10, 1]
  let c6 := cmd 0x0C05 0 [17, toWord (65535 * 2 ^ 16)]
  ⟨takes (waits {} c1) c1 (by decide +kernel), takes (waits {} c2) c2 (by decide +kernel), takes (waits {} c3) c3 (by decide +kernel),
   takes (waits ({ hif := { sriov := ⟨[(0, { vfEnable := true, numVfs := 1 })]⟩ } } |> fun d : Dev => d.wr .FNC_PRIV 4 0 1) v3) v3 (by decide +kernel),
   takes (waits {} c4) c4 (by decide +kernel),
   takes (waits (({} : Dev).wr .PRT_PORT_CFG 15 0 (toWord (2 ^ 31 + 512 + 7))) c5) c5 (by decide +kernel), takes (waits {} c6) c6 (by decide +kernel)⟩

/-- Port 17 enabled, in mode 5, with its link up. -/
def linked : Dev := (({} : Dev).wr .PRT_PORT_CFG 17 0 (toWord (2 ^ 31 + 5))).wr .PRT_LINK_STAT 17 0 0 |>.set Fld.PRT_LINK_STAT_CUR_MODE 17 5 |>.set
  Fld.PRT_LINK_STAT_UP 17 1

/-- Port 3 in mode 5 with its link up, ready to step down. -/
def quietPort : Dev :=
  (((((({ mer := { refCycles := 500000 } } : Dev).wr .PRT_STEPDOWN 3 0 (toWord (2 ^ 31 + 8 * 256))).wr .PRT_STEPDOWN 3 1 (toWord (2 ^ 16))).wr
    .PRT_STEPDOWN 3 2 1).wr .PRT_LINK_STAT 3 0 0).set Fld.PRT_LINK_STAT_CUR_MODE 3 5).set Fld.PRT_LINK_STAT_UP 3 1

theorem witness_PortEvents :
    HasDev (fun d => 17 < 18 ∧ d.on? Fld.PRT_PORT_CFG_ENABLE 17 = true ∧ d.linkUp? 17 = true ∧ (List.replicate 59 (0 : Byte)).length < 60 ∧
      60 ≤ (List.replicate 60 (0 : Byte)).length) ∧
    HasDev (fun d => d.on? Fld.PRT_PORT_CFG_ENABLE 17 = true ∧ d.curMode 17 ≠ 0 ∧ d.linkUp? 17 = false ∧ d.phyOf 17 = 0 ∧
      (d.port 17).downTill ≤ d.ref) ∧
    HasDev (fun d => d.linkUp? 17 = true) ∧
    HasDev (fun d =>
      let x := d.port 3
      let w (i : Nat) := d.rd .PRT_STEPDOWN 3 i
      let quiet := if max x.bitsRx x.bitsTx < 1000 * bitsOf (w 1) 31 16 then x.quiet + 1 else 0
      (w 0).getLsbD 31 = true ∧ d.on? Fld.PRT_LINK_STAT_STEPPED 3 = false ∧ x.interval + 1000000 ≤ d.ref ∧ d.linkUp? 3 = true ∧
      d.curMode 3 < bitsOf (w 0) 11 8 ∧ bitsOf (w 2) 15 0 ≤ quiet ∧ x.modeSince + 1000000 * bitsOf (w 2) 31 16 ≤ d.ref ∧ x.noStep ≤ d.ref) ∧
    HasDev (fun d => (d.rd .PRT_STEPDOWN 17).getLsbD 31 = false ∧ (d.port 17).interval + 1000000 ≤ d.ref) ∧
    HasDev (fun d => ((d.port 17).stepAt.any fun t => decide (t + 50000000 ≤ d.ref)) = true ∧ d.linkUp? 17 = false) ∧
    HasDev (fun d => (((d.port 17).stops.look? 8).any fun r => decide (r.ends ≤ d.ref)) = true) ∧
    HasDev (fun d => (((d.port 17).stops.look? 7).any fun r => decide (r.ends ≤ d.ref)) = true) ∧
    HasDev (fun d => d.gateActive 17 = true ∧
      (((d.port 17).stops.look? 7).any fun r => r.inForce && decide (r.since + 10000 * d.get Fld.PRT_PAUSE_WDOG_LIMIT 17 ≤ d.ref)) = true) ∧
    HasDev (fun d => (((d.port 17).holdoffs.look? 8).any fun t => decide (t ≤ d.ref)) = true) ∧
    HasDev (fun d => (((d.port 17).sent.look? 8).any fun t => decide (t ≤ d.ref)) = true ∧ d.xon 17 ≤ d.heldBytes 17 8) :=
  ⟨meets linked (by decide +kernel), meets (linked.set Fld.PRT_LINK_STAT_UP 17 0) (by decide +kernel), meets linked (by decide +kernel),
   meets quietPort (by decide +kernel),
   meets { mer := { refCycles := 500000 } } (by decide +kernel),
   meets { mer := { refCycles := 25000000 }, prt := { ports := ⟨[(17, { stepAt := some 0 })]⟩ } } (by decide +kernel),
   meets { prt := { ports := ⟨[(17, { stops := ⟨[(8, { ends := 0, since := 0 })]⟩ })]⟩ } } (by decide +kernel),
   meets { prt := { ports := ⟨[(17, { stops := ⟨[(7, { ends := 0, since := 0 })]⟩ })]⟩ } } (by decide +kernel),
   meets { prt := { ports := ⟨[(17, { stops := ⟨[(7, { ends := 2 ^ 40, since := 0 })]⟩ })]⟩ }, mer := { refCycles := 2 ^ 38 },
           tm := { gates := ⟨[(17, { oper := some (twoEntries 1) })]⟩ } } (by decide +kernel),
   meets { prt := { ports := ⟨[(17, { holdoffs := ⟨[(8, 0)]⟩ })]⟩ } } (by decide +kernel),
   meets (({ prt := { ports := ⟨[(17, { sent := ⟨[(8, 0)]⟩ })]⟩ } } : Dev).wr .PRT_FC_THRESH 17 0 0) (by decide +kernel)⟩

/-! ## Legends, sheets and tables -/

/-- A frame of 64 bytes that came by port 2, untagged. -/
def arrived (stage : Stage) : Frame := { inPort := 2, stamp := 0, bytes := List.replicate 64 1, stage := stage }

/-- A device with VLAN 1 of every port and physical function, and that frame. -/
def framed (stage : Stage) (lg : List Word := []) : Dev :=
  { frames := ⟨[(0, { arrived stage with lg := lg })]⟩,
    vsw := { vlans := ⟨[(1, { fid := 1, floodUc := true, floodMc := true, ports := 0x3FFFF, untagPorts := 0x3FFFF, funcs := 15, untagFuncs := 15,
                              tunnels := [] })]⟩ } }

/-- The function of a frame that is to get its legend. -/
def legendFn (d : Dev) (f : Frame) : Nat := if srcIsPort f.inPort then d.get Fld.PRT_DEF_FUNC_FUNCTION f.inPort else f.owner

/-- Whether the frame's VLAN has its source as a member once its legend is made. -/
def legendFits (d : Dev) (f : Frame) : Bool :=
  let fn := legendFn d f
  let hash := flowHash f.bytes
  let slot := orderSlot fn hash
  let full := decide (64 ≤ d.slotLoad slot)
  let sheet := d.pinFor fn f.stamp
  let g : Frame :=
    { f with lg := newLegend f fn (d.gen fn) hash, owner := fn, gen := d.gen fn, slot := if full then none else some slot,
             charge := if sheet = 0 then none else some sheet }
  let kept := d.updFrame 0 fun _ => g
  let e := (if full then kept.bump .TMG_RESEQ_UNTRACKED else kept).logGen 0x01 f.inPort (some (fn, d.gen fn)) f.stamp
    (toWord (f.inPort * 2 ^ 24 + f.bytes.length)) hash (toWord (f.chain.headD 0))
  (e.vlanOf g f.inPort fn).any fun v => v.2.hasSource f.inPort fn

/-- The frame 0 of a device waits for its legend and meets `H`. -/
def legendWaits (d : Dev) (H : Frame → Bool) : Bool := (d.frame? 0).any fun f => f.stage == .legend && !d.diverts f && H f

/-- The device of `framed` with a frame that PF0 sends. -/
def sentBy (gen : Nat) : Dev := { framed .legend with frames := ⟨[(0, { arrived .legend with inPort := 18, owner := 0, gen := gen })]⟩ }

/-- The device of `framed` whose order slot for the frame is full. -/
def slotFull : Dev :=
  let d := framed .legend
  let slot := orderSlot (legendFn d (arrived .legend)) (flowHash (List.replicate 64 1))
  { d with frames := ⟨(0, arrived .legend) :: (List.range 64).map fun i => (i + 1, { arrived (.queued 0 0) with slot := some slot })⟩ }

/-- A frame of PF0 that has been classified `n` times. -/
def traversed (n : Nat) (stage : Stage) : Frame := { arrived stage with lg := lgSet (List.replicate 16 0) lgTraverse n }

/-- A thread 0 that holds such a frame. -/
def recirculates (n : Nat) : Dev := { running with frames := ⟨[(0, traversed n (.onThread 0))]⟩ }

/-- Such a frame on the slow path under handle 5. -/
def reinjects (n : Nat) : Dev :=
  { frames := ⟨[(0, traversed n (.slow 0 5))]⟩, vcl := { slow := ⟨[(5, { frame := 0, owner := 0, deadline := 1 })]⟩ } }

theorem witness_LegendMaking :
    HasDev (fun d => legendWaits d (fun f => srcIsPort f.inPort && d.exists? (legendFn d f) && legendFits d f &&
      decide (d.slotLoad (orderSlot (legendFn d f) (flowHash f.bytes)) < 64)) = true) ∧
    HasDev (fun d => legendWaits d (fun f => srcIsPort f.inPort && d.exists? (legendFn d f) && legendFits d f &&
      decide (d.slotLoad (orderSlot (legendFn d f) (flowHash f.bytes)) = 64)) = true) ∧
    HasDev (fun d => legendWaits d (fun f => srcIsPort f.inPort && !d.exists? (legendFn d f)) = true) ∧
    HasDev (fun d => legendWaits d (fun f => !srcIsPort f.inPort && d.gen (legendFn d f) != f.gen) = true) ∧
    HasDev (fun d => legendWaits d (fun f => !srcIsPort f.inPort && d.gen (legendFn d f) == f.gen && legendFits d f) = true) ∧
    HasDev (fun d => legendWaits d (fun f => srcIsPort f.inPort && d.exists? (legendFn d f) && !legendFits d f) = true) ∧
    HasIssued (encEnd 2 0 0) (fun _ x e => x.frame = some 0 ∧ ((e.frame? 0).any fun f => lgGet f.lg lgException == 0 && !lgOn f.lg lgFragment &&
      !lgOn f.lg lgSlowPath && lgGet f.lg lgDest != 2 && !lgOn f.lg lgEncrypt &&
      decide (lgGet f.lg lgTraverse < e.traverseMax (lgGet f.lg lgFunction))) = true) ∧
    HasIssued (encEnd 2 0 0) (fun t x e => x.frame = some 0 ∧ ((e.frame? 0).any fun f => lgGet f.lg lgException == 0 && !lgOn f.lg lgFragment &&
      decide (e.traverseMax (lgGet f.lg lgFunction) ≤ lgGet f.lg lgTraverse)) = true ∧
      (((((e.setThread t x).updFrame 0 fun y => { y with lg := lgSet y.lg lgException 8 }).bump .CLS_EXC_COUNT 8).rd .CLS_EXC_DISP 0).getLsbD 8) = false) ∧
    HasTaken 0x1001 (fun _ a p e => (le32 p 0).toNat = 5 ∧ bitsOf (le32 p 4) 1 0 = 1 ∧ ((e.vcl.slow.look? 5).any fun x =>
      x.owner == a.fn && decide (e.ref < x.deadline) && x.frame == 0 && (e.frame? 0).any fun f => !e.staleFrame f &&
        decide (lgGet f.lg lgTraverse < (e.unslow 5).traverseMax (lgGet f.lg lgFunction))) = true) ∧
    HasTaken 0x1001 (fun _ a p e => (le32 p 0).toNat = 5 ∧ bitsOf (le32 p 4) 1 0 = 1 ∧ ((e.vcl.slow.look? 5).any fun x =>
      x.owner == a.fn && decide (e.ref < x.deadline) && x.frame == 0 && (e.frame? 0).any fun f => !e.staleFrame f &&
        decide ((e.unslow 5).traverseMax (lgGet f.lg lgFunction) ≤ lgGet f.lg lgTraverse)) = true) :=
  let c := cmd 0x1001 0 [5, 1]
  ⟨meets (framed .legend) (by decide +kernel), meets slotFull (by decide +kernel),
   meets ((framed .legend).set Fld.PRT_DEF_FUNC_FUNCTION 2 1023) (by decide +kernel), meets (sentBy 1) (by decide +kernel),
   meets (sentBy 0) (by decide +kernel), meets { framed .legend with vsw := {} } (by decide +kernel),
   issues (recirculates 0) 0 (by decide +kernel), issues ((recirculates 15).wr .CLS_EXC_DISP 0 0 0) 0 (by decide +kernel),
   takes (waits (reinjects 0) c) c (by decide +kernel), takes (waits (reinjects 15) c) c (by decide +kernel)⟩

/-- A device in which PF0 has a staged sheet 2, and an active sheet 1 where asked. -/
def staging (active : Option Sheet := none) : Dev := { cls := { banks := ⟨[(0, { active := active, other := .staged { num := 2 }, lastNum := 2 })]⟩ } }

/-- A request of thread 0 for frame 0 in slot 0. -/
def looking (kind : Nat) (answer : Option (Nat × Nat × Nat) := none) : LookReq :=
  { thread := 0, slot := 0, kind := kind, table := 0, key := 0, prefetch := false, function := 0, fnGen := 0, blockGen := 0, frame := 0, stamp := 0,
    answer := answer }

theorem witness_Sheets :
    HasDev (fun d => ((d.pca.reqs.look? 9).any fun r => r.kind == 3 && r.blockGen == d.blockGen 10 && d.gen r.function == r.fnGen &&
        (d.frame? r.frame).any fun f => r.function == f.owner && (d.liveSheet f.owner (lgGet f.lg lgSheet)).isSome) = true ∧
      d.rising 10 = false ∧ d.available 10 = true) ∧
    HasTaken 0x0401 (fun _ a p e => e.available 10 = true ∧ e.available 9 = true ∧ e.tblClearing 1 = false ∧ (e.banks a.fn).other = .empty ∧
      (le32 p 0).getLsbD 31 = false) ∧
    HasTaken 0x0401 (fun _ a p e =>
      let b := e.banks a.fn
      (b.other = .empty ∧ (le32 p 0).getLsbD 31 = true) ∧ (b.active.any fun act =>
        let num := b.lastNum % 65535 + 1
        ((e.setBanks a.fn { b with lastNum := num, openWait := none, other := .staged { num := num, dflt := act.dflt, profiles := act.profiles } }).copyRules
          num (e.sheetRules a.fn act.num)).isSome) = true) ∧
    HasTaken 0x0402 (fun _ a p e => ((e.banks a.fn).other matches .staged _) = true ∧
      ((e.sheetRules a.fn 2).any fun x => x.2.qual % 8 == bitsOf (le32 p 0) 2 0) = false) ∧
    HasTaken 0x0403 (fun _ a p e => ((e.banks a.fn).other matches .staged _) = true ∧ bitsOf (le32 p 0) 3 0 = 0 ∧ bitsOf (le32 p 0) 5 4 ≠ 3) ∧
    HasTaken 0x0404 (fun _ a p e => (e.banks a.fn).other = .staged { num := 2, profiles := ⟨[(0, 255)]⟩ } ∧
      (e.addRules a.fn { num := 2, profiles := ⟨[(0, 255)]⟩ } (records p 8 32 (le32 p 0).toNat)).2.1 = .ok ∧ (le32 p 0).toNat = 1) ∧
    HasTaken 0x0405 (fun _ a p e => (e.banks a.fn).other = .staged { num := 2 } ∧
      (e.delRules a.fn { num := 2 } (records p 4 20 (le32 p 0).toNat)).2.1 = .ok) ∧
    HasTaken 0x0407 (fun _ a _ e => (e.banks a.fn).other = .staged { num := 2 }) ∧
    HasTaken 0x0406 (fun _ a _ e => e.available 10 = true ∧ (e.banks a.fn).other = .staged { num := 2 }) ∧
    HasDev (fun d => (d.banks 0).other = .staged { num := 2 } ∧ (d.banks 0).swapAt = some (0, 5) ∧ 0 ≤ d.now) ∧
    HasDev (fun d => (d.banks 0).other = .draining { num := 2 } ∧ d.pinned 0 = 0 ∧ (d.banks 0).drainAfter ≤ d.now) ∧
    HasDev (fun d => (d.banks 0).openWait = some (0, false, 5) ∧ 0 ≤ d.ref) :=
  let c1 := cmd 0x0401 0 [0]
  let c2 := cmd 0x0401 0 [toWord (2 ^ 31)]
  let c3 := cmd 0x0402 0 [toWord (2 ^ 31 + 7), 255, 0, 0, 0]
  let c4 := cmd 0x0403 0 [16]
  let c5 := cmd 0x0404 0 [1, 0, 0, 0, 0, 0, 0, 0, 0, 0]
  let c6 := cmd 0x0405 0 [0]
  let c7 := cmd 0x0407 0 []
  let c8 := cmd 0x0406 0 []
  ⟨meets { pca := { reqs := ⟨[(9, looking 3)]⟩ },
           cls := { banks := ⟨[(0, { active := some { num := 0 } })]⟩ },
           frames := ⟨[(0, arrived (.onThread 0))]⟩ } (by decide +kernel),
   takes (waits {} c1) c1 (by decide +kernel), takes (waits { cls := { banks := ⟨[(0, { active := some { num := 1 } })]⟩ } } c2) c2 (by decide +kernel),
   takes (waits staging c3) c3 (by decide +kernel), takes (waits staging c4) c4 (by decide +kernel),
   takes (waits { cls := { banks := ⟨[(0, { other := .staged { num := 2, profiles := ⟨[(0, 255)]⟩ } })]⟩ } } c5) c5 (by decide +kernel),
   takes (waits staging c6) c6 (by decide +kernel), takes (waits staging c7) c7 (by decide +kernel), takes (waits staging c8) c8 (by decide +kernel),
   meets { cls := { banks := ⟨[(0, { other := .staged { num := 2 }, swapAt := some (0, 5) })]⟩ } } (by decide +kernel),
   meets { cls := { banks := ⟨[(0, { other := .draining { num := 2 } })]⟩ } } (by decide +kernel),
   meets { cls := { banks := ⟨[(0, { openWait := some (0, false, 5) })]⟩ } } (by decide +kernel)⟩

/-- An entry of table `t` with key 0, of PF0. -/
def stub (t : Nat) (qual : Nat := 0) : Entry := { key := 0, result := 0, static := true, ageEn := false, table := t, fn := 0, qual := qual }

/-- Table 4 enabled with 1,024 buckets at base 0, and PF0's entry of key 0 in it where asked. -/
def tabled (full : Bool := false) : Dev :=
  let d := (((({} : Dev).wr .TBL_DESC_CFG 4 0 0).set Fld.TBL_DESC_CFG_LOG2_BUCKETS 4 10).set Fld.TBL_DESC_CFG_ENABLE 4 1)
  if full then ((d.insertEntry (stub 4) false).map (·.2)).getD d else d

theorem witness_TableCommands :
    HasTaken 0x0501 (fun _ _ p e =>
      let t := bitsOf (le32 p 0) 5 0
      let base := bitsOf (le32 p 4) 20 0
      let l := bitsOf (le32 p 8) 4 0
      let size := if l = 0 then 0 else 2 ^ clampTo 10 20 l
      e.available 9 = true ∧ 4 ≤ t ∧ e.tblEnabled t = false ∧ base + size ≤ e.partBuckets ∧
      ∀ k, k < 64 → k ≠ t → e.tblEnabled k = true → (e.tblLog2 k).all (fun m => decide (size = 0 ∨
        e.get Fld.TBL_DESC_BASE_BASE k + 2 ^ m ≤ base ∨ base + size ≤ e.get Fld.TBL_DESC_BASE_BASE k)) = true) ∧
    HasTaken 0x0502 (fun _ _ _ e => e.available 9 = true) ∧
    HasTaken 0x0503 (fun _ a p e =>
      let x := e.hostEntry 4 a.fn (slice p 4 32)
      (bitsOf (le32 p 0) 5 0 = 4 ∧ a.cmd.issuer < 4 ∧ e.tblEnabled 4 = true ∧ e.tblClearing 4 = false) ∧
      ((e.findEntry x.toMatch).any fun q => e.moveFits q.1 q.2.fn x.fn) = true) ∧
    HasTaken 0x0503 (fun _ a p e =>
      let x := e.hostEntry 4 a.fn (slice p 4 32)
      (bitsOf (le32 p 0) 5 0 = 4 ∧ a.cmd.issuer < 4 ∧ e.tblEnabled 4 = true ∧ e.tblClearing 4 = false) ∧
      e.findEntry x.toMatch = none ∧ (e.insertEntry x false).isSome = true) ∧
    HasTaken 0x0506 (fun _ a p e => bitsOf (le32 p 0) 5 0 = 4 ∧ a.cmd.issuer < 4 ∧ e.tblEnabled 4 = true ∧ e.tblClearing 4 = false ∧
      (le32 p 0).getLsbD 30 = false) ∧
    HasTaken 0x0504 (fun _ a p e => let m := entryMatch p a.fn
      m.table = 4 ∧ a.cmd.issuer < 4 ∧ e.tblEnabled m.table = true ∧ e.tblClearing m.table = false ∧ (e.findEntry m).isSome = true) ∧
    HasTaken 0x0505 (fun _ a p e => let m := entryMatch p a.fn
      m.table = 4 ∧ a.cmd.issuer < 4 ∧ e.tblEnabled m.table = true ∧ e.tblClearing m.table = false ∧ (e.findEntry m).isSome = true) ∧
    HasTaken 0x0507 (fun _ _ p e => routeOf p = some (false, 0, 0) ∧ e.tblClearing 2 = false) ∧
    HasTaken 0x0507 (fun _ a p e => routeOf p = some (true, 128, 0) ∧ e.tblClearing 3 = false ∧ (e.findEntry (routeMatch true a.fn 128 0)).isSome = true) ∧
    HasTaken 0x0507 (fun _ a p e =>
      let m := routeMatch true a.fn 128 0
      routeOf p = some (true, 128, 0) ∧ e.tblClearing 3 = false ∧ e.findEntry m = none ∧ (e.insertEntry
        { key := m.key, result := le p 20 8, static := true, ageEn := false, table := 3, fn := a.fn, qual := m.qual } false).isSome = true) ∧
    HasTaken 0x0508 (fun _ a p e => routeOf p = some (false, 0, 0) ∧ e.tblClearing 2 = false ∧ (e.tbl.dflt.look? (2 * a.fn)).isSome = true) ∧
    HasTaken 0x0508 (fun _ a p e => routeOf p = some (true, 128, 0) ∧ e.tblClearing 3 = false ∧ (e.findEntry (routeMatch true a.fn 128 0)).isSome = true) ∧
    HasTaken 0x0509 (fun _ _ _ e => e.available 9 = true) :=
  let c1 := cmd 0x0501 0 [63, 1309696, 10, 0]
  let c2 := cmd 0x0502 4 [toWord (2 ^ 31 + 63)] 0
  let c3 := cmd 0x0503 0 (4 :: List.replicate 8 0)
  let c4 := cmd 0x0506 0 [toWord (2 ^ 31 + 4), 0]
  let c5 := cmd 0x0504 0 [4, 0, 0, 0, 0, 0]
  let c6 := cmd 0x0505 0 [4, 0, 0, 0, 0, 0]
  let c7 := cmd 0x0507 0 (0 :: List.replicate 6 0)
  let c8 := cmd 0x0507 0 (toWord (2 ^ 31 + 128) :: List.replicate 6 0)
  let c9 := cmd 0x0508 0 (0 :: List.replicate 4 0)
  let c10 := cmd 0x0508 0 (toWord (2 ^ 31 + 128) :: List.replicate 4 0)
  let c11 := cmd 0x0509 0 (toWord (2 ^ 31) :: List.replicate 4 7)
  let m := routeMatch true 0 128 0
  let routed : Dev := ((({} : Dev).insertEntry { stub 3 m.qual with key := m.key } false).map (·.2)).getD {}
  ⟨takes (waits (({} : Dev).set Fld.TBL_DESC_CFG_ENABLE 4 0) c1) c1 (by decide +kernel), takes (waits { hif := { sriov := ⟨[(0, { vfEnable := true, numVfs := 1 })]⟩ } } c2) c2 (by decide +kernel),
   takes (waits (tabled true) c3) c3 (by decide +kernel), takes (waits tabled c3) c3 (by decide +kernel), takes (waits tabled c4) c4 (by decide +kernel),
   takes (waits (tabled true) c5) c5 (by decide +kernel), takes (waits (tabled true) c6) c6 (by decide +kernel),
   takes (waits {} c7) c7 (by decide +kernel), takes (waits routed c8) c8 (by decide +kernel), takes (waits {} c8) c8 (by decide +kernel),
   takes (waits { tbl := { dflt := ⟨[(0, 5)]⟩ } } c9) c9 (by decide +kernel), takes (waits routed c10) c10 (by decide +kernel),
   takes (waits {} c11) c11 (by decide +kernel)⟩

theorem witness_TableEvents :
    HasDev (fun d => ((d.pca.reqs.look? 9).any fun r => r.kind != 3 && !r.prefetch && r.answer.isNone) = true ∧ d.rising 9 = false) ∧
    HasDev (fun d => ((d.pca.reqs.look? 9).any fun r => r.answer.isSome && r.blockGen == d.blockGen 9) = true) ∧
    HasDev (fun d => (d.tbl.learnQ.head?.any fun r => decide (d.gen r.fn = r.gen)) = true ∧ d.tblOn = true ∧ d.tblClearing 0 = false) ∧
    HasDev (fun d => d.tbl.refreshQ.head? = some (4, 0, 0, 0) ∧ (d.findEntry { table := 4, key := 0, fn := 0, qual := 0 }).isSome = true) ∧
    HasDev (fun d => d.tblOn = true ∧ d.tbl.lastPass.all (fun t => decide (t + scanPeriod d.tbl.passCfg ≤ d.ref)) = true) ∧
    HasDev (fun d => d.tbl.scan = some (0, 0) ∧ d.tblOn = true ∧ 0 + scanPeriod d.tbl.passCfg * 0 / d.partBuckets ≤ d.ref ∧ d.bucketInUse 0 = true ∧
      d.bucketFailed 0 = false) ∧
    HasDev (fun d => 63 < 64 ∧ d.tblClearing 63 = true) ∧
    HasDev (fun d => d.partBuckets - 1 < d.partBuckets) ∧
    HasDev (fun d => (d.frame? 0).isSome = true) :=
  ⟨meets { pca := { reqs := ⟨[(9, looking 0)]⟩ } } (by decide +kernel),
   meets { pca := { reqs := ⟨[(9, looking 0 (some (0, 0, 5)))]⟩ } } (by decide +kernel),
   meets (({ tbl := { learnQ := [{ fid := 1, mac := 2, inPort := 0, fn := 0, gen := 0, stamp := 0, tunnel := none }] } } : Dev).set Fld.TBL_CTRL_ENABLE 0 1)
     (by decide +kernel),
   meets ((tabled true).setTbl fun x => { x with refreshQ := [(4, 0, 0, 0)] }) (by decide +kernel),
   meets (({} : Dev).set Fld.TBL_CTRL_ENABLE 0 1) (by decide +kernel),
   meets ((({ tbl := { scan := some (0, 0) } } : Dev).set Fld.TBL_CTRL_ENABLE 0 1).set Fld.TBL_DESC_CFG_ENABLE 4 1 |>.set Fld.TBL_DESC_CFG_LOG2_BUCKETS 4 10)
     (by decide +kernel),
   meets (({} : Dev).set Fld.TBL_DESC_CFG_CLEARING 63 1) (by decide +kernel), meets {} (by decide +kernel),
   meets (framed .copied) (by decide +kernel)⟩

/-! ## The virtual switch -/

theorem witness_SwitchCommands :
    HasTaken 0x0601 (fun _ _ p e =>
      let x := bitsOf (le32 p 0) 11 0
      let many := bitsOf (le32 p 0x10C) 4 0
      e.available 11 = true ∧ x ≠ 0 ∧ x ≠ 4095 ∧ many ≤ 16 ∧ ∀ i, i < many → le p (0x110 + 2 * i) 2 < 4096) ∧
    HasTaken 0x0602 (fun _ _ p e => e.available 11 = true ∧ (e.vsw.vlans.look? (bitsOf (le32 p 0) 11 0)).isSome = true) ∧
    HasTaken 0x0603 (fun _ _ p e => e.available 11 = true ∧ (le32 p 4).toNat = 2 ∧
      ((List.range 2).map fun i => le p (8 + 2 * i) 2).all groupDest = true) ∧
    HasTaken 0x0604 (fun _ _ p e => e.available 11 = true ∧ (e.vsw.groups.look? (bitsOf (le32 p 0) 11 0)).isSome = true) ∧
    HasTaken 0x0605 (fun _ _ p e => e.available 11 = true ∧ tunnelRecordOk (wordsOf (p.drop 4) 32) = true) ∧
    HasTaken 0x0606 (fun _ _ p e => e.available 11 = true ∧ (e.vsw.tunnels.look? (bitsOf (le32 p 0) 11 0)).isSome = true) ∧
    HasTaken 0x0607 (fun _ _ _ _ => True) ∧
    HasDev (fun d => ((d.vcl.cmds.look? 0).any fun a => a.opcode / 256 == 6 && a.started && a.committed) = true ∧ d.tunnelBusy = false) :=
  let c1 := cmd 0x0601 0 (toWord (2 ^ 31 + 4094) :: List.replicate 66 0 ++ [16] ++ List.replicate 8 0x0FFF0FFF)
  let c2 := cmd 0x0602 0 [1]
  let c3 := cmd 0x0603 0 [4095, 2, 0x20112000]
  let c4 := cmd 0x0604 0 [7]
  let c5 := cmd 0x0605 0 (4095 :: 0x40000000 :: List.replicate 31 0)
  let c6 := cmd 0x0606 0 [7]
  let c7 := cmd 0x0607 0 [1, 0x00020000]
  ⟨takes (waits {} c1) c1 (by decide +kernel), takes (waits (framed .legend) c2) c2 (by decide +kernel), takes (waits {} c3) c3 (by decide +kernel),
   takes (waits { vsw := { groups := ⟨[(7, Machine.Group.mk 1 [])]⟩ } } c4) c4 (by decide +kernel), takes (waits {} c5) c5 (by decide +kernel),
   takes (waits { vsw := { tunnels := ⟨[(7, List.replicate 32 0)]⟩ } } c6) c6 (by decide +kernel), takes (waits {} c7) c7 (by decide +kernel),
   meets { vcl := { cmds := ⟨[(0, { cmd := cmd 0x0606 0 [7], opcode := 0x0606, fn := 0, issuerGen := 0, fnGen := 0, stamp := 0, ring := 0, mgmt := none,
                                     started := true, committed := true })]⟩ } } (by decide +kernel)⟩

/-- A frame of 110 bytes that carries one of 60 by VXLAN with the VNI 5, from 10.0.0.2 to 10.0.0.1. -/
def vxlanFrame : Bytes :=
  bytesBE 14 0x0200000000010200000000020800 ++ bytesBE 20 0x4500006000000000401100000A0000020A000001 ++ bytesBE 8 0x138812B5004C0000
    ++ bytesBE 8 0x0800000000000500 ++ bytesBE 14 0x02000000000302000000000488B5 ++ List.replicate 46 0

/-- A device with that frame to terminate at its tunnel 7. -/
def terminating : Dev :=
  { frames := ⟨[(0, { inPort := 2, stamp := 0, bytes := vxlanFrame, stage := .toSwitch (some 0),
                      lg := lgSet (lgSet (List.replicate 16 0) lgDest 2) lgTunnel 7 })]⟩,
    vsw := { tunnels := ⟨[(7, [0x48000000, 5, 0, 1500, 0, 0, 0, 0, 0, 0, 0, 0x0A000001] ++ List.replicate 20 0)]⟩ } }

/-- A Geneve frame with O = 1. -/
def controlFrame : Bytes :=
  bytesBE 14 0x0200000000010200000000020800 ++ bytesBE 20 0x4500005C00000000401100000A0000020A000001 ++ bytesBE 8 0x138817C100480000
    ++ bytesBE 8 0x0080655800000500 ++ List.replicate 60 0

/-- The frame 0 of a device waits at the switch to be terminated, and meets `H`. -/
def terminates (d : Dev) (H : Frame → Bool) : Bool :=
  d.available 11 && (d.frame? 0).any fun f => f.stage == .toSwitch (some 0) && !d.staleFrame f && H f

/-- The frame 0 of a device waits at the switch, and its verdict stands there; whether it would go back to where it came from. -/
def verdictStands (d : Dev) (back : Bool) (fits : Bool := true) : Bool :=
  d.available 11 && (d.frame? 0).any fun f =>
    let fn := lgGet f.lg lgFunction
    let inPort := lgGet f.lg lgInPort
    let dest := lgGet f.lg lgDest
    f.stage == .toSwitch none && !d.staleFrame f && (d.vlanOf f inPort fn).any (fun v =>
      v.2.hasSource inPort fn &&
        d.holdsFrame { sel := v.1, vlan := v.2, inPort := inPort, fn := fn, bytes := f.bytes, hash := f.lg.getD 5 0 } f.lg f.decap.isSome) &&
      (!lgOn f.lg lgEncrypt || !d.cipOn || d.espFits (lgGet f.lg lgKeySlot) fn 3) == fits &&
      (dest == sourceDest inPort fn) == back && !viaEndpoint f.lg dest

/-- The frame 0 of a device waits at the switch, and its verdict does not stand. -/
def verdictFalls (d : Dev) : Bool :=
  d.available 11 && (d.frame? 0).any fun f =>
    let fn := lgGet f.lg lgFunction
    let inPort := lgGet f.lg lgInPort
    f.stage == .toSwitch none && !d.staleFrame f && (d.vlanOf f inPort fn).all fun v =>
      !v.2.hasSource inPort fn ||
        !d.holdsFrame { sel := v.1, vlan := v.2, inPort := inPort, fn := fn, bytes := f.bytes, hash := f.lg.getD 5 0 } f.lg f.decap.isSome

/-- A legend for destination `dest` of a frame of port 2. -/
def lgOf2 (dest : Nat) : List Word := lgSet (lgSet (List.replicate 16 0) lgDest dest) lgInPort 2

theorem witness_Switching :
    HasDev (fun d => terminates d (fun f => lgOn f.lg lgEncrypt) = true) ∧
    HasDev (fun d => terminates d (fun f => !lgOn f.lg lgEncrypt && geneveO f.bytes) = true) ∧
    HasDev (fun d => terminates d (fun f => !lgOn f.lg lgEncrypt && !geneveO f.bytes &&
      (d.vsw.tunnels.look? (lgGet f.lg lgTunnel)).all fun r => (termination r f.bytes).isNone) = true) ∧
    HasDev (fun d => terminates d (fun f => !lgOn f.lg lgEncrypt && !geneveO f.bytes &&
      (d.vsw.tunnels.look? (lgGet f.lg lgTunnel)).any fun r => (termination r f.bytes).isSome) = true) ∧
    HasDev (fun d => verdictStands d false (fits := false) = true) ∧ HasDev (fun d => verdictStands d false = true) ∧
    HasDev (fun d => verdictStands d true = true) ∧ HasDev (fun d => verdictFalls d = true) :=
  ⟨meets (framed (.toSwitch (some 0)) (lgSet (lgOf2 2) lgEncrypt 1)) (by decide +kernel),
   meets { terminating with frames := ⟨[(0, { inPort := 2, stamp := 0, bytes := controlFrame, stage := .toSwitch (some 0), lg := lgOf2 2 })]⟩ }
     (by decide +kernel),
   meets { terminating with vsw := {} } (by decide +kernel), meets terminating (by decide +kernel),
   meets ((framed (.toSwitch none) (lgSet (lgOf2 (2 ^ 13 + 3)) lgEncrypt 1)).set Fld.CIP_CTRL_ENABLE 0 1) (by decide +kernel),
   meets (framed (.toSwitch none) (lgOf2 (2 ^ 13 + 3))) (by decide +kernel),
   meets (framed (.toSwitch none) (lgOf2 (2 ^ 13 + 2))) (by decide +kernel),
   meets { framed (.toSwitch none) (lgOf2 (2 ^ 13 + 3)) with vsw := { vlans := ⟨[(1, { fid := 1, floodUc := true, floodMc := true, ports := 0, untagPorts := 0, funcs := 15, untagFuncs := 15, tunnels := [] })]⟩ } } (by decide +kernel)⟩
/-! ## Insets, functions and the host interface -/

/-- The least object: one parse entry, its text one END. -/
def leastObject : Bytes :=
  wordBytes [0x444D4C54, 0xB0010001, 1, 1, 0, 0, 0, 0, 0, 512, 0, 0, 0, 0, 0, 0, 1, 512 * 2 ^ 16, 0x78000000]

/-- The inset 3 in force for PF0 in region 0. -/
def insetted : Dev :=
  { pca := { insets := ⟨[(3, { function := 0, text := [0x78000000], base := ⟨[]⟩, rgnBase := ⟨[]⟩, priv := 0, rgn := 0,
                               entries := [(2, 4, 0)], handles := [], handleKinds := [], chanMask := 0, softMask := 0, granted := [], bound := 0 })]⟩,
             insetAt := ⟨[(0, 3)]⟩ } }

/-- The places that a placement may choose from. -/
def freePlaces (lo hi step n : Nat) (used : List (Nat × Nat)) : List Nat :=
  ((List.range ((hi - lo) / step)).map fun k => lo + step * k).filter fun b => b + n ≤ hi && used.all fun u => b + n ≤ u.1 || u.1 + u.2 ≤ b

theorem place_some (d : Dev) (lo hi step n : Nat) (used : List (Nat × Nat)) (h : (freePlaces lo hi step n used).isEmpty = false) :
    ∃ b, d.place lo hi step n used = (some b, d.drawNat.2) := by
  have hl : 0 < (freePlaces lo hi step n used).length := List.length_pos_iff.2 (by simpa using h)
  have hk : d.drawNat.1 % max 1 (freePlaces lo hi step n used).length < (freePlaces lo hi step n used).length :=
    Nat.lt_of_lt_of_eq (Nat.mod_lt _ (by omega)) (by omega)
  exact ⟨_, Prod.ext (List.getElem?_eq_getElem hk) rfl⟩

theorem placeAll_some (lo hi step n : Nat) (used : Nat → List (Nat × Nat)) :
    ∀ (cs : List Nat) (d : Dev), (cs.all fun c => !(freePlaces lo hi step n (used c)).isEmpty) = true →
      ∃ t x, d.placeAll lo hi step n used cs = (some t, x) ∧ x.pca = d.pca
  | [], d, _ => ⟨_, d, rfl, rfl⟩
  | c :: rest, d, h => by
    simp only [List.all_cons, Bool.and_eq_true, Bool.not_eq_true'] at h
    obtain ⟨b, hb⟩ := place_some d lo hi step n (used c) h.1
    obtain ⟨t, x, hx, hp⟩ := placeAll_some lo hi step n used rest d.drawNat.2 h.2
    exact ⟨t.put c b, x, by simp only [Dev.placeAll, hb, hx], hp⟩

theorem HasTaken.imp {op : Nat} {H K : Nat → Accepted → Bytes → Dev → Prop} (h : ∀ n a p e, H n a p e → K n a p e) :
    HasTaken op H → HasTaken op K
  | ⟨s, c, n, a, p, e, ht, hh⟩ => ⟨s, c, n, a, p, e, ht, h n a p e hh⟩

/-- What the commands of insets ask of their issuer. -/
abbrev MayInset (a : Accepted) (e : Dev) : Prop := 4 ≤ a.cmd.issuer → (e.rd .FNC_PRIV a.cmd.issuer).getLsbD 1 = true

/-- The loader takes `o` for `f` and finds room for it everywhere. -/
def RoomFor (e : Dev) (f : Nat) (o : Tlamond) : Prop :=
  e.loaderRefuses f o [] = none ∧
  ∃ bases x wins y, e.placeAll 0x1000 0x4000 1 o.text.length e.textUsed (e.groupClusters f) = (some bases, x) ∧
    x.placeAll 0x40000 0x80000 1024 o.rgn x.rgnUsed ((e.groupClusters f).map (· / 4)).eraseDups = (some wins, y)

/-- The same, said of the free places. -/
def roomFor (e : Dev) (f : Nat) (o : Tlamond) : Bool :=
  let cs := e.groupClusters f
  (e.loaderRefuses f o []).isNone && (cs.all fun c => !(freePlaces 0x1000 0x4000 1 o.text.length (e.textUsed c)).isEmpty) &&
    (cs.map (· / 4)).eraseDups.all fun r => !(freePlaces 0x40000 0x80000 1024 o.rgn (e.rgnUsed r)).isEmpty

theorem roomFor_RoomFor {e : Dev} {f : Nat} {o : Tlamond} (h : roomFor e f o = true) : RoomFor e f o := by
  simp only [roomFor, Bool.and_eq_true, Option.isNone_iff_eq_none] at h
  obtain ⟨t, x, hx, hp⟩ := placeAll_some _ _ _ _ _ _ e h.1.2
  have hu : x.rgnUsed = e.rgnUsed := by funext r; simp only [Dev.rgnUsed, hp]
  obtain ⟨u, y, hy, -⟩ := placeAll_some _ _ _ _ _ _ x h.2
  exact ⟨h.1.1, t, x, u, y, hx, by rw [hu]; exact hy⟩

/-- What the load of `leastObject` reads, and the device once it is in reach. -/
def loading (n : Nat) (p : Bytes) (e : Dev) : Reach × Dev :=
  let from_ := ((e.vcl.cmds.look? n).map (·.cmd.issuer)).getD 0
  let reads := [(le p 0 8, (le32 p 8).toNat)]
  ((e.ownReach from_ reads).1, (e.ownReach from_ reads).2.putReads from_ reads)

theorem load_taken : HasTaken 0x0301 (fun n a p e =>
    MayInset a e ∧ e.pca.changes.look? a.fn = none ∧ (le32 p 12).toNat = 0 ∧ (loading n p e).1 = .ready ∧
    RoomFor (loading n p e).2 a.fn (tlamond (slice leastObject 0 (le32 p 8).toNat))) :=
  let c := cmd 0x0301 0 [0, 0, 76, 0]
  HasTaken.imp (H := fun n a p e => MayInset a e ∧ e.pca.changes.look? a.fn = none ∧ (le32 p 12).toNat = 0 ∧ (loading n p e).1 = .ready ∧
      roomFor (loading n p e).2 a.fn (tlamond (slice leastObject 0 (le32 p 8).toNat)) = true)
    (fun _ _ _ _ h => ⟨h.1, h.2.1, h.2.2.1, h.2.2.2.1, roomFor_RoomFor h.2.2.2.2⟩) (takes (waits {} c) c (by decide +kernel))

/-- The function 4 of PF0, without FNC_PRIV. -/
def oneVf : Dev := { hif := { sriov := ⟨[(0, { vfEnable := true, numVfs := 1 })]⟩ } }

theorem witness_Insets :
    HasTaken 0x0301 (fun _ a _ e => ¬ MayInset a e) ∧ HasTaken 0x0302 (fun _ a _ e => ¬ MayInset a e) ∧ HasTaken 0x0303 (fun _ a _ e => ¬ MayInset a e) ∧
    HasTaken 0x0301 (fun n a p e =>
      MayInset a e ∧ e.pca.changes.look? a.fn = none ∧ (le32 p 12).toNat = 0 ∧ (loading n p e).1 = .ready ∧
      RoomFor (loading n p e).2 a.fn (tlamond (slice leastObject 0 (le32 p 8).toNat))) ∧
    HasTaken 0x0302 (fun _ a p e => MayInset a e ∧ (le32 p 0).toNat = 1 ∧ e.bindRefuses a.fn (le32 p 4) = none) ∧
    HasTaken 0x0303 (fun _ a _ e => MayInset a e ∧ e.pca.changes.look? a.fn = none ∧ (e.insetInForce a.fn).isSome = true) ∧
    HasDev (fun d => ((d.pca.changes.look? 1023).any fun ch => ch.regions.contains 3) = true) ∧
    HasDev (fun d => ((d.pca.changes.look? 1023).any fun ch => ch.regions.isEmpty && !d.oldInsetRuns 1023 ch.new) = true) :=
  let v1 := cmd 0x0301 4 [0, 0, 76, 0]
  let v2 := cmd 0x0302 4 [0]
  let v3 := cmd 0x0303 4 []
  let c2 := cmd 0x0302 0 [1, toWord (2 ^ 30 + 4 * 2 ^ 24), 0]
  let c3 := cmd 0x0303 0 []
  ⟨takes (waits oneVf v1) v1 (by decide +kernel), takes (waits oneVf v2) v2 (by decide +kernel), takes (waits oneVf v3) v3 (by decide +kernel),
   load_taken, takes (waits insetted c2) c2 (by decide +kernel), takes (waits insetted c3) c3 (by decide +kernel),
   meets { pca := { changes := ⟨[(1023, { new := none, regions := [0, 3], cmd := none })]⟩ } } (by decide +kernel),
   meets { pca := { changes := ⟨[(1023, { new := none, regions := [], cmd := none })]⟩ } } (by decide +kernel)⟩

/-- A domain's key at rest. -/
def domainKey : Sealed := ⟨[], [], []⟩

/-- PF1 frozen, one migration domain known, and the save's record of the freeze. -/
def frozen : Dev :=
  ({ sec := { mram := { domains := ⟨[(5, domainKey)]⟩ } }, fnc := { freezes := ⟨[(1, { z := 0, cmd := none })]⟩ } } : Dev).set
    Fld.FNC_FUNC_STATE_STATE 1 3

theorem one_domain {d : Dev} {x : Nat × Sealed} (h : d.sec.mram.domains.cells = [x]) :
    d.saveDomain = (some (x.1, x.2.plain), d.drawNat.2) := by
  simp [Dev.saveDomain, h, Nat.mod_one]

/-- What a save asks beside its domain. -/
def saveFits (n : Nat) (a : Accepted) (p : Bytes) (e x : Dev) : Bool :=
  let secs := (x.imageSections a.fn).filter fun s => !s.2.isEmpty
  e.fnState a.fn == 3 && !e.on? Fld.SEC_STAT_TRNG_FAIL && (x.fnc.freezes.look? a.fn).isSome && (x.vcl.cmds.look? n).isSome &&
    decide (96 + 16 * (secs.length + 1) + (secs.flatMap fun s => s.2.flatMap id).length + 144 * (x.keySection a.fn).length ≤ (le32 p 8).toNat)

theorem save_taken : HasTaken 0x0B03 (fun n a p e => e.mramBad 0x3000 0x4000 = false ∧ e.saveDomain = (some (5, domainKey.plain), e.drawNat.2) ∧ saveFits n a p e e.drawNat.2 = true) :=
  let c := cmd 0x0B03 1 [0, 0, 65536]
  HasTaken.imp (H := fun n a p e => e.mramBad 0x3000 0x4000 = false ∧ e.sec.mram.domains.cells = [(5, domainKey)] ∧ saveFits n a p e e.drawNat.2 = true)
    (fun _ _ _ _ h => ⟨h.1, one_domain h.2.1, h.2.2⟩) (takes (waits frozen c) c (by decide +kernel))

/-- No clause asks for an image whose seal verifies: both outcomes are cases of FUNC_RESTORE's conclusion. -/
theorem witness_FunctionCommands :
    HasTaken 0x0902 (fun _ a p e =>
      let base := bitsOf (le32 p 0) 13 0
      let count := bitsOf (le32 p 4) 6 0
      count ≤ 64 ∧ base + count ≤ 16384 ∧ e.qpOverlaps a.fn base count = false ∧ (∀ i, i < e.qpCount a.fn → e.qpBusy (e.qpBase a.fn + i) = false) ∧
      ∀ i, i < count → e.qpBusy (base + i) = false) ∧
    HasTaken 0x0903 (fun _ a _ _ => 4 ≤ a.fn) ∧
    HasTaken 0x0B01 (fun _ _ _ _ => True) ∧
    HasTaken 0x0B02 (fun _ a _ e => e.fnState a.fn = 0 ∧ (e.sto.conns.first? fun _ x => x.fn == a.fn && x.live) = none ∧ (e.banks a.fn).other = .empty) ∧
    HasTaken 0x0B03 (fun n a p e => e.mramBad 0x3000 0x4000 = false ∧ e.saveDomain = (some (5, domainKey.plain), e.drawNat.2) ∧ saveFits n a p e e.drawNat.2 = true) ∧
    HasTaken 0x0B04 (fun n _ p e => (loading n p e).1 = .ready ∧ (loading n p e).2.mramBad 0x3000 0x4000 = false) ∧
    HasTaken 0x0B05 (fun _ a _ e => e.fnState a.fn = 3) ∧
    HasDev (fun d => d.fnState 1 = 2 ∧ d.dmaBusy 1 = false ∧ (d.fnc.freezes.look? 1).isSome = true) ∧
    HasDev (fun d => d.fnState 1 = 1 ∧ d.resetDrained 1 = true ∧ ((d.fnc.resets.look? 1).any fun r => r.restore.isNone) = true) :=
  let c1 := cmd 0x0902 1023 [16368, 16] 3
  let c2 := cmd 0x0903 4 [3] 0
  let c3 := cmd 0x0B01 1 []
  let c4 := cmd 0x0B02 1 []
  let c5 := cmd 0x0B05 1 []
  let c6 := cmd 0x0B04 1 [0, 0, 96]
  ⟨takes (waits { hif := { sriov := ⟨[(3, { vfEnable := true, numVfs := 255 })]⟩ } } c1) c1 (by decide +kernel),
   takes (waits oneVf c2) c2 (by decide +kernel),
   takes (waits {} c3) c3 (by decide +kernel), takes (waits {} c4) c4 (by decide +kernel), save_taken,
   takes (waits {} c6) c6 (by decide +kernel), takes (waits frozen c5) c5 (by decide +kernel),
   meets (frozen.set Fld.FNC_FUNC_STATE_STATE 1 2) (by decide +kernel),
   meets (({ fnc := { resets := ⟨[(1, { reason := 4, stamp := 0, cmds := [], flr := false })]⟩ } } : Dev).set Fld.FNC_FUNC_STATE_STATE 1 1)
     (by decide +kernel)⟩

theorem witness_SaveThenThaw :
    HasTaken 0x0B03 (fun n a p e => e.mramBad 0x3000 0x4000 = false ∧ e.saveDomain = (some (5, domainKey.plain), e.drawNat.2) ∧ saveFits n a p e e.drawNat.2 = true) ∧
    HasTaken 0x0B05 (fun _ a _ e => e.fnState a.fn = 3 ∧ e.on? Fld.FNC_FUNC_STATE_SAVED a.fn = true) ∧
    HasTaken 0x0B05 (fun _ a _ e => e.fnState a.fn = 3 ∧ e.on? Fld.FNC_FUNC_STATE_SAVED a.fn = false) :=
  let c := cmd 0x0B05 1 []
  ⟨save_taken, takes (waits (frozen.set Fld.FNC_FUNC_STATE_SAVED 1 1) c) c (by decide +kernel), takes (waits frozen c) c (by decide +kernel)⟩

theorem witness_HostEvents :
    HasDev (fun d => d.exists? 3 = true) ∧ HasDev (fun d => d.exists? 1023 = true ∧ (d.hif.cfg.getD 1023 {}).d3hot = true) ∧
    HasDev (fun d => (d.hif.sriov.getD 3 {}).vfEnable = true) ∧ HasDev (fun d => (d.hif.sriov.getD 3 {}).vfEnable = false ∧ 255 ≤ 255) ∧
    HasDev (fun d => (d.linkFns 0).filter d.exists? ≠ []) ∧
    HasDev (fun d => d.on? Fld.HIF_LINK_CFG_DUAL = true ∧ (d.linkFns 1).filter d.exists? ≠ []) ∧
    HasDev (fun d => (d.dma.invals.find? fun i => i.1 == 3 && i.2.1 == 31) = some (3, 31, 5) ∧ d.invalBusy 3 5 = false) ∧
    HasDev (fun d => 2047 < msixCount 0 ∧ d.canAccess (.host 0) = true ∧
      d.spotAt (.host 0) (.msix 0 (16 * 2047 + 12)) = .vector 0 2047 3 ∧ d.hostBarred (.host 0) (.vector 0 2047 3) = false ∧ d.standby = false ∧
      d.unavailable (.vector 0 2047 3) = none ∧ (d.hif.msix.getD (2048 * 0 + 2047) {}).pending = true ∧
      (d.hif.cfg.getD 0 {}).msixEnable = true ∧ (d.hif.cfg.getD 0 {}).msixMask = false ∧
      reach (.host 0) (.msix 0 (16 * 2047 + 12)) = some (.msix 0 (16 * 2047 + 12))) :=
  ⟨meets {} (by decide +kernel),
   meets { hif := { sriov := ⟨[(3, { vfEnable := true, numVfs := 255 })]⟩, cfg := ⟨[(1023, { d3hot := true })]⟩ } } (by decide +kernel),
   meets { hif := { sriov := ⟨[(3, { vfEnable := true, numVfs := 255 })]⟩ } } (by decide +kernel), meets {} (by decide +kernel),
   meets {} (by decide +kernel), meets (({} : Dev).set Fld.HIF_LINK_CFG_DUAL 0 1) (by decide +kernel),
   meets { dma := { invals := [(3, 31, 5)] } } (by decide +kernel),
   meets { hif := { msix := ⟨[(2047, { pending := true })]⟩ } } (by decide +kernel)⟩

/-! ## Scheduling, gates and policing -/

theorem witness_TrafficCommands :
    HasTaken 0x0801 (fun _ _ p e => e.available 6 = true ∧ bitsOf (le32 p 0) 4 0 < 18 ∧ (le32 p 0).getLsbD 31 = false ∧
      gateListOk p (bitsOf (le32 p 4) 26 16) (le32 p 16).toNat (le32 p 20).toNat (e.preemption (bitsOf (le32 p 0) 4 0)) = true) ∧
    HasTaken 0x0801 (fun _ _ p e =>
      let port := bitsOf (le32 p 0) 4 0
      e.available 6 = true ∧ port < 18 ∧ (le32 p 0).getLsbD 31 = true ∧
      gateListOk p (bitsOf (le32 p 4) 26 16) (le32 p 16).toNat (le32 p 20).toNat (e.preemption port) = true) ∧
    HasTaken 0x0802 (fun _ _ p e =>
      let r := wordsOf (p.drop 4) 4
      let w0 := r.getD 0 0
      let w1 := r.getD 1 0
      e.available 6 = true ∧ bitsOf w0 13 10 = 0 ∧ bitsOf w1 31 29 = 0 ∧ bitsOf w1 15 14 = 0 ∧ r.getD 2 0 = 0 ∧ r.getD 3 0 = 0 ∧ bitsOf w0 27 26 ≠ 3 ∧
      w0.getLsbD 30 = true ∧ bitsOf w0 9 0 < 4) ∧
    HasTaken 0x0803 (fun _ _ p e => e.available 6 = true ∧ bitsOf (le32 p 0) 12 0 = 8191) ∧
    HasTaken 0x0804 (fun _ _ p e => e.available 6 = true ∧ bitsOf ((wordsOf (p.drop 4) 4).getD 2 0) 26 24 = 0 ∧
      bitsOf ((wordsOf (p.drop 4) 4).getD 3 0) 31 24 = 0) ∧
    HasTaken 0x0805 (fun _ _ p e =>
      let w0 := le32 p 4
      let w1 := le32 p 8
      e.available 6 = true ∧ w0.getLsbD 30 = false ∧ bitsOf w0 23 0 = 0 ∧ bitsOf w1 15 0 = 0 ∧ 1 ≤ bitsOf w0 29 24 ∧ bitsOf w0 29 24 ≤ 32 ∧
      bitsOf w1 31 16 ≠ 0) ∧
    HasTaken 0x0806 (fun _ _ p e => e.available 6 = true ∧ (e.tm.cb.look? (bitsOf (le32 p 0) 11 0)).isSome = true) :=
  let c1 := cmd 0x0801 0 [17, 2 ^ 16, 0, 0, 250, 250, 64, 255]
  let c2 := cmd 0x0801 0 [toWord (2 ^ 31 + 17), 2 ^ 16, 0, 0, 250, 250, 64, 255]
  let c3 := cmd 0x0802 0 [8191, toWord (2 ^ 30 + 3), 0, 0, 0]
  let c4 := cmd 0x0803 0 [toWord (2 ^ 31 + 8191)]
  let c5 := cmd 0x0804 0 [8191, 1, 2, 3, 4]
  let c6 := cmd 0x0805 0 [4095, toWord (32 * 2 ^ 24), toWord (2 ^ 16)]
  let c7 := cmd 0x0806 0 [4095]
  ⟨takes (waits {} c1) c1 (by decide +kernel), takes (waits {} c2) c2 (by decide +kernel), takes (waits {} c3) c3 (by decide +kernel),
   takes (waits {} c4) c4 (by decide +kernel), takes (waits {} c5) c5 (by decide +kernel), takes (waits {} c6) c6 (by decide +kernel),
   takes (waits { tm := { cb := ⟨[(4095, { w0 := 0, w1 := 0 })]⟩ } } c7) c7 (by decide +kernel)⟩

/-- Frame 0, of no stream or of stream `stream`, and its copy 7 for port 17 at a stage. -/
def copied (stage : CopyStage) (stream : Nat := 0xFFFF) (dest : Nat := 17) : Dev :=
  let lg := lgSet (List.replicate 16 0) lgStream stream
  { frames := ⟨[(0, { arrived .copied with lg := lg })]⟩,
    copies := ⟨[(7, { frame := 0, dest := dest, bytes := List.replicate 64 1, lg := lg, stage := stage })]⟩ }

/-- The head of the queue that the scheduler picks on port `p` for class `k`, if that class is ready. -/
def ready (d : Dev) (p k : Nat) : Option (Nat × Copy) :=
  let at_ := d.nowLine + d.lead p
  let free := d.planFree p k
  let start := if free ≤ at_ && at_ < free + 2 * lineNs then free else max free at_
  if free ≤ at_ && d.canSend p k then (d.pick p k start).bind fun r => d.head r.2.1 else none

/-- Class 0 alone is ready on port 17, and its head meets `H`. -/
def selects (d : Dev) (H : Nat → Copy → Bool) : Bool :=
  d.available 6 && d.on? Fld.TMG_CTRL_ENABLE && decide (d.txWaiting 17 < 32) && ((List.range 7).all fun k => (ready d 17 (k + 1)).isNone) &&
    (ready d 17 0).any fun x => H x.1 x.2

/-- Port 17 with one copy in its queue 5. -/
def scheduling : Dev :=
  ((((({ copied (.queued 5) with tm := { queues := ⟨[(5, [7])]⟩ } }).set Fld.TMG_CTRL_ENABLE 0 1).set Fld.TMG_QUEUE_CFG_ENABLE 5 1).set
    Fld.TMG_QUEUE_CFG_PORT 5 17 |>.set Fld.TMG_QUEUE_CFG_TC 5 0).set Fld.TMG_GROUP_CFG_PORT 0 17).set Fld.PRT_LINK_STAT_UP 17 1

/-- The same, behind an older frame of its order slot. -/
def reordering : Dev :=
  { scheduling with frames := ⟨[(0, { arrived .copied with slot := some 0, stamp := 5 }), (1, { arrived (.queued 0 0) with slot := some 0 })]⟩ } |>.set
    Fld.TMG_RESEQ_CTRL_ENABLE 17 1

/-- A copy of 200 bytes of class 0 on the line of port 15 from `began` to `ends`, preemptable, `l` its gate list, `ns` since both clocks started. -/
def onLine (l : GateList) (ns began ends : Nat) : Dev :=
  (({ copied (.line 5 0) 0xFFFF 15 with
      copies := ⟨[(7, { frame := 0, dest := 15, bytes := List.replicate 200 1, lg := List.replicate 16 0, stage := .line 5 0 })]⟩,
      mer := { acc := ns * 256 * stampUnit, refCycles := ns / 2 },
      tm := { lines := ⟨[(15, { busy := some { copy := 7, began := began, ends := ends, before := 0 } })]⟩, gates := ⟨[(15, { oper := some l })]⟩ } }).set
    Fld.PRT_LINK_STAT_CUR_MODE 15 5).set Fld.TMG_PREEMPT_CFG_EN 15 1 |>.set Fld.TMG_PREEMPT_CFG_HOLD_ADVANCE 15 4000 |>.set Fld.TMG_PREEMPT_CFG_EXPRESS 15 0
    |>.set Fld.TMG_QUEUE_CFG_TC 5 0

/-- A list of class masks `a` for 1000 ns and then `b` for 3000 ns, which begins to hold with its second entry. -/
def holdList (a b : Nat) : GateList := { twoEntries 1 with entries := [(1000, 0, a), (3000, 1, b)] }

/-- What `preemptableHold` asks of port 15 and its copy on the line, and where its gate closes. -/
def held15 (d : Dev) (H : OnLine → Copy → Nat → Option Nat → Bool) : Bool :=
  d.holds 15 && (d.line 15).busy.any fun b => (d.copy? b.copy).any fun c =>
    c.stage == .line 5 0 && H b c (2 ^ d.qClass 5) ((d.gate 15).closeAt (2 ^ d.qClass 5) ((d.nowLine + b.began - d.refLine) / lineNs))

/-- Its gate is closed now. -/
def shut15 (d : Dev) (mask : Nat) : Bool := d.preemptable 15 (d.qClass 5) && !((d.gate 15).at d.nowNs).opens false mask

theorem witness_PreemptableHold :
    HasDev (fun d => held15 d (fun _ _ _ _ => !d.preemptable 15 (d.qClass 5)) = true) ∧
    HasDev (fun d => held15 d (fun _ _ mask _ => d.preemptable 15 (d.qClass 5) && ((d.gate 15).at d.nowNs).opens false mask) = true) ∧
    HasDev (fun d => held15 d (fun _ _ mask close => shut15 d mask && close.isNone) = true) ∧
    HasDev (fun d => held15 d (fun b _ mask close => shut15 d mask && close.any fun e =>
      decide (b.ends + d.nowLine ≤ d.refLine + e * lineNs)) = true) ∧
    HasDev (fun d => held15 d (fun b c mask close => shut15 d mask && close.any fun e =>
      decide (d.refLine + e * lineNs < b.ends + d.nowLine) && (d.cutBy 15 (e * lineNs) b c).isNone) = true) ∧
    HasDev (fun d => held15 d (fun b c mask close => shut15 d mask && close.any fun e =>
      decide (d.refLine + e * lineNs < b.ends + d.nowLine) && (d.cutBy 15 (e * lineNs) b c).isSome) = true) :=
  let late := 10 ^ 6 * lineNs
  ⟨meets ((onLine (holdList 1 0) 0 0 late).set Fld.TMG_PREEMPT_CFG_EXPRESS 15 255) (by decide +kernel),
   meets (onLine (holdList 1 0) 0 0 late) (by decide +kernel),
   meets { onLine (holdList 1 0) 0 late late with
     tm := { (onLine (holdList 1 0) 0 late late).tm with gates := ⟨[(15, { hold := some 0, pending := some { holdList 1 1 with t := 1000, entries := [(4000, 1, 1)] } })]⟩ } }
     (by decide +kernel),
   meets (onLine (holdList 1 0) 2000 0 1) (by decide +kernel), meets (onLine (holdList 0 0) 0 0 late) (by decide +kernel),
   meets (onLine (holdList 1 0) 2000 0 late) (by decide +kernel)⟩

theorem witness_SchedulerSelect :
    HasDev (fun d => d.available 6 = true ∧ d.on? Fld.TMG_CTRL_ENABLE = true ∧ d.txWaiting 17 < 32 ∧ ∀ k, k < 8 → (ready d 17 k).isNone = true) ∧
    HasDev (fun d => selects d (fun id c => !(d.reseqCheck 17 id c).1) = true) ∧
    HasDev (fun d => selects d (fun id c => (d.reseqCheck 17 id c).1 && !(d.reseqCheck 17 id c).2.macsecApplies 17 c) = true) ∧
    HasDev (fun d => selects d (fun id c => (d.reseqCheck 17 id c).1 && (d.reseqCheck 17 id c).2.macsecApplies 17 c && d.cipTakes) = true) ∧
    HasDev (fun d => selects d (fun id c => (d.reseqCheck 17 id c).1 && (d.reseqCheck 17 id c).2.macsecApplies 17 c && !d.cipTakes) = true) :=
  ⟨meets (({} : Dev).set Fld.TMG_CTRL_ENABLE 0 1) (by decide +kernel), meets reordering (by decide +kernel), meets scheduling (by decide +kernel),
   meets ((scheduling.set Fld.CIP_PORT_MACSEC_TX_EN 17 1).set Fld.CIP_CTRL_ENABLE 0 1) (by decide +kernel),
   meets ((scheduling.set Fld.CIP_PORT_MACSEC_TX_EN 17 1).set Fld.CIP_CTRL_ENABLE 0 0) (by decide +kernel)⟩

theorem witness_TrafficEvents :
    HasDev (fun d => d.rising 6 = false ∧ d.available 6 = true ∧ ((d.frame? 0).any fun f => !d.staleFrame f &&
        ((if f.filtered then (.pass (lgGet f.lg lgColour), d) else d.police 0 f : Policed × Dev).1 matches .drop _)) = true ∧
      (d.copies.cells.filter fun c => c.2.frame == 0 && c.2.stage == .admitting).isEmpty = false) ∧
    HasDev (fun d => d.rising 6 = false ∧ d.available 6 = true ∧ ((d.frame? 0).any fun f => !d.staleFrame f &&
        ((if f.filtered then (.pass (lgGet f.lg lgColour), d) else d.police 0 f : Policed × Dev).1 matches .pass _)) = true ∧
      (d.copies.cells.filter fun c => c.2.frame == 0 && c.2.stage == .admitting).isEmpty = false) ∧
    HasDev (fun d => ((d.tm.cb.look? 4095).any fun x => x.lastPass.any fun t => decide (t + x.resetMs * 1000000 ≤ d.ref)) = true) ∧
    HasDev (fun d => ((d.held_ 17).find? fun h => h.2 ≤ d.ref) = some (7, 0)) ∧
    HasDev (fun d => 17 < 18 ∧ d.linkUp? 17 = true) ∧
    HasDev (fun d => ((d.copy? 7).any fun c => c.stage == .queued 5 && decide (2 ^ 55 ≤ d.now - d.ingress c.lg)) = true) ∧
    HasDev (fun d => ((d.gate 17).oper.any fun l => !((d.gate 17).pending.any fun n => n.t ≤ d.nowNs) &&
      decide (¬((d.gate 17).entry = ((d.gate 17).place l d.nowNs).2 ∧ (d.gate 17).cycle = ((d.gate 17).place l d.nowNs).1.toNat))) = true) ∧
    HasDev (fun d => ((d.gate 17).pending.any fun l => decide (l.t ≤ d.nowNs)) = true) ∧
    HasDev (fun d => ((d.line 17).busy.any fun b => decide (b.ends ≤ d.refLine) && (d.copy? b.copy).isNone) = true) ∧
    HasDev (fun d => ((d.line 17).busy.any fun b => decide (b.ends ≤ d.refLine) &&
      ((((d.setLine 17 { d.line 17 with busy := none }).stopsTakeEffect 17).copy? b.copy).any fun c => c.stage == .line 5 0 && c.cutAt.isNone)) = true) ∧
    HasDev (fun d => ((d.line 17).busy.any fun b => decide (b.ends ≤ d.refLine) &&
      ((((d.setLine 17 { d.line 17 with busy := none }).stopsTakeEffect 17).copy? b.copy).any fun c => c.stage == .line 5 0 && c.cutAt.isSome)) = true) ∧
    HasDev (fun d => d.holds 15 = true ∧ (d.line 15).busy.isNone = true) :=
  ⟨meets (copied .admitting 5) (by decide +kernel), meets (copied .admitting) (by decide +kernel),
   meets { tm := { cb := ⟨[(4095, { w0 := 0, w1 := 0, lastPass := some 0 })]⟩ }, mer := { refCycles := 2 ^ 40 } } (by decide +kernel),
   meets { copied (.launch 5 0) with tm := { held := ⟨[(17, [(7, 0)])]⟩ } } (by decide +kernel), meets linked (by decide +kernel),
   meets { copied (.queued 5) with mer := { acc := 2 ^ 55 * stampUnit } } (by decide +kernel),
   meets { tm := { gates := ⟨[(17, { oper := some (twoEntries 1) })]⟩ }, mer := { acc := 1000 * 256 * stampUnit } } (by decide +kernel),
   meets { tm := { gates := ⟨[(17, { pending := some (twoEntries 1) })]⟩ } } (by decide +kernel),
   meets { tm := { lines := ⟨[(17, { busy := some { copy := 7, began := 0, ends := 0, before := 0 } })]⟩ } } (by decide +kernel),
   meets { copied (.line 5 0) with tm := { lines := ⟨[(17, { busy := some { copy := 7, began := 0, ends := 0, before := 0 } })]⟩ } } (by decide +kernel),
   meets { copied (.line 5 0) with
     copies := ⟨[(7, { frame := 0, dest := 17, bytes := List.replicate 64 1, lg := [], stage := .line 5 0, cutAt := some 256 })]⟩,
     tm := { lines := ⟨[(17, { busy := some { copy := 7, began := 0, ends := 0, before := 0 } })]⟩ } } (by decide +kernel),
   meets (({ tm := { gates := ⟨[(15, { oper := some { twoEntries 1 with entries := [(1000, 0, 1), (3000, 1, 0)] } })]⟩ } } : Dev).set
     Fld.TMG_PREEMPT_CFG_EN 15 1 |>.set Fld.TMG_PREEMPT_CFG_HOLD_ADVANCE 15 1000) (by decide +kernel)⟩


/-! ## Buffers, the DMA engine and late gather -/

/-- A buffer request of port 0 for frame 0, of 64 bytes from pool 0. -/
def asking (waiting : Bool) : BufReq :=
  { party := 0, len := 64, stamp := 0, first := 0, pool := 0, count := 1, waiting := waiting, arrived := waiting, for_ := .frame 0 }

theorem waiting_one {d : Dev} {pool : Nat} {x : Nat × BufReq} (h : (d.bpm.reqs.cells.filter fun e => e.2.waiting && e.2.pool == pool) = [x]) :
    d.waitingOf pool = [x] := by
  simp [Dev.waitingOf, h]

/-- PF0 with queue pair 63 enabled, one entry in its transmit and in its receive ring, and its context `x`. -/
def ringed : Dev := ({ paired with dma := { qps := ⟨[(63, { txTail := 1, rxTail := 1 })]⟩ } } : Dev).set Fld.DMA_CTRL_ENABLE 0 1

/-- What a fetch of the next descriptor of queue pair 63 asks. -/
def mayFetch (d : Dev) (rx : Bool) : Bool :=
  let x := d.qp 63
  let fetched := if rx then x.rxFetched else x.txFetched
  d.qpOwner 63 == some 0 && d.dmaIssues && d.fetches 0 && d.on? Fld.HIF_QP_CTX_ENABLE 63 && !d.on? Fld.HIF_QP_CTX_MODE 63 &&
    fetched != (if rx then x.rxTail else x.txTail) &&
    decide (sub32 (if rx then x.rxcTail else x.txcTail) (if rx then x.rxcHead else x.txcHead) + d.descCount 63 rx <
      (if rx then d.rxSize 63 else d.txSize 63)) &&
    (d.dma.descs.look? (descKey 63 rx fetched)).isNone

/-- The place of the ring entry that it reads. -/
def ringPlace (d : Dev) (rx : Bool) : Nat × Nat := (if rx then d.qpAddr 63 8 else d.qpAddr 63 4, 16)

/-- A ring entry, and a descriptor of 64 bytes at 0x1000, late where asked. -/
def ringEntry : Bytes := bytesLE 8 0x1000 ++ List.replicate 8 0
def oneElement (late : Bool) : Bytes := bytesLE 4 (2 ^ 24 + 2 ^ 22 * b2n late) ++ bytesLE 4 64 ++ bytesLE 8 0 ++ bytesLE 8 0x2000 ++ bytesLE 8 64

theorem witness_BuffersAndDescriptors :
    HasDev (fun d => ((d.bpm.reqs.look? 3).any fun r => !r.arrived) = true ∧ d.rising 13 = false ∧ d.available 13 = true ∧
      d.on? Fld.BPM_CTRL_ENABLE = true) ∧
    (∃ s : State, s.toDev.inReset = false ∧ s.toDev.waitingOf 0 = [(3, asking true)] ∧ s.toDev.available 13 = true ∧
      s.toDev.on? Fld.BPM_CTRL_ENABLE = true ∧ (asking true).stamp + 64 * 256 < s.toDev.now) ∧
    HasDev (fun d => ((d.bpm.grants.look? 5).any fun g => g.owners.contains 127) = true) ∧
    HasDev (fun d => ((d.bpm.grants.look? 5).any fun g => !g.owners.contains 127) = true) ∧
    HasDev (fun d => d.bpm.grants.look? 5 = none) ∧
    (∀ rx : Bool, HasDev (fun d => d.qpOwner 63 = some 0 ∧ d.on? Fld.HIF_QP_CTX_IRQ_EN 63 = true ∧ d.fnState 0 ≠ 1 ∧ d.fnState 0 ≠ 3 ∧
      (if d.irqSide 63 rx then (d.qp 63).rxWait else (d.qp 63).txWait) = true ∧
      (if d.irqSide 63 rx then (d.qp 63).rxHold else (d.qp 63).txHold) ≤ d.ref)) ∧
    HasTaken 0x0901 (fun _ _ p e => e.available 7 = true ∧ (le32 p 0).getLsbD 31 = true ∧ le p 4 8 % 4096 = 0 ∧ bitsOf (le32 p 12) 19 0 ≠ 0) ∧
    HasDev (fun d => mayFetch d true = true ∧ (d.reachPages 0 [ringPlace d true]).1 = .waits) ∧
    HasDev (fun d => mayFetch d true = true ∧ mayFetch d false = true ∧ (d.reachPages 0 [ringPlace d true]).1 = .ready ∧
      (d.reachPages 0 [ringPlace d false]).1 = .ready ∧ (d.reachPages 0 [(0x1000, 16)]).1 = .ready ∧
      (bitsOf (le32 ringEntry 8) 31 16 = 0 ∧ le32 ringEntry 12 = 0 ∧ le ringEntry 0 8 % 16 = 0) ∧
      bitsOf (le32 (List.replicate 16 1) 8) 31 16 ≠ 0 ∧
      (d.reachPages 0 (readDesc (oneElement true) 0x1000).reads).1 = .ready ∧
      (readDesc (List.replicate 16 0) 0x1000).ok = false ∧
      ((readDesc (oneElement false) 0x1000).ok = true ∧ (readDesc (oneElement false) 0x1000).late = false ∧
        (readDesc (oneElement false) 0x1000).stamp = false ∧ (readDesc (oneElement false) 0x1000).total ≤ 9728 ∧ d.ctxOf 63 = none)) ∧
    HasDev (fun d => mayFetch d false = true ∧ (d.reachPages 0 [ringPlace d false]).1 = .ready ∧
      (d.reachPages 0 (readDesc (oneElement true) 0x1000).reads).1 = .ready ∧ (readDesc (oneElement true) 0x1000).ok = true ∧
      (readDesc (oneElement true) 0x1000).late = true ∧ (d.ctxOf 63).isSome = true) :=
  let held (b : Nat) : Dev := { bpm := { grants := ⟨[(5, { charged := b, owners := [b] })]⟩ } }
  let c := cmd 0x0901 0 [toWord (2 ^ 31 + 7), 0x1000, 1, 0xFFFFF]
  ⟨meets { ({} : Dev).set Fld.BPM_CTRL_ENABLE 0 1 with bpm := { reqs := ⟨[(3, asking false)]⟩ } } (by decide +kernel),
   ⟨{ toDev := { ({} : Dev).set Fld.BPM_CTRL_ENABLE 0 1 with
                 bpm := { reqs := ⟨[(3, asking true)]⟩ }, mer := { acc := 2 ^ 20 * stampUnit } } },
    by decide +kernel, waiting_one (by decide +kernel), by decide +kernel, by decide +kernel, by decide +kernel⟩,
   meets (held 127) (by decide +kernel), meets (held 96) (by decide +kernel), meets {} (by decide +kernel),
   fun rx =>
     let d : Dev := { paired.set Fld.HIF_QP_CTX_IRQ_EN 63 1 with dma := { qps := ⟨[(63, { txWait := true, rxWait := true })]⟩ } }
     match rx with
     | true => meets (d.set Fld.HIF_QP_CTX_RX_VEC 63 1) (by decide +kernel)
     | false => meets d (by decide +kernel),
   takes (waits {} c) c (by decide +kernel),
   meets { ringed with hif := { cfg := ⟨[(0, { ats := true })]⟩ } } (by decide +kernel), meets ringed (by decide +kernel),
   meets ((ringed.set Fld.DMA_LG_CTX_ENABLE 1023 1).set Fld.DMA_LG_CTX_QP 1023 63) (by decide +kernel)⟩

/-- A burst of PF0 on channel 63. -/
def burstFor (what : BurstFor) (write : Bool := false) (issued : Bool := false) : Burst :=
  { path := { chan := 63 }, fn := 0, gen := 0, write := write, addr := 0x1000, data := if write then List.replicate 64 1 else [], len := 64, for_ := what,
    issued := issued }

/-- A device that issues, with burst 9, its window over the burst where asked. -/
def bursting (b : Burst) (window : Bool := false) : Dev :=
  let d : Dev := ((({ dma := { bursts := ⟨[(9, b)]⟩ } } : Dev).set Fld.DMA_CTRL_ENABLE 0 1).set Fld.DMA_CHAN_CFG_ENABLE 63 1)
  if window then ((d.set Fld.DMA_PF_WIN_VALID 0 1).set Fld.DMA_PF_WIN_PAGES 0 2) else d

/-- A descriptor of PF0's queue pair 63 with one element of 64 bytes. -/
def described (late : Bool) : Desc :=
  { qp := 63, idx := 0, rx := false, fn := 0, gen := 0, tag := 0, path := { chan := 63 }, late := late, stampReq := false, total := 64, txTime := 0,
    elems := [(0x1000, 64)], fetched := 0, got := List.replicate 64 0, reads := 1 }

theorem witness_HostTransfers :
    HasDev (fun d => d.dmaIssues = true ∧ (d.lateDue.any fun x => (d.inWindow x.2.fn x.2.addr x.2.len).isSome && d.translated x.2.fn x.2.addr) = true) ∧
    HasDev (fun d => d.dmaIssues = true ∧ (d.lateDue.any fun x => (d.inWindow x.2.fn x.2.addr x.2.len).isNone) = true) ∧
    (∀ write : Bool, HasDev (fun d => d.dmaIssues = true ∧ d.lateDue = none ∧
      ((d.chooseChan write (d.nextBursts write)).any fun x => d.translated x.2.2.fn x.2.2.addr) = true)) ∧
    HasDev (fun d => ((d.dma.bursts.look? 9).any fun b => !b.write && b.issued && d.gen b.fn == b.gen && b.for_ == .gather 63 0 0) = true ∧
      (d.dma.descs.look? (descKey 63 false 0)).isSome = true) ∧
    HasDev (fun d => ((d.dma.bursts.look? 9).any fun b => !b.write && b.issued && d.gen b.fn == b.gen && b.for_ == .late 0 4000 0) = true) ∧
    HasDev (fun d => ((d.dma.bursts.look? 9).any fun b => !b.write && b.issued && d.gen b.fn == b.gen && b.for_ == .storage 1 2 3) = true) ∧
    HasDev (fun d => ((d.copy? 7).any fun c => c.stage == .dma 63 && c.dest == 1000 && d.gen 0 == c.gen &&
        (let r := d.rxInjector 7 0 c
         r.1.any fun x => (r.2.injWord true 0 0).getLsbD 29 && (d.stoOffer 7 x (r.2.releaseRx [])).isNone &&
           (let free := r.2.releaseRx []
            decide (63 < d.qpCount 0) && !d.on? Fld.HIF_QP_CTX_MODE (d.qpBase 0 + 63) && d.on? Fld.HIF_QP_CTX_ENABLE (d.qpBase 0 + 63) &&
              (free.copy? 7).isSome))) = true ∧
      d.rising 7 = false ∧ d.dmaOn = true ∧ d.exists? 0 = true ∧ ((d.frame? 0).all fun g => !d.staleFrame g) = true ∧ d.fnState 0 < 2 ∧
      (d.dma.handed.takeWhile fun h => h.1 != 7) = []) :=
  ⟨meets (bursting (burstFor (.late 0 4000 0)) true) (by decide +kernel), meets (bursting (burstFor (.late 0 4000 0))) (by decide +kernel),
   fun write =>
     match write with
     | true => meets (bursting (burstFor .plain true)) (by decide +kernel)
     | false => meets (bursting (burstFor (.gather 63 0 0))) (by decide +kernel),
   meets (let d := bursting (burstFor (.gather 63 0 0) false true)
          { d with dma := { d.dma with descs := ⟨[(descKey 63 false 0, described false)]⟩ } }) (by decide +kernel),
   meets (bursting (burstFor (.late 0 4000 0) false true)) (by decide +kernel),
   meets (bursting (burstFor (.storage 1 2 3) false true)) (by decide +kernel),
   meets (let d := copied (.dma 63) 0xFFFF 1000
          ({ paired with frames := d.frames, copies := d.copies, dma := { handed := [(7, 63)] } } : Dev).wr .PRT_FAULT_FUNC 0 0 (toWord (2 ^ 29)))
     (by decide +kernel)⟩

/-- A window of the late-gather context 0 that opens at 4,000 ns and has taken the descriptor 0. -/
def oneWindow : LgWin :=
  { tOpen := 4000, deadline := 0, idx := some 0, fn := 0, gen := 0, elems := [], tag := 0, total := 0, reads := 1 }

/-- A device with the burst 9 that is read for `what`, and with what such a read may belong to. -/
def failing (what : BurstFor) (gen : Nat := 0) (write : Bool := false) : Dev :=
  { dma := { bursts := ⟨[(9, { burstFor what write true with gen := gen })]⟩, descs := ⟨[(descKey 63 false 0, described false)]⟩,
             ctxs := ⟨[(0, { wins := [oneWindow] })]⟩ } }

theorem witness_FailedBursts :
    (∀ stale : Bool, HasDev (fun d => (d.dma.bursts.look? 9).any (fun b => (d.gen b.fn != b.gen) == stale && b.for_ == .cancelled (some (0, 4000))) = true)) ∧
    HasDev (fun d => (d.dma.bursts.look? 9).any (fun b => d.gen b.fn != b.gen && b.for_ == .gather 63 0 0) = true) ∧
    HasDev (fun d => (d.dma.bursts.look? 9).any (fun b => d.gen b.fn == b.gen && b.for_ == .gather 63 0 0 && !b.write && b.issued) = true ∧
      (d.dma.descs.look? (descKey 63 false 0)).any (fun z => !z.rx) = true) ∧
    HasDev (fun d => (d.dma.bursts.look? 9).any (fun b => d.gen b.fn == b.gen && b.for_ == .late 0 4000 0) = true ∧ (d.lgWin 0 4000).isSome = true) ∧
    HasDev (fun d => (d.dma.bursts.look? 9).any (fun b => d.gen b.fn == b.gen && b.for_ == .place 7 true && b.write) = true) ∧
    HasDev (fun d => (d.dma.bursts.look? 9).any (fun b => d.gen b.fn == b.gen && b.for_ == .placed 1 2 none && b.write) = true) ∧
    HasDev (fun d => d.dma.bursts.cells.any (fun e => e.2.missed && e.2.fn == 0 && e.2.addr / 4096 == 1) = true ∧ d.dma.atc.size < 4096) ∧
    HasDev (fun d => d.dma.bursts.cells.any (fun e => e.2.missed && e.2.fn == 0 && e.2.addr / 4096 == 1) = false ∧
      d.dma.asked.look? (atcKey 0 4096) = none) :=
  ⟨fun stale => match stale with
     | true => meets (failing (.cancelled (some (0, 4000))) 1) (by decide +kernel)
     | false => meets (failing (.cancelled (some (0, 4000)))) (by decide +kernel),
   meets (failing (.gather 63 0 0) 1) (by decide +kernel), meets (failing (.gather 63 0 0)) (by decide +kernel),
   meets (failing (.late 0 4000 0)) (by decide +kernel), meets (failing (.place 7 true) 0 true) (by decide +kernel),
   meets (failing (.placed 1 2 none) 0 true) (by decide +kernel),
   meets { dma := { bursts := ⟨[(9, { burstFor .plain with missed := true })]⟩ } } (by decide +kernel), meets {} (by decide +kernel)⟩

/-- Context 1023 of queue pair 63 for class 0 of port 0, at a time when its window at 4,000 ns is due, with a descriptor where asked. -/
def gathering (ready : Bool) : Dev :=
  let d := (((ringed.set Fld.DMA_LG_CTX_ENABLE 1023 1).set Fld.DMA_LG_CTX_QP 1023 63).set Fld.DMA_PF_WIN_VALID 0 1).set Fld.DMA_PF_WIN_PAGES 0 2
  { d with tm := { gates := ⟨[(0, { oper := some (twoEntries 1) })]⟩ }, mer := { acc := 2500 * 256 * stampUnit },
           dma := { d.dma with descs := if ready then ⟨[(descKey 63 false 0, described true)]⟩ else ⟨[]⟩ } }

theorem witness_LateGather :
    HasDev (fun d => d.qpOwner (d.get Fld.DMA_LG_CTX_QP 1023) = some 0 ∧ d.lgOpening 1023 = some 4000 ∧ d.on? Fld.DMA_LG_CTX_ENABLE 1023 = true ∧
      d.dmaOn = true ∧ d.fetches 0 = true ∧ d.lgHead (d.get Fld.DMA_LG_CTX_QP 1023) = none) ∧
    HasDev (fun d => d.qpOwner (d.get Fld.DMA_LG_CTX_QP 1023) = some 0 ∧ d.lgOpening 1023 = some 4000 ∧ d.on? Fld.DMA_LG_CTX_ENABLE 1023 = true ∧
      d.dmaOn = true ∧ d.fetches 0 = true ∧ ((d.lgHead (d.get Fld.DMA_LG_CTX_QP 1023)).any fun x => decide (x.txTime ≤ 4000) &&
        x.elems.all fun e => (d.inWindow 0 e.1 e.2).isSome) = true) ∧
    HasDev (fun d => ((d.lgCtx 1023).wins.find? fun w => w.deadline ≤ d.now).isSome = true) ∧
    HasDev (fun d => ((d.lgCtx 1023).logs.find? fun e => !e.written && decide (e.deadline + 100000 * 256 ≤ d.now)).isSome = true) :=
  ⟨meets (gathering false) (by decide +kernel), meets (gathering true) (by decide +kernel),
   meets { dma := { ctxs := ⟨[(1023, { wins := [{ tOpen := 4000, deadline := 0, idx := none, fn := 0, gen := 0, elems := [], tag := 0, total := 0 }] })]⟩ } }
     (by decide +kernel),
   meets { dma := { ctxs := ⟨[(1023, { logs := [{ tOpen := 4000, deadline := 0, outcome := 1, repeated := false, qp := 63, cycle := 0, reads := 1 }] })]⟩ },
           mer := { acc := 2 ^ 30 * stampUnit } } (by decide +kernel)⟩

/-! ## The cipher engine -/

/-- A key record of 32 words, its first three set words given: word 0, REPLAY window and the low word of NEXT. -/
def keyRecord (w0 win next : Nat) : List Word := [toWord w0, toWord win, 0, toWord next] ++ List.replicate 28 0

/-- A device whose slot 16383 holds a record in a state, its cipher engine enabled. -/
def keyed (r : List Word) (state : Nat := 1) : Dev :=
  ({ cip := { slots := ⟨[(16383, { state := state, record := r, next := krNext r })]⟩ } } : Dev).set Fld.CIP_CTRL_ENABLE 0 1

theorem witness_KeyCommands :
    (∀ grant : Bool, HasTaken 0x0701 (fun _ a p e => e.available 4 = true ∧ (le32 p 0).getLsbD 31 = grant ∧
      bitsOf (le32 p 4) 13 0 + bitsOf (le32 p 8) 14 0 ≤ 16384 ∧ bitsOf (le32 p 8) 14 0 = 1 ∧
      (e.cip.grants.look? (bitsOf (le32 p 4) 13 0)).all (fun g => g == a.fn) = true ∧ e.startedNow (bitsOf (le32 p 4) 13 0) = false)) ∧
    HasTaken 0x0702 (fun _ a p e =>
      let k := bitsOf (le32 p 0) 13 0
      let r := wordsOf (p.drop 4) 32
      e.available 4 = true ∧ recordOk r = true ∧ krOwner r = a.fn ∧ (e.slot k).state ≠ 4 ∧ (e.cip.grants.look? k = none ∧ a.fn < 4) ∧
      e.startedNow k = false) ∧
    HasTaken 0x0702 (fun _ a p e =>
      let k := bitsOf (le32 p 0) 13 0
      let r := wordsOf (p.drop 4) 32
      e.available 4 = true ∧ recordOk r = true ∧ krOwner r = a.fn ∧ (e.slot k).state ≠ 4 ∧ (e.cip.grants.look? k = some a.fn ∧ 3 ≤ krType r) ∧
      e.startedNow k = false) ∧
    HasTaken 0x0703 (fun _ a p e => e.available 4 = true ∧ e.holdsSlot a.fn (bitsOf (le32 p 0) 13 0) = true ∧
      e.startedNow (bitsOf (le32 p 0) 13 0) = false) ∧
    HasTaken 0x0704 (fun _ a p e => e.available 4 = true ∧ e.holdsSlot a.fn (bitsOf (le32 p 0) 13 0) = true) ∧
    HasTaken 0x0705 (fun _ _ p e => e.available 4 = true ∧ bitsOf (le32 p 0) 4 0 < 18) ∧
    HasTaken 0x0707 (fun _ _ p e => e.available 4 = true ∧ bitsOf (le32 p 0) 4 0 < 18 ∧ e.cip.cores.cells = []) ∧
    HasTaken 0x0706 (fun _ _ p e => e.available 4 = true ∧ bitsOf (le32 p 0) 4 0 < 18 ∧ (le32 p 0).getLsbD 31 = true ∧
      ((e.cip.rxsc.getD (bitsOf (le32 p 0) 4 0) []).any fun x => x.sci == le p 4 8) = true) ∧
    HasTaken 0x0706 (fun _ _ p e => e.available 4 = true ∧ bitsOf (le32 p 0) 4 0 < 18 ∧ (le32 p 0).getLsbD 31 = false ∧
      (e.cip.rxsc.getD (bitsOf (le32 p 0) 4 0) []).length < 32 ∧
      ∀ i, i < 4 → le p (12 + 2 * i) 2 = 0xFFFF ∨
        (le p (12 + 2 * i) 2 < 16384 ∧ krType (e.slot (le p (12 + 2 * i) 2)).record = 2 ∧ krAn (e.slot (le p (12 + 2 * i) 2)).record = i)) :=
  let vf : Hif := { sriov := ⟨[(0, { vfEnable := true, numVfs := 1 })]⟩ }
  let c1 := cmd 0x0701 4 [toWord (2 ^ 31), 16383, 1] 0
  let c2 := cmd 0x0701 4 [0, 16383, 1] 0
  let c3 := cmd 0x0702 0 (16383 :: keyRecord (2 ^ 28) 0 1)
  let c4 := cmd 0x0702 4 (16383 :: keyRecord (3 * 2 ^ 28 + 2 ^ 23 + 4) 1024 1)
  let c5 := cmd 0x0703 0 [16383]
  let c6 := cmd 0x0704 0 [16383]
  let c7 := cmd 0x0705 0 [toWord (15 * 2 ^ 28 + 17), 1, 2]
  let c8 := cmd 0x0707 0 [17, 16383]
  let c9 := cmd 0x0706 0 [toWord (2 ^ 31 + 17), 1, 2, 0, 0]
  let c10 := cmd 0x0706 0 [17, 1, 2, 0xFFFF3FFF, 0xFFFFFFFF]
  ⟨fun grant =>
     match grant with
     | true => takes (waits { hif := vf } c1) c1 (by decide +kernel)
     | false => takes (waits { hif := vf, cip := { grants := ⟨[(16383, 4)]⟩ } } c2) c2 (by decide +kernel),
   takes (waits {} c3) c3 (by decide +kernel), takes (waits { hif := vf, cip := { grants := ⟨[(16383, 4)]⟩ } } c4) c4 (by decide +kernel),
   takes (waits {} c5) c5 (by decide +kernel), takes (waits {} c6) c6 (by decide +kernel), takes (waits {} c7) c7 (by decide +kernel),
   takes (waits {} c8) c8 (by decide +kernel),
   takes (waits { cip := { rxsc := ⟨[(17, [{ sci := 1 + 2 * 2 ^ 32, slots := [] }])]⟩ } } c9) c9 (by decide +kernel),
   takes (waits (keyed (keyRecord (2 * 2 ^ 28) 0 0)) c10) c10 (by decide +kernel)⟩

/-- The operation of core 0 on slot 16383 with a record. -/
def working (subject : CipSubject) (r : List Word) : CipOp :=
  { subject := subject, slot := 16383, record := r, value := 1, fn := 0, start := 0, port := 17, seq := 0 }

/-- A MACsec record that checks the tag alone and numbers with a window of 4. -/
def tagged : List Word := keyRecord (2 * 2 ^ 28 + 2 ^ 17) 4 0

/-- The bytes of a frame of that channel before its tag: its PN is 5. -/
def secHead : Bytes := bytesBE 6 0x020000000001 ++ bytesBE 6 0x020000000002 ++ bytesBE 2 0x88E5 ++ [0, 0] ++ bytesBE 4 5 ++ List.replicate 60 7

/-- That frame, sealed. -/
def secFrame : Bytes := secHead ++ gcmTag (krKeyBytes tagged) (macsecNonce tagged 5) secHead []

/-- Core 0 has such a frame and its slot awaits the number `next`. -/
def receiving (bytes : Bytes) (next : Nat) : Dev :=
  { frames := ⟨[(0, { arrived .macsec with bytes := bytes })]⟩,
    cip := { slots := ⟨[(16383, { state := 1, record := tagged, next := next })]⟩, cores := ⟨[(0, working (.rx 0) tagged)]⟩ } }

theorem secFrame_opens : (secTag secFrame).pn = 5 ∧ (macsecOpen tagged 5 secFrame).isSome = true := by
  have hl : secHead.length = 80 := by decide
  have ht : (gcmTag (krKeyBytes tagged) (macsecNonce tagged 5) secHead []).length = 16 := by simp [gcmTag, bytesBE, bytesLE]
  have hb : ∀ i n, i + n ≤ 80 → be secFrame i n = be secHead i n := fun i n hi => by
    rw [be, secFrame, slice_before _ _ _ _ (by omega)]; rfl
  have hy : ∀ i, i < 80 → byteAt secFrame i = byteAt secHead i := fun i hi => by
    simp only [byteAt, secFrame, List.getD_eq_getElem?_getD]
    rw [List.getElem?_append_left (by omega)]
  have hf : secFrame.length = 96 := by rw [secFrame, List.length_append, hl, ht]
  have hs : secTag secFrame = secTag secHead := by
    simp only [secTag, hy 14 (by omega), hy 15 (by omega), hb 16 4 (by omega)]
  have hc : secTag secHead = { tci := 0, sl := 0, pn := 5, len := 8 } := by decide +kernel
  refine ⟨by rw [hs, hc], ?_⟩
  have hk : krConf tagged = false := by decide +kernel
  have h1 : secFrame.take 20 = secHead.take 20 := by rw [secFrame, List.take_append_of_le_length (by omega)]
  have h2 : slice secFrame 20 60 = slice secHead 20 60 := by rw [secFrame, slice_before _ _ _ _ (by omega)]
  have h3 : slice secFrame 80 16 = gcmTag (krKeyBytes tagged) (macsecNonce tagged 5) secHead [] := by
    have := slice_behind secHead (gcmTag (krKeyBytes tagged) (macsecNonce tagged 5) secHead [])
    rwa [hl, ht] at this
  have h4 : secHead.take 20 ++ (slice secHead 20 60).take 60 = secHead := by decide +kernel
  have h5 : (slice secHead 20 60).drop 60 = [] := by decide +kernel
  unfold macsecOpen
  simp only [hs, hc, hf, hk, if_true, h1, h2, Bool.false_eq_true, if_false, show 96 - (12 + 8) - 16 = 60 from rfl, Nat.reduceAdd, h3, h4, h5,
    secTagOk]
  simp

theorem witness_CipherWork :
    HasDev (fun d => d.cipOn = true ∧ (11 < 6 ∨ d.available 5 = true) ∧ d.cip.cores.look? 11 = none ∧ d.cip.txQ = [7] ∧ (d.copy? 7).isSome = true) ∧
    HasDev (fun d => d.cipOn = true ∧ d.available 5 = true ∧ d.cip.cores.look? 11 = none ∧ d.cip.txQ = [] ∧ d.cip.rxQ = [(0, 0, 16383)] ∧
      d.reserveTx ≤ 11 ∧ (d.frame? 0).isSome = true) ∧
    HasDev (fun d => ((d.cip.cores.look? 0).any fun o => d.mayLeave o && o.subject == .tx 7) = true ∧ (d.copy? 7).isSome = true) ∧
    HasDev (fun d => ((d.cip.cores.look? 0).any fun o => d.mayLeave o && o.subject == .rx 0 && (d.frame? 0).any fun f =>
      (macsecOpen o.record (recoverPn (krExt o.record) (d.opSlot o).next (secTag f.bytes).pn) f.bytes).isNone) = true) ∧
    (∀ late : Bool, ∃ (s : State) (o : CipOp) (f : Frame) (out : Bytes), s.toDev.inReset = false ∧ s.toDev.cip.cores.look? 0 = some o ∧
      s.toDev.mayLeave o = true ∧ o.subject = .rx 0 ∧ s.toDev.frame? 0 = some f ∧
      (let k := s.toDev.opSlot o
       let pn := recoverPn (krExt o.record) k.next (secTag f.bytes).pn
       macsecOpen o.record pn f.bytes = some out ∧ krReplay o.record = true ∧
       (if late then pn + krWin o.record < k.next else k.next ≤ pn + krWin o.record))) ∧
    HasDev (fun d => (d.cip.rxQ.find? fun e => e.1 == 0) = some (0, 0, 16383) ∧ 0 + 500000 ≤ d.ref ∧ (d.frame? 0).isSome = true) ∧
    HasDev (fun d => 2 ^ 20 ≤ d.cip.blocks.getD 11 0 ∧ d.on? Fld.SEC_STAT_TRNG_FAIL = false) ∧
    HasDev (fun d => (d.slot 16383).state = 4 ∧ d.cip.cores.cells = []) ∧
    HasDev (fun d => ((d.dma.bursts.first? fun _ b => b.for_ == .zeroRead 5 && b.issued).any fun x => d.gen x.2.fn == x.2.gen) = true) :=
  let r := keyRecord (2 ^ 28) 0 1
  ⟨meets (let d := copied (.macsec 5 0)
          { keyed r with frames := d.frames, copies := d.copies, cip := { (keyed r).cip with txQ := [7] } }) (by decide +kernel),
   meets { keyed tagged with frames := (receiving [] 0).frames, cip := { (keyed tagged).cip with rxQ := [(0, 0, 16383)] } } (by decide +kernel),
   meets { copied (.macsec 5 0) with cip := { cores := ⟨[(0, working (.tx 7) r)]⟩ } } (by decide +kernel),
   meets (receiving [] 0) (by decide +kernel),
   fun late =>
     let next := if late then 100 else 0
     have hp : recoverPn (krExt tagged) next (secTag secFrame).pn = 5 := by rw [secFrame_opens.1]; cases late <;> decide +kernel
     ⟨{ toDev := receiving secFrame next }, working (.rx 0) tagged, { arrived .macsec with bytes := secFrame },
      (macsecOpen tagged 5 secFrame).get secFrame_opens.2, by show ({} : Dev).inReset = false; decide +kernel, rfl, rfl, rfl, rfl,
      by
        show macsecOpen tagged (recoverPn (krExt tagged) next (secTag secFrame).pn) secFrame = _ ∧ krReplay tagged = true ∧
          (if late then recoverPn (krExt tagged) next (secTag secFrame).pn + krWin tagged < next
           else next ≤ recoverPn (krExt tagged) next (secTag secFrame).pn + krWin tagged)
        rw [hp]
        refine ⟨by simp, by decide +kernel, ?_⟩
        cases late <;> decide +kernel⟩,
   meets { receiving [] 0 with cip := { rxQ := [(0, 0, 16383)] }, mer := { refCycles := 250000 } } (by decide +kernel),
   meets { cip := { blocks := ⟨[(11, 2 ^ 20)]⟩ } } (by decide +kernel), meets (keyed [] 4) (by decide +kernel),
   meets { dma := { bursts := ⟨[(9, burstFor (.zeroRead 5) false true)]⟩ } } (by decide +kernel)⟩

/-- A copy for port 17, a frame and a TLS record, each as it waits for the cipher engine, and connection 16383 of queue pair 63. -/
def cipherWaits (cip : Cip) (tx : Bool := false) : Dev :=
  let d := copied .esp
  { (({} : Dev).set Fld.CIP_CTRL_ENABLE 0 1) with
    frames := ⟨[(0, { arrived .copied with lg := lgOf2 0 }), (1, { arrived (.espIn 0) with lg := lgOf2 0 })]⟩, copies := d.copies, cip := cip,
    sto := { conns := ⟨[(16383, { fn := 0, gen := 0, record := [63], sndNxt := 0, sndUna := 0, rcvNxt := 0, sndWnd := 0, cwnd := 0, ssthresh := 0, rto := 0,
                                  txSlot := 16383, rxSlot := 16383, rxRec := some 3 })]⟩,
             records := ⟨[(3, { conn := 16383, fn := 0, gen := 0, slot := 16383, tx := tx, bytes := [23, 3, 3, 0, 17] ++ List.replicate 17 0, inner := 23 })]⟩ } }

/-- A slot 16383 whose record is of a type. -/
def slotOf (type : Nat) : Tbl KeySlot := ⟨[(16383, { state := 1, record := keyRecord (type * 2 ^ 28) 0 0 })]⟩

/-- Core 11 is free and nothing of MACsec waits; the turn is that of `sub`. -/
def turnOf (d : Dev) (sub : CipSubject) : Bool :=
  d.cipOn && d.available 5 && (d.cip.cores.look? 11).isNone && d.cip.txQ == [] && d.cip.rxQ == [] && decide (d.reserveTx ≤ 11) &&
    d.cipTurn.any fun x => x.1.2 == sub

theorem witness_CipherTurns :
    HasDev (fun d => turnOf d (.espOut 7) = true ∧ ((d.copy? 7).any fun c => (d.frame? c.frame).all fun f => !d.staleFrame f) = true) ∧
    HasDev (fun d => turnOf d (.espIn 1) = true ∧ ((d.frame? 1).any fun f => !d.staleFrame f) = true) ∧
    HasDev (fun d => turnOf d (.tls 3) = true ∧ ((d.sto.records.look? 3).any fun z => d.gen z.fn == z.gen && !(d.slot z.slot).takes 6 && !z.tx) = true) ∧
    HasDev (fun d => turnOf d (.tls 3) = true ∧ ((d.sto.records.look? 3).any fun z => d.gen z.fn == z.gen && z.tx && (d.slot z.slot).takes 5) = true) ∧
    HasDev (fun d => turnOf d (.tls 3) = true ∧ ((d.sto.records.look? 3).any fun z => d.gen z.fn == z.gen && !z.tx && (d.slot z.slot).takes 6 &&
      tlsRecordOk z.bytes && (d.conn? z.conn).isSome) = true) :=
  ⟨meets (cipherWaits { espQ := [(0, .espOut 7)] }) (by decide +kernel), meets (cipherWaits { espQ := [(0, .espIn 1)] }) (by decide +kernel),
   meets (cipherWaits { tlsQ := [(0, 3)] }) (by decide +kernel), meets (cipherWaits { tlsQ := [(0, 3)], slots := slotOf 5 } true) (by decide +kernel),
   meets (cipherWaits { tlsQ := [(0, 3)], slots := slotOf 6 }) (by decide +kernel)⟩

theorem witness_CipherEnds :
    HasDev (fun d => ((d.cip.cores.look? 0).any fun o => d.mayLeave o && o.subject == .espOut 7 && o.chain.isSome) = true ∧ (d.copy? 7).isSome = true) ∧
    HasDev (fun d => ((d.cip.cores.look? 0).any fun o => d.mayLeave o && o.subject == .espIn 1 && o.chain.isSome) = true ∧
      ((d.frame? 1).any fun f => f.stage == .espIn 0) = true) ∧
    (∀ tx : Bool, HasDev (fun d => ((d.cip.cores.look? 0).any fun o => d.mayLeave o && o.subject == .tls 3) = true ∧
      ((d.sto.records.look? 3).any fun z => d.gen z.fn == z.gen && z.tx == tx && (d.conn? z.conn).any fun c => c.rxRec == some 3) = true)) ∧
    HasDev (fun d => ((d.cip.cores.look? 0).any fun o => d.mayLeave o && o.subject == .tls 3) = true ∧
      ((d.sto.records.look? 3).any fun z => d.gen z.fn == z.gen && !z.tx && (d.conn? z.conn).all fun c => c.rxRec != some 3) = true) :=
  let ends (sub : CipSubject) : Cip := { cores := ⟨[(0, { working sub [] with chain := some [1] })]⟩ }
  ⟨meets (cipherWaits (ends (.espOut 7))) (by decide +kernel), meets (cipherWaits (ends (.espIn 1))) (by decide +kernel),
   fun tx => match tx with
     | true => meets (cipherWaits (ends (.tls 3)) true) (by decide +kernel)
     | false => meets (cipherWaits (ends (.tls 3))) (by decide +kernel),
   meets (let d := cipherWaits (ends (.tls 3)); { d with sto := { d.sto with conns := ⟨[]⟩ } }) (by decide +kernel)⟩

/-! ## The storage engine -/

/-- The headers of a TCP segment over IPv4, with flags. -/
def tcpHead (flags : Byte) : Bytes :=
  List.replicate 12 0 ++ bytesBE 4 0x08004500 ++ bytesBE 4 0x00280000 ++ bytesBE 4 0x00000006 ++ List.replicate 22 0 ++ [0x50, flags]
    ++ List.replicate 6 0

/-- The 36 words of a record of queue pair 63, in its least form, with TLS where asked (slots 16383 and 16382). -/
def connRecord (tls : Bool := false) : List Word :=
  [toWord (54 * 2 ^ 16 + 63 + 2 ^ 28 * b2n tls), toWord (536 * 2 ^ 16), 0, 0, 0, toWord (2 ^ 16 + 1), toWord (2 * 2 ^ 28 + 16), 4096, 0, 16,
   16383, 16382] ++ wordsOf (tcpHead 0) 24

/-- A connection of PF0 with that record. -/
def linkedTo (tls : Bool := false) : Conn :=
  { fn := 0, gen := 0, record := connRecord tls, sndNxt := 0, sndUna := 0, rcvNxt := 0, sndWnd := 65535, cwnd := 5360, ssthresh := 2 ^ 30, rto := 10000,
    txSlot := 16383, rxSlot := 16382 }

/-- PF0 with queue pair 63 in storage mode, the engine enabled, and a connection 16383 where given. -/
def storing (c : Option Conn) : Dev :=
  ({ paired with dma := { qps := ⟨[(63, { txTail := 1 })]⟩ },
                 sto := { conns := match c with
                   | some x => ⟨[(16383, x)]⟩
                   | none => ⟨[]⟩ },
                 cip := { slots := ⟨[(16382, { state := 1, record := keyRecord (6 * 2 ^ 28) 0 0 }), (16383, { state := 1, record := keyRecord (5 * 2 ^ 28) 0 0 })]⟩ } } : Dev).set
    Fld.HIF_QP_CTX_MODE 63 1 |>.set Fld.STO_CTRL_ENABLE 0 1 |>.set Fld.STO_FUNC_QUOTA_CONN_LIMIT 0 1 |>.set Fld.STO_FUNC_QUOTA_CMD_LIMIT 0 1
      |>.set Fld.DMA_CTRL_ENABLE 0 1

theorem witness_StorageCommands :
    (∀ tls : Bool, HasTaken 0x0A01 (fun _ a p e =>
      let r := wordsOf (p.drop 4) 36
      let x : Conn := { linkedTo with record := r, fn := a.fn, txSlot := bitsOf (r.getD 10 0) 13 0, rxSlot := bitsOf (r.getD 11 0) 13 0 }
      e.available 8 = true ∧ connReserved r = true ∧ connRanges r = true ∧ templateOk x.v6 x.hdr (wordBytes (r.drop 12)) = true ∧
      e.qpOwner x.qp = some a.fn ∧ e.on? Fld.HIF_QP_CTX_MODE x.qp = true ∧ x.tls = tls ∧
      (tls = true → e.tlsSlotOk a.fn x.txSlot 5 = true ∧ e.tlsSlotOk a.fn x.rxSlot 6 = true) ∧
      e.connCount a.fn < e.get Fld.STO_FUNC_QUOTA_CONN_LIMIT a.fn ∧ e.conn? (bitsOf (le32 p 0) 13 0) = none)) ∧
    HasTaken 0x0A05 (fun _ _ p e => e.available 8 = true ∧ e.conn? (bitsOf (le32 p 0) 13 0) = none) ∧
    HasTaken 0x0A05 (fun _ a p e => e.available 8 = true ∧ ((e.conn? (bitsOf (le32 p 0) 13 0)).any fun x => x.fn == a.fn) = true) ∧
    HasTaken 0x0A02 (fun _ a p e => e.available 8 = true ∧ (le32 p 0).getLsbD 31 = false ∧
      ((e.conn? (bitsOf (le32 p 0) 13 0)).any fun x => x.fn == a.fn && x.live && x.returning.isNone) = true) ∧
    (∀ failing : Bool, HasTaken 0x0A02 (fun _ a p e => e.available 8 = true ∧ (le32 p 0).getLsbD 31 = true ∧
      ((e.conn? (bitsOf (le32 p 0) 13 0)).any fun x => x.fn == a.fn && x.live && x.failing == failing) = true)) ∧
    (∀ rekeyed : Bool, HasTaken 0x0A03 (fun _ a p e => e.available 8 = true ∧ (le32 p 0).getLsbD 31 = rekeyed ∧
      (rekeyed = true → e.tlsSlotOk a.fn (bitsOf (le32 p 4) 13 0) 6 = true) ∧
      ((e.conn? (bitsOf (le32 p 0) 13 0)).any fun x => x.fn == a.fn && x.state == .paused) = true)) ∧
    HasTaken 0x0A04 (fun _ a p e => e.available 8 = true ∧ 1 ≤ (le32 p 8).toNat ∧ (le32 p 8).toNat ≤ 64 ∧
      e.tlsSlotOk a.fn (bitsOf (le32 p 4) 13 0) 5 = true ∧
      ((e.conn? (bitsOf (le32 p 0) 13 0)).any fun x => x.fn == a.fn && x.live && x.tls && !x.terminated) = true) :=
  let c1 := cmd 0x0A01 0 (16383 :: connRecord)
  let c2 := cmd 0x0A01 0 (16383 :: connRecord true)
  let c3 := cmd 0x0A05 0 [16383]
  let c4 := cmd 0x0A02 0 [16383, 5]
  let c5 := cmd 0x0A02 0 [toWord (2 ^ 31 + 16383), 0]
  let c6 := cmd 0x0A03 0 [toWord (2 ^ 31 + 16383), 16382]
  let c7 := cmd 0x0A03 0 [16383, 0]
  let c8 := cmd 0x0A04 0 ([16383, 16383, 64] ++ List.replicate 16 7)
  let one : Dev := storing (some linkedTo)
  ⟨fun tls =>
     match tls with
     | false => takes (waits (storing none) c1) c1 (by decide +kernel)
     | true => takes (waits (storing none) c2) c2 (by decide +kernel),
   takes (waits (storing none) c3) c3 (by decide +kernel), takes (waits one c3) c3 (by decide +kernel), takes (waits one c4) c4 (by decide +kernel),
   fun failing =>
     match failing with
     | false => takes (waits one c5) c5 (by decide +kernel)
     | true => takes (waits (storing (some { linkedTo with failing := true })) c5) c5 (by decide +kernel),
   fun rekeyed =>
     match rekeyed with
     | true => takes (waits (storing (some { linkedTo true with state := .paused })) c6) c6 (by decide +kernel)
     | false => takes (waits (storing (some { linkedTo with state := .paused })) c7) c7 (by decide +kernel),
   takes (waits (storing (some (linkedTo true))) c8) c8 (by decide +kernel)⟩

/-- A command 5 in a direction, of 64 bytes. -/
def stoCmd (dir : Nat) : StoCmd := { cid := 5, txPath := { chan := 0 }, rxPath := { chan := 0 }, dir := dir, total := 64, elems := [(0x1000, 64)] }

/-- A connection that has one whole PDU of 24 bytes and 40 of data at most: its type, flags and data offset, and the 16 bytes after its
common header. -/
def hearing (typ flags pdo plen dir : Nat) (rest : List Nat) : Conn :=
  { linkedTo with rxBytes := pduHead typ flags 24 pdo plen ++ rest.flatMap (bytesLE 2) ++ List.replicate 40 0, rxOk := 64,
                  cmds := ⟨[(5, stoCmd dir)]⟩ }

/-- The device as a segment with these flags has come for the connection. -/
def segmentCame (flags : Byte) : Dev :=
  let d := copied (.storage 16383) 0xFFFF 1000
  { storing (some linkedTo) with frames := d.frames, copies := d.copies.mapVals fun _ c => { c with bytes := tcpHead flags } }

/-- What a PDU's row asks, whatever its type. -/
def hears (d : Dev) (typ : Nat) : Bool :=
  d.available 8 && (d.conn? 16383).any fun c => c.state == .active && !c.terminated &&
    match c.pduIn with
    | .good t _ _ plen => t == typ && decide (plen ≤ c.rxOk)
    | _ => false

/-- A ring entry for the connection 16383 in a direction, its descriptor at 0x1000 + `a`. -/
def stoEntry (dir : Nat) (a : Nat := 0) : Bytes :=
  bytesLE 4 (2 ^ 30 * dir + 16383) ++ bytesLE 4 0 ++ bytesLE 8 (if dir = 0 then 0 else 0x1000 + a) ++ List.replicate 112 0

/-- The engine reads the entry at the head of the ring of queue pair 63. -/
def readsRing (d : Dev) : Prop :=
  d.qpOwner 63 = some 0 ∧ d.ringTurn 63 = true ∧
  (d.reachPages 0 [(d.qpAddr 63 4 + 128 * ((d.qp 63).txFetched % d.txSize 63), 128)]) = (.ready, d)

/-- It reads it, untranslated, and meets `H`. -/
def readsBool (d : Dev) (H : Bool) : Bool :=
  d.qpOwner 63 == some 0 && d.ringTurn 63 && !(d.hif.cfg.getD 0 {}).ats && H

/-- A connection of PF0's queue pair 63 that takes a command of CID 0. -/
def takesCmd (c : Conn) : Bool := c.fn == 0 && c.qp == 63 && c.live && (c.cmds.look? 0).isNone

theorem reach_here {d : Dev} (h : (d.hif.cfg.getD 0 {}).ats = false) (l : List (Nat × Nat)) : d.reachPages 0 l = (.ready, d) := by
  have : (pagesOf l).find? (fun p => !d.translated 0 (4096 * p)) = none := List.find?_eq_none.2 fun p _ => by simp [Dev.translated, h]
  simp only [Dev.reachPages, this]

theorem witness_StoCmdFetch :
    (∀ H : Dev → Bool, ∀ d, readsBool d (H d) = true → readsRing d ∧ (∀ l, d.reachPages 0 l = (.ready, d)) ∧ H d = true) ∧
    HasDev (fun d => readsBool d (!Machine.entryOk (List.replicate 128 1)) = true) ∧
    HasDev (fun d => readsBool d (Machine.entryOk (stoEntry 0) && (d.conn? 16383).isNone) = true) ∧
    HasDev (fun d => readsBool d (Machine.entryOk (stoEntry 0) && (d.conn? 16383).any fun c => c.live && (c.cmds.look? 0).isSome) = true) ∧
    HasDev (fun d => readsBool d (Machine.entryOk (stoEntry 0) && (d.conn? 16383).any fun c => c.fn == 0 && c.qp == 63 && !c.live) = true) ∧
    HasDev (fun d => readsBool d (Machine.entryOk (stoEntry 0) && (d.conn? 16383).any fun c => takesCmd c && !d.ctxFree c) = true) ∧
    (∀ dir : Fin 3, HasDev (fun d => readsBool d (Machine.entryOk (stoEntry dir) && bitsOf (le32 (stoEntry dir) 0) 31 30 == dir.val &&
      (d.conn? 16383).any fun c => takesCmd c && d.ctxFree c) = true)) ∧
    (le (stoEntry 1) 8 8 % 16 = 0 ∧ le (stoEntry 1 8) 8 8 % 16 ≠ 0 ∧ Machine.entryOk (stoEntry 1 8) = true) ∧
    ((readDesc (oneElement false) 0x1000).ok = true ∧ (readDesc (oneElement false) 0x1000).late = false ∧
      (readDesc (oneElement false) 0x1000).stamp = false) ∧
    (readDesc (List.replicate 16 0) 0x1000).ok = false ∧ (readDesc (oneElement true) 0x1000).late = true :=
  ⟨fun H d h => by
     simp only [readsBool, Bool.and_eq_true, beq_iff_eq, Bool.not_eq_true'] at h
     exact ⟨⟨h.1.1.1, h.1.1.2, reach_here h.1.2 _⟩, reach_here h.1.2, h.2⟩,
   meets (storing none) (by decide +kernel), meets (storing none) (by decide +kernel),
   meets ((storing (some { linkedTo with cmds := ⟨[(0, stoCmd 0)]⟩ })).set Fld.STO_FUNC_QUOTA_CMD_LIMIT 0 2) (by decide +kernel),
   meets (storing (some { linkedTo with state := .returned })) (by decide +kernel),
   meets { storing none with sto := { conns := ⟨[(5, linkedTo), (16383, { linkedTo with terminated := true })]⟩ } } (by decide +kernel),
   fun dir => match dir with
     | 0 => meets (storing (some linkedTo)) (by decide +kernel)
     | 1 => meets (storing (some linkedTo)) (by decide +kernel)
     | 2 => meets (storing (some linkedTo)) (by decide +kernel),
   by decide +kernel, by decide +kernel, by decide +kernel, by decide +kernel⟩

/-- The clauses of `HostTransfers` on a failed read of the storage engine. -/
theorem witness_FailedStorageReads :
    HasDev (fun d => (d.dma.bursts.look? 9).any (fun b => d.gen b.fn == b.gen && b.for_ == .storage 16383 2 0) = true ∧
      (d.conn? 16383).any (fun z => (z.outQ.find? fun y => y.num == 2).isSome) = true) ∧
    HasDev (fun d => (d.dma.bursts.look? 9).any (fun b => d.gen b.fn == b.gen && b.for_ == .zeroRead 0) = true ∧
      (d.sto.records.look? 0).any (fun z => z.zeroing) = true) :=
  let x := storing (some { linkedTo with outQ := [{ num := 2, cid := 5, head := [] }] })
  ⟨meets { x with dma := (failing (.storage 16383 2 0)).dma } (by decide +kernel),
   meets { failing (.zeroRead 0) with
     sto := { records := ⟨[(0, { conn := 0, fn := 0, gen := 0, slot := 0, tx := false, bytes := [], inner := 0, zeroing := true })]⟩ } } (by decide +kernel)⟩

theorem witness_StorageEvents :
    (∀ reset : Bool, HasDev (fun d => d.available 8 = true ∧ ((d.conn? 16383).any fun k => k.live && d.gen k.fn == k.gen) = true ∧
      ((d.copy? 7).any fun c => c.stage == .storage 16383 && (tcpOf c.bytes).any fun x =>
        bitN (byteAt c.bytes (x.2.2.2.1 + 13)).toNat 2 == reset && !bitN (byteAt c.bytes (x.2.2.2.1 + 13)).toNat 0) = true)) ∧
    HasDev (fun d => d.stoOn = true ∧ ((d.conn? 16383).any fun c => c.live && c.want.isEmpty && c.sendable != 0) = true) ∧
    (∀ last : Bool, HasDev (fun d => d.stoOn = true ∧ ((d.conn? 16383).any fun c => c.live && c.rtoAt.any (fun t => decide (t ≤ d.ref)) &&
      decide (c.retries ≤ c.timeouts + 1) == last) = true)) ∧
    HasDev (fun d => d.stoOn = true ∧ ((d.conn? 16383).any fun c => c.live && c.ackAt.any fun t => decide (t ≤ d.ref)) = true) ∧
    HasDev (fun d => d.stoOn = true ∧ ((d.conn? 16383).any fun c => c.retryAt.any fun t => decide (t ≤ d.ref)) = true) ∧
    HasDev (fun d => ((d.conn? 16383).any fun c => c.returning.any fun r => decide (r.2 ≤ d.ref)) = true) ∧
    HasDev (fun d => hears d 5 = true ∧ ((d.conn? 16383).any fun c => !c.outQ.any (·.cid == le c.rxBytes 20 2)) = true) ∧
    HasDev (fun d => hears d 3 = true) ∧
    HasDev (fun d => hears d 9 = true ∧ ((d.conn? 16383).any fun c => (c.cmds.look? (le c.rxBytes 8 2)).any fun k => !k.lastSeen &&
      decide (le c.rxBytes 12 4 + le c.rxBytes 16 4 ≤ (if k.dir = 1 then k.total else 0)) && decide (k.r2ts < c.maxR2t + 1)) = true) ∧
    HasDev (fun d => hears d 7 = true ∧ ((d.conn? 16383).any fun c => (c.cmds.look? (le c.rxBytes 8 2)).any fun k => !k.lastSeen &&
      decide (le c.rxBytes 12 4 + le c.rxBytes 16 4 ≤ (if k.dir = 2 then k.total else 0))) = true) :=
  ⟨fun reset =>
     match reset with
     | true => meets (segmentCame 4) (by decide +kernel)
     | false => meets (segmentCame 16) (by decide +kernel),
   meets (storing (some { linkedTo with sendQ := [1] })) (by decide +kernel),
   fun last =>
     match last with
     | true => meets (storing (some { linkedTo with rtoAt := some 0, timeouts := 1 })) (by decide +kernel)
     | false => meets (storing (some { linkedTo with rtoAt := some 0 })) (by decide +kernel),
   meets (storing (some { linkedTo with ackAt := some 0 })) (by decide +kernel),
   meets (storing (some { linkedTo with retryAt := some 0 })) (by decide +kernel),
   meets (storing (some { linkedTo with returning := some (0, 0) })) (by decide +kernel),
   meets (storing (some (hearing 5 0 0 24 0 [0, 0, 0, 0, 0, 0, 5, 0]))) (by decide +kernel),
   meets (storing (some (hearing 3 0 0 24 0 [1, 0, 0, 0, 0, 0, 0, 0]))) (by decide +kernel),
   meets (storing (some (hearing 9 0 0 24 1 [5, 0, 24, 0, 40, 0, 0, 0]))) (by decide +kernel),
   meets (storing (some (hearing 7 0x4 24 64 2 [5, 0, 24, 0, 40, 0, 0, 0]))) (by decide +kernel)⟩

/-! ## The whole machine -/

theorem witness_ResetHolds : ∃ s : State, s.toDev.inReset = true ∧ actsInReset (.merNowRead .core) = false :=
  ⟨{ toDev := { pwr := { resetN := true } } }, rfl, rfl⟩

theorem witness_ResetLasts : ∃ s t : State, s.toDev.inReset = true ∧ s.pending = [.merNowRead .core] ∧ endsReset (.merNowRead .core) = false ∧
    step s = .next t :=
  ⟨{ toDev := { pwr := { resetN := true } }, pending := [.merNowRead .core] }, { toDev := { pwr := { resetN := true } } }, rfl, rfl, rfl, rfl⟩

theorem witness_QueueStaysWellFormed : ∃ s t : State, Queued s ∧ s.pending ≠ [] ∧ step s = .next t :=
  ⟨{ toDev := { pwr := { resetN := true } }, pending := [.merNowRead (.host 1023)] }, { toDev := { pwr := { resetN := true } } },
   by unfold Queued; decide +kernel, by simp, rfl⟩

theorem witness_AddressMap :
    (Reg.PCA_THREAD_CTRL.info.page = false ∧ 511 < Reg.PCA_THREAD_CTRL.info.count ∧ 0 < Reg.PCA_THREAD_CTRL.info.words ∧
      Reg.PCA_THREAD_CTRL.hole 511 0 = false) ∧
    (Reg.HIF_TX_TAIL.info.page = true ∧ 63 < Reg.HIF_TX_TAIL.info.count ∧ Reg.HIF_TX_TAIL.perPair = true ∧ 63 < paired.qpCount 0) ∧
    (Reg.HIF_AQ_TAIL.info.page = true ∧ Reg.HIF_AQ_TAIL.pfOnly = true) ∧
    (windowReg Reg.MER_CTRL.info.window Reg.MER_CTRL.info.off).isSome = true := by
  refine ⟨?_, ?_, ?_, ?_⟩ <;> decide +kernel

/-- Two TIME_RATE commands that wait, and the second of them. -/
def twoWait (state : Nat := 0) : Dev × Cmd :=
  let c := cmd 0x0201 0 [5, 0]
  let c2 : Cmd := { c with packet := c.packet ++ [0] }
  let d := waits (({} : Dev).set Fld.PWR_STAT_STATE 0 state) c
  let a : Accepted :=
    { cmd := c2, opcode := 0x0201, fn := 0, issuerGen := 0, fnGen := 0, stamp := 0, ring := 0, mgmt := none, started := false, committed := false }
  ({ d with vcl := { d.vcl with cmds := d.vcl.cmds.put 1 a } }, c2)

/-- PF0 with one entry in its administration queue, and that command: TIME_RATE. -/
def queued (cfg : FnCfg) (asked : Tbl Bool := ⟨[]⟩) (atc : Tbl Nat := ⟨[]⟩) : Dev :=
  (({ hif := { cfg := ⟨[(0, cfg)]⟩, aqs := ⟨[(0, { tail := 1 })]⟩ }, dma := { asked := asked, atc := atc }, vcl := { up := true } } : Dev).set
    Fld.HIF_AQ_CFG_ENABLE 0 1)

theorem witness_CommandReach :
    let c := cmd 0x0201 0 [5, 0]
    (let d := queued { ats := true }
     d.inReset = false ∧ d.accepts c = true ∧ (d.reachCmd c).1 = .waits) ∧
    (let d := queued { ats := true } ⟨[(atcKey 0 0, true)]⟩
     d.inReset = false ∧ d.accepts c = true ∧ (d.reachCmd c).1 = .denied ∧
       ((pagesOf ((d.reachCmd c).2.cmdRanges c).1).any fun p => !(d.reachCmd c).2.translated 0 (4096 * p)) = true) := by decide +kernel

theorem witness_RomServes :
    let c := cmd 0x0201 0 [5, 0]
    let d := waits (({} : Dev).set Fld.SEC_STAT_RECOVERY 0 1) c
    commandOf (.timeRate c) = some (c.opcode, c) ∧ d.inReset = false ∧ (d.accepts c || (d.runs && d.waitsTurn c)) = true ∧ romServes c = false ∧
      (d.reachCmd c).1 = .ready ∧ ((d.accept c).any fun r => r.2.2.hasTurn r.1 r.2.1 &&
        (r.2.2.updCmd r.1 fun x => { x with started := true }).on? Fld.SEC_STAT_RECOVERY &&
        match (r.2.2.updCmd r.1 fun x => { x with started := true }).vclCheck c with
        | .error _ => false
        | .ok _ => true) = true := by decide +kernel

theorem witness_BoundsKept :
    (∃ s : State, (∀ k, (s.toDev.thread k).rets.length ≤ 8 ∧ (s.toDev.thread k).loops.length ≤ 4) ∧ s.toDev.pca.scratch.wf 0 = true ∧
      (∀ k, (s.toDev.pin k).fifo.length ≤ 16) ∧ ∀ f, f < 1024 → places (s.toDev.box f) false ≤ 16 ∧ places (s.toDev.box f) true ≤ 8) :=
  ⟨{}, fun k => by
     show (({} : Thread).rets.length ≤ 8 ∧ ({} : Thread).loops.length ≤ 4)
     decide, by decide +kernel, fun k => by
     show ([] : List Stamp).length ≤ 16
     decide, fun f _ => by
    show places (({} : Dev).box f) false ≤ 16 ∧ places (({} : Dev).box f) true ≤ 8
    have : ({} : Dev).box f = [] := rfl
    rw [this]; decide +kernel⟩

theorem witness_CommandChecks :
    (∀ standby : Bool,
      let x := twoWait (if standby then 3 else 0)
      commandOf (.timeRate x.2) = some (x.2.opcode, x.2) ∧ x.1.inReset = false ∧ x.1.accepts x.2 = true ∧
        ((x.1.accept x.2).any fun r => !r.2.2.hasTurn r.1 r.2.1) = true) ∧
    (let c := cmd 0x0201 0 [5]
     let d := waits {} c
     commandOf (.timeRate c) = some (c.opcode, c) ∧ d.inReset = false ∧ d.accepts c = true ∧
       ((d.accept c).any fun r => r.2.2.hasTurn r.1 r.2.1 && match (r.2.2.updCmd r.1 fun x => { x with started := true }).vclCheck c with
         | .error _ => true
         | .ok _ => false) = true) ∧
    (let c := cmd 0x0FFF 0 []
     let d := waits {} c
     opInfo c.opcode = none ∧ d.inReset = false ∧ d.accepts c = true ∧
       ((d.accept c).any fun r => r.2.2.hasTurn r.1 r.2.1 && match (r.2.2.updCmd r.1 fun x => { x with started := true }).vclCheck c with
         | .error _ => true
         | .ok _ => false) = true) := by
  refine ⟨fun standby => ?_, ?_, ?_⟩
  · cases standby <;> decide +kernel
  · decide +kernel
  · decide +kernel

/-- The bounds of `BurstSizes` hold of a function out of reset, and a write and a read of 600 bytes put bursts into the engine. -/
theorem witness_BurstSizes :
    let cfg := ({} : Dev).hif.cfg.getD 0 {}
    1 ≤ cfg.maxPayload ∧ 64 ≤ cfg.maxRead ∧ cfg.maxRead % 64 = 0 ∧
    ((({} : Dev).queueWrite { chan := 0 } 0 0xFFD (List.replicate 600 0) fun _ => .plain).dma.bursts.look? 0).isSome = true ∧
    ((({} : Dev).queueRead { chan := 0, round := true } 0 0xFFD 600 0 fun p => .gather 0 0 p).2.dma.bursts.look? 0).isSome = true ∧
    ({} : Dev).dma.bursts.look? 0 = none := by decide +kernel

/-! ## Results taken from the manual's worked examples, or from the standards that it names -/

/-- The stamp of R8's example: 1,700,000,000,000,000,123 ns and 64/256 ns. -/
theorem test_stamp_words : stampWords (1700000000000000123 * 256 + 64) = [0x2A007B40, 0x979CFE36, 0x17] := by decide +kernel

/-- The words of R98's and of the hook's examples. -/
theorem test_encodings : encLookup 1 0 2 2 false 0 = 0x61024000 ∧ encEnd 1 0x42 0 = 0x79420000 ∧ encEnd 0 0 0 = 0x78000000 ∧
    encLoop 8 4 0 = 0x2C200400 := by decide +kernel

/-- Slots 4, 5, 6, 7 and 10 of the example of R69: thread 1 is current and stalls at slot 4; thread 0, of high priority, is READY from slot 6. -/
theorem test_issuing_slots :
    let choose (slot current : Nat) (hi : Bool) (ready : List Nat) : Option Nat :=
      (CoreSt.choose 6 ready.contains (fun k => hi && k == 0) (fun _ => 0) 5 { slotCount := slot, current := some current }).map (·.1)
    choose 4 1 false [1, 2, 3] = some 1 ∧ choose 5 1 false [2, 3] = some 2 ∧ choose 6 2 true [0, 2, 3] = some 0 ∧
      choose 7 2 true [0, 2, 3] = some 0 ∧ choose 10 2 true [0, 2, 3] = some 0 := by decide +kernel

/-- The text of chapter 04's example: the hook, the PARSE entry at 13 and the ACTION entry at 16. -/
def hookText (count : BitVec 8) : List Word :=
  [encPw 8 1 false 2 0 0, encAlu 0x0D 9 8 4 0, encImm 0x02 10 1 4, encImm 0x02 11 0 0, encLoop count 4 0, encPw 12 10 false 0 0 0,
   encImm 0x03 12 12 0x80, encAlu 0x04 11 11 12 0, encImm 0x02 10 10 4, encLg 11 true 12 0 31 0, encImm 0x02 1 0 36, encImm 0x02 2 0 0,
   encJump 2 0 0, encLibcall 0x04 0, encLibcall 0x08 0, encJump 3 0 0, encLibcall 0x09 0, encLibcall 0x10 0]

/-- That object. -/
def hookObject (count : BitVec 8) : Tlamond :=
  { bytes := [], textLen := 18, entryCount := 3, handleCount := 0, importCount := 0, priv := 0, rgn := 0, chanMask := 0, softMask := 0, bound := 512,
    entries := [(1, 0, 13, 512), (3, 1, 0, 512), (2, 2, 16, 512)], handles := [], imports := [], text := hookText count }

/-- The hook costs 41 and the frame bound is 310; with 120 rounds they are 489 and 758. -/
theorem test_hook_bound :
    ((hookObject 8).figures.map fun x => (x.1.getD 0 none, x.2)) = some (some 41, 310) ∧
    ((hookObject 120).figures.map fun x => (x.1.getD 0 none, x.2)) = some (some 489, 758) := by decide +kernel

/-- CRC32C of the digits 1 to 9 (the check value of its polynomial). -/
theorem test_crc32c : crc32c ("123456789".toList.map fun c => BitVec.ofNat 8 c.toNat) = 0xE3069283 := by decide +kernel

/-- The example of chapter 17: queue 900 uses shaper 40. -/
def queue900 : Dev := (({} : Dev).wr .TMG_QUEUE_SCHED 900 0 0x80A00001).set Fld.TMG_QUEUE_CFG_ENABLE 900 1

/-- The write of 0x80A4_8001 sets CT_STEP, keeps SHAPER and is flagged. -/
theorem test_write_ignored :
    let d := queue900.regWrite (.host 1) (.dev 0x930E10) 0x80A48001
    d.rd .TMG_QUEUE_SCHED 900 = 0x80A08001 ∧ d.rd .TMG_IGNORED_ADDR = 0x00030E10 ∧ d.rd .DBG_WRITE_IGNORED_ADDR = 0x00930E10 ∧
      (d.rd .DBG_WRITE_IGNORED).getLsbD 9 = true ∧ d.rd .TMG_STATUS = 1 := by decide +kernel

/-- A read of PCA_THREAD_STAT[300] while region 2 is off. -/
theorem test_domain_off :
    let d := (({} : Dev).set Fld.PWR_ISLAND_STAT_ON 2 0).regRead (.host 1) (.dev 0x401CB0)
    d.rd .DBG_DOMAIN_ERR = 0x80040001 ∧ d.rd .DBG_DOMAIN_ERR_ADDR = 0x00401CB0 ∧ d.out.getLast? = some (.answer (.host 1) .completerAbort) := by
  decide +kernel

end Sys2Proof.Tests
end

section
/-!
Registers whose word 0 latches the words after it (R30, R43, R420), the item that a reached register names, and the stamp
FIFO of a time pin (R43, O57).
-/
namespace Sys2Proof.Machine

open Sys2Proof.Safety

/-! ## Latched words -/

/-- The words of an item are stored one after the other. -/
theorem regKey_eq_add (r : Reg) (i w : Nat) : regKey r i w = regKey r i 0 + 4 * w := by
  unfold regKey
  split
  · rfl
  · split <;> rw [Nat.add_zero, Nat.mul_add] <;> omega

/-- Two words of one item are stored in two places. -/
theorem regKey_word_ne {w w' : Nat} (r : Reg) (i : Nat) (h : w ≠ w') : regKey r i w ≠ regKey r i w' := by
  rw [regKey_eq_add r i w, regKey_eq_add r i w']
  omega

/-- Of words that are latched in turn, each reads as it was latched. -/
theorem getD_foldl_putD_regKey (r : Reg) (i n w : Nat) (f : Nat → Word) (l : Tbl Word) (h : w < n) :
    ((List.range n).foldl (fun l w => l.putD 0 (regKey r i w) (f w)) l).getD (regKey r i w) 0 = f w := by
  induction n with
  | zero => omega
  | succ n ih =>
    rw [List.range_succ, List.foldl_append, List.foldl_cons, List.foldl_nil]
    by_cases hw : w = n
    · subst hw
      exact Tbl.getD_putD ..
    · rw [Tbl.getD_putD_ne _ _ _ _ (regKey_word_ne r i hw)]
      exact ih (by omega)

/-- Each word kept for the later reads is the word that they find. -/
theorem Dev.keepLatched_latch (d : Dev) (a : RegAt) (ws : List Word) {w : Nat} (h : w < ws.length) :
    (d.keepLatched a ws).latch.getD (regKey a.reg a.item w) 0 = ws.getD w 0 :=
  getD_foldl_putD_regKey a.reg a.item ws.length w (ws.getD · 0) d.latch h

/-- A read of word 0 of a latching register answers the first of the words that it latches (R420). -/
theorem Dev.readReg_first {d e : Dev} {a : RegAt} {ws : List Word} (latches : a.reg.latches = true) (first : a.word = 0)
    (h : d.latched a = (ws, e)) : d.readReg a = (ws.headD 0, (e.clearRead a (ws.headD 0)).keepLatched a ws) := by
  simp only [Dev.readReg, latches, first, h, if_true]

/-- A read of a later word of a latching register answers the latched word and changes nothing (R420). -/
theorem Dev.readReg_later (d : Dev) {a : RegAt} (latches : a.reg.latches = true) (later : a.word ≠ 0) :
    d.readReg a = (d.latch.getD (regKey a.reg a.item a.word) 0, d) := by
  simp only [Dev.readReg, latches, if_true, later, if_false]

/-- So a later word, read after word 0, is the one that word 0 latched (R30). -/
theorem Dev.readReg_keepLatched (d : Dev) {a : RegAt} {ws : List Word} {w : Nat} (latches : a.reg.latches = true) (later : w ≠ 0)
    (h : w < ws.length) : (d.keepLatched a ws).readReg { a with word := w } = (ws.getD w 0, d.keepLatched a ws) := by
  rw [Dev.readReg_later _ (a := { a with word := w }) latches later, d.keepLatched_latch a ws h]

/-- A word without RC bits loses nothing to a read. -/
theorem Dev.clearRead_of_rc_zero (d : Dev) {a : RegAt} (v : Word) (h : (a.reg.access a.word).rc = 0) : d.clearRead a v = d := by
  simp [Dev.clearRead, h]

/-! ## The item that a reached register names -/

/-- An offset inside a register's range names an item that the register has. -/
theorem Reg.wordAt_item_lt {r : Reg} {off : Nat} {x : Nat × Nat} (h : r.wordAt off = some x) : x.1 < r.info.count := by
  unfold Reg.wordAt at h
  dsimp only at h
  split at h
  case isFalse => cases h
  case isTrue inside =>
    split at h
    · cases h
    · cases h
      simp only [Bool.and_eq_true, decide_eq_true_eq] at inside
      obtain ⟨⟨low, high⟩, -⟩ := inside
      exact Nat.div_lt_of_lt_mul (by omega)

/-- A register found in a window has the item found. -/
theorem windowReg_item_lt {k off : Nat} {a : RegAt} (h : windowReg k off = some a) : a.n < a.reg.info.count := by
  obtain ⟨r, -, found⟩ := List.exists_of_findSome?_eq_some h
  split at found
  · cases found
  · obtain ⟨x, hx, rfl⟩ := Option.map_eq_some_iff.1 found
    exact Reg.wordAt_item_lt hx

/-- So has a register found in a function's page. -/
theorem Dev.pageReg_item_lt {d : Dev} {f off : Nat} {a : RegAt} (h : d.pageReg f off = some a) : a.n < a.reg.info.count := by
  obtain ⟨r, -, found⟩ := List.exists_of_findSome?_eq_some h
  split at found
  · cases found
  · obtain ⟨x, hx, there⟩ := Option.bind_eq_some_iff.1 found
    split at there
    · cases there
    · cases there
      exact Reg.wordAt_item_lt hx

/-- A search that may find nothing gives a register only when it found it. -/
theorem eq_some_of_getD_reserved {o : Option RegAt} {a : RegAt} (h : (o.map Spot.reg).getD .reserved = .reg a) : o = some a := by
  cases o with
  | none => cases h
  | some b => cases h; rfl

/-- A register that lies at a location has the item that lies there. -/
theorem Dev.spotAt_item_lt {d : Dev} {req : Requester} {l : Loc} {a : RegAt} (h : d.spotAt req l = .reg a) :
    a.n < a.reg.info.count := by
  cases l with
  | dev off =>
    simp only [Dev.spotAt] at h
    split at h
    · cases h
    · split at h
      · cases h
      · split at h
        · exact windowReg_item_lt (eq_some_of_getD_reserved h)
        · cases h
  | page f off => exact Dev.pageReg_item_lt (eq_some_of_getD_reserved h)
  | msix f off =>
    simp only [Dev.spotAt] at h
    repeat' split at h
    all_goals cases h

/-! ## The stamp FIFO of a time pin -/

/-- Noting a JTAG access changes no pin (R440). -/
@[simp] theorem Dev.noteJtag_pin (d : Dev) (req : Requester) (n : Nat) : (d.noteJtag req).pin n = d.pin n := by
  unfold Dev.noteJtag
  split <;> rfl

/-- An edge that an input pin selects stamps it, or counts it as lost when 16 stamps wait, and is recorded (R43, R55). -/
theorem Dev.timeIoEdge_selected {d : Dev} {n : Nat} {rising : Bool} (input : d.pinMode n = 1)
    (selected : edgeSelected (d.get Fld.MER_TIO_CTRL_EDGE n) rising = true) :
    d.timeIoEdge n rising = Dev.logNow
      (if (d.pin n).fifo.length < 16 then d.setPin n { d.pin n with fifo := (d.pin n).fifo ++ [d.now] }
       else (d.set Fld.MER_TIO_FIFO_STAT_OVERFLOWS n (min (d.get Fld.MER_TIO_FIFO_STAT_OVERFLOWS n + 1) 0xFFFF)).set
         Fld.MER_STATUS_TIO_OVF 0 1)
      0x0E 51 none (toWord n) (Config.timeIoEdge rising) 0 := by
  simp only [Dev.timeIoEdge, input, selected, decide_true, Bool.and_self, if_true]

/-- Word 0 of a pin without stamps: zero, latched with two more zeros (R43, R420). -/
theorem Dev.readReg_tioStamp_empty {d : Dev} {n : Nat} (empty : (d.pin n).fifo = []) :
    d.readReg (devAt .MER_TIO_STAMP n) = (0, d.keepLatched (devAt .MER_TIO_STAMP n) [0, 0, 0]) := by
  have words : d.latched (devAt .MER_TIO_STAMP n) = ([0, 0, 0], d) := by
    simp only [Dev.latched, devAt, Dev.tioPop, empty]
    rfl
  rw [Dev.readReg_first rfl rfl words, Dev.clearRead_of_rc_zero _ _ rfl]
  rfl

/-- Settles O57: an edge that the pin selects does what `Dev.timeIoEdge_selected` says; a read that reaches the stamp names a pin
that exists, finds no stamp and latches three zeros, which the later words answer. -/
theorem pinFifo : Obligations.PinFifo := by
  unfold Obligations.PinFifo
  intro s pin
  refine ⟨fun rising out => ?_, fun req l h empty => ⟨?_, fun w hw => ?_⟩⟩
  · intro d o input selected
    rw [← Dev.timeIoEdge_selected input selected]
    exact exec_out out rfl
  · have there : pin < Reg.MER_TIO_STAMP.info.count := Dev.spotAt_item_lt h.at_
    exact exec_read h rfl (if_pos there) (Dev.readReg_tioStamp_empty (by simpa using empty))
  · obtain rfl | rfl := hw
    · exact Dev.readReg_keepLatched _ rfl (by decide) (by decide)
    · exact Dev.readReg_keepLatched _ rfl (by decide) (by decide)

end Sys2Proof.Machine
end

section
/-!
The bursts that a transfer is cut into (R245, R287), the queues of writes and reads that they enter, and the range that a read
requests (R248, O59).
-/
namespace Sys2Proof.Machine

/-! ## Cutting a transfer -/

theorem splitBursts_zero (lim unit fuel addr : Nat) : splitBursts lim unit fuel addr 0 = [] := by
  cases fuel <;> rfl

/-- The first burst of a transfer that is not empty, and the bursts of the rest. -/
theorem splitBursts_cons {n : Nat} (lim unit fuel addr : Nat) (h : n ≠ 0) :
    ∃ k, splitBursts lim unit (fuel + 1) addr n = (addr, k) :: splitBursts lim unit fuel (addr + k) (n - k) ∧
      1 ≤ k ∧ k ≤ n ∧ k ≤ max (lim - addr % unit) 1 ∧ addr % 4096 + k ≤ 4096 := by
  refine ⟨min (min n (max (lim - addr % unit) 1)) (4096 - addr % 4096), ?_, ?_⟩
  · rw [splitBursts, if_neg h]
  · have := Nat.mod_lt addr (show 4096 > 0 by decide)
    omega

/-- No burst is empty, goes beyond its limit or crosses a 4 KiB boundary (R245, R287). -/
theorem splitBursts_fits {lim unit fuel addr n : Nat} {p : Nat × Nat} (h : p ∈ splitBursts lim unit fuel addr n) :
    1 ≤ p.2 ∧ p.2 ≤ max (lim - p.1 % unit) 1 ∧ p.1 % 4096 + p.2 ≤ 4096 := by
  induction fuel generalizing addr n with
  | zero => cases h
  | succ fuel ih =>
    by_cases hn : n = 0
    · rw [hn, splitBursts_zero] at h
      cases h
    · obtain ⟨k, cut, pos, -, le, page⟩ := splitBursts_cons lim unit fuel addr hn
      rw [cut, List.mem_cons] at h
      obtain rfl | h := h
      · exact ⟨pos, le, page⟩
      · exact ih h

/-- No burst goes beyond the limit (R287). -/
theorem splitBursts_len_le {lim unit fuel addr n : Nat} {p : Nat × Nat} (h : p ∈ splitBursts lim unit fuel addr n) (limPos : 1 ≤ lim) :
    p.2 ≤ lim := by
  obtain ⟨-, le, -⟩ := splitBursts_fits h
  omega

/-- Nor does one that is counted from the unit below its address, under a limit of at least one unit (R248). -/
theorem splitBursts_widened_le {lim unit fuel addr n : Nat} {p : Nat × Nat} (h : p ∈ splitBursts lim unit fuel addr n)
    (pos : 0 < unit) (unitLe : unit ≤ lim) : p.1 % unit + p.2 ≤ lim := by
  obtain ⟨-, le, -⟩ := splitBursts_fits h
  have := Nat.mod_lt p.1 pos
  omega

/-- The bursts cover the transfer byte by byte, in order. -/
theorem splitBursts_covers {fuel n : Nat} (lim unit addr : Nat) (h : n ≤ fuel) :
    (splitBursts lim unit fuel addr n).flatMap (fun p => List.range' p.1 p.2) = List.range' addr n := by
  induction fuel generalizing addr n with
  | zero =>
    obtain rfl := Nat.le_zero.mp h
    rfl
  | succ fuel ih =>
    by_cases hn : n = 0
    · rw [hn, splitBursts_zero]
      rfl
    · obtain ⟨k, cut, pos, le, -⟩ := splitBursts_cons lim unit fuel addr hn
      rw [cut, List.flatMap_cons, ih (addr + k) (by omega), List.range'_append_1, Nat.add_sub_cancel' le]

/-! ## The queue of bursts -/

/-- After a burst is queued, what a key lists is that burst or what it listed before. -/
theorem Dev.look_addBurst {d : Dev} {x b : Burst} {k : Nat} (h : (d.addBurst x).dma.bursts.look? k = some b) :
    d.dma.bursts.look? k = some b ∨ b = x := by
  by_cases hk : k = d.dma.bursts.nextKey
  · subst hk
    exact .inr (Option.some.inj ((Tbl.look_put ..).symm.trans h)).symm
  · exact .inl ((Tbl.look_put_ne _ x hk).symm.trans h)

/-- After the bursts `make pos p` of the pieces `p` of a transfer are queued, what a key lists is one of them or what it listed
before. -/
theorem Dev.look_foldl_addBurst {make : Nat → Nat × Nat → Burst} {l : List (Nat × Nat)} {acc : Dev × Nat} {k : Nat} {b : Burst}
    (h : (l.foldl (fun (acc : Dev × Nat) (p : Nat × Nat) => (acc.1.addBurst (make acc.2 p), acc.2 + p.2)) acc).1.dma.bursts.look? k
      = some b) :
    acc.1.dma.bursts.look? k = some b ∨ ∃ pos, ∃ p ∈ l, b = make pos p := by
  induction l generalizing acc with
  | nil => exact .inl h
  | cons q l ih =>
    obtain old | ⟨pos, p, hp, rfl⟩ := ih h
    · exact (Dev.look_addBurst old).imp_right fun new => ⟨acc.2, q, List.mem_cons_self, new⟩
    · exact .inr ⟨pos, p, List.mem_cons_of_mem q hp, rfl⟩

/-- `b` carries one of the pieces `l` for function `f`, in one direction, on `path`. -/
def Burst.Carries (b : Burst) (path : Path) (f : Nat) (write : Bool) (l : List (Nat × Nat)) : Prop :=
  (b.addr, b.len) ∈ l ∧ b.write = write ∧ b.fn = f ∧ b.path = path

/-- A queued write adds the bursts of its pieces and no others. -/
theorem Dev.look_queueWrite {d : Dev} {path : Path} {f addr : Nat} {data : Bytes} {who : Bool → BurstFor} {k : Nat} {b : Burst}
    (h : (d.queueWrite path f addr data who).dma.bursts.look? k = some b) :
    d.dma.bursts.look? k = some b ∨ b.Carries path f true (splitBursts (d.writeLimit f) 1 (data.length + 1) addr data.length) := by
  obtain old | ⟨pos, p, hp, rfl⟩ := Dev.look_foldl_addBurst
    (make := fun pos p => { path := path, fn := f, gen := d.gen f, write := true, addr := p.1, data := slice data pos p.2,
                            len := p.2, for_ := who (pos + p.2 == data.length) }) h
  · exact .inl old
  · exact .inr ⟨hp, rfl, rfl, rfl⟩

/-- A queued read adds the bursts of its pieces and no others. -/
theorem Dev.look_queueRead {d : Dev} {path : Path} {f addr n pos : Nat} {who : Nat → BurstFor} {k : Nat} {b : Burst}
    (h : (d.queueRead path f addr n pos who).2.dma.bursts.look? k = some b) :
    d.dma.bursts.look? k = some b ∨ b.Carries path f false (d.readSplit path f addr n) := by
  obtain old | ⟨pos, p, hp, rfl⟩ := Dev.look_foldl_addBurst
    (make := fun pos p => { path := path, fn := f, gen := d.gen f, write := false, addr := p.1, data := [], len := p.2,
                            for_ := who pos }) h
  · exact .inl old
  · exact .inr ⟨hp, rfl, rfl, rfl⟩

/-! ## The range that a read requests -/

theorem Path.unit_pos (p : Path) : 0 < p.unit := by
  unfold Path.unit
  split <;> decide

theorem Path.unit_le (p : Path) : p.unit ≤ 64 := by
  unfold Path.unit
  split <;> decide

/-- A window that is found holds the range wholly. -/
theorem Dev.inWindow_holds {d : Dev} {f addr len : Nat} {w : Nat × Nat} (h : d.inWindow f addr len = some w) :
    w.1 ≤ addr ∧ addr + len ≤ w.1 + w.2 := by
  simpa using List.find?_some h

/-- The range requested for a burst holds it, and stays within its page and within a limit that the burst keeps to once it is
counted from the unit below its address (R248). -/
theorem Dev.readRange_bounds (d : Dev) {b : Burst} {lim : Nat} (page : b.addr % 4096 + b.len ≤ 4096) (whole : lim % 64 = 0)
    (le : b.addr % b.path.unit + b.len ≤ lim) (pos : 1 ≤ b.len) :
    (d.readRange b).1 ≤ b.addr ∧ b.addr + b.len ≤ (d.readRange b).1 + (d.readRange b).2 ∧ (d.readRange b).2 ≤ lim ∧
      (d.readRange b).1 % 4096 + (d.readRange b).2 ≤ 4096 := by
  unfold Path.unit at le
  unfold Dev.readRange
  dsimp only
  split
  case h_1 base len found =>
    split at found
    case isFalse => cases found
    case isTrue round =>
      obtain ⟨low, high⟩ := Dev.inWindow_holds found
      simp only [round, if_true] at le
      dsimp only
      omega
  case h_2 =>
    have le4 : b.addr % 4 + b.len ≤ lim := by split at le <;> omega
    dsimp only
    omega

/-- Settles O59: a queue adds only bursts of the pieces of its transfer, each of which keeps within its limit and its page. A
read's limit counts from the unit below the address, so that rounding outwards stays within it. -/
theorem burstSizes : Obligations.BurstSizes := by
  unfold Obligations.BurstSizes
  intro d path f addr
  refine ⟨fun data who limit k b h => ?_, fun n pos who limit k b h => ?_, fun n pos who limit whole k b h fresh => ?_,
    fun lim unit n => splitBursts_covers lim unit addr (Nat.le_succ n)⟩
  · refine (Dev.look_queueWrite h).imp_right fun ⟨piece, write, fn, path⟩ => ?_
    obtain ⟨pos, -, page⟩ := splitBursts_fits piece
    exact ⟨write, pos, splitBursts_len_le piece (Nat.le_min.mpr ⟨by decide, limit⟩), page, fn, path⟩
  · refine (Dev.look_queueRead h).imp_right fun ⟨piece, write, fn, path⟩ => ?_
    obtain ⟨pos, -, page⟩ := splitBursts_fits piece
    exact ⟨write, pos, splitBursts_len_le piece (Nat.le_min.mpr ⟨by decide, limit⟩), page, fn, path⟩
  · obtain old | ⟨piece, -, -, rfl⟩ := Dev.look_queueRead h
    · rw [fresh] at old
      cases old
    · obtain ⟨pos, -, page⟩ := splitBursts_fits piece
      have unit : b.path.unit ≤ d.readLimit f := Nat.le_trans b.path.unit_le (Nat.le_min.mpr ⟨by decide, limit⟩)
      exact d.readRange_bounds page (by omega) (splitBursts_widened_le piece b.path.unit_pos unit) pos

end Sys2Proof.Machine
end

section
/-!
Fields of register words, and tables of which every value is changed.
-/
namespace Sys2Proof

/-! ## Fields of a word -/

/-- A field's mask has the bits of the field. -/
theorem getLsbD_fieldMask (hi lo i : Nat) : (fieldMask hi lo).getLsbD i = decide (i < 32 ∧ lo ≤ i ∧ i ≤ hi) := by
  simp only [fieldMask, BitVec.getLsbD_ofNat, Nat.testBit_mul_two_pow, Nat.testBit_two_pow_sub_one, ← Bool.decide_and]
  exact decide_eq_decide.2 (by omega)

/-- The bits of a field's value are those of the word, from the lowest of the field. -/
theorem testBit_bitsOf (w : Word) (hi lo j : Nat) : (bitsOf w hi lo).testBit j = (w.getLsbD (lo + j) && decide (lo + j ≤ hi)) := by
  rw [bitsOf, BitVec.testBit_toNat, BitVec.getLsbD_ushiftRight, BitVec.getLsbD_and, getLsbD_fieldMask]
  by_cases inside : lo + j < 32
  · simp [inside]
  · simp [BitVec.getLsbD_of_ge w _ (Nat.le_of_not_lt inside)]

/-- Replacing a field replaces its bits and no others. -/
theorem getLsbD_setBits {hi i : Nat} (w : Word) (lo v : Nat) (top : hi < 32) :
    (setBits w hi lo v).getLsbD i = if lo ≤ i ∧ i ≤ hi then v.testBit (i - lo) else w.getLsbD i := by
  rw [setBits, BitVec.getLsbD_or, BitVec.getLsbD_and, BitVec.getLsbD_and, BitVec.getLsbD_not, getLsbD_fieldMask, BitVec.getLsbD_shiftLeft,
    BitVec.getLsbD_ofNat]
  by_cases word : i < 32
  · split
    case isTrue field =>
      have : i - lo < 32 := by omega
      simp [word, field, this]
    case isFalse other => simp [word, other]
  · have : ¬ (lo ≤ i ∧ i ≤ hi) := by omega
    simp [word, this, BitVec.getLsbD_of_ge w _ (Nat.le_of_not_lt word)]

/-- A field reads as it was set. -/
theorem bitsOf_setBits {hi lo v : Nat} (w : Word) (top : hi < 32) (fits : v < 2 ^ (hi + 1 - lo)) : bitsOf (setBits w hi lo v) hi lo = v := by
  refine Nat.eq_of_testBit_eq fun j => ?_
  rw [testBit_bitsOf, getLsbD_setBits w lo v top]
  by_cases field : lo + j ≤ hi
  · simp [field]
  · have : v < 2 ^ j := Nat.lt_of_lt_of_le fits (Nat.pow_le_pow_right (by decide) (by omega))
    simp [field, Nat.testBit_lt_two_pow this]

/-- A field keeps its value when one apart from it is set. -/
theorem bitsOf_setBits_apart {hi lo hi' lo' : Nat} (w : Word) (v : Nat) (top : hi < 32) (apart : hi' < lo ∨ hi < lo') :
    bitsOf (setBits w hi lo v) hi' lo' = bitsOf w hi' lo' := by
  refine Nat.eq_of_testBit_eq fun j => ?_
  rw [testBit_bitsOf, testBit_bitsOf, getLsbD_setBits w lo v top]
  by_cases field : lo' + j ≤ hi'
  · rw [if_neg (by omega)]
  · simp [field]

/-! ## Changing every value of a table -/

@[simp] theorem Tbl.look_mapVals {α β : Type} (t : Tbl α) (f : Nat → α → β) (k : Nat) : (t.mapVals f).look? k = (t.look? k).map (f k) := by
  obtain ⟨cells⟩ := t
  induction cells with
  | nil => rfl
  | cons c rest ih =>
    simp only [Tbl.look?, Tbl.mapVals, List.map_cons, Tbl.lookCells] at ih ⊢
    split
    case isTrue here => rw [here]; rfl
    case isFalse => exact ih

/-- A change that keeps the value of the keys not listed changes what every key reads. -/
theorem Tbl.getD_mapVals {α : Type} {f : Nat → α → α} {k : Nat} {d : α} (t : Tbl α) (unlisted : f k d = d) :
    (t.mapVals f).getD k d = f k (t.getD k d) := by
  rw [Tbl.getD, Tbl.look_mapVals, Tbl.getD]
  cases t.look? k with
  | none => exact unlisted.symm
  | some v => rfl

end Sys2Proof

namespace Sys2Proof.Machine

/-! ## Fields of a register -/

theorem Dev.get_set {f : Field} {v : Nat} (d : Dev) (i : Nat) (top : f.hi < 32) (fits : v < 2 ^ (f.hi + 1 - f.lo)) :
    (d.set f i v).get f i = v := by
  rw [Dev.get, Dev.set_eq, Dev.rd_wr, bitsOf_setBits _ top fits]

/-- Setting a field leaves the other fields of its word as they were. -/
theorem Dev.get_set_apart {f g : Field} (d : Dev) (i v : Nat) (reg : g.reg = f.reg) (word : g.word = f.word) (top : f.hi < 32)
    (apart : g.hi < f.lo ∨ f.hi < g.lo) : (d.set f i v).get g i = d.get g i := by
  rw [Dev.get, Dev.get, Dev.set_eq, reg, word, Dev.rd_wr, bitsOf_setBits_apart _ _ top apart]

end Sys2Proof.Machine
end

section
/-!
The state of a function (R322), what the transfers of a function leave as it was, and a save and a thaw of a FROZEN function
(R323 to R325, O58).
-/
namespace Sys2Proof.Machine

open Sys2Proof.Safety

/-! ## The state of a function -/

/-- The note of a save and the state of its function are fields of one word, apart from each other. -/
@[simp] theorem Dev.fnState_set_saved (d : Dev) (f v : Nat) : (d.set Fld.FNC_FUNC_STATE_SAVED f v).fnState f = d.fnState f :=
  d.get_set_apart f v rfl rfl (by decide) (by decide)

theorem Dev.fnState_set_state {v : Nat} (d : Dev) (f : Nat) (fits : v < 4) : (d.set Fld.FNC_FUNC_STATE_STATE f v).fnState f = v :=
  d.get_set f (by decide) fits

theorem Dev.on_set_saved (d : Dev) (f : Nat) : (d.set Fld.FNC_FUNC_STATE_SAVED f 1).on? Fld.FNC_FUNC_STATE_SAVED f = true := by
  rw [Dev.on?, Dev.get_set d f (by decide) (by decide), beq_self_eq_true]

/-! ## What transfers leave as it was -/

/-- `e` has of `d` what sending to a host leaves as it was: the key slots, and every register but the count of host errors
(R289). -/
structure Dev.OnlySends (d e : Dev) : Prop where
  cip : e.cip = d.cip
  rd : ∀ r i w, regKey r i w ≠ regKey .HIF_HOST_ERR 0 0 → e.rd r i w = d.rd r i w

theorem Dev.OnlySends.trans {d e x : Dev} (h : d.OnlySends e) (h' : e.OnlySends x) : d.OnlySends x where
  cip := h'.cip.trans h.cip
  rd r i w away := (h'.rd r i w away).trans (h.rd r i w away)

theorem Dev.OnlySends.of_eq {d e : Dev} (cip : e.cip = d.cip) (regs : e.regs = d.regs) : d.OnlySends e where
  cip := cip
  rd r i w _ := by rw [Dev.rd, Dev.rd, regs]

theorem Dev.OnlySends.refl (d : Dev) : d.OnlySends d := .of_eq rfl rfl

theorem Dev.onlySends_emit (d : Dev) (o : Out) : d.OnlySends (d.emit o) := .of_eq rfl rfl

/-- Operations that each only send, run one after the other on something that holds a device, only send. -/
theorem Dev.OnlySends.foldl {σ α : Type} {g : σ → α → σ} (dev : σ → Dev) (each : ∀ x a, (dev x).OnlySends (dev (g x a)))
    (l : List α) (x : σ) : (dev x).OnlySends (dev (l.foldl g x)) := by
  induction l generalizing x with
  | nil => exact .refl (dev x)
  | cons a rest ih => exact (each x a).trans (ih (g x a))

/-- A host error counts in its own register (R289). -/
theorem Dev.onlySends_hostError (d : Dev) (f : Nat) : d.OnlySends (d.hostError f) where
  cip := rfl
  rd _ _ _ away := d.rd_wr_ne _ away

theorem Dev.onlySends_askPage (d : Dev) (f page : Nat) : d.OnlySends (d.askPage f page) := by
  unfold Dev.askPage
  dsimp only
  split <;> exact .of_eq rfl rfl

theorem Dev.onlySends_reachPages (d : Dev) (f : Nat) (l : List (Nat × Nat)) : d.OnlySends (d.reachPages f l).2 := by
  unfold Dev.reachPages
  split
  case h_1 => exact .refl d
  case h_2 p _ =>
    dsimp only
    split
    case h_1 => exact .of_eq rfl rfl
    case h_2 => exact .refl d
    case h_3 => exact (d.onlySends_askPage f p).trans (.of_eq rfl rfl)

/-- The holdoffs that a message starts lie in the rings' state (R305). -/
theorem Dev.onlySends_holdVector (d : Dev) (f vec : Nat) : d.OnlySends (d.holdVector f vec) := by
  unfold Dev.holdVector
  refine Dev.OnlySends.foldl id (fun x i => ?_) _ d
  dsimp only [id]
  split
  · exact .of_eq rfl rfl
  · exact .refl x

theorem Dev.onlySends_hostSend (f : Nat) (l : List Out) (d : Dev) : d.OnlySends (Dev.hostSend f l d) := by
  induction l generalizing d with
  | nil => exact .refl d
  | cons o rest ih =>
    unfold Dev.hostSend
    split
    case h_1 g addr data r =>
      have reached := d.onlySends_reachPages f [(addr, data.length)]
      split <;> rename_i found <;> rw [found] at reached
      · exact (reached.trans (Dev.onlySends_emit _ _)).trans (ih _)
      · exact (reached.trans (Dev.onlySends_hostError _ f)).trans (ih _)
      · exact reached.trans (.of_eq rfl rfl)
    case h_2 g vec => exact ((d.onlySends_holdVector f vec).trans (Dev.onlySends_emit _ _)).trans (ih _)
    case h_3 => exact (d.onlySends_emit o).trans (ih _)

theorem Dev.onlySends_hostFlush (d : Dev) (f : Nat) : d.OnlySends (d.hostFlush f) := by
  unfold Dev.hostFlush
  split
  · exact .refl d
  · refine Dev.OnlySends.trans ?_ (Dev.onlySends_hostSend f _ _)
    exact .of_eq rfl rfl

theorem Dev.onlySends_hostOut (d : Dev) (f : Nat) (o : Out) : d.OnlySends (d.hostOut f o) := by
  unfold Dev.hostOut
  dsimp only
  split
  case h_1 =>
    split
    · exact .refl d
    · split <;> exact .of_eq rfl rfl
  case h_2 =>
    split
    · exact .of_eq rfl rfl
    · exact Dev.onlySends_hostSend f _ d

theorem Dev.onlySends_hostPut (d : Dev) (f addr : Nat) (data : Bytes) : d.OnlySends (d.hostPut f addr data) := by
  unfold Dev.hostPut
  exact Dev.OnlySends.foldl Prod.fst (fun acc b => acc.1.onlySends_hostOut f (.hostWrite f b.1 (slice data acc.2 b.2))) _ (d, 0)

/-- The states of functions lie in window 1 of R410, the count of host errors below them in window 0. -/
theorem regKey_funcState_ne (f : Nat) : regKey .FNC_FUNC_STATE f 0 ≠ regKey .HIF_HOST_ERR 0 0 := by
  have state : regKey .FNC_FUNC_STATE f 0 = 0x100000 * 1 + 0xC000 + 4 * (1 * f + 0) := rfl
  have errors : regKey .HIF_HOST_ERR 0 0 = 0x40 := rfl
  omega

theorem Dev.OnlySends.fnState {d e : Dev} (h : d.OnlySends e) (f : Nat) : e.fnState f = d.fnState f :=
  congrArg (bitsOf · 31 30) (h.rd .FNC_FUNC_STATE f 0 (regKey_funcState_ne f))

theorem Dev.OnlySends.slot {d e : Dev} (h : d.OnlySends e) (k : Nat) : e.slot k = d.slot k := by
  rw [Dev.slot, Dev.slot, h.cip]

/-! ## A row of one opcode -/

/-- A row whose meaning is a command of one opcode runs the command's own body. -/
theorem exec_vucel1 {s : State} {i : Instr} {op n : Nat} {c : Cmd} {a : Accepted} {p : Bytes} {e : Dev}
    {body : Nat → Accepted → Bytes → Dev → Dev} (h : Taken s.toDev op c n a p e)
    (run : exec i s = s.on fun d => d.vucel1 op c body) : exec i s = .next (withDev s (body n a p e)) := exec_vucel h run rfl

/-! ## FUNC_SAVE -/

/-- A save that is not refused and whose image fits its buffer puts the image out from its issuer and notes the save (R324,
R327). -/
theorem Dev.funcSave_fits {d x : Dev} {n f ident : Nat} {p key : Bytes} {z : Freeze} {b : Accepted} (frozen : d.fnState f = 3)
    (trng : d.on? Fld.SEC_STAT_TRNG_FAIL = false) (mram : d.mramBad 0x3000 0x4000 = false)
    (domain : d.saveDomain = (some (ident, key), x)) (freeze : x.fnc.freezes.look? f = some z) (cmd : x.vcl.cmds.look? n = some b) :
    let secs := (x.imageSections f).filter fun s => !s.2.isEmpty
    let total := 96 + 16 * (secs.length + 1) + (secs.flatMap fun s => s.2.flatMap id).length + 144 * (x.keySection f).length
    total ≤ (le32 p 8).toNat →
    ∃ image, d.funcSave n f p =
      ((((x.drawBytes 12).2.drawBytes 8).2.hostPut b.cmd.issuer (le p 0 8) image).set Fld.FNC_FUNC_STATE_SAVED f 1).replyOk n [toWord total] := by
  intro secs total fits
  unfold Dev.funcSave
  simp only [frozen, trng, mram, domain, freeze, cmd, ne_eq, not_true, decide_false, Bool.or_self, Bool.false_eq_true, if_false,
    List.length_append, List.length_singleton]
  exact ⟨_, if_neg (Nat.not_lt.2 fits)⟩

/-- Picking the domain of an image changes neither registers nor key slots. -/
theorem Dev.onlySends_saveDomain (d : Dev) : d.OnlySends d.saveDomain.2 := .of_eq rfl rfl

/-! ## FUNC_THAW -/

/-- A key slot after a thaw of `f` that follows a save: an ACTIVE slot of `f` that would send is EXHAUSTED (R190, R325). -/
def KeySlot.exhaustedFor (s : KeySlot) (f : Nat) : KeySlot :=
  if krOwner s.record = f ∧ s.state = 1 ∧ (krType s.record = 3 ∨ krType s.record = 5) then { s with state := 2 } else s

/-- A FREE slot is not ACTIVE. -/
theorem KeySlot.exhaustedFor_default (f : Nat) : KeySlot.exhaustedFor {} f = {} := if_neg fun ⟨_, active, _⟩ => by cases active

/-- The key slots after a thaw of `f` (R325). -/
def Dev.thawSlots (d : Dev) (f : Nat) : Dev :=
  if d.on? Fld.FNC_FUNC_STATE_SAVED f then d.setCip fun c => { c with slots := c.slots.mapVals fun _ s => s.exhaustedFor f } else d

theorem Dev.slot_thawSlots_saved {d : Dev} {f : Nat} (saved : d.on? Fld.FNC_FUNC_STATE_SAVED f = true) (k : Nat) :
    (d.thawSlots f).slot k = (d.slot k).exhaustedFor f := by
  rw [Dev.thawSlots, if_pos saved]
  exact Tbl.getD_mapVals d.cip.slots (KeySlot.exhaustedFor_default f)

theorem Dev.thawSlots_unsaved {d : Dev} {f : Nat} (unsaved : d.on? Fld.FNC_FUNC_STATE_SAVED f = false) : d.thawSlots f = d := by
  rw [Dev.thawSlots, unsaved, if_neg Bool.false_ne_true]

/-- The device after a thaw of `f`, but for the reply: the freeze is over, `f` is ACTIVE with no save noted, and what has waited
goes out (R323, R325). -/
def Dev.thawed (d : Dev) (f : Nat) : Dev :=
  let d1 := d.thawSlots f
  let d2 : Dev := { d1 with fnc := { d1.fnc with freezes := d1.fnc.freezes.erase f } }
  ((d2.set Fld.FNC_FUNC_STATE_STATE f 0).set Fld.FNC_FUNC_STATE_SAVED f 0).hostFlush f

theorem Dev.funcThaw_frozen {d : Dev} {f : Nat} (n : Nat) (frozen : d.fnState f = 3) : d.funcThaw n f = (d.thawed f).replyOk n := by
  simp [Dev.funcThaw, frozen, Dev.thawed, Dev.thawSlots, KeySlot.exhaustedFor, and_assoc]

theorem Dev.fnState_thawed (d : Dev) (f : Nat) : (d.thawed f).fnState f = 0 := by
  rw [Dev.thawed, (Dev.onlySends_hostFlush _ f).fnState, Dev.fnState_set_saved, Dev.fnState_set_state _ f (by decide)]

theorem Dev.slot_thawed (d : Dev) (f k : Nat) : (d.thawed f).slot k = (d.thawSlots f).slot k :=
  (Dev.onlySends_hostFlush _ f).slot k

/-- Settles O58: a save ends in the note of it on a function whose state no transfer changes; a thaw ends in ACTIVE, with the
slots of `Dev.thawSlots`. -/
theorem saveThenThaw : Obligations.SaveThenThaw := by
  unfold Obligations.SaveThenThaw
  intro s c n a p e frozen
  refine ⟨fun ident key x z b taken trng mram domain freeze cmd => ?_, fun taken => ?_⟩
  · intro secs total fits
    obtain ⟨image, saves⟩ := Dev.funcSave_fits frozen trng mram domain freeze cmd fits
    have runs : exec (.funcSave c) s = .next (withDev s (e.funcSave n a.fn p)) :=
      exec_vucel1 (body := fun n a p d => d.funcSave n a.fn p) taken rfl
    have picked : e.OnlySends x := by simpa [domain] using e.onlySends_saveDomain
    have drawn : x.OnlySends ((x.drawBytes 12).2.drawBytes 8).2 := .of_eq rfl rfl
    have put := Dev.onlySends_hostPut ((x.drawBytes 12).2.drawBytes 8).2 b.cmd.issuer (le p 0 8) image
    refine ⟨_, by rw [runs, saves], ?_, Dev.on_set_saved _ _⟩
    rw [Dev.fnState_set_saved, ((picked.trans drawn).trans put).fnState, frozen]
  · have runs : exec (.funcThaw c) s = .next (withDev s (e.funcThaw n a.fn)) :=
      exec_vucel1 (body := fun n a _ d => d.funcThaw n a.fn) taken rfl
    refine ⟨e.thawed a.fn, by rw [runs, Dev.funcThaw_frozen n frozen], e.fnState_thawed a.fn, fun saved k => ?_, fun unsaved k => ?_⟩
    · exact (e.slot_thawed a.fn k).trans (Dev.slot_thawSlots_saved saved k)
    · rw [Dev.slot_thawed, Dev.thawSlots_unsaved unsaved]

end Sys2Proof.Machine
end

section
/-!
What the rows of the table have in common: each acts on the device alone, and but for nine of them not on a device in POWER_ON
reset (O48 to O51, O54).
-/
namespace Sys2Proof.Machine

open Sys2Proof.Safety

/-! ## Rows -/

/-- What a row makes of a device. -/
def rowOp (i : Instr) (d : Dev) : Dev :=
  match exec i { toDev := d } with
  | .next t => t.toDev
  | _ => d

/-- A row answers a next state; it neither looks at the queue nor changes it. -/
theorem exec_eq_rowOp (i : Instr) (s : State) : exec i s = .next (withDev s (rowOp i s.toDev)) := by
  cases i <;> rfl

/-- A device in reset is left as it is by every row but those that act in reset. -/
theorem exec_held {i : Instr} {s : State} (held : s.toDev.inReset = true) (idle : actsInReset i = false) : exec i s = .next s := by
  cases i
  case railWarn => cases idle
  case railWarnClear => cases idle
  case railReset => cases idle
  case dieHot => cases idle
  case dieHotClear => cases idle
  case thermalTrip => cases idle
  case thermalTripEnd => cases idle
  case resetNAssert => cases idle
  case resetNRise => cases idle
  all_goals
    simp only [exec]
    exact State.on_held held _

/-- Settles O49: the next state is the one that `rowOp` gives. -/
theorem everyRowCompletes : Obligations.EveryRowCompletes := by
  unfold Obligations.EveryRowCompletes
  exact fun i s => ⟨rowOp i s.toDev, exec_eq_rowOp i s⟩

/-- Settles O51. -/
theorem resetHolds : Obligations.ResetHolds := by
  unfold Obligations.ResetHolds
  exact fun c s held idle => exec_held held idle

/-! ## Steps -/

/-- A step with a command in front is that command's row on the queue's rest. -/
theorem step_cons {s : State} {c : Instr} {rest : List Instr} (front : s.pending = c :: rest) :
    step s = .next { toDev := rowOp c s.toDev, pending := rest } := by
  rw [step, front]
  exact exec_eq_rowOp c _

/-- A step on an empty queue is an idle cycle. -/
theorem step_nil {s : State} (empty : s.pending = []) : step s = .next (withDev s s.toDev.idle) := by
  obtain ⟨d, p⟩ := s
  cases empty
  rfl

/-- Settles O48: by the two cases of a step; no word spells a command. -/
theorem stepRunsCommand : Obligations.StepRunsCommand := by
  unfold Obligations.StepRunsCommand
  exact ⟨fun _ _ => rfl, fun _ empty => step_nil empty, fun _ _ _ => rfl⟩

/-- Settles O54: what waits after a step waited before it. -/
theorem queueStaysWellFormed : Obligations.QueueStaysWellFormed := by
  unfold Obligations.QueueStaysWellFormed
  intro s t formed stepped
  cases front : s.pending with
  | nil =>
    rw [step_nil front] at stepped
    cases stepped
    exact formed
  | cons c rest =>
    rw [step_cons front] at stepped
    cases stepped
    rw [Queued, front, List.all_cons, Bool.and_eq_true] at formed
    exact formed.2

/-! ## Runs -/

/-- A run goes on where its first step leaves the machine. -/
theorem run_succ_of_next {M : Host.Core} {s t : M.State} (k : Nat) (first : M.step s = .next t) : M.run (k + 1) s = M.run k t := by
  rw [Host.Core.run, first]

/-- A run of as many steps as commands wait leaves the device that their operations leave one after another. -/
theorem run_pending (l : List Instr) (d : Dev) :
    Sys2Proof.core.run l.length ({ toDev := d, pending := l } : State) = .next ({ toDev := l.foldl (fun x c => rowOp c x) d } : State) := by
  induction l generalizing d with
  | nil => rfl
  | cons c rest ih =>
    have taken : Sys2Proof.core.step ({ toDev := d, pending := c :: rest } : State)
        = .next ({ toDev := rowOp c d, pending := rest } : State) := step_cons (s := { toDev := d, pending := c :: rest }) rfl
    exact (run_succ_of_next rest.length taken).trans (ih (rowOp c d))

/-- So does running their meanings one after another on an empty queue. -/
theorem foldl_exec (l : List Instr) (d : Dev) :
    l.foldl (fun (o : Host.Outcome State Fault Refusal) c =>
      match o with
      | .next u => exec c u
      | other => other) (.next { toDev := d }) = .next { toDev := l.foldl (fun x c => rowOp c x) d } := by
  induction l generalizing d with
  | nil => rfl
  | cons c rest ih =>
    rw [List.foldl_cons, List.foldl_cons, ← ih]
    exact congrArg (rest.foldl _) (exec_eq_rowOp c _)

/-- Settles O50: by induction on the queue, both sides are the fold of the rows' operations. -/
theorem queueRuns : Obligations.QueueRuns := by
  unfold Obligations.QueueRuns
  intro s
  exact ⟨{ toDev := s.pending.foldl (fun x c => rowOp c x) s.toDev }, run_pending s.pending s.toDev, rfl, foldl_exec s.pending s.toDev⟩

end Sys2Proof.Machine
end

section
/-!
What records, transfers and messages to a host leave as it was (R54 to R59, R287 to R290, R305): all of the device but the logbook,
the rings, the host interface, the registers and what is put out.
-/
namespace Sys2Proof.Machine

/-- `e` is `d` but for what writing records and sending to hosts changes. -/
def Dev.OnlyLogs (d e : Dev) : Prop := e = { d with log := e.log, dma := e.dma, hif := e.hif, regs := e.regs, out := e.out }

namespace Dev.OnlyLogs

variable {d e x : Dev}

theorem refl (d : Dev) : d.OnlyLogs d := rfl

theorem trans (h : d.OnlyLogs e) (h' : e.OnlyLogs x) : d.OnlyLogs x := by
  unfold Dev.OnlyLogs at h h' ⊢
  rw [h'] at *
  rw [h]

theorem eq (h : d.OnlyLogs e) : e = { d with log := e.log, dma := e.dma, hif := e.hif, regs := e.regs, out := e.out } := h

theorem pwr (h : d.OnlyLogs e) : e.pwr = d.pwr := (congrArg Dev.pwr h.eq :)
theorem pca (h : d.OnlyLogs e) : e.pca = d.pca := (congrArg Dev.pca h.eq :)
theorem mer (h : d.OnlyLogs e) : e.mer = d.mer := (congrArg Dev.mer h.eq :)
theorem mbx (h : d.OnlyLogs e) : e.mbx = d.mbx := (congrArg Dev.mbx h.eq :)
theorem frames (h : d.OnlyLogs e) : e.frames = d.frames := (congrArg Dev.frames h.eq :)

/-- Operations that each only log, one after the other on something that holds a device, only log. -/
theorem foldl {σ α : Type} {g : σ → α → σ} (dev : σ → Dev) (each : ∀ x a, (dev x).OnlyLogs (dev (g x a))) (l : List α) (x : σ) :
    (dev x).OnlyLogs (dev (l.foldl g x)) := by
  induction l generalizing x with
  | nil => exact .refl (dev x)
  | cons a rest ih => exact (each x a).trans (ih (g x a))

end Dev.OnlyLogs

/-! ## Registers and outputs -/

theorem Dev.onlyLogs_wr (d : Dev) (r : Reg) (i w : Nat) (v : Word) : d.OnlyLogs (d.wr r i w v) := rfl
theorem Dev.onlyLogs_set (d : Dev) (f : Field) (i v : Nat) : d.OnlyLogs (d.set f i v) := rfl
theorem Dev.onlyLogs_bump (d : Dev) (r : Reg) (i w : Nat) : d.OnlyLogs (d.bump r i w) := rfl
theorem Dev.onlyLogs_emit (d : Dev) (o : Out) : d.OnlyLogs (d.emit o) := rfl

/-! ## Transfers and messages to a host -/

theorem Dev.onlyLogs_hostError (d : Dev) (f : Nat) : d.OnlyLogs (d.hostError f) := rfl

theorem Dev.onlyLogs_askPage (d : Dev) (f page : Nat) : d.OnlyLogs (d.askPage f page) := by
  unfold Dev.askPage
  dsimp only
  split <;> rfl

theorem Dev.onlyLogs_reachPages (d : Dev) (f : Nat) (l : List (Nat × Nat)) : d.OnlyLogs (d.reachPages f l).2 := by
  unfold Dev.reachPages
  split
  case h_1 => rfl
  case h_2 p _ =>
    dsimp only
    split
    case h_1 => rfl
    case h_2 => rfl
    case h_3 => exact (d.onlyLogs_askPage f p).trans rfl

theorem Dev.onlyLogs_holdVector (d : Dev) (f vec : Nat) : d.OnlyLogs (d.holdVector f vec) := by
  unfold Dev.holdVector
  refine Dev.OnlyLogs.foldl id (fun x i => ?_) _ d
  dsimp only [id]
  split <;> rfl

theorem Dev.onlyLogs_hostSend (f : Nat) (l : List Out) (d : Dev) : d.OnlyLogs (Dev.hostSend f l d) := by
  induction l generalizing d with
  | nil => rfl
  | cons o rest ih =>
    unfold Dev.hostSend
    split
    case h_1 g addr data r =>
      have reached := d.onlyLogs_reachPages f [(addr, data.length)]
      split <;> rename_i found <;> rw [found] at reached
      · exact (reached.trans (Dev.onlyLogs_emit _ _)).trans (ih _)
      · exact (reached.trans (Dev.onlyLogs_hostError _ f)).trans (ih _)
      · exact reached.trans rfl
    case h_2 g vec => exact ((d.onlyLogs_holdVector f vec).trans (Dev.onlyLogs_emit _ _)).trans (ih _)
    case h_3 => exact (d.onlyLogs_emit o).trans (ih _)

theorem Dev.onlyLogs_hostOut (d : Dev) (f : Nat) (o : Out) : d.OnlyLogs (d.hostOut f o) := by
  unfold Dev.hostOut
  dsimp only
  split
  case h_1 =>
    split
    · rfl
    · split <;> rfl
  case h_2 =>
    split
    · rfl
    · exact Dev.onlyLogs_hostSend f _ d

theorem Dev.onlyLogs_interrupt (d : Dev) (f vec : Nat) : d.OnlyLogs (d.interrupt f vec) := by
  unfold Dev.interrupt
  split
  · dsimp only
    split
    · rfl
    · exact d.onlyLogs_hostOut f _
  · rfl

/-! ## Records -/

theorem Dev.onlyLogs_logPut (d : Dev) (rec : List Word) : d.OnlyLogs (d.logPut rec) := by
  unfold Dev.logPut
  dsimp only
  split
  · exact (d.onlyLogs_wr ..).trans (Dev.onlyLogs_hostOut _ 0 _)
  · split <;> rfl

theorem Dev.onlyLogs_logLast (d : Dev) (cls : Nat) (rec : List Word) : d.OnlyLogs (d.logLast cls rec) := by
  unfold Dev.logLast
  dsimp only
  split
  · exact (d.onlyLogs_logPut rec).trans (Dev.onlyLogs_set ..)
  · exact d.onlyLogs_logPut rec

theorem Dev.onlyLogs_logSeq (d : Dev) (src : Nat) : d.OnlyLogs (d.logSeq src).2 := rfl

/-- The GAP record that stands before a record when some have been dropped (R56). -/
def Dev.logGap (d : Dev) : Dev :=
  if d.log.dropped == 0 then d
  else
    let (n, e) := d.logSeq 52
    let e := e.logLast 0xFF (logWords e.now 0xFF 52 n none (toWord d.log.dropped) 0 0)
    { e with log := { e.log with dropped := 0 } }

theorem Dev.onlyLogs_logGap (d : Dev) : d.OnlyLogs d.logGap := by
  unfold Dev.logGap
  split
  · rfl
  · exact ((d.onlyLogs_logSeq 52).trans (Dev.onlyLogs_logLast ..)).trans rfl

/-- A record is dropped where there is no room, and follows the GAP record where there is one (R56, R58). -/
theorem Dev.logAccept_eq (d : Dev) (cls : Nat) (rec : List Word) :
    d.logAccept cls rec =
      if d.on? Fld.DBG_LOG_CTRL_STOPPED then d
      else if !d.logRoom then { d.bump .DBG_LOG_DROP with log := { (d.bump .DBG_LOG_DROP).log with dropped := d.log.dropped + 1 } }
      else if d.logGap.on? Fld.DBG_LOG_CTRL_STOPPED then d.logGap
      else if !d.logGap.logRoom then
        { d.logGap.bump .DBG_LOG_DROP with log := { (d.logGap.bump .DBG_LOG_DROP).log with dropped := d.logGap.log.dropped + 1 } }
      else d.logGap.logLast cls rec := rfl

theorem Dev.onlyLogs_logAccept (d : Dev) (cls : Nat) (rec : List Word) : d.OnlyLogs (d.logAccept cls rec) := by
  rw [Dev.logAccept_eq]
  have gap := d.onlyLogs_logGap
  split
  · rfl
  · split
    · rfl
    · split
      · exact gap
      · split
        · exact gap.trans rfl
        · exact gap.trans (Dev.onlyLogs_logLast ..)

theorem Dev.onlyLogs_logGen (d : Dev) (cls src : Nat) (fn : Option (Nat × Nat)) (stamp : Stamp) (d0 d1 d2 : Word) (forced : Bool) :
    d.OnlyLogs (d.logGen cls src fn stamp d0 d1 d2 forced) := by
  unfold Dev.logGen
  split
  · exact (d.onlyLogs_logSeq src).trans (Dev.onlyLogs_logAccept ..)
  · rfl

theorem Dev.onlyLogs_logNow (d : Dev) (cls src : Nat) (fn : Option Nat) (d0 d1 d2 : Word) : d.OnlyLogs (d.logNow cls src fn d0 d1 d2) :=
  d.onlyLogs_logGen ..

end Sys2Proof.Machine
end

section
/-!
A device in POWER_ON reset stays in it until a rail returns, a tripped die has cooled or RESET_N rises (R388 to R391, R404; O52),
and the state that reset leaves (O53).
-/
namespace Sys2Proof.Machine

open Sys2Proof.Safety

/-! ## What holds a reset -/

/-- `e` is held in reset by what holds `d`: RESET_N, the trip and the rails. -/
structure Dev.SameHold (d e : Dev) : Prop where
  resetN : e.pwr.resetN = d.pwr.resetN
  tripped : e.pwr.tripped = d.pwr.tripped
  railHold : e.pwr.railHold = d.pwr.railHold

namespace Dev.SameHold

variable {d e x : Dev}

theorem of_eq (h : e.pwr = d.pwr) : d.SameHold e := ⟨by rw [h], by rw [h], by rw [h]⟩

theorem refl (d : Dev) : d.SameHold d := .of_eq rfl

theorem trans (h : d.SameHold e) (h' : e.SameHold x) : d.SameHold x where
  resetN := h'.resetN.trans h.resetN
  tripped := h'.tripped.trans h.tripped
  railHold := h'.railHold.trans h.railHold

theorem foldl {α : Type} {g : Dev → α → Dev} (each : ∀ (x : Dev) a, x.SameHold (g x a)) (l : List α) (d : Dev) :
    d.SameHold (l.foldl g d) := by
  induction l generalizing d with
  | nil => exact .refl d
  | cons a rest ih => exact (each d a).trans (ih (g d a))

theorem inReset (h : d.SameHold e) : e.inReset = d.inReset := by
  rw [Dev.inReset, h.resetN, h.tripped, h.railHold, Dev.inReset]

end Dev.SameHold

theorem Dev.sameHold_wr (d : Dev) (r : Reg) (i w : Nat) (v : Word) : d.SameHold (d.wr r i w v) := .of_eq rfl

theorem Dev.sameHold_set (d : Dev) (f : Field) (i v : Nat) : d.SameHold (d.set f i v) := .of_eq rfl

theorem Dev.sameHold_emit (d : Dev) (o : Out) : d.SameHold (d.emit o) := .of_eq rfl

theorem Dev.sameHold_setIsl (d : Dev) (b : Nat) (x : Island) : d.SameHold (d.setIsl b x) := ⟨rfl, rfl, rfl⟩

theorem Dev.sameHold_settle (d : Dev) (b reason : Nat) : d.SameHold (d.settle b reason) := by
  unfold Dev.settle
  dsimp only
  split
  · exact .refl d
  · split
    · split
      · exact .refl d
      · exact d.sameHold_setIsl ..
    · split
      · exact .refl d
      · exact (d.sameHold_setIsl ..).trans (Dev.sameHold_set ..)

theorem Dev.sameHold_settleAll (d : Dev) (reason : Nat) : d.SameHold (d.settleAll reason) :=
  .foldl (fun (x : Dev) b => x.sameHold_settle b reason) _ d

theorem Dev.sameHold_logPower (d : Dev) (event what : Nat) (v : Word) : d.SameHold (d.logPower event what v) :=
  .of_eq (d.onlyLogs_logNow ..).pwr

theorem Dev.sameHold_railState (d : Dev) (r : Nat) (warn : Bool) : d.SameHold (d.railState r warn) := by
  have fields : ∀ n, d.SameHold ((((d.set Fld.PWR_RAIL_STAT_WARN r (b2n warn)).set Fld.PWR_STAT_WARN_RAILS 0 n).set Fld.PWR_STAT_WARN 0
      (b2n (n != 0))).set Fld.SEC_STAT_SIGN_SUSPENDED 0 (b2n (n != 0))) := fun n =>
    (((d.sameHold_set ..).trans (Dev.sameHold_set ..)).trans (Dev.sameHold_set ..)).trans (Dev.sameHold_set ..)
  unfold Dev.railState
  dsimp only
  split
  · exact fields _
  · exact (fields _).trans (Dev.sameHold_emit ..)

theorem Dev.sameHold_contourApply (d : Dev) (b : Nat) (w0 w1 : Word) : d.SameHold (d.contourApply b w0 w1) := by
  unfold Dev.contourApply
  exact (((d.sameHold_set ..).trans (Dev.sameHold_set ..)).trans (Dev.sameHold_set ..)).trans (Dev.sameHold_setIsl ..)

theorem Dev.sameHold_applyKeepSet (d : Dev) : d.SameHold d.applyKeepSet := by
  unfold Dev.applyKeepSet
  refine .foldl (fun x c => ?_) _ d
  exact ((x.sameHold_contourApply c.1 c.2.1 c.2.2).trans (Dev.sameHold_set ..)).trans (Dev.sameHold_set ..)

theorem Dev.sameHold_setMram (d : Dev) (f : Mram → Mram) : d.SameHold (d.setMram f) := .of_eq rfl

theorem Dev.sameHold_readRing (d : Dev) : d.SameHold d.readRing := by
  unfold Dev.readRing
  dsimp only
  split
  · exact d.sameHold_wr ..
  · split
    · exact d.sameHold_wr ..
    · exact (d.sameHold_setMram _).trans (Dev.sameHold_wr ..)

/-- Writing words one after the other leaves the power controller as it is. -/
theorem Dev.pwr_foldl_wr {α : Type} (r : Reg) (i : α → Nat) (v : α → Word) (l : List α) (d : Dev) :
    (l.foldl (fun x a => x.wr r (i a) 0 (v a)) d).pwr = d.pwr := by
  induction l generalizing d with
  | nil => rfl
  | cons a rest ih => exact ih _

/-- What a POWER_ON reset keeps includes what holds it. -/
theorem Dev.sameHold_kept (d : Dev) : d.SameHold (d.kept true) := by
  constructor <;> simp [Dev.kept, Dev.set_eq, Dev.pwr_foldl_wr]

/-- A package that its cause holds in reset is in reset after it. -/
theorem Dev.inReset_afterReset {d : Dev} (cause : Word) (held : d.inReset = true) : (d.afterReset true cause).inReset = true := by
  unfold Dev.afterReset
  simp only [if_true]
  have same := (((((d.sameHold_kept.trans (Dev.sameHold_applyKeepSet _)).trans (Dev.sameHold_wr _ .PWR_RESET_CAUSE 0 0 cause)).trans
    (Dev.sameHold_set _ Fld.SEC_STAT_SIGN_SUSPENDED 0 (d.get Fld.PWR_STAT_WARN))).trans
      (Dev.sameHold_set _ Fld.SEC_STAT_MRAM_FAIL 0 (b2n d.sec.mram.controlLost))).trans (Dev.sameHold_readRing _)).trans
        (Dev.sameHold_set _ Fld.PWR_STAT_POR_DONE 0 (b2n !d.inReset))
  split
  · rw [same.inReset, held]
  · rw [(same.trans (Dev.sameHold_settleAll _ 7)).inReset, held]

/-! ## The rows that act in reset -/

theorem Dev.inReset_railWarn {d : Dev} (r mv : Nat) (held : d.inReset = true) : (d.railWarn r mv).inReset = true := by
  unfold Dev.railWarn
  split
  · exact held
  · exact ((d.sameHold_railState r true).trans (Dev.sameHold_set ..)).inReset.trans held

theorem Dev.inReset_railReset {d : Dev} (r mv : Nat) (held : d.inReset = true) : (d.railReset r mv).inReset = true := by
  unfold Dev.railReset
  split
  · exact held
  · exact Dev.inReset_afterReset _ (by simp [Dev.inReset, Dev.setPwr])

theorem Dev.sameHold_setHot (d : Dev) (l : List Nat) : d.SameHold (d.setHot l) := ⟨rfl, rfl, rfl⟩

theorem Dev.sameHold_setTemp (d : Dev) (die : Nat) (t : Int) : d.SameHold (d.setTemp die t) := .of_eq rfl

/-- A die's record, after which the islands settle where it is the logic die. -/
theorem Dev.sameHold_dieRecord (d : Dev) (event die : Nat) (l : List Nat) (t : Int) :
    let d1 := ((d.setTemp die t).setHot l).logPower event die (toWord (unsignedOf 32 t))
    d.SameHold (if die = 0 then d1.settleAll 10 else d1) := by
  have logged := ((d.sameHold_setTemp die t).trans (Dev.sameHold_setHot _ l)).trans
    (Dev.sameHold_logPower _ event die (toWord (unsignedOf 32 t)))
  dsimp only
  split
  · exact logged.trans (Dev.sameHold_settleAll _ 10)
  · exact logged

theorem Dev.sameHold_dieHot (d : Dev) (die : Nat) (t : Int) : d.SameHold (d.dieHot die t) := by
  unfold Dev.dieHot
  split
  · exact .refl d
  · exact d.sameHold_dieRecord ..

theorem Dev.sameHold_dieHotClear (d : Dev) (die : Nat) (t : Int) : d.SameHold (d.dieHotClear die t) := by
  unfold Dev.dieHotClear
  split
  · exact .refl d
  · exact d.sameHold_dieRecord ..

theorem Dev.inReset_thermalTrip {d : Dev} (die : Nat) (t : Int) (held : d.inReset = true) : (d.thermalTrip die t).inReset = true := by
  unfold Dev.thermalTrip
  split
  · exact held
  · exact Dev.inReset_afterReset _ (by simp [Dev.inReset, Dev.setPwr])

theorem Dev.inReset_resetNAssert {d : Dev} (held : d.inReset = true) : d.resetNAssert.inReset = true := by
  unfold Dev.resetNAssert
  split
  · exact held
  · exact Dev.inReset_afterReset _ (by simp [Dev.inReset, Dev.setPwr])

/-- No row but the three of R388, R389 and R391 takes a device out of reset. -/
theorem inReset_rowOp {c : Instr} {d : Dev} (held : d.inReset = true) (lasts : endsReset c = false) : (rowOp c d).inReset = true := by
  cases acts : actsInReset c with
  | false => rw [rowOp, exec_held (s := { toDev := d }) held acts]; exact held
  | true =>
    cases c
    case railWarn r mv => exact Dev.inReset_railWarn r mv held
    case railReset r mv => exact Dev.inReset_railReset r mv held
    case dieHot die t => exact (d.sameHold_dieHot die t).inReset.trans held
    case dieHotClear die t => exact (d.sameHold_dieHotClear die t).inReset.trans held
    case thermalTrip die t => exact Dev.inReset_thermalTrip die t held
    case resetNAssert => exact Dev.inReset_resetNAssert held
    case railWarnClear => cases lasts
    case thermalTripEnd => cases lasts
    case resetNRise => cases lasts
    all_goals cases acts

/-- Settles O52: an idle cycle does nothing in reset; of the rows, those that act in reset keep what holds it or add to it. -/
theorem resetLasts : Obligations.ResetLasts := by
  unfold Obligations.ResetLasts
  intro s t held lasts stepped
  cases front : s.pending with
  | nil =>
    rw [step_nil front] at stepped
    cases stepped
    simp [withDev, Dev.idle, held]
  | cons c rest =>
    rw [step_cons front] at stepped
    cases stepped
    exact inReset_rowOp held (lasts c rest front)

/-! ## The state after reset -/

/-- Settles O53: nothing is listed in the device after reset, so that every word reads its reset value. -/
theorem resetState : Obligations.ResetState := by
  unfold Obligations.ResetState
  have field : ∀ (f : Field) (n : Nat), f.reg.reset n f.word = 0 → State.reset.toDev.get f n = 0 := fun f n zero => by
    rw [Dev.get, show State.reset.toDev.rd f.reg n f.word = 0 from zero]
    simp [bitsOf]
  refine ⟨rfl, rfl, ?done, ?counts, ?zero, fun _ _ _ => rfl, fun _ => rfl, fun _ => rfl,
    fun f => ⟨field Fld.FNC_FUNC_STATE_GENERATION f rfl, field Fld.FNC_FUNC_STATE_STATE f rfl⟩, fun _ => rfl,
    fun p => ⟨?down, rfl⟩, rfl, rfl⟩
  case done => decide
  case counts => decide
  case zero => decide
  case down => rw [Dev.linkUp?, Dev.on?, field Fld.PRT_LINK_STAT_UP p rfl]; rfl

end Sys2Proof.Machine
end

section
/-!
The address map (R294, R410, R411, R472; O55): every register has a range of its own in the address space of windows and pages, so
that what is found at an offset is the register that lies there.
-/
namespace Sys2Proof.Machine

/-! ## Ranges -/

/-- First byte of a register in one address space for the windows and, beyond them, the page. -/
def Reg.first (r : Reg) : Nat := (if r.info.page then 0x4000000 else 0x100000 * r.info.window) + r.info.off

/-- The byte after its last. -/
def Reg.limit (r : Reg) : Nat := r.first + 4 * (r.info.words * r.info.count)

/-- Two registers whose ranges have no byte in common. -/
def Reg.Apart (r r' : Reg) : Prop := r.limit ≤ r'.first ∨ r'.limit ≤ r.first

theorem Reg.Apart.symm {r r' : Reg} (h : r.Apart r') : r'.Apart r := Or.symm h

/-- The list of the registers lists each. -/
theorem Reg.mem_all (r : Reg) : r ∈ Reg.all := by
  have at_ : Reg.all[r.ctorIdx]? = some r := by cases r <;> rfl
  exact List.mem_of_getElem? at_

/-- Puts a register before the first of a list that does not lie below it. -/
def Reg.insert (r : Reg) : List Reg → List Reg
  | [] => [r]
  | x :: l => if r.first ≤ x.first then r :: x :: l else x :: r.insert l

theorem Reg.mem_insert {r x : Reg} {l : List Reg} : x ∈ r.insert l ↔ x = r ∨ x ∈ l := by
  induction l with
  | nil => exact List.mem_cons
  | cons y l ih =>
    unfold Reg.insert
    split
    · exact List.mem_cons
    · rw [List.mem_cons, List.mem_cons, ih]
      exact or_left_comm

/-- The registers by their addresses. -/
def Reg.sorted : List Reg := Reg.all.foldr Reg.insert []

theorem Reg.mem_sorted (r : Reg) : r ∈ Reg.sorted := by
  have inserted : ∀ l : List Reg, r ∈ l → r ∈ l.foldr Reg.insert [] := by
    intro l listed
    induction l with
    | nil => cases listed
    | cons x l ih => exact Reg.mem_insert.2 ((List.mem_cons.1 listed).imp_right ih)
  exact inserted _ r.mem_all

/-- Each register of a list begins where the one before it ends, or later. -/
def Reg.chained : List Reg → Bool
  | r :: r' :: l => decide (r.limit ≤ r'.first) && chained (r' :: l)
  | _ => true

theorem Reg.first_le_limit (r : Reg) : r.first ≤ r.limit := Nat.le_add_right ..

/-- Then each begins where any one before it ends, or later. -/
theorem Reg.pairwise_of_chained {l : List Reg} (h : Reg.chained l = true) : l.Pairwise fun r r' => r.limit ≤ r'.first := by
  induction l with
  | nil => exact .nil
  | cons r l ih =>
    cases l with
    | nil => exact List.pairwise_singleton ..
    | cons r' l =>
      obtain ⟨next, rest⟩ := Bool.and_eq_true_iff.1 h
      have after := ih rest
      refine List.pairwise_cons.2 ⟨fun x listed => ?_, after⟩
      obtain rfl | later := List.mem_cons.1 listed
      · exact of_decide_eq_true next
      · exact Nat.le_trans (of_decide_eq_true next) (Nat.le_trans r'.first_le_limit (List.rel_of_pairwise_cons after later))

theorem Reg.sorted_chained : Reg.chained Reg.sorted = true := by decide +kernel

/-- No two registers overlap (R410). -/
theorem Reg.apart_of_ne {r r' : Reg} (h : r ≠ r') : r.Apart r' := by
  have apart := List.pairwise_iff_getElem.1 (Reg.pairwise_of_chained Reg.sorted_chained)
  obtain ⟨i, hi, rfl⟩ := List.mem_iff_getElem.1 r.mem_sorted
  obtain ⟨j, hj, rfl⟩ := List.mem_iff_getElem.1 r'.mem_sorted
  obtain before | same | after := Nat.lt_trichotomy i j
  · exact .inl (apart i j hi hj before)
  · exact absurd (by simp only [same]) h
  · exact .inr (apart j i hj hi after)

/-! ## Words of a register -/

/-- An item and word of a register that are no hole are found at their offset. -/
theorem Reg.wordAt_word {r : Reg} {n w : Nat} (item : n < r.info.count) (word : w < r.info.words) (there : r.hole n w = false) :
    r.wordAt (r.info.off + 4 * (r.info.words * n + w)) = some (n, w) := by
  have inside : r.info.words * n + w < r.info.words * r.info.count :=
    calc r.info.words * n + w < r.info.words * (n + 1) := by rw [Nat.mul_succ]; omega
      _ ≤ r.info.words * r.info.count := Nat.mul_le_mul_left _ item
  have aligned : ∀ x : Reg, x.info.off % 4 = 0 := fun x => by cases x <;> rfl
  have place : (r.info.words * n + w) / r.info.words = n ∧ (r.info.words * n + w) % r.info.words = w := by
    rw [Nat.mul_add_div (by omega), Nat.div_eq_of_lt word, Nat.mul_add_mod, Nat.mod_eq_of_lt word]
    exact ⟨rfl, rfl⟩
  have offset := aligned r
  unfold Reg.wordAt
  dsimp only
  rw [if_pos (by simp only [Bool.and_eq_true, decide_eq_true_eq, beq_iff_eq]; omega), Nat.add_sub_cancel_left,
    Nat.mul_div_cancel_left _ (by decide), place.1, place.2, there, if_neg Bool.false_ne_true]

/-- What is found of a register at an offset is the item and word that lie there. -/
theorem Reg.eq_of_wordAt {r : Reg} {off : Nat} {x : Nat × Nat} (found : r.wordAt off = some x) :
    off = r.info.off + 4 * (r.info.words * x.1 + x.2) ∧ x.1 < r.info.count ∧ x.2 < r.info.words := by
  have item := Reg.wordAt_item_lt found
  unfold Reg.wordAt at found
  dsimp only at found
  split at found
  case isFalse => cases found
  case isTrue inside =>
    split at found
    · cases found
    · cases found
      simp only [Bool.and_eq_true, decide_eq_true_eq, beq_iff_eq] at inside
      obtain ⟨⟨low, high⟩, aligned⟩ := inside
      have offset : ∀ x : Reg, x.info.off % 4 = 0 := fun x => by cases x <;> rfl
      have zero := offset r
      have words : 0 < r.info.words := Nat.pos_of_ne_zero fun none => by simp [none] at high; omega
      refine ⟨?_, item, Nat.mod_lt _ words⟩
      dsimp only
      rw [Nat.div_add_mod]
      omega

/-- So the offset lies in the register's range. -/
theorem Reg.inside_of_wordAt {r : Reg} {off : Nat} {x : Nat × Nat} (found : r.wordAt off = some x) :
    r.info.off ≤ off ∧ off < r.info.off + 4 * (r.info.words * r.info.count) := by
  unfold Reg.wordAt at found
  dsimp only at found
  split at found
  case isFalse => cases found
  case isTrue inside => simp only [Bool.and_eq_true, decide_eq_true_eq] at inside; exact inside.1

/-- Two registers of one window, or of the page, with words at one offset are one register. -/
theorem Reg.eq_of_wordAt_both {r r' : Reg} {off : Nat} {x x' : Nat × Nat} (page : r.info.page = r'.info.page)
    (window : r.info.page = false → r.info.window = r'.info.window) (found : r.wordAt off = some x) (found' : r'.wordAt off = some x') :
    r = r' := by
  refine Decidable.byContradiction fun ne => ?_
  have one := Reg.inside_of_wordAt found
  have other := Reg.inside_of_wordAt found'
  have base : r.first - r.info.off = r'.first - r'.info.off := by
    unfold Reg.first
    rw [← page]
    split
    · omega
    · next device => rw [window (Bool.eq_false_iff.2 device)]; omega
  have one_first : r.info.off ≤ r.first := Nat.le_add_left ..
  have other_first : r'.info.off ≤ r'.first := Nat.le_add_left ..
  obtain apart | apart := Reg.apart_of_ne ne <;> unfold Reg.limit at apart <;> omega

/-! ## Windows and pages -/

/-- A search among the registers finds what the one register gives for which it gives anything. -/
theorem findSome?_all_eq {f : Reg → Option RegAt} {r : Reg} {a : RegAt} (gives : f r = some a)
    (only : ∀ r' b, f r' = some b → r' = r) : Reg.all.findSome? f = some a := by
  cases found : Reg.all.findSome? f with
  | none => rw [List.findSome?_eq_none_iff.1 found r r.mem_all] at gives; cases gives
  | some b =>
    obtain ⟨r', -, there⟩ := List.exists_of_findSome?_eq_some found
    rw [← gives, ← only r' b there, there]

/-- What a register gives in the search of a window. -/
theorem windowReg_gives {k off : Nat} {r : Reg} {a : RegAt}
    (h : (if r.info.page || r.info.window != k then none
      else (r.wordAt off).map fun x => ({ reg := r, item := x.1, n := x.1, word := x.2, page := none } : RegAt)) = some a) :
    r.info.page = false ∧ r.info.window = k ∧ r.wordAt off = some (a.n, a.word) ∧ a.reg = r := by
  split at h
  · cases h
  · next here =>
    obtain ⟨x, found, rfl⟩ := Option.map_eq_some_iff.1 h
    simp only [Bool.or_eq_true, bne_iff_ne, not_or, Bool.not_eq_true, ne_eq, Decidable.not_not] at here
    exact ⟨here.1, here.2, found, rfl⟩

theorem windowReg_word {r : Reg} {n w : Nat} (item : n < r.info.count) (word : w < r.info.words) (there : r.hole n w = false)
    (window : r.info.page = false) :
    windowReg r.info.window (r.info.off + 4 * (r.info.words * n + w)) =
      some { reg := r, item := n, n := n, word := w, page := none } := by
  have found := Reg.wordAt_word item word there
  refine findSome?_all_eq (r := r) (by simp [window, found]) fun r' b gives => ?_
  obtain ⟨page', window', found', -⟩ := windowReg_gives gives
  exact Reg.eq_of_wordAt_both (page'.trans window.symm) (fun _ => window') found' found

theorem Dev.pageReg_word (d : Dev) {f : Nat} {r : Reg} {n w : Nat} (item : n < r.info.count) (word : w < r.info.words)
    (page : r.info.page = true) (pair : r.perPair = true → n < d.qpCount f) (pf : r.pfOnly = true → f < 4) :
    d.pageReg f (r.info.off + 4 * (r.info.words * n + w)) =
      some { reg := r, item := d.pageItem f r n, n := n, word := w, page := some f } := by
  have whole : ∀ x : Reg, x.info.page = true → ∀ i j, x.hole i j = false := fun x => by
    unfold Reg.hole
    split
    · intro no; cases no
    · intro no; cases no
    · intro no; cases no
    · exact fun _ _ _ => rfl
  have found := Reg.wordAt_word item word (whole r page n w)
  have mine : (r.pfOnly && decide (4 ≤ f)) = false := by
    cases only : r.pfOnly with
    | false => rfl
    | true => simpa using pf only
  refine findSome?_all_eq (r := r) (by simp [page, mine, found]; exact pair) fun r' b gives => ?_
  split at gives
  · cases gives
  · next here =>
    obtain ⟨x, found', -⟩ := Option.bind_eq_some_iff.1 gives
    simp only [Bool.or_eq_true, Bool.not_eq_true', not_or, Bool.not_eq_false] at here
    exact Reg.eq_of_wordAt_both (here.1.trans page.symm) (fun no => by rw [here.1] at no; cases no) found' found

/-- Settles O55: a word is found at its offset, where no other register has one; what is found lies there. -/
theorem addressMap : Obligations.AddressMap := by
  unfold Obligations.AddressMap
  refine ⟨fun r n w item word there window => windowReg_word item word there window,
    fun d f r n w item word page pair pf => d.pageReg_word item word page pair pf, fun k off a found => ?_⟩
  obtain ⟨r, -, gives⟩ := List.exists_of_findSome?_eq_some found
  obtain ⟨-, window, at_, rfl⟩ := windowReg_gives gives
  exact ⟨window, Reg.eq_of_wordAt at_⟩

end Sys2Proof.Machine
end

section
/-!
What the end of a frame, an event and a thread fault leave of the packet cores (R100, R103, R342).
-/
namespace Sys2Proof.Machine

/-! ## Flow control and buffers -/

@[simp] theorem Dev.fcEmit_pca (d : Dev) (p prio time : Nat) : (d.fcEmit p prio time).pca = d.pca := rfl

@[simp] theorem Dev.fcSend_pca (d : Dev) (p prio time : Nat) : (d.fcSend p prio time).pca = d.pca := by
  unfold Dev.fcSend
  split
  · rfl
  · split <;> rfl

@[simp] theorem Dev.fcEnd_pca (d : Dev) (p prio : Nat) : (d.fcEnd p prio).pca = d.pca := by
  unfold Dev.fcEnd
  split
  · exact Dev.fcSend_pca ..
  · rfl

/-- Operations that each leave the packet cores as they are do so one after the other. -/
theorem Dev.foldl_pca {α : Type} {g : Dev → α → Dev} (each : ∀ (x : Dev) a, (g x a).pca = x.pca) (l : List α) (d : Dev) :
    (l.foldl g d).pca = d.pca := by
  induction l generalizing d with
  | nil => rfl
  | cons a rest ih => exact (ih (g d a)).trans (each d a)

@[simp] theorem Dev.fcFall_pca (d : Dev) (p : Nat) : (d.fcFall p).pca = d.pca :=
  Dev.foldl_pca (fun x k => x.fcEnd_pca p k) _ d

@[simp] theorem Dev.logNow_pca (d : Dev) (cls src : Nat) (fn : Option Nat) (d0 d1 d2 : Word) : (d.logNow cls src fn d0 d1 d2).pca = d.pca :=
  (d.onlyLogs_logNow cls src fn d0 d1 d2).pca

@[simp] theorem Dev.bump_pca (d : Dev) (r : Reg) (i w : Nat) : (d.bump r i w).pca = d.pca := rfl

@[simp] theorem Dev.freeShare_pca (d : Dev) (chain : List Nat) (party : Nat) : (d.freeShare chain party).pca = d.pca := by
  unfold Dev.freeShare
  split
  · rfl
  · split
    · rfl
    · split
      · simp [Dev.freeDenied]
      · rfl

/-! ## Completions and frames -/

/-- Adding bursts one after the other leaves the packet cores as they are. -/
theorem Dev.queueWrite_pca (d : Dev) (path : Path) (f addr : Nat) (data : Bytes) (who : Bool → BurstFor) :
    (d.queueWrite path f addr data who).pca = d.pca := by
  have bursts : ∀ (l : List (Nat × Nat)) (acc : Dev × Nat), (l.foldl (fun (acc : Dev × Nat) (b : Nat × Nat) =>
      (acc.1.addBurst { path := path, fn := f, gen := d.gen f, write := true, addr := b.1, data := slice data acc.2 b.2, len := b.2,
                        for_ := who (acc.2 + b.2 == data.length) }, acc.2 + b.2)) acc).1.pca = acc.1.pca := fun l => by
    induction l with
    | nil => exact fun _ => rfl
    | cons b rest ih => exact fun acc => ih _
  exact bursts _ (d, 0)

theorem Dev.postCompletion_pca (d : Dev) (path : Path) (q : Nat) (rx : Bool) (f : Nat) (ws : List Word) (status : Nat) :
    (d.postCompletion path q rx f ws status).pca = d.pca :=
  (Dev.queueWrite_pca ..).trans (Dev.queueWrite_pca ..)

theorem Dev.txComplete_pca (d : Dev) (q idx : Nat) (st : Status) (stamp : Option Stamp) (late : Bool) (sent : Nat) :
    (d.txComplete q idx st stamp late sent).pca = d.pca := by
  unfold Dev.txComplete
  split
  · rfl
  · dsimp only
    split
    · exact Dev.postCompletion_pca ..
    · rfl

@[simp] theorem Dev.frameComplete_pca (d : Dev) (id : Nat) (stamp : Option Stamp) (sent : Nat) :
    (d.frameComplete id stamp sent).pca = d.pca := by
  unfold Dev.frameComplete
  split
  · rfl
  · split
    · split
      · exact Dev.txComplete_pca ..
      · rfl
    · rfl

@[simp] theorem Dev.endFrame_pca (d : Dev) (id : Nat) : (d.endFrame id).pca = d.pca := by
  unfold Dev.endFrame
  split
  · rfl
  · simp

@[simp] theorem Dev.dropFrame_pca (d : Dev) (id src : Nat) (reason : Word) : (d.dropFrame id src reason).pca = d.pca := by
  unfold Dev.dropFrame Dev.logDrop
  split
  · rfl
  · split <;> simp

/-! ## Messages and events -/

theorem Dev.onlyLogs_logMail (d : Dev) (sender receiver sGen rGen len : Nat) (stamp : Stamp) :
    d.OnlyLogs (d.logMail sender receiver sGen rGen len stamp) := d.onlyLogs_logGen ..

/-- A delivery puts the message into the mailbox; what follows it only logs and interrupts. -/
theorem Dev.onlyLogs_deliver (d : Dev) (receiver : Nat) (m : Msg) :
    (d.setBox receiver (insertMsg m (d.box receiver))).OnlyLogs (d.deliver receiver m) := by
  unfold Dev.deliver
  dsimp only
  split
  · exact (Dev.onlyLogs_logMail ..).trans (Dev.onlyLogs_interrupt ..)
  · exact Dev.onlyLogs_logMail ..

theorem Dev.send_pca (d : Dev) (sender receiver kind : Nat) (bytes : Bytes) (reply : Bool) :
    (d.send sender receiver kind bytes reply).pca = d.pca := (d.onlyLogs_deliver ..).pca

theorem Dev.event_pca (d : Dev) (f opcode : Nat) (params : Bytes) : (d.event f opcode params).pca = d.pca := by
  unfold Dev.event
  split
  · exact Dev.send_pca ..
  · rfl

@[simp] theorem Dev.faultEvent_pca (d : Dev) (f : Nat) : (d.faultEvent f).pca = d.pca := by
  unfold Dev.faultEvent
  dsimp only
  split
  · exact Dev.event_pca ..
  · rfl

end Sys2Proof.Machine
end

section
/-!
Bounds that steps keep (R43, R346 and the stacks of "Microcode"; O60): the stacks of every thread, local scratch, the stamp FIFOs of
the time pins and the places of the mailboxes.
-/
namespace Sys2Proof.Machine

open Sys2Proof.Safety

/-! ## Stacks and scratch -/

/-- The stacks of a thread are within their sizes. -/
def Thread.Fits (x : Thread) : Prop := x.rets.length ≤ 8 ∧ x.loops.length ≤ 4

/-- `y` has the stacks of `x`. -/
theorem Thread.Fits.of_eq {x y : Thread} (h : x.Fits) (rets : y.rets = x.rets) (loops : y.loops = x.loops) : y.Fits := by
  rw [Thread.Fits, rets, loops]
  exact h

/-- From `d` to `e` scratch keeps its canonical form, and every thread's stacks stay within their sizes. -/
structure Dev.Contained (d e : Dev) : Prop where
  scratch : d.pca.scratch.wf 0 = true → e.pca.scratch.wf 0 = true
  threads : ∀ k, (d.thread k).Fits → (e.thread k).Fits

namespace Dev.Contained

variable {d e x : Dev}

theorem refl (d : Dev) : d.Contained d := ⟨id, fun _ => id⟩

theorem trans (h : d.Contained e) (h' : e.Contained x) : d.Contained x where
  scratch := h'.scratch ∘ h.scratch
  threads k := h'.threads k ∘ h.threads k

/-- What has the threads and the scratch of `d`. -/
theorem of_eq (same : e.pca.threads = d.pca.threads) (scratch : e.pca.scratch = d.pca.scratch) : d.Contained e where
  scratch h := scratch ▸ h
  threads k h := by rw [Dev.thread, same]; exact h

theorem of_pca (h : e.pca = d.pca) : d.Contained e := .of_eq (by rw [h]) (by rw [h])

theorem foldl {α : Type} {g : Dev → α → Dev} (each : ∀ (x : Dev) a, x.Contained (g x a)) (l : List α) (d : Dev) :
    d.Contained (l.foldl g d) := by
  induction l generalizing d with
  | nil => exact .refl d
  | cons a rest ih => exact (each d a).trans (ih (g d a))

end Dev.Contained

theorem Dev.contained_setThread (d : Dev) (t : Nat) {x : Thread} (fits : (d.thread t).Fits → x.Fits) : d.Contained (d.setThread t x) where
  scratch := id
  threads k h := by
    by_cases hk : k = t
    · subst hk
      rw [Dev.thread_setThread]
      exact fits h
    · rw [Dev.thread_setThread_ne d x hk]
      exact h

/-- Changing a thread without its stacks. -/
theorem Dev.contained_updThread (d : Dev) (t : Nat) {f : Thread → Thread} (rets : ∀ x, (f x).rets = x.rets := by exact fun _ => rfl)
    (loops : ∀ x, (f x).loops = x.loops := by exact fun _ => rfl) : d.Contained (d.updThread t f) :=
  d.contained_setThread t fun h => h.of_eq (rets _) (loops _)

theorem Dev.contained_drawWord (d : Dev) : d.Contained d.drawWord.2 := .of_eq rfl rfl

theorem Dev.contained_drawNat (d : Dev) : d.Contained d.drawNat.2 := .of_eq rfl rfl

theorem Dev.contained_bump (d : Dev) (r : Reg) (i w : Nat) : d.Contained (d.bump r i w) := .of_eq rfl rfl

/-! ### Registers and events of a thread -/

@[simp] theorem Thread.setReg_rets (x : Thread) (n : Nat) (v : Word) : (x.setReg n v).rets = x.rets := by
  unfold Thread.setReg
  split <;> rfl

@[simp] theorem Thread.setReg_loops (x : Thread) (n : Nat) (v : Word) : (x.setReg n v).loops = x.loops := by
  unfold Thread.setReg
  split <;> rfl

@[simp] theorem Thread.setRegs_stacks (x : Thread) (n : Nat) (l : List Word) :
    (x.setRegs n l).rets = x.rets ∧ (x.setRegs n l).loops = x.loops := by
  induction l generalizing x n with
  | nil => exact ⟨rfl, rfl⟩
  | cons v rest ih => simpa [Thread.setRegs] using ih (x.setReg n v) (n + 1)

theorem Thread.wake_stacks (x : Thread) : x.wake.rets = x.rets ∧ x.wake.loops = x.loops := by
  unfold Thread.wake
  split
  · split <;> simp
  · split <;> simp
  · split <;> simp
  · exact ⟨rfl, rfl⟩

theorem Dev.contained_raise (d : Dev) (t e : Nat) : d.Contained (d.raise t e) :=
  d.contained_updThread t (fun x => (Thread.wake_stacks _).1) (fun x => (Thread.wake_stacks _).2)

/-! ### Channels and the end of a thread's frame -/

theorem Dev.contained_raiseMask (d : Dev) (cluster : Nat) (mask : Word) (e : Nat) : d.Contained (d.raiseMask cluster mask e) := by
  unfold Dev.raiseMask
  refine .foldl (fun x i => ?_) _ d
  split
  · exact x.contained_raise ..
  · exact .refl x

theorem Dev.contained_tryReserve {d e : Dev} {t n rv : Nat} (taken : d.tryReserve t n rv = some e) : d.Contained e := by
  unfold Dev.tryReserve at taken
  split at taken
  · cases taken
    exact ((((d.contained_drawWord).trans (Dev.contained_drawWord _)).trans (Dev.contained_drawWord _)).trans
      (Dev.contained_drawWord _)).trans (Dev.contained_updThread _ t)
  · cases taken

theorem Dev.contained_retryReserves (d : Dev) (n : Nat) : d.Contained (d.retryReserves n) := by
  unfold Dev.retryReserves
  refine .foldl (fun x i => ?_) _ d
  dsimp only
  split
  · split
    · split
      · next y taken =>
        exact (Dev.contained_tryReserve taken).trans (Dev.contained_updThread _ _ (by simp) (by simp))
      · exact .refl x
    · exact .refl x
  · exact .refl x

theorem Dev.contained_chanSpace (d : Dev) (n : Nat) : d.Contained (d.chanSpace n) :=
  (d.contained_raiseMask ..).trans (Dev.contained_retryReserves ..)

theorem Dev.contained_abandon (d : Dev) (t : Nat) : d.Contained (d.abandon t) := by
  unfold Dev.abandon
  refine .foldl (fun x c => ?_) _ d
  exact ((x.contained_updThread t).trans (Dev.contained_bump ..)).trans (Dev.contained_chanSpace ..)

theorem Dev.contained_settleCore (d : Dev) (core : Nat) : d.Contained (d.settleCore core) := by
  unfold Dev.settleCore
  split
  · exact .of_eq rfl rfl
  · exact .refl d

theorem Dev.contained_issueTo (d : Dev) (t : Nat) : d.Contained (d.issueTo t) := by
  unfold Dev.issueTo
  split
  · exact .of_eq rfl rfl
  · exact .refl d

/-- A thread that starts anew has empty stacks. -/
theorem Dev.contained_updThread_empty (d : Dev) (t : Nat) {f : Thread → Thread} (rets : ∀ x, (f x).rets = [] := by exact fun _ => rfl)
    (loops : ∀ x, (f x).loops = [] := by exact fun _ => rfl) : d.Contained (d.updThread t f) :=
  d.contained_setThread t fun _ => ⟨by rw [rets]; exact Nat.zero_le 8, by rw [loops]; exact Nat.zero_le 4⟩

theorem Dev.contained_freeThread (d : Dev) (t : Nat) : d.Contained (d.freeThread t) := by
  unfold Dev.freeThread
  have freed := ((d.contained_updThread t (f := fun x => { x with pend := .none })).trans (Dev.contained_abandon _ t)).trans
    (Dev.contained_updThread_empty _ t (f := fun x =>
      { halted := x.halted, haltAt := x.haltAt, stepping := x.stepping, events := x.events, timer := x.timer }))
  refine .trans (freed.trans ?_) (Dev.contained_settleCore ..)
  exact .of_eq rfl rfl

theorem Dev.contained_logExc (d : Dev) (t : Nat) (d0 d1 d2 : Word) : d.Contained (d.logExc t d0 d1 d2) := .of_pca (Dev.logNow_pca ..)

theorem Dev.contained_threadFault (d : Dev) (t cause : Nat) : d.Contained (d.threadFault t cause) := by
  unfold Dev.threadFault
  dsimp only
  split
  · exact .refl d
  · refine .trans (.trans ?_ (Dev.contained_freeThread _ t)) (.of_pca (Dev.faultEvent_pca ..))
    exact ((d.contained_bump ..).trans (Dev.contained_logExc ..)).trans (.of_pca (Dev.dropFrame_pca ..))

theorem Dev.contained_endStep (d : Dev) (t : Nat) : d.Contained (d.endStep t) := by
  unfold Dev.endStep
  dsimp only
  split
  · exact ((d.contained_updThread t).trans (Dev.contained_logExc ..)).trans (Dev.contained_settleCore ..)
  · exact d.contained_settleCore ..

/-- An instruction keeps to the bounds if its body does so from a thread with the stacks that the thread has. -/
theorem Dev.contained_instr (d : Dev) (t : Nat) (w : Word) (legal : Bool) {body : Thread → Dev → Dev}
    (keeps : ∀ x (e : Dev), ((e.thread t).Fits → x.Fits) → e.Contained (body x e)) : d.Contained (d.instr t w legal body) := by
  have fault (cause : Nat) : d.Contained (((d.issueTo t).threadFault t cause).endStep t) :=
    ((d.contained_issueTo t).trans (Dev.contained_threadFault ..)).trans (Dev.contained_endStep ..)
  have sameThread : (d.issueTo t).thread t = d.thread t := by
    unfold Dev.issueTo
    split <;> rfl
  unfold Dev.instr
  split
  · dsimp only
    split
    · exact .refl d
    · split
      · exact ((d.contained_bump ..).trans (.of_pca (Dev.dropFrame_pca ..))).trans (Dev.contained_freeThread ..)
      · split
        · exact fault _
        · split
          · exact .refl d
          · split
            · exact fault _
            · split
              · exact fault _
              · exact ((d.contained_issueTo t).trans (keeps _ _ fun h => by rw [sameThread] at h; exact h)).trans
                  (Dev.contained_endStep ..)
  · exact .refl d

/-! ### Arrival, jumps and returns -/

theorem arrive_length_le (pc depth : Nat) (l : List LoopRec) : (arrive pc depth l).2.length ≤ l.length := by
  induction l with
  | nil => exact Nat.le_refl 0
  | cons r rest ih =>
    unfold arrive
    split
    · split
      · exact Nat.le_refl _
      · exact Nat.le_succ_of_le ih
    · exact Nat.le_refl _

theorem Thread.Fits.goSeq {x : Thread} (h : x.Fits) (pc : Nat) : (x.goSeq pc).Fits :=
  ⟨h.1, Nat.le_trans (Nat.le_trans (arrive_length_le ..) (List.length_filter_le ..)) h.2⟩

theorem Thread.Fits.goTo {x : Thread} (h : x.Fits) (pc : Nat) : (x.goTo pc).Fits := ⟨h.1, Nat.le_trans (List.length_filter_le ..) h.2⟩

theorem Dev.contained_done (d : Dev) (t : Nat) {x : Thread} (fits : (d.thread t).Fits → x.Fits) : d.Contained (d.done t x) :=
  d.contained_setThread t fun h => (fits h).goSeq _

theorem Dev.contained_doneShort (d : Dev) (t : Nat) {x : Thread} (fits : (d.thread t).Fits → x.Fits) : d.Contained (d.doneShort t x) :=
  d.contained_drawNat.trans (Dev.contained_done d.drawNat.2 t fun h => (fits h).of_eq rfl rfl)

theorem Dev.contained_popRet (d : Dev) (t : Nat) {x : Thread} (fits : (d.thread t).Fits → x.Fits) : d.Contained (d.popRet t x) := by
  unfold Dev.popRet
  split
  case h_1 r rest top =>
    refine d.contained_setThread t fun h => Thread.Fits.goSeq ?_ _
    obtain ⟨rets, loops⟩ := fits h
    rw [top, List.length_cons] at rets
    exact ⟨Nat.le_of_succ_le rets, loops⟩
  case h_2 => exact d.contained_setThread t fits

/-- The library's results are registers of the thread; they draw free values and change nothing else. -/
theorem Dev.libResults_keeps (d : Dev) (x : Thread) (ws : List Word) :
    (d.libResults x ws).1.rets = x.rets ∧ (d.libResults x ws).1.loops = x.loops ∧ (d.libResults x ws).2.pca = d.pca := by
  have draws : ∀ (l : List Nat) (acc : Thread × Dev),
      let r := l.foldl (fun (acc : Thread × Dev) i => (acc.1.setReg (i + 1) acc.2.drawWord.1, acc.2.drawWord.2)) acc
      r.1.rets = acc.1.rets ∧ r.1.loops = acc.1.loops ∧ r.2.pca = acc.2.pca := fun l => by
    induction l with
    | nil => exact fun _ => ⟨rfl, rfl, rfl⟩
    | cons i rest ih =>
      intro acc
      obtain ⟨rets, loops, pca⟩ := ih (acc.1.setReg (i + 1) acc.2.drawWord.1, acc.2.drawWord.2)
      exact ⟨rets.trans (Thread.setReg_rets ..), loops.trans (Thread.setReg_loops ..), pca⟩
  obtain ⟨rets, loops, pca⟩ := draws (List.range 7) (x, d)
  exact ⟨(Thread.setRegs_stacks ..).1.trans rets, (Thread.setRegs_stacks ..).2.trans loops, pca⟩

theorem Dev.contained_libReturn (d : Dev) (t : Nat) {x : Thread} (ws : List Word) (fits : (d.thread t).Fits → x.Fits) :
    d.Contained (d.libReturn t x ws) := by
  obtain ⟨rets, loops, pca⟩ := d.libResults_keeps x ws
  refine (Dev.Contained.of_pca pca).trans (Dev.contained_popRet _ t fun h => Thread.Fits.of_eq (fits ?_) rets loops)
  rw [Dev.thread, pca] at h
  exact h

theorem Dev.contained_libFault (d : Dev) (t : Nat) {x : Thread} (cause : Nat) (fits : (d.thread t).Fits → x.Fits) :
    d.Contained (d.libFault t x cause) := by
  unfold Dev.libFault
  refine .trans (d.contained_drawNat.trans ?_) (Dev.contained_threadFault ..)
  exact Dev.contained_setThread _ t fun h => (fits h).of_eq rfl rfl

theorem Dev.updLegend_pca (d : Dev) (x : Thread) (f : List Word → List Word) : (d.updLegend x f).pca = d.pca := by
  unfold Dev.updLegend
  split <;> rfl

theorem Dev.contained_parseOn (d : Dev) (t : Nat) {x : Thread} (p : ParseSt) (fits : (d.thread t).Fits → x.Fits) :
    d.Contained (d.parseOn t x p) := by
  unfold Dev.parseOn
  dsimp only
  split
  · split
    · next room =>
      exact d.contained_setThread t fun h => ⟨Nat.succ_le_of_lt room,
        Nat.le_trans (Nat.le_of_eq (congrArg List.length (Thread.setReg_loops ..))) (fits h).2⟩
    · exact d.contained_libFault t 8 fits
  · have same := d.updLegend_pca x
    refine (Dev.Contained.of_pca (same _)).trans (Dev.contained_libReturn _ t [] fun h => Thread.Fits.of_eq (fits ?_) rfl rfl)
    rw [Dev.thread, same] at h
    exact h

/-! ### The rows of control flow and scratch -/

theorem Dev.contained_branch (d : Dev) (t : Nat) (cnd : BitVec 3) (a b : BitVec 5) (off : BitVec 13) :
    d.Contained (d.branch t cnd a b off) := by
  refine d.contained_instr t _ _ fun x e fits => ?_
  split
  · exact e.contained_setThread t fun h => (fits h).goTo _
  · exact e.contained_done t fits

theorem Dev.contained_callInsn (d : Dev) (t : Nat) (rsv : BitVec 10) (target : BitVec 14) : d.Contained (d.callInsn t rsv target) := by
  refine d.contained_instr t _ _ fun x e fits => ?_
  unfold Dev.push
  split
  · next room => exact e.contained_setThread t fun h => ⟨Nat.succ_le_of_lt room, (fits h).2⟩
  · exact e.contained_threadFault ..

theorem Dev.contained_retInsn (d : Dev) (t : Nat) (rsv : BitVec 10) (target : BitVec 14) : d.Contained (d.retInsn t rsv target) := by
  refine d.contained_instr t _ _ fun x e fits => ?_
  split
  · exact e.contained_threadFault ..
  · next r rest top =>
    split
    · exact e.contained_popRet t fits
    · refine e.contained_parseOn t _ fun h => ?_
      obtain ⟨rets, loops⟩ := fits h
      rw [top, List.length_cons] at rets
      exact ⟨Nat.le_of_succ_le rets, loops⟩

theorem Dev.contained_jclass (d : Dev) (t : Nat) {x : Thread} (fits : (d.thread t).Fits → x.Fits) : d.Contained (d.jclass t x) := by
  unfold Dev.jclass
  split
  · exact d.contained_setThread t fits
  · dsimp only
    split
    · exact d.contained_setThread t fun h => Thread.Fits.goTo ((fits h).of_eq rfl rfl) _
    · exact d.contained_setThread t fun h => Thread.Fits.goTo ((fits h).of_eq rfl rfl) _

theorem Dev.contained_loopInsn (d : Dev) (t : Nat) (count : BitVec 8) (body : BitVec 10) (rsv : BitVec 8) :
    d.Contained (d.loopInsn t count body rsv) := by
  refine d.contained_instr t _ _ fun x e fits => ?_
  split
  · next room => exact e.contained_setThread t fun h => ⟨(fits h).1, Nat.succ_le_of_lt room⟩
  · exact e.contained_threadFault ..

theorem wf_memWrite {m : Tbl Byte} (h : m.wf 0 = true) (key n v : Nat) : (memWrite m key n v).wf 0 = true := by
  unfold memWrite
  exact List.foldlRecOn (motive := fun m : Tbl Byte => m.wf 0 = true) _ _ h fun m hm i _ => Tbl.wf_putD hm

theorem wf_memAccess {m : Tbl Byte} (h : m.wf 0 = true) (key : Nat) (w : Bool) (sz : Nat) (v : Word) :
    (memAccess m key w sz v).2.wf 0 = true := by
  unfold memAccess
  dsimp only
  split
  · split
    · exact wf_memWrite h ..
    · exact wf_memWrite h ..
  · exact h

@[simp] theorem Thread.result_stacks (x : Thread) (n : Nat) (v : Option Word) :
    (x.result n v).rets = x.rets ∧ (x.result n v).loops = x.loops := by
  cases v with
  | none => exact ⟨rfl, rfl⟩
  | some w => exact ⟨Thread.setReg_rets .., Thread.setReg_loops ..⟩

theorem Dev.contained_scInsn (d : Dev) (t : Nat) (dst a : BitVec 5) (w : Bool) (sz : BitVec 2) (off : BitVec 13) :
    d.Contained (d.scInsn t dst a w sz off) := by
  refine d.contained_instr t _ _ fun x e fits => ?_
  dsimp only
  split
  · exact e.contained_threadFault ..
  · split
    · exact e.contained_threadFault ..
    · next key _ =>
      refine .trans (e := { e with pca := { e.pca with scratch := (memAccess e.pca.scratch key w sz.toNat (x.reg dst.toNat)).2 } }) ?_
        (Dev.contained_doneShort _ t fun h => ?_)
      · exact ⟨fun h => wf_memAccess h .., fun _ h => h⟩
      · exact Thread.Fits.of_eq (fits h) (Thread.result_stacks ..).1 (Thread.result_stacks ..).2
    · exact e.contained_done t fun h => (fits h).of_eq rfl rfl

/-! ## Stamp FIFOs -/

/-- Every pin of `d` that holds no more than 16 stamps holds no more in `e`. -/
def Dev.FifosKept (d e : Dev) : Prop := ∀ k, (d.pin k).fifo.length ≤ 16 → (e.pin k).fifo.length ≤ 16

theorem Dev.FifosKept.of_mer {d e : Dev} (h : e.mer = d.mer) : d.FifosKept e := fun k fits => by rw [Dev.pin, h]; exact fits

theorem Dev.FifosKept.trans {d e x : Dev} (h : d.FifosKept e) (h' : e.FifosKept x) : d.FifosKept x := fun k fits => h' k (h k fits)

theorem Dev.pin_setPin (d : Dev) (n : Nat) (p : TioPin) : (d.setPin n p).pin n = p := Tbl.getD_put ..

theorem Dev.pin_setPin_ne (d : Dev) {n k : Nat} (p : TioPin) (h : k ≠ n) : (d.setPin n p).pin k = d.pin k := Tbl.getD_put_ne _ _ _ h

theorem Dev.fifosKept_setPin (d : Dev) (n : Nat) {p : TioPin} (fits : (d.pin n).fifo.length ≤ 16 → p.fifo.length ≤ 16) :
    d.FifosKept (d.setPin n p) := fun k h => by
  by_cases hk : k = n
  · subst hk
    rw [Dev.pin_setPin]
    exact fits h
  · rw [Dev.pin_setPin_ne d p hk]
    exact h

theorem Dev.fifosKept_timeIoEdge (d : Dev) (n : Nat) (rising : Bool) : d.FifosKept (d.timeIoEdge n rising) := by
  unfold Dev.timeIoEdge
  split
  · refine .trans ?_ (.of_mer (Dev.onlyLogs_logNow ..).mer)
    dsimp only
    split
    · next room => exact d.fifosKept_setPin n fun _ => by rw [List.length_append]; exact room
    · exact .of_mer rfl
  · exact .of_mer rfl

theorem Dev.fifosKept_tioPop (d : Dev) (n : Nat) : d.FifosKept (d.tioPop n).2 := by
  unfold Dev.tioPop
  split
  · exact .of_mer rfl
  · next t rest oldest =>
    exact d.fifosKept_setPin n fun h => by rw [oldest] at h; exact Nat.le_of_succ_le h

theorem Dev.fifosKept_latched (d : Dev) (a : RegAt) : d.FifosKept (d.latched a).2 := by
  unfold Dev.latched
  split
  case h_5 => exact d.fifosKept_tioPop a.n
  all_goals exact .of_mer rfl

theorem Dev.clearRead_mer (d : Dev) (a : RegAt) (v : Word) : (d.clearRead a v).mer = d.mer := by
  unfold Dev.clearRead
  dsimp only
  split <;> rfl

theorem Dev.mbxSend_mer (d : Dev) (f : Nat) : (d.mbxSend f).2.mer = d.mer := by
  unfold Dev.mbxSend
  dsimp only
  split
  · rfl
  · split
    · rfl
    · split
      · rfl
      · exact (Dev.onlyLogs_deliver ..).mer

theorem Dev.fifosKept_readReg (d : Dev) (a : RegAt) : d.FifosKept (d.readReg a).2 := by
  unfold Dev.readReg
  split
  · split
    · exact (d.fifosKept_latched a).trans (.of_mer (Dev.clearRead_mer ..))
    · exact .of_mer rfl
  · split
    · exact .of_mer (d.mbxSend_mer _)
    · exact .of_mer (Dev.clearRead_mer ..)

/-- A capture writes the count and, unless one is held already, the two words of the error. -/
theorem Dev.domainError_words (d : Dev) (req : Requester) (l : Loc) (b : Nat) (write : Bool) :
    ∃ v w, d.domainError req l b write = if d.on? Fld.DBG_DOMAIN_ERR_VALID
      then (d.bump .DBG_DOMAIN_ERR_COUNT).set Fld.DBG_DOMAIN_ERR_MULTI 0 1
      else ((d.bump .DBG_DOMAIN_ERR_COUNT).wr .DBG_DOMAIN_ERR 0 0 v).wr .DBG_DOMAIN_ERR_ADDR 0 0 w := ⟨_, _, rfl⟩

theorem Dev.domainError_mer (d : Dev) (req : Requester) (l : Loc) (b : Nat) (write : Bool) :
    (d.domainError req l b write).mer = d.mer := by
  obtain ⟨v, w, words⟩ := d.domainError_words req l b write
  rw [words]
  split <;> rfl

theorem Dev.fifosKept_readAt (d : Dev) (req : Requester) (l : Loc) (aligned : Bool) : d.FifosKept (d.readAt req l aligned).2 := by
  unfold Dev.readAt
  generalize (if aligned then d.spotAt req l else .reserved) = sp
  dsimp only
  split
  · exact .of_mer rfl
  · split
    · exact .of_mer rfl
    · split
      · exact .of_mer rfl
      · split
        · exact .of_mer (d.domainError_mer ..)
        · split
          case h_1 => exact d.fifosKept_readReg _
          all_goals exact .of_mer rfl

theorem Dev.noteJtag_mer (d : Dev) (req : Requester) : (d.noteJtag req).mer = d.mer := by
  unfold Dev.noteJtag
  split <;> rfl

theorem Dev.fifosKept_regRead (d : Dev) (req : Requester) (loc : Loc) : d.FifosKept (d.regRead req loc) := by
  unfold Dev.regRead
  split
  · split
    · exact ((Dev.FifosKept.of_mer (d.noteJtag_mer req)).trans (Dev.fifosKept_readAt _ req _ true)).trans (.of_mer rfl)
    · exact .of_mer rfl
  · exact .of_mer rfl

/-! ## Mailboxes -/

/-- A message takes one place of its kind. -/
theorem places_insertMsg (m : Msg) (l : List Msg) (reply : Bool) :
    places (insertMsg m l) reply = (if m.replyPlace = reply then 1 else 0) + places l reply := by
  have cons : ∀ (x : Msg) (r : List Msg), places (x :: r) reply = (if x.replyPlace = reply then 1 else 0) + places r reply := fun x r => by
    by_cases kind : x.replyPlace = reply <;> simp [places, kind, Nat.add_comm]
  induction l with
  | nil => exact cons m []
  | cons x rest ih =>
    unfold insertMsg
    split
    · exact cons m (x :: rest)
    · rw [cons, ih, cons]
      omega

theorem Dev.box_deliver (d : Dev) (receiver : Nat) (m : Msg) (f : Nat) :
    (d.deliver receiver m).box f = if f = receiver then insertMsg m (d.box receiver) else d.box f := by
  rw [Dev.box, (d.onlyLogs_deliver receiver m).mbx]
  by_cases here : f = receiver
  · rw [if_pos here, here]
    exact Tbl.getD_putD ..
  · rw [if_neg here]
    exact Tbl.getD_putD_ne _ _ _ _ here

/-- A held post is delivered into a common place that is free (R346, R348). -/
theorem Dev.places_postDeliver {d : Dev} (sender receiver : Nat) {f : Nat} (function : f < 1024)
    (fits : places (d.box f) false ≤ 16 ∧ places (d.box f) true ≤ 8) :
    places ((d.postDeliver sender receiver).box f) false ≤ 16 ∧ places ((d.postDeliver sender receiver).box f) true ≤ 8 := by
  unfold Dev.postDeliver
  split
  · exact fits
  · split
    · next room =>
      rw [Dev.box_deliver]
      split
      · next here =>
        subst here
        simp only [Bool.and_eq_true, Dev.hasRoom, function, if_true, decide_eq_true_eq] at room
        rw [places_insertMsg, places_insertMsg]
        exact ⟨Nat.le_trans (Nat.le_of_eq (Nat.add_comm ..)) room.2, Nat.le_trans (Nat.le_of_eq (Nat.zero_add _)) fits.2⟩
      · exact fits
    · exact fits

/-! ## Steps -/

/-- A step with a row in front that is held back by reset: the device stays, or is what the row's operation makes of it. -/
theorem toDev_step_on {s u : State} {i : Instr} {rest : List Instr} {f : Dev → Dev} (front : s.pending = i :: rest) (stepped : step s = .next u)
    (row : ∀ x, exec i x = x.on f) : u.toDev = s.toDev ∨ u.toDev = f s.toDev := by
  rw [step, front] at stepped
  replace stepped := (row _).symm.trans stepped
  cases held : s.toDev.inReset with
  | true => rw [State.on_held (s := { s with pending := rest }) held] at stepped; cases stepped; exact .inl rfl
  | false => rw [State.on_out (s := { s with pending := rest }) held] at stepped; cases stepped; exact .inr rfl

/-- The rows of control flow and of scratch. -/
theorem contained_step {s u : State} {rest : List Instr} {t : Nat} {cnd : BitVec 3} {a b x : BitVec 5} {off : BitVec 13} {rsv : BitVec 10}
    {target : BitVec 14} {count r8 : BitVec 8} {body : BitVec 10} {r21 : BitVec 21} {w : Bool} {size : BitVec 2} {i : Instr}
    (front : s.pending = i :: rest) (stepped : step s = .next u)
    (row : i ∈ ([.br t cnd a b off, .jmp t rsv target, .call t rsv target, .ret t rsv target, .jclass t rsv target, .jr t a r21,
        .loop t count body r8, .sc t x a w size off] : List Instr)) : s.toDev.Contained u.toDev := by
  have on {f : Dev → Dev} (op : ∀ x, exec i x = x.on f) (keeps : s.toDev.Contained (f s.toDev)) : s.toDev.Contained u.toDev := by
    obtain same | moved := toDev_step_on front stepped op
    · rw [same]; exact .refl _
    · rw [moved]; exact keeps
  simp only [List.mem_cons, List.not_mem_nil, or_false] at row
  obtain rfl | rfl | rfl | rfl | rfl | rfl | rfl | rfl := row
  · exact on (f := fun d => d.branch t cnd a b off) (fun _ => rfl) (Dev.contained_branch ..)
  · exact on (f := fun d => d.instr t (encJump 0 rsv target) (rsv == 0) fun x k => k.setThread t (x.goTo (k.target t x target.toNat)))
      (fun _ => rfl) (Dev.contained_instr _ t _ _ fun y e fits => e.contained_setThread t fun h => (fits h).goTo _)
  · exact on (f := fun d => d.callInsn t rsv target) (fun _ => rfl) (Dev.contained_callInsn ..)
  · exact on (f := fun d => d.retInsn t rsv target) (fun _ => rfl) (Dev.contained_retInsn ..)
  · exact on (f := fun d => d.instr t (encJump 3 rsv target) (rsv == 0 && target == 0) fun x k => k.jclass t x) (fun _ => rfl)
      (Dev.contained_instr _ t _ _ fun y e fits => e.contained_jclass t fits)
  · refine on (f := fun d => d.instr t (encJr a r21) (r21 == 0) fun x k =>
      if x.insetMode then k.threadFault t 0x01 else k.setThread t (x.goTo ((x.reg a.toNat).toNat % 16384))) (fun _ => rfl)
      (Dev.contained_instr _ t _ _ fun y e fits => ?_)
    split
    · exact e.contained_threadFault ..
    · exact e.contained_setThread t fun h => (fits h).goTo _
  · exact on (f := fun d => d.loopInsn t count body r8) (fun _ => rfl) (Dev.contained_loopInsn ..)
  · exact on (f := fun d => d.scInsn t x a w size off) (fun _ => rfl) (Dev.contained_scInsn ..)

/-- The rows of the stamp FIFOs. -/
theorem fifosKept_step {s u : State} {rest : List Instr} {pin : Nat} {rising : Bool} {req : Requester} {i : Instr}
    (front : s.pending = i :: rest) (stepped : step s = .next u)
    (row : i ∈ ([.timeIoEdge pin rising, .merTioStampRead req pin] : List Instr)) : s.toDev.FifosKept u.toDev := by
  have on {f : Dev → Dev} (op : ∀ x, exec i x = x.on f) (keeps : s.toDev.FifosKept (f s.toDev)) : s.toDev.FifosKept u.toDev := by
    obtain same | moved := toDev_step_on front stepped op
    · rw [same]; exact .of_mer rfl
    · rw [moved]; exact keeps
  simp only [List.mem_cons, List.not_mem_nil, or_false] at row
  obtain rfl | rfl := row
  · exact on (f := fun d => d.timeIoEdge pin rising) (fun _ => rfl) (Dev.fifosKept_timeIoEdge _ pin rising)
  · refine on (f := fun d => d.named .MER_TIO_STAMP pin fun e => e.regRead req (regLoc .MER_TIO_STAMP pin)) (fun _ => rfl) ?_
    unfold Dev.named
    split
    · exact Dev.fifosKept_regRead _ req _
    · exact .of_mer rfl

/-- Settles O60: stacks and scratch by `contained_step`, FIFOs by `fifosKept_step`, mailboxes by `Dev.places_postDeliver`. -/
theorem boundsKept : Obligations.BoundsKept := by
  unfold Obligations.BoundsKept
  intro s u i rest front stepped
  refine ⟨fun t cnd a b x off rsv target count r8 body r21 w size row => ?_, fun pin rising req row fit k =>
    fifosKept_step front stepped row k (fit k), ?_⟩
  · have keeps := contained_step front stepped row
    exact ⟨fun fit k => keeps.threads k (fit k), keeps.scratch⟩
  · rintro sender receiver rfl fit f function
    obtain same | moved := toDev_step_on (f := fun d => d.postDeliver sender receiver) front stepped fun _ => rfl
    · rw [same]; exact fit f function
    · rw [moved]; exact Dev.places_postDeliver sender receiver function (fit f function)

end Sys2Proof.Machine
end

section
/-!
The instructions of a thread (R96): one rule for each form, from which the rows' next states follow.
-/
namespace Sys2Proof.Machine

open Sys2Proof.Safety

/-! ## A legal instruction -/

/-- The next state of a row that issues a legal word: its body on the counted thread, then the end of a debug step. -/
theorem exec_legal {s : State} {i : Instr} {t : Nat} {w : Word} {legal : Bool} {body : Thread → Dev → Dev} (h : Issues s.toDev t w)
    (ok : legal = true) (hf : exec i s = s.on fun d => d.instr t w legal body) {e : Dev}
    (he : body (issued s.toDev t) (s.toDev.issueTo t) = e) : exec i s = .next (after s t e) := by
  subst ok he
  exact exec_instr h hf rfl

/-- The next state of a row out of reset, from what its operation leaves of the device. -/
theorem exec_leaves {s : State} {i : Instr} (f : Dev → Dev) (out : s.toDev.inReset = false) (hf : exec i s = s.on f) {e : Dev}
    (he : f s.toDev = e) : exec i s = .next (withDev s e) := by
  subst he
  exact exec_out out hf

/-- A row whose whole effect is a new value of gD. -/
theorem exec_regInsn {s : State} {i : Instr} {t : Nat} {w : Word} {dst : BitVec 5} {legal : Bool} (f : Thread → Word)
    (h : Issues s.toDev t w) (ok : legal = true) (hf : exec i s = s.on fun d => d.regInsn t w dst legal f) {v : Word}
    (hv : f (issued s.toDev t) = v) : exec i s = .next (goesOn s t ((issued s.toDev t).setReg dst.toNat v)) := by
  subst hv
  exact exec_legal h ok hf rfl

/-- An ALU row writes the function's value of gA and gB to gD. -/
theorem exec_alu {s : State} {i : Instr} {t fn : Nat} {d a b sh : BitVec 5} (f : Word → Word → Word)
    (h : Issues s.toDev t (encAlu fn d a b sh)) (hf : exec i s = s.on fun e => e.alu t fn d a b sh f) {v : Word}
    (hv : f ((issued s.toDev t).reg a.toNat) ((issued s.toDev t).reg b.toNat) = v) :
    exec i s = .next (goesOn s t ((issued s.toDev t).setReg d.toNat v)) :=
  exec_regInsn (fun x => f (x.reg a.toNat) (x.reg b.toNat)) h rfl hf hv

/-- A row with an immediate writes the function's value of gA to gD. -/
theorem exec_immInsn {s : State} {i : Instr} {t op : Nat} {d a : BitVec 5} {imm : BitVec 16} {legal : Bool} (f : Word → Word)
    (h : Issues s.toDev t (encImm op d a imm)) (ok : legal = true) (hf : exec i s = s.on fun e => e.immInsn t op d a imm legal f)
    {v : Word} (hv : f ((issued s.toDev t).reg a.toNat) = v) :
    exec i s = .next (goesOn s t ((issued s.toDev t).setReg d.toNat v)) :=
  exec_regInsn (fun x => f (x.reg a.toNat)) h ok hf hv

/-! ## Results -/

/-- SLT compares as signed numbers. -/
theorem flagWord_slt (x y : Word) : flagWord (x.slt y) = if x.toInt < y.toInt then 1 else 0 := by
  simp [flagWord, BitVec.slt]

/-- SLTU compares as numbers. -/
theorem flagWord_ult (x y : Word) : flagWord (x.ult y) = if x.toNat < y.toNat then 1 else 0 := by
  simp [flagWord, BitVec.ult]

/-- A choice by the unsigned comparison is one by the numbers. -/
theorem ite_ult {α : Type} (x y : Word) (p q : α) : (if x.ult y then p else q) = if x.toNat < y.toNat then p else q := by
  simp [BitVec.ult]

/-- MUL keeps the low 32 bits of the product of the numbers. -/
theorem mul_eq_ofNat (x y : Word) : x * y = BitVec.ofNat 32 (x.toNat * y.toNat) := by
  apply BitVec.eq_of_toNat_eq
  simp [BitVec.toNat_mul]

/-- The sign-extended immediate is the word of its signed number. -/
theorem immS_eq (imm : BitVec 16) : immS imm = BitVec.ofInt 32 imm.toInt := rfl

/-- The zero-extended immediate is the word of its number. -/
theorem immZ_eq (imm : BitVec 16) : immZ imm = BitVec.ofNat 32 imm.toNat := by
  apply BitVec.eq_of_toNat_eq
  simp [immZ]

/-! ## O1 -/

/-- Settles O1: each row is its form's rule with the row's function; the results agree word by word. -/
theorem arithmetic : Obligations.Arithmetic := by
  unfold Obligations.Arithmetic
  refine ⟨fun s t d a b sh => ?_, fun s t d a b sh => ?_, fun s t d a imm => ?_, fun x n m v => ?_⟩
  · dsimp only
    simp only [List.forall_mem_cons, List.not_mem_nil, false_imp_iff, implies_true, and_true]
    exact ⟨fun h => exec_alu _ h rfl rfl, fun h => exec_alu _ h rfl rfl, fun h => exec_alu _ h rfl rfl,
      fun h => exec_alu _ h rfl rfl, fun h => exec_alu _ h rfl rfl, fun h => exec_alu _ h rfl rfl,
      fun h => exec_alu _ h rfl rfl, fun h => exec_alu _ h rfl rfl, fun h => exec_alu _ h rfl (flagWord_slt ..),
      fun h => exec_alu _ h rfl (flagWord_ult ..), fun h => exec_alu _ h rfl (mul_eq_ofNat ..), fun h => exec_alu _ h rfl (ite_ult ..),
      fun h => exec_alu _ h rfl (ite_ult ..), fun h => exec_alu _ h rfl rfl, fun h => exec_regInsn _ h rfl rfl rfl,
      fun h => exec_alu _ h rfl rfl⟩
  · exact fun h => exec_alu (aluCrc Config.crcMsbFirst Config.crcComplement) h rfl rfl
  · dsimp only
    simp only [List.forall_mem_cons, List.not_mem_nil, false_imp_iff, implies_true, and_true, ← immS_eq, ← immZ_eq]
    exact ⟨⟨fun h => exec_immInsn _ h rfl rfl rfl, fun h => exec_immInsn _ h rfl rfl rfl, fun h => exec_immInsn _ h rfl rfl rfl,
      fun h => exec_immInsn _ h rfl rfl rfl, fun h => exec_immInsn _ h rfl rfl (flagWord_slt ..)⟩,
      fun h => exec_immInsn _ h rfl rfl rfl⟩
  · exact ⟨Thread.reg_zero x, Thread.setReg_zero x v, fun hn => Thread.reg_setReg x v hn, fun h => Thread.reg_setReg_ne x v h⟩

/-! ## O2 -/

/-- A push on a return stack with room goes on with the pushed thread. -/
theorem Dev.push_room (d : Dev) (t : Nat) (x : Thread) (r : RetRec) (k : Thread → Dev → Dev) (room : x.rets.length < 8) :
    d.push t x r k = k { x with rets := r :: x.rets } d := if_pos room

/-- The program of the inset that a thread runs for the class of a frame's legend (R92). -/
def Dev.classProgram (d : Dev) (x : Thread) (f : Frame) : Option (Nat × Nat × Nat) :=
  ((d.classBind x (lgGet f.lg lgFunction) (lgGet f.lg lgClass)).bind (·.entry)).bind fun id =>
    (d.insetOf x).bind fun i => i.entries.find? fun p => p.1 == 2 && p.2.1 == id

/-- JCLASS enters a bound program in inset mode. -/
theorem Dev.jclass_bound {d : Dev} {x : Thread} {f : Frame} (t : Nat) (hf : x.frame.bind d.frame? = some f) {p : Nat × Nat × Nat}
    (hb : d.classProgram x f = some p) :
    d.jclass t x = d.setThread t ({ x with insetMode := true }.goTo (d.insetBase t x + p.2.2)) := by
  unfold Dev.classProgram at hb
  simp only [Dev.jclass, hf, hb]

/-- JCLASS enters the vendor's default program where nothing is bound. -/
theorem Dev.jclass_unbound {d : Dev} {x : Thread} {f : Frame} (t : Nat) (hf : x.frame.bind d.frame? = some f)
    (hb : d.classProgram x f = none) :
    d.jclass t x = d.setThread t ({ x with insetMode := false }.goTo (Config.vendorActionPc % 0x1000)) := by
  unfold Dev.classProgram at hb
  simp only [Dev.jclass, hf, hb]

/-- Settles O2: each row's body where its operands are legal and the stack has room. -/
theorem control : Obligations.Control := by
  unfold Obligations.Control
  refine ⟨fun s t a b off target => ⟨fun cnd h ho hc => ?_, fun h => ?_, fun h room => ?_, fun r rest h hr hp => ?_, fun h hi => ?_,
    fun count body h hc hb room => ?_⟩, fun s t f h hf => ⟨fun p hp => ?_, fun hn => ?_⟩⟩
  · exact (exec_legal (i := .br t cnd a b off) h (by simpa [hc] using ho) rfl rfl).trans (congrArg _ (apply_ite (after s t) ..))
  · exact exec_legal h rfl rfl rfl
  · exact exec_legal h rfl rfl (Dev.push_room _ _ _ _ _ room)
  · exact exec_legal h rfl rfl (by simp only [hr, hp, Dev.popRet])
  · exact exec_legal h rfl rfl (if_neg (by simp [hi]))
  · exact exec_legal h (by simpa using ⟨hc, hb⟩) rfl (if_pos room)
  · exact exec_legal h rfl rfl (Dev.jclass_bound t hf hp)
  · exact exec_legal h rfl rfl (Dev.jclass_unbound t hf hn)

/-! ## O3 -/

/-- A store changes no byte outside it (R94). -/
theorem memWrite_outside (m : Tbl Byte) (key n v j : Nat) (h : ∀ i < n, j ≠ key + i) : (memWrite m key n v).getD j 0 = m.getD j 0 := by
  have each : ∀ (l : List Nat) (a : Tbl Byte), (∀ i ∈ l, i < n) →
      (l.foldl (fun a i => a.putD 0 (key + i) (BitVec.ofNat 8 (v / 256 ^ i))) a).getD j 0 = a.getD j 0 := fun l => by
    induction l with
    | nil => exact fun _ _ => rfl
    | cons i rest ih =>
      intro a hl
      rw [List.foldl_cons, ih _ fun k hk => hl k (List.mem_cons_of_mem i hk)]
      exact Tbl.getD_putD_ne _ _ _ _ (h i (hl i List.mem_cons_self))
  exact each _ m fun i hi => List.mem_range.1 hi

/-- An access to the window leaves its thread to go on after a short stall, whichever way it goes. -/
theorem goesShort_ite (s : State) (t : Nat) (e : Dev) (w : Bool) (x y : Thread) :
    goesShort s t e (if w then x else y) = after s t (if w then e.doneShort t x else e.doneShort t y) := by
  cases w <;> rfl

/-- SC is legal: its SZ is 3 in a store alone. -/
theorem storeOrSized {w : Bool} {sz : BitVec 2} (hz : w = false → sz ≠ 3) : (w || sz != 3) = true := by
  cases w
  · simpa using hz rfl
  · rfl

/-- The reply to a region access makes it, and ends the stall. -/
theorem Dev.regionStoreDone_region {d : Dev} {t : Nat} {w : Bool} {v key n : Nat} (hp : (d.thread t).pend = .region w v key n) :
    d.regionStoreDone t = (d.setPca fun p => { p with rstore := (memAccess d.pca.rstore key w v ((d.thread t).reg n)).2 }).setThread t
      { (d.thread t).result n (memAccess d.pca.rstore key w v ((d.thread t).reg n)).1 with pend := .none } := by
  simp only [Dev.regionStoreDone, hp]
  rfl

/-- The reply to a buffer access while its generations stand makes it, and ends the stall. -/
theorem Dev.bufferReply_buf {d : Dev} {t z addr n id : Nat} {w : Bool} {f : Frame} (hid : (d.thread t).frame = some id)
    (hf : d.frame? id = some f) (up7 : d.available 7 = true) (up13 : d.available 13 = true)
    (hp : (d.thread t).pend = .buf w z addr n (d.blockGen 7) (d.blockGen 13)) :
    d.bufferReply t =
      if w then ((d.updFrame id fun g => { g with bytes := overwrite g.bytes addr (bytesBE (2 ^ z) ((d.thread t).reg n).toNat) }).fillAt
        f.chain addr (bytesBE (2 ^ z) ((d.thread t).reg n).toNat)).setThread t { d.thread t with pend := .none }
      else d.setThread t { (d.thread t).setReg n (toWord (be f.bytes addr (2 ^ z))) with pend := .none } := by
  simp [Dev.bufferReply, hp, hid, hf, up7, up13]

/-- Settles O3: each access where its address is mapped, and the replies of the long ones. -/
theorem accesses : Obligations.Accesses := by
  unfold Obligations.Accesses
  refine ⟨fun s t d a w sz => ⟨fun off h hz hb => ?_, fun word lsb wm1 id f h hw hid hf => ⟨fun rd => ?_, fun wr may => ?_⟩,
    fun off key h hz al hm => ?_, memWrite_outside⟩, fun s t d a w sz off => ⟨fun key h hz al hm => ?_, fun key n v out hp => ?_,
    fun f h hz hf hb => ?_, fun z addr n id f out up7 up13 hp hid hf => ?_⟩⟩
  · rw [goesShort_ite]
    exact exec_legal h (by simpa using hz) rfl (if_neg (Nat.not_lt.2 hb))
  · exact exec_legal h (by simpa using hw) rfl (by simp [hid, hf, rd])
  · exact exec_legal h (by simpa using hw) rfl (by simp [hid, wr, may])
  · exact exec_legal h (storeOrSized hz) rfl ((if_neg (by simpa using al)).trans (by simp only [hm]; rfl))
  · exact exec_legal h (storeOrSized hz) rfl ((if_neg (by simpa using al)).trans (by simp only [hm]))
  · exact exec_leaves (fun d => d.regionStoreDone t) out rfl (Dev.regionStoreDone_region hp)
  · exact exec_legal h (by simpa using hz) rfl (if_neg (by simpa [hf] using hb))
  · exact exec_leaves (fun d => d.bufferReply t) out rfl (Dev.bufferReply_buf hid hf up7 up13 hp)

/-! ## O4 -/

/-- A request stalls behind four that are outstanding, or behind one of its slot (R70, R99). -/
theorem Dev.lookStalls_iff {d : Dev} {t : Nat} {x : Thread} {r : LookReq} (hp : r.prefetch = false) :
    d.lookStalls t x r = true ↔ d.lookOut t ≥ 4 ∨ ∃ q, x.ls.getD r.slot .empty = .waiting q := by
  unfold Dev.lookStalls
  cases x.ls.getD r.slot .empty <;> simp [hp]

/-- A prefetch stalls behind four that are outstanding alone. -/
theorem Dev.lookStalls_prefetch {d : Dev} {t : Nat} {x : Thread} {r : LookReq} (hp : r.prefetch = true) :
    d.lookStalls t x r = decide (d.lookOut t ≥ 4) := by
  simp [Dev.lookStalls, hp]

section Lookup
variable {s : State} {i : Instr} {t slot kind tb : Nat} {table : BitVec 6} {keyq : BitVec 3} {pre : Bool}

/-- A lookup of a table that is there is issued, or stalls. -/
theorem exec_lookup (h : Issues s.toDev t (encLookup slot kind table keyq pre 0)) (ok : (kind == 3 && (pre || table != 0)) = false)
    (hf : exec i s = s.on fun e => e.lookupInsn t slot kind table keyq pre 0)
    (ht : (if kind = 3 then some 0 else (s.toDev.issueTo t).lookupTable (issued s.toDev t) table.toNat) = some tb) {r : LookReq}
    (hr : (s.toDev.issueTo t).makeReq t (issued s.toDev t) slot kind tb (keyOf (issued s.toDev t).reg (4 * keyq.toNat)) pre = r) :
    exec i s = .next (after s t (if (s.toDev.issueTo t).lookStalls t (issued s.toDev t) r
      then (s.toDev.issueTo t).done t { issued s.toDev t with pend := .relook r }
      else (s.toDev.issueTo t).issueReq t (issued s.toDev t).next r)) := by
  subst hr
  exact exec_legal h (by rw [ok]; rfl) hf (by simp only [ht])

/-- One that fetches its reply is issued while its slot is free and less than four are outstanding, and stalls else. -/
theorem exec_lookup_reply (h : Issues s.toDev t (encLookup slot kind table keyq false 0)) (ok : (kind == 3 && table != 0) = false)
    (hf : exec i s = s.on fun e => e.lookupInsn t slot kind table keyq false 0)
    (ht : (if kind = 3 then some 0 else (s.toDev.issueTo t).lookupTable (issued s.toDev t) table.toNat) = some tb) :
    let x := issued s.toDev t
    let e := s.toDev.issueTo t
    let r := e.makeReq t x slot kind tb (keyOf x.reg (4 * keyq.toNat)) false
    (e.lookOut t < 4 → (∀ q, x.ls.getD slot .empty ≠ .waiting q) → exec i s = .next (after s t (e.issueReq t x.next r))) ∧
    ((e.lookOut t ≥ 4 ∨ ∃ q, x.ls.getD slot .empty = .waiting q) → exec i s = .next (goesOn s t { x with pend := .relook r })) := by
  intro x e r
  have taken := exec_lookup h (by simpa using ok) hf ht (r := r) rfl
  have stalls : e.lookStalls t x r = true ↔ e.lookOut t ≥ 4 ∨ ∃ q, x.ls.getD slot .empty = .waiting q := Dev.lookStalls_iff rfl
  refine ⟨fun few free => ?_, fun wait => ?_⟩
  · exact taken.trans (congrArg (fun g => Host.Outcome.next (after s t g)) (if_neg fun st =>
      (stalls.1 st).elim (Nat.not_le.2 few) fun ⟨q, hq⟩ => free q hq))
  · exact taken.trans (congrArg (fun g => Host.Outcome.next (after s t g)) (if_pos (stalls.2 wait)))

end Lookup

/-- LOOKUP_PREFETCH is a lookup of a kind below 3. -/
theorem toNat_ne_three {kind : BitVec 2} (h : kind ≠ 3) : kind.toNat ≠ 3 := fun e => h (BitVec.eq_of_toNat_eq e)

/-- PART chooses the status, the low or the high word. -/
theorem slotPart_eq (st lo hi : Word) (part : BitVec 2) :
    slotPart st lo hi part.toNat = if part = 0 then st else if part = 1 then lo else hi := by
  have part_eq : ∀ p q : BitVec 2, (p.toNat = q.toNat) = (p = q) := fun p q => propext BitVec.toNat_inj
  simp only [slotPart, ← part_eq]
  rfl

/-- Settles O4: a lookup of each kind is `exec_lookup`; LDRES reads its slot. -/
theorem lookupRequests : Obligations.LookupRequests := by
  unfold Obligations.LookupRequests
  intro s t d slot kind table keyq
  refine ⟨fun tb ht => ⟨?_, fun hk h => ?_⟩, fun h => ?_, fun part q h hp hq => ?_, fun part st lo hi h hp hq => ?_⟩
  · simp only [List.forall_mem_cons, List.not_mem_nil, false_imp_iff, implies_true, and_true]
    exact ⟨fun h => exec_lookup_reply h rfl rfl ht, fun h => exec_lookup_reply h rfl rfl ht, fun h => exec_lookup_reply h rfl rfl ht⟩
  · have taken := exec_lookup (i := .lookupPrefetch t slot kind table keyq 0) h (by simp [toNat_ne_three hk]) rfl
      ((if_neg (toNat_ne_three hk)).trans ht) rfl
    rw [Dev.lookStalls_prefetch rfl] at taken
    refine taken.trans (congrArg Host.Outcome.next ?_)
    by_cases few : (s.toDev.issueTo t).lookOut t < 4
    · rw [if_pos few, if_neg (by simpa using few)]
    · rw [if_neg few, if_pos (by simpa using few)]
      rfl
  · exact exec_lookup_reply h rfl rfl rfl
  · exact exec_legal h (by simpa using hp) rfl (by simp only [hq])
  · exact exec_legal h (by simpa using hp) rfl (by simp only [hq, slotPart_eq])

end Sys2Proof.Machine
end

section
/-!
Channels, events, the ends of a frame and the library (R72 to R79, R100, R109).
-/
namespace Sys2Proof.Machine

open Sys2Proof.Safety

/-! ## The checks of CHAN (R77, R102, R106) -/

/-- The channels of its cluster that the inset of thread `x` is granted. -/
def Dev.chanGrants (e : Dev) (t : Nat) (x : Thread) : Nat :=
  ((e.insetOf x).map fun i => if i.granted.contains (clusterOf t) then i.chanMask else 0).getD 0

/-- The register that holds the permissions a kind of CHAN needs. -/
def chanPermission (write : Bool) : Reg := if write then .PCA_CHAN_WRITERS else .PCA_CHAN_READERS

/-- A thread may use channel `ch` of its cluster as a kind of CHAN needs it. -/
def Dev.ChanMay (e : Dev) (t : Nat) (x : Thread) (ch : BitVec 3) (write : Bool) : Prop :=
  (x.insetMode = true → (e.chanGrants t x).testBit ch.toNat = true) ∧
    (e.rd (chanPermission write) (8 * clusterOf t + ch.toNat)).getLsbD (t % 32) = true

/-- The checks of CHAN on a legal word, and its kind's body behind them. -/
def Dev.chanChecks (e : Dev) (t : Nat) (ch : BitVec 3) (st : BitVec 5) (write needsOn : Bool) (body : Nat → Thread → Dev → Dev)
    (x : Thread) : Dev :=
  if x.insetMode && e.chanGrants t x = 0 then e.threadFault t 0x01
  else if x.insetMode && !(e.chanGrants t x).testBit ch.toNat then e.threadFault t 0x0B
  else if !((e.rd (chanPermission write) (8 * clusterOf t + ch.toNat)).getLsbD (t % 32)) then
    (e.logExc t 0x201 (toWord t) 0).done t (x.setReg st.toNat 0)
  else if needsOn && !e.on? Fld.PCA_CHAN_CFG_ENABLE (8 * clusterOf t + ch.toNat) then e.done t (x.setReg st.toNat 0)
  else body (8 * clusterOf t + ch.toNat) x e

/-- A granted channel is one of the grants. -/
theorem Dev.chanChecks_granted {e : Dev} {t : Nat} {ch : BitVec 3} {st : BitVec 5} {write needsOn : Bool}
    {body : Nat → Thread → Dev → Dev} {x : Thread} (granted : x.insetMode = true → (e.chanGrants t x).testBit ch.toNat = true) :
    e.chanChecks t ch st write needsOn body x =
      if !((e.rd (chanPermission write) (8 * clusterOf t + ch.toNat)).getLsbD (t % 32)) then
        (e.logExc t 0x201 (toWord t) 0).done t (x.setReg st.toNat 0)
      else if needsOn && !e.on? Fld.PCA_CHAN_CFG_ENABLE (8 * clusterOf t + ch.toNat) then e.done t (x.setReg st.toNat 0)
      else body (8 * clusterOf t + ch.toNat) x e := by
  unfold Dev.chanChecks
  cases inset : x.insetMode with
  | false => rfl
  | true =>
    have bit := granted inset
    have some_ : e.chanGrants t x ≠ 0 := fun z => by simp [z] at bit
    simp [bit, some_]

section Checks
variable {s : State} {i : Instr} {t kind : Nat} {ch : BitVec 3} {dst st : BitVec 5} {rv : BitVec 2} {write needsOn : Bool}
  {body : Nat → Thread → Dev → Dev} (al : dst.toNat % 4 = 0) (hv : rv ≠ 3) (h : Issues s.toDev t (encChan kind ch dst rv st 0))
  (hf : exec i s = s.on fun e => e.chanInsn t kind ch dst rv st 0 write needsOn body)
include al hv h hf

/-- CHAN makes its checks. -/
theorem exec_chanChecks {e : Dev} (he : (s.toDev.issueTo t).chanChecks t ch st write needsOn body (issued s.toDev t) = e) :
    exec i s = .next (after s t e) :=
  exec_legal h (by simpa [al] using hv) hf he

/-- A CHAN of an inset without the channel's grant faults, as the grants it has tell. -/
theorem exec_chan_ungranted (inset : (issued s.toDev t).insetMode = true)
    (no : ((s.toDev.issueTo t).chanGrants t (issued s.toDev t)).testBit ch.toNat = false) :
    exec i s = .next (after s t ((s.toDev.issueTo t).threadFault t
      (if (s.toDev.issueTo t).chanGrants t (issued s.toDev t) = 0 then 0x01 else 0x0B))) := by
  refine exec_chanChecks al hv h hf ?_
  by_cases none_ : (s.toDev.issueTo t).chanGrants t (issued s.toDev t) = 0
  · simp [Dev.chanChecks, inset, none_]
  · simp [Dev.chanChecks, inset, none_, no]

/-- A CHAN of a thread without permission gives the no-entry result and a record. -/
theorem exec_chan_denied (granted : (issued s.toDev t).insetMode = true →
      ((s.toDev.issueTo t).chanGrants t (issued s.toDev t)).testBit ch.toNat = true)
    (no : ((s.toDev.issueTo t).rd (chanPermission write) (8 * clusterOf t + ch.toNat)).getLsbD (t % 32) = false) :
    exec i s = .next (after s t (((s.toDev.issueTo t).logExc t 0x201 (toWord t) 0).done t ((issued s.toDev t).setReg st.toNat 0))) :=
  exec_chanChecks al hv h hf ((Dev.chanChecks_granted granted).trans (if_pos (by rw [no]; rfl)))

/-- A CHAN that needs an enabled channel gives the no-entry result on a disabled one. -/
theorem exec_chan_disabled (may : (s.toDev.issueTo t).ChanMay t (issued s.toDev t) ch write) (needs : needsOn = true)
    (off : (s.toDev.issueTo t).on? Fld.PCA_CHAN_CFG_ENABLE (8 * clusterOf t + ch.toNat) = false) :
    exec i s = .next (goesOn s t ((issued s.toDev t).setReg st.toNat 0)) :=
  exec_chanChecks al hv h hf ((Dev.chanChecks_granted may.1).trans
    ((if_neg (by rw [may.2]; simp)).trans (if_pos (by rw [needs, off]; rfl))))

/-- A CHAN that passes its checks runs its kind's body. -/
theorem exec_chan (may : (s.toDev.issueTo t).ChanMay t (issued s.toDev t) ch write)
    (on : needsOn = true → (s.toDev.issueTo t).on? Fld.PCA_CHAN_CFG_ENABLE (8 * clusterOf t + ch.toNat) = true) {e : Dev}
    (he : body (8 * clusterOf t + ch.toNat) (issued s.toDev t) (s.toDev.issueTo t) = e) :
    exec i s = .next (after s t e) := by
  refine exec_chanChecks al hv h hf ((Dev.chanChecks_granted may.1).trans ((if_neg (by rw [may.2]; simp)).trans ((if_neg ?_).trans he)))
  cases needsOn with
  | false => simp
  | true => rw [on rfl]; simp

end Checks

/-! ## The kinds of CHAN (R75) -/

section Bodies
variable {d : Dev} {t rv st n : Nat} {x : Thread}

/-- A fourth reservation faults. -/
theorem Dev.reserveBody_fourth (full : 3 ≤ x.resCount) : d.reserveBody t rv st n x = d.threadFault t 0x0A := if_pos full

/-- A reserve into a free register takes a slot, or waits for one. -/
theorem Dev.reserveBody_free (few : x.resCount < 3) (free : x.rv.look? rv = none) :
    d.reserveBody t rv st n x = (((d.setThread t x).tryReserve t n rv).map fun g => g.updThread t fun z => (z.setReg st 1).next).getD
      (d.done t { x with pend := .reserve n rv st }) := by
  unfold Dev.reserveBody
  rw [if_neg (Nat.not_le.2 few)]
  simp only [free]
  cases (d.setThread t x).tryReserve t n rv <;> rfl

/-- The device and the thread after a reserve has given up the live reservation that its register held. -/
def Dev.givenUp (d : Dev) (t rv : Nat) (x : Thread) (old : Resv) : Dev :=
  ((d.setThread t { x with rv := x.rv.erase rv }).bump .PCA_CHAN_ABANDON (clusterOf t)).chanSpace old.chan

/-- A reserve into a register that holds a live reservation gives that one up first. -/
theorem Dev.reserveBody_again {old : Resv} {g : Dev} (few : x.resCount < 3) (held : x.rv.look? rv = some old) (live : old.live = true)
    (took : ((d.givenUp t rv x old).setThread t { x with rv := x.rv.erase rv, events := ((d.givenUp t rv x old).thread t).events }).tryReserve
      t n rv = some g) : d.reserveBody t rv st n x = g.updThread t fun z => (z.setReg st 1).next := by
  unfold Dev.givenUp at took
  unfold Dev.reserveBody
  rw [if_neg (Nat.not_le.2 few)]
  simp only [held, live, if_true, took]

/-- A write fills the slot of its register's live reservation. -/
theorem Dev.writeBody_held {dst : Nat} {r : Resv} (held : x.rv.look? rv = some r) (same : r.chan = n) (live : r.live = true) :
    d.writeBody t dst rv st n x =
      d.done t ({ x with rv := x.rv.put rv { r with data := (List.range 4).map fun k => x.reg (dst + k) } }.setReg st 1) := by
  simp only [Dev.writeBody, held, same, live]
  rfl

/-- A write without a live reservation of the channel gives the no-entry result. -/
theorem Dev.writeBody_none {dst : Nat} (no : ∀ r : Resv, x.rv.look? rv = some r → r.chan ≠ n ∨ r.live = false) :
    d.writeBody t dst rv st n x = d.done t (x.setReg st 0) := by
  unfold Dev.writeBody
  cases held : x.rv.look? rv with
  | none => rfl
  | some r => exact if_neg (by simpa [Classical.or_iff_not_imp_left] using no r held)

/-- A commit of a reservation of the channel frees its register, and commits what is live. -/
theorem Dev.commitBody_held {r : Resv} (held : x.rv.look? rv = some r) (same : r.chan = n) :
    d.commitBody t rv st n x =
      if r.live then (d.done t ({ x with rv := x.rv.erase rv }.setReg st 1)).chanCommit n r.data
      else d.done t ({ x with rv := x.rv.erase rv }.setReg st 0) := by
  simp only [Dev.commitBody, held, same, if_true]

/-- A commit without a reservation of the channel gives the no-entry result. -/
theorem Dev.commitBody_none (no : ∀ r : Resv, x.rv.look? rv = some r → r.chan ≠ n) :
    d.commitBody t rv st n x = d.done t (x.setReg st 0) := by
  unfold Dev.commitBody
  cases held : x.rv.look? rv with
  | none => rfl
  | some r => exact if_neg (no r held)

/-- A read takes the oldest entry. -/
theorem Dev.readBody_entry {dst : Nat} {w : List Word} {rest : List (List Word)} (entries : d.chanEntries n = w :: rest) :
    d.readBody t dst st n x = ((d.setChan n rest).done t ((x.setRegs dst w).setReg st 1)).chanSpace n := by
  simp only [Dev.readBody, entries]

/-- A read of a channel without entries waits. -/
theorem Dev.readBody_empty {dst : Nat} (entries : d.chanEntries n = []) :
    d.readBody t dst st n x = d.done t { x with pend := .read n dst st } := by
  simp only [Dev.readBody, entries]

end Bodies

/-- What a row of CHAN does where the channel is refused it. -/
theorem exec_chan_refusals {s : State} {i : Instr} {t kind : Nat} {ch : BitVec 3} {dst st : BitVec 5} {rv : BitVec 2}
    {write needsOn : Bool} {body : Nat → Thread → Dev → Dev} (al : dst.toNat % 4 = 0) (hv : rv ≠ 3)
    (h : Issues s.toDev t (encChan kind ch dst rv st 0)) (hf : exec i s = s.on fun e => e.chanInsn t kind ch dst rv st 0 write needsOn body)
    (needs : kind = 0 ∨ kind = 3 → needsOn = true) :
    let x := issued s.toDev t
    let e := s.toDev.issueTo t
    (x.insetMode = true → (e.chanGrants t x).testBit ch.toNat = false →
      exec i s = .next (after s t (e.threadFault t (if e.chanGrants t x = 0 then 0x01 else 0x0B)))) ∧
    ((x.insetMode = true → (e.chanGrants t x).testBit ch.toNat = true) →
      (e.rd (chanPermission write) (8 * clusterOf t + ch.toNat)).getLsbD (t % 32) = false →
      exec i s = .next (after s t ((e.logExc t 0x201 (toWord t) 0).done t (x.setReg st.toNat 0)))) ∧
    (e.ChanMay t x ch write → kind = 0 ∨ kind = 3 → e.on? Fld.PCA_CHAN_CFG_ENABLE (8 * clusterOf t + ch.toNat) = false →
      exec i s = .next (goesOn s t (x.setReg st.toNat 0))) :=
  ⟨fun inset no => exec_chan_ungranted al hv h hf inset no, fun granted no => exec_chan_denied al hv h hf granted no,
    fun may k off => exec_chan_disabled al hv h hf may (needs k) off⟩

/-- Settles O5: the refusals of the four kinds, and each kind's body behind its checks. -/
theorem channelOperations : Obligations.ChannelOperations := by
  unfold Obligations.ChannelOperations
  intro s t ch d st rv x e n mask may noEntry al hv
  refine ⟨?_, fun h ok on => ⟨fun full => ?_, fun few free => ?_, fun old g few held live took => ?_⟩,
    fun h ok => ⟨fun r held same live => ?_, fun no => ?_⟩, fun h ok => ⟨fun r held same => ?_, fun no => ?_⟩, fun h ok on => ?_⟩
  · refine List.forall_mem_cons.2 ⟨fun h => ?_, List.forall_mem_cons.2 ⟨fun h => ?_, List.forall_mem_cons.2 ⟨fun h => ?_,
      List.forall_mem_cons.2 ⟨fun h => ?_, fun _ no => absurd no List.not_mem_nil⟩⟩⟩⟩
    · exact exec_chan_refusals (write := true) (needsOn := true) al hv h rfl fun _ => rfl
    · exact exec_chan_refusals (write := true) (needsOn := false) (kind := 1) al hv h rfl (by decide)
    · exact exec_chan_refusals (write := true) (needsOn := false) (kind := 2) al hv h rfl (by decide)
    · exact exec_chan_refusals (write := false) (needsOn := true) al hv h rfl fun _ => rfl
  · exact exec_chan (write := true) (needsOn := true) al hv h rfl ok (fun _ => on) (Dev.reserveBody_fourth full)
  · have taken := exec_chan (i := .reserve t ch d rv st 0) al hv h rfl ok (fun _ => on) (Dev.reserveBody_free few free)
    refine taken.trans ?_
    change _ = Host.Outcome.next (match (e.setThread t x).tryReserve t n rv.toNat with
      | some g => after s t (g.updThread t fun z => (z.setReg st.toNat 1).next)
      | none => goesOn s t { x with pend := .reserve n rv.toNat st.toNat })
    change Host.Outcome.next (after s t ((((e.setThread t x).tryReserve t n rv.toNat).map fun g =>
      g.updThread t fun z => (z.setReg st.toNat 1).next).getD (e.done t { x with pend := .reserve n rv.toNat st.toNat }))) = _
    cases (e.setThread t x).tryReserve t n rv.toNat <;> rfl
  · exact exec_chan (write := true) (needsOn := true) al hv h rfl ok (fun _ => on) (Dev.reserveBody_again few held live took)
  · exact exec_chan (write := true) (needsOn := false) al hv h rfl ok nofun (Dev.writeBody_held held same live)
  · exact exec_chan (write := true) (needsOn := false) al hv h rfl ok nofun (Dev.writeBody_none no)
  · refine (exec_chan (write := true) (needsOn := false) al hv h rfl ok nofun (Dev.commitBody_held held same)).trans ?_
    cases r.live <;> rfl
  · exact exec_chan (write := true) (needsOn := false) al hv h rfl ok nofun (Dev.commitBody_none no)
  · cases entries : e.chanEntries n with
    | nil => exact exec_chan (write := false) (needsOn := true) al hv h rfl ok (fun _ => on) (Dev.readBody_empty entries)
    | cons w rest => exact exec_chan (write := false) (needsOn := true) al hv h rfl ok (fun _ => on) (Dev.readBody_entry entries)

/-! ## O6 -/

/-- A message of the region queue raises its event in its target. -/
theorem Dev.regionMsgDeliver_cons {d : Dev} {r target from_ : Nat} {rest : List (Nat × Nat)}
    (hm : d.pca.msgs.getD r [] = (target, from_) :: rest) :
    d.regionMsgDeliver r = (d.setPca fun p => { p with msgs := p.msgs.putD [] r rest }).raise target (48 + from_) := by
  simp only [Dev.regionMsgDeliver, hm]
  rfl

/-- A timer whose stamp has come raises event 56. -/
theorem Dev.timerCheck_due {d : Dev} {t : Nat} {due : Stamp} (ht : (d.thread t).timer = some due) (passed : due ≤ d.now) :
    d.timerCheck t = (d.updThread t fun z => { z with timer := none }).raise t 56 := by
  simp only [Dev.timerCheck, ht, if_pos passed]

/-- Settles O6: each row of EVT and TIME is its body, and the message and the timer raise their events. -/
theorem eventsAndTime : Obligations.EventsAndTime := by
  unfold Obligations.EventsAndTime
  intro s t d a
  refine ⟨fun h even => ?_, fun cluster thread ev h vendor may => ?_, fun h low => ?_, fun h low => ?_, fun r target from_ rest out hm => ?_,
    fun due out ht passed => ?_⟩
  · exact exec_legal h (by simpa using even) rfl rfl
  · refine exec_legal h rfl rfl ?_
    simp only [vendor, may, Bool.false_and, Bool.false_eq_true, if_false, Bool.not_true]
    rfl
  · exact exec_legal h (by simpa using low) rfl rfl
  · exact exec_legal h (by simpa using low) rfl rfl
  · exact exec_leaves (fun d => d.regionMsgDeliver r) out rfl (Dev.regionMsgDeliver_cons hm)
  · exact exec_leaves (fun d => d.timerCheck t) out rfl (Dev.timerCheck_due ht passed)

/-! ## O7 -/

/-- A thread that ends its frame frees itself after what its end does with the frame. -/
theorem Dev.endThread_setThread (d : Dev) {t id : Nat} {x : Thread} (hx : x.frame = some id) (k : Nat → Dev → Dev) :
    (d.setThread t x).endThread t k = (k id (d.setThread t x)).freeThread t := by
  simp only [Dev.endThread, Dev.thread_setThread, hx]

/-- A library entry that the budget and the return stack allow runs with its instructions counted. -/
theorem Dev.libcall_allowed {e : Dev} {t n c : Nat} {x : Thread} (budget : x.budget + c ≤ x.limit) (room : x.rets.length < 8) :
    e.push t x { pc := x.pc + 1, inset := x.insetMode } (fun y g =>
      if x.budget + c > x.limit then g.libFault t y 0x07 else g.library t { y with budget := x.budget + c, insetMode := false } n) =
    e.library t { x with budget := x.budget + c, rets := { pc := x.pc + 1, inset := x.insetMode } :: x.rets, insetMode := false } n :=
  (Dev.push_room _ _ _ _ _ room).trans (if_neg (Nat.not_lt.2 budget))

/-- Settles O7: each END frees its thread after its kind's end of the frame, and LIBCALL runs its entry. -/
theorem frameEndsAndLibrary : Obligations.FrameEndsAndLibrary := by
  unfold Obligations.FrameEndsAndLibrary
  refine ⟨fun s t id reason hx => ⟨fun h => ?_, fun h => ?_, fun h => ?_, fun h => ?_, fun h vendor => ?_⟩,
    fun s t most entry h hm budget room => ?_⟩
  · exact exec_legal h rfl rfl (Dev.endThread_setThread _ hx _)
  · exact exec_legal h rfl rfl (Dev.endThread_setThread _ hx _)
  · exact exec_legal h rfl rfl (Dev.endThread_setThread _ hx _)
  · exact exec_legal h rfl rfl (Dev.endThread_setThread _ hx _)
  · exact exec_legal h rfl rfl (if_neg (by simp [vendor]))
  · refine exec_legal h (by simp [hm]) rfl ?_
    simp only [hm]
    exact Dev.libcall_allowed (Nat.le_trans (Nat.add_le_add_left (Nat.min_le_left ..) _) budget) room

end Sys2Proof.Machine
end

section
/-!
Issue slots, dispatch, closed waits and long halts (R65, R69, R79, R82).
-/
namespace Sys2Proof.Machine

open Sys2Proof.Safety

/-! ## The issuing slot (R69) -/

/-- No thread of a core is READY with priority where none of its four is. -/
theorem any_range_four {p : Nat → Bool} (none_ : ∀ k < 4, p k = false) : (List.range 4).any p = false := by
  simp only [List.any_eq_false, List.mem_range]
  exact fun k hk => by simp [none_ k hk]

/-- What a round robin finds satisfies its predicate. -/
theorem roundRobin_some {n start k : Nat} {p : Nat → Bool} (h : roundRobin n start p = some k) : p k = true := List.find?_some h

section Choose
variable {slotN fuel k : Nat} {ready hi : Nat → Bool} {stall : Nat → Nat} {c : CoreSt}

/-- The owner of the position takes the slot if it can. -/
theorem CoreSt.choose_owner (pos : c.slotCount % slotN = k) (hk : k < 4) (can : (ready k && decide (stall k ≤ c.slotCount)) = true) :
    CoreSt.choose slotN ready hi stall (fuel + 1) c = some (k, c) := by
  subst pos
  unfold CoreSt.choose
  simp only [can, hk, decide_true, Bool.true_and, if_true]

/-- The candidate takes a slot that its owner does not. -/
theorem CoreSt.choose_candidate {c1 : CoreSt}
    (owner : c.slotCount % slotN < 4 → (ready (c.slotCount % slotN) && decide (stall (c.slotCount % slotN) ≤ c.slotCount)) = false)
    (cand : c.candidate ready hi = (some k, c1)) (can : (ready k && decide (stall k ≤ c.slotCount)) = true) :
    CoreSt.choose slotN ready hi stall (fuel + 1) c = some (k, c1) := by
  unfold CoreSt.choose
  simp only [cand, can, if_true]
  exact if_neg (by simpa using owner)

/-- The current thread is the candidate while it is READY and none of priority is. -/
theorem CoreSt.candidate_current (low : ∀ j < 4, hi j = false) (cur : c.current = some k) (rdy : ready k = true) :
    c.candidate ready hi = (some k, c) := by
  simp [CoreSt.candidate, any_range_four low, cur, rdy]

/-- A slot is a READY thread's. -/
theorem CoreSt.choose_ready {c1 : CoreSt} (h : CoreSt.choose slotN ready hi stall fuel c = some (k, c1)) : ready k = true := by
  induction fuel generalizing c with
  | zero => simp [CoreSt.choose] at h
  | succ fuel ih =>
    have ofCan : ∀ j : Nat, (ready j && decide (stall j ≤ c.slotCount)) = true → ready j = true := fun j can => (Bool.and_eq_true_iff.1 can).1
    unfold CoreSt.choose at h
    dsimp only at h
    split at h
    next own =>
      obtain ⟨rfl, -⟩ := Prod.mk.inj (Option.some.inj h)
      exact ofCan _ (Bool.and_eq_true_iff.1 own).2
    next =>
      split at h
      next => cases h
      next j c2 cand =>
        split at h
        next can =>
          obtain ⟨rfl, -⟩ := Prod.mk.inj (Option.some.inj h)
          exact ofCan _ can
        next =>
          split at h
          next l lent =>
            obtain ⟨rfl, -⟩ := Prod.mk.inj (Option.some.inj h)
            exact ofCan _ (roundRobin_some (p := fun k => ready k && decide (stall k ≤ c.slotCount)) lent)
          next => exact ih h

end Choose

/-- A thread of a core may issue where the core's next slot is its own. -/
theorem Dev.mayIssue_iff (d : Dev) {core j : Nat} (hj : j < 4) :
    d.mayIssue (4 * core + j) = true ↔ ∃ c, d.nextIssue core = some (j, c) := by
  have hc : coreOf (4 * core + j) = core := by unfold coreOf; omega
  have hm : (4 * core + j) % 4 = j := by omega
  unfold Dev.mayIssue
  rw [hc, hm]
  rcases d.nextIssue core with _ | ⟨k, c⟩ <;> simp

/-- The rules of R69 for one core. -/
theorem Dev.mayIssue_rules (d : Dev) (core k : Nat) (hk : k < 4) :
    let c := d.core core
    let pos := c.slotCount % clampTo 4 16 (d.get Fld.PCA_CORE_CFG_SLOT_N core)
    let can (j : Nat) : Bool := d.threadState (4 * core + j) == 2 && decide ((d.thread (4 * core + j)).stallTo ≤ c.slotCount)
    (∀ j, j < 4 → d.mayIssue (4 * core + j) = true → d.mayIssue (4 * core + k) = true → j = k) ∧
    (pos = k → can k = true → d.mayIssue (4 * core + k) = true) ∧
    ((pos < 4 → can pos = false) → c.current = some k → can k = true →
      (∀ j, j < 4 → d.threadState (4 * core + j) = 2 → d.on? Fld.PCA_THREAD_CTRL_PRIO (4 * core + j) = false) →
      d.mayIssue (4 * core + k) = true) ∧
    ((∀ j, j < 4 → d.threadState (4 * core + j) ≠ 2) → d.mayIssue (4 * core + k) = false) := by
  intro c pos can
  refine ⟨fun j hj one other => ?_, fun own ok => ?_, fun owner cur ok low => ?_, fun idle => ?_⟩
  · obtain ⟨c1, h1⟩ := (d.mayIssue_iff hj).1 one
    obtain ⟨c2, h2⟩ := (d.mayIssue_iff hk).1 other
    exact (Prod.mk.inj (Option.some.inj (h1.symm.trans h2))).1
  · exact (d.mayIssue_iff hk).2 ⟨_, CoreSt.choose_owner (ready := fun k => d.threadState (4 * core + k) == 2)
      (stall := fun k => (d.thread (4 * core + k)).stallTo) own hk ok⟩
  · have none_ : ∀ j < 4, (d.threadState (4 * core + j) == 2 && d.on? Fld.PCA_THREAD_CTRL_PRIO (4 * core + j)) = false := fun j hj => by
      simpa using low j hj
    exact (d.mayIssue_iff hk).2 ⟨_, CoreSt.choose_candidate (ready := fun k => d.threadState (4 * core + k) == 2)
      (stall := fun k => (d.thread (4 * core + k)).stallTo) owner
      (CoreSt.candidate_current none_ cur (Bool.and_eq_true_iff.1 ok).1) ok⟩
  · refine Bool.eq_false_iff.2 fun may => ?_
    obtain ⟨c1, h1⟩ := (d.mayIssue_iff hk).1 may
    exact idle k hk (beq_iff_eq.1 (CoreSt.choose_ready (ready := fun k => d.threadState (4 * core + k) == 2) h1))

/-! ## Dispatch, closed waits and long halts -/

/-- A dispatch gives the head of the sub-queue that the round robin picks to the thread that R65 chooses. -/
theorem Dev.dispatch_head {d : Dev} {r g t id : Nat} {f : Frame} {rest : List Nat} (hr : r < 4) (up : d.regionUp r = true)
    (pick : roundRobin 16 (((d.pca.rqLast.look? r).map (· + 1)).getD 0)
      (fun k => (d.pca.rq.getD (16 * r + k) []).head?.isSome && (d.chooseThread r k).isSome) = some g)
    (head : d.pca.rq.getD (16 * r + g) [] = id :: rest) (took : d.chooseThread r g = some t) (hf : d.frame? id = some f)
    (fresh : d.staleFrame f = false) :
    d.dispatch r = (d.setPca fun p => { p with rq := p.rq.putD [] (16 * r + g) rest, rqLast := p.rqLast.put r g,
                                               rqCluster := p.rqCluster.put (16 * r + g) (clusterOf t % 4) }).setUpThread t id f := by
  unfold Dev.dispatch
  cases last : d.pca.rqLast.look? r with
  | none =>
    simp only [last, Option.map_none, Option.getD_none] at pick
    simp only [hr, up, pick, head, took, hf, fresh, decide_true, Bool.and_self, if_true, List.head?_cons, Bool.false_eq_true, if_false]
    rfl
  | some k =>
    simp only [last, Option.map_some, Option.getD_some] at pick
    simp only [hr, up, pick, head, took, hf, fresh, decide_true, Bool.and_self, if_true, List.head?_cons, Bool.false_eq_true, if_false]
    rfl

/-- The thread of a closed wait whose event breaks it. -/
theorem Dev.closedWaitDetect_closed {d : Dev} {core t : Nat} (hc : core < 128) (closed : d.closedWait core = true)
    (ht : t = ((((List.range 4).map (4 * core + ·)).filter fun k => d.threadState k == 4).find? fun k =>
      d.on? Fld.PCA_THREAD_CTRL_PRIO k).getD ((((List.range 4).map (4 * core + ·)).filter fun k => d.threadState k == 4).headD 0)) :
    d.closedWaitDetect core = ((d.raise t 61).bump .PCA_WAIT_CLOSED (core / 8)).logExc t 0x3D (toWord t)
      (toWord (((((List.range 4).map (4 * core + ·)).filter fun k => d.threadState k == 4).map fun k => 2 ^ (k % 4)).foldl (· + ·) 0)) := by
  subst ht
  simp only [Dev.closedWaitDetect, hc, closed, decide_true, Bool.and_self, if_true]

/-- A frame of a thread halted for 2^44 ns is dropped. -/
theorem Dev.haltFrameTimeout_due {d : Dev} {t id : Nat} (hid : (d.thread t).frame = some id) (halted : (d.thread t).halted = true)
    (due : (d.thread t).haltAt + 2 ^ 44 ≤ d.ref) :
    d.haltFrameTimeout t =
      ((d.bump .PCA_REGION_DROP (regionOf t)).dropFrame id (32 + regionOf t) (Config.dropReason 10)).freeThread t := by
  simp only [Dev.haltFrameTimeout, hid, halted, due, decide_true, Bool.and_self, if_true]

/-- Settles O8: the head of the chosen sub-queue, the rules of R69, and the two watches. -/
theorem dispatchAndWatch : Obligations.DispatchAndWatch := by
  unfold Obligations.DispatchAndWatch
  refine ⟨fun s r g t id f rest out hr up pick head took hf fresh => ?_, Dev.mayIssue_rules, fun s out => ⟨fun core t hc closed ht => ?_,
    fun t id hid halted due => ?_⟩⟩
  · exact exec_leaves (fun d => d.dispatch r) out rfl (Dev.dispatch_head hr up pick head took hf fresh)
  · exact exec_leaves (fun d => d.closedWaitDetect core) out rfl (Dev.closedWaitDetect_closed hc closed ht)
  · exact exec_leaves (fun d => d.haltFrameTimeout t) out rfl (Dev.haltFrameTimeout_due hid halted due)

end Sys2Proof.Machine
end

section
/-!
Meridian time: the adjustments, their ends, output pulses, and one cycle (R29 to R43).
-/
namespace Sys2Proof.Machine

open Sys2Proof.Safety

/-- The next state of a row that is a taken command, from what its body leaves of the device. -/
theorem exec_taken {s : State} {i : Instr} {op n : Nat} {c : Cmd} {a : Accepted} {p : Bytes} {e : Dev}
    {body : Nat → Accepted → Bytes → Dev → Dev} (h : Taken s.toDev op c n a p e) (hf : exec i s = s.on fun d => d.vucel1 op c body)
    {x : Dev} (hx : body n a p e = x) : exec i s = .next (withDev s x) := by
  subst hx
  exact exec_vucel h hf rfl

/-! ## The adjustments (R32 to R36) -/

/-- A rate that fits replaces the rate. -/
theorem Dev.timeRate_fits {d : Dev} {n : Nat} {p : Bytes} (fits : d.mer.rateFits (signedOf 64 (le p 0 8)) = true) :
    d.timeRate n p = ((d.setMer fun m => { m with rateA := signedOf 64 (le p 0 8) }).logTime 1
      (unsignedOf 64 (signedOf 64 (le p 0 8)))).replyOk n := by
  simp only [Dev.timeRate, fits, if_true]

/-- A slew in range of an enabled Meridian replaces the slew under way. -/
theorem Dev.timeSlew_inRange {d : Dev} {n : Nat} {p : Bytes} (on : d.on? Fld.MER_CTRL_ENABLE = true)
    (offset : (signedOf 32 (le p 0 4)).natAbs ≤ 256000000) (low : 1 ≤ bitsOf (le32 p 4) 9 0) (high : bitsOf (le32 p 4) 9 0 ≤ 1000) :
    let o := signedOf 32 (le p 0 4)
    let ppm := bitsOf (le32 p 4) 9 0
    let set_ := d.setMer fun m => { m with
      slewPpm := if o = 0 then 0 else if o < 0 then -(ppm : Int) else ppm, slewLeft := o * stampUnit }
    d.timeSlew n p = ((if o = 0 then set_.set Fld.MER_STATUS_SLEW_DONE 0 1 else set_).logTime 2 (unsignedOf 64 o)).replyOk n
      [toWord (unsignedOf 32 d.mer.slewRemain)] := by
  have good : ¬((decide ((signedOf 32 (le p 0 4)).natAbs > 1000000 * 256) || decide (bitsOf (le32 p 4) 9 0 < 1) ||
      decide (bitsOf (le32 p 4) 9 0 > 1000)) = true) := by
    simp only [Bool.or_eq_true, decide_eq_true_eq]
    omega
  exact (if_neg good).trans (if_neg (by simp [on]))

/-- A forward step in range of an enabled Meridian is made at once. -/
theorem Dev.timeStep_forward {d : Dev} {n : Nat} {p : Bytes} {moved : Dev → Dev} (on : d.on? Fld.MER_CTRL_ENABLE = true)
    (low : 0 ≤ signedOf 32 (le p 0 4)) (high : signedOf 32 (le p 0 4) ≤ 1000000000) :
    let o := signedOf 32 (le p 0 4)
    let after_ := ((d.logTime 3 (unsignedOf 64 o)).setMer fun m => { m with acc := m.acc + o.natAbs * (256 * stampUnit) }).set
      Fld.MER_STATUS_STEP_DONE 0 1
    d.timeStep n p moved = (if o = 0 then after_ else moved after_).replyOk n := by
  have good : ¬((decide (signedOf 32 (le p 0 4) < -1000000) || decide (signedOf 32 (le p 0 4) > 1000000000) ||
      (decide (signedOf 32 (le p 0 4) < 0) &&
        decide (d.mer.stepLeft + (signedOf 32 (le p 0 4)).natAbs * (256 * stampUnit) > 1000000 * (256 * stampUnit)))) = true) := by
    simp only [Bool.or_eq_true, Bool.and_eq_true, decide_eq_true_eq]
    omega
  exact (if_neg good).trans ((if_neg (by simp [on])).trans (if_neg (Int.not_lt.2 low)))

/-- A backward step in range of an enabled Meridian is added to what is to be absorbed. -/
theorem Dev.timeStep_backward {d : Dev} {n : Nat} {p : Bytes} {moved : Dev → Dev} (on : d.on? Fld.MER_CTRL_ENABLE = true)
    (low : -1000000 ≤ signedOf 32 (le p 0 4)) (high : signedOf 32 (le p 0 4) < 0)
    (fits : d.mer.stepLeft + (signedOf 32 (le p 0 4)).natAbs * (256 * stampUnit) ≤ 1000000 * (256 * stampUnit)) :
    let o := signedOf 32 (le p 0 4)
    d.timeStep n p moved = ((d.logTime 3 (unsignedOf 64 o)).setMer fun m => { m with
      stepLeft := m.stepLeft + o.natAbs * (256 * stampUnit), stepping := true }).replyOk n := by
  have good : ¬((decide (signedOf 32 (le p 0 4) < -1000000) || decide (signedOf 32 (le p 0 4) > 1000000000) ||
      (decide (signedOf 32 (le p 0 4) < 0) &&
        decide (d.mer.stepLeft + (signedOf 32 (le p 0 4)).natAbs * (256 * stampUnit) > 1000000 * (256 * stampUnit)))) = true) := by
    simp only [Bool.or_eq_true, Bool.and_eq_true, decide_eq_true_eq]
    omega
  exact (if_neg good).trans ((if_neg (by simp [on])).trans (if_pos high))

/-- Settles O9: each adjustment where its parameters are in range. -/
theorem timeAdjustments : Obligations.TimeAdjustments := by
  unfold Obligations.TimeAdjustments
  intro s c n a p e
  refine ⟨fun h fits => exec_taken h rfl ?_, fun h on offset low high => exec_taken h rfl ?_, fun h on low high => exec_taken h rfl ?_,
    fun h on low high fits => exec_taken h rfl ?_, fun h off => exec_taken h rfl ?_⟩
  · exact Dev.timeRate_fits fits
  · exact Dev.timeSlew_inRange on offset low high
  · exact Dev.timeStep_forward on low high
  · exact Dev.timeStep_backward on low high fits
  · exact if_neg (by simp [off])

/-! ## Ends, the reference clock and pulses (R31, R33, R34, R38, R41, R42) -/

/-- An edge whose stamp has come raises its pin for the length of its pulse. -/
theorem Dev.tioOutputEdge_due {d : Dev} {pin : Nat} {t : Stamp} (next : d.nextEdge pin (d.pin pin).edgeFrom = some t) (due : t ≤ d.now) :
    d.tioOutputEdge pin = ((d.pulseLength pin).2.setPin pin
      { (d.pulseLength pin).2.pin pin with high := true, pulseEnd := d.ref + (d.pulseLength pin).1, edgeFrom := d.now + 1 }).emit
        (.pin pin true t) := by
  simp only [Dev.tioOutputEdge, next, if_pos due]

/-- Settles O10: each end where what it ends has run out. -/
theorem timeEventsAndPins : Obligations.TimeEventsAndPins := by
  unfold Obligations.TimeEventsAndPins
  refine ⟨fun s out => ⟨fun slews done_ => ?_, fun steps done_ => ?_, fun there => ?_, ?_⟩, fun s pin out =>
    ⟨fun t next due => ?_, fun high due => ?_⟩⟩
  · exact exec_leaves (fun d => d.slewEnd) out rfl (if_pos (by simp [slews, done_]))
  · exact exec_leaves (fun d => d.stepEnd) out rfl (if_pos (by simp [steps, done_]))
  · exact exec_leaves (fun d => d.refLost) out rfl (if_neg (by simp [there]))
  · exact exec_leaves (fun d => d.refReturn) out rfl rfl
  · exact exec_leaves (fun d => d.tioOutputEdge pin) out rfl (Dev.tioOutputEdge_due next due)
  · exact exec_leaves (fun d => d.tioPulseEnd pin) out rfl (if_pos (by simp [high, due]))

/-! ## One cycle (R29, R33, R34) -/

section Cycle
variable (m : Mer)

/-- The slew adds no more than its part of a cycle. -/
theorem Mer.slewNow_natAbs : m.slewNow.natAbs ≤ 2 * m.slewPpm.natAbs * 2 ^ 48 * 16 := by
  have part : m.slewPart.natAbs = 2 * m.slewPpm.natAbs * 2 ^ 48 * 16 := by simp [Mer.slewPart, Int.natAbs_mul]
  rw [← part]
  unfold Mer.slewNow
  split
  · assumption
  · exact Nat.le_refl _

/-- Without an offset the slew adds nothing. -/
theorem Mer.slewNow_none (h : m.slewLeft = 0) : m.slewNow = 0 := by simp [Mer.slewNow, h]

/-- A slew towards its offset leaves no more of it than there was. -/
theorem Mer.slewLeft_shrinks (h : 0 ≤ m.slewLeft * m.slewPpm) : (m.slewLeft - m.slewNow).natAbs ≤ m.slewLeft.natAbs := by
  unfold Mer.slewNow
  split
  · simp
  next more =>
    have part : m.slewPart = m.slewPpm * (2 ^ 53) := by unfold Mer.slewPart; omega
    rcases Int.lt_trichotomy m.slewLeft 0 with neg | zero | pos
    · have : m.slewPpm ≤ 0 := Int.not_lt.1 fun above => Int.not_le.2 (Int.mul_neg_of_neg_of_pos neg above) h
      omega
    · simp [zero] at more
    · have : 0 ≤ m.slewPpm := Int.not_lt.1 fun below => Int.not_le.2 (Int.mul_neg_of_pos_of_neg pos below) h
      omega

/-- A backward step absorbs no more than is left of it, and leaves a sixteenth of the rate part. -/
theorem Mer.absorbNow_le : m.absorbNow ≤ m.stepLeft ∧ m.absorbNow ≤ m.ratePart / 16 * 15 := ⟨Nat.min_le_right .., Nat.min_le_left ..⟩

/-- A rate inside 1,000 ppm moves a cycle by 2 ns to within a thousandth. -/
theorem Mer.ratePart_ge (rate : m.rateA.natAbs ≤ 281474976710) : 31 * 16 * stampUnit + 2 * 1000 * 2 ^ 48 * 16 * 16 ≤ m.ratePart := by
  have low : (2 ^ 48 - 281474976710 : Int) ≤ 2 ^ 48 + m.rateA := by omega
  unfold Mer.ratePart stampUnit
  omega

/-- With the rate and the slew inside their limits the counter of a cycle does not go below what it was, so it is what the parts say. -/
theorem Mer.cycle_acc (rate : m.rateA.natAbs ≤ 281474976710) (slew : m.slewPpm.natAbs ≤ 1000) :
    (m.cycle.acc : Int) = m.acc + m.ratePart - m.absorbNow + m.slewNow ∧ m.acc + 31 * stampUnit ≤ m.cycle.acc := by
  have grows := m.ratePart_ge rate
  have slewed := m.slewNow_natAbs
  have absorbed := m.absorbNow_le.2
  have acc_eq : m.cycle.acc = (m.acc + m.ratePart - m.absorbNow + m.slewNow : Int).toNat := rfl
  omega

end Cycle

/-- What an idle cycle out of reset leaves of the Meridian. -/
theorem Dev.idle_mer {d : Dev} (out : d.inReset = false) {m : Mer} (hm : (if d.on? Fld.MER_CTRL_ENABLE then d.mer.cycle else d.mer) = m) :
    d.idle.mer = { m with refCycles := d.mer.refCycles + 1 } := by
  subst hm
  rw [Dev.idle, if_neg (by simp [out]), Dev.shapersCycle, Dev.setTm_mer, Dev.tick, Dev.setMer]

/-- Settles O11: an idle step is the tick, whose cycle moves by its parts. -/
theorem meridianCycle : Obligations.MeridianCycle := by
  unfold Obligations.MeridianCycle
  intro s empty
  refine ⟨fun held => ?_, fun out off => ?_, fun out on rate slew => ?_⟩
  · rw [step_nil empty, Dev.idle, if_pos held]
    rfl
  · exact ⟨_, step_nil empty, empty, Dev.idle_mer out (if_neg (by simp [off]))⟩
  · have mer_eq : (withDev s s.toDev.idle).toDev.mer = { s.toDev.mer.cycle with refCycles := s.toDev.mer.refCycles + 1 } :=
      Dev.idle_mer out (if_pos on)
    obtain ⟨acc, rise⟩ := s.toDev.mer.cycle_acc rate slew
    refine ⟨_, step_nil empty, empty, ?_⟩
    rw [mer_eq]
    have slewLeft : s.toDev.mer.cycle.slewLeft = s.toDev.mer.slewLeft - s.toDev.mer.slewNow := rfl
    have stepLeft : s.toDev.mer.cycle.stepLeft = s.toDev.mer.stepLeft - s.toDev.mer.absorbNow := rfl
    have absorbed := s.toDev.mer.absorbNow_le.1
    refine ⟨rfl, fun noSlew noStep => ?_, ?_, ?_, fun same => s.toDev.mer.slewLeft_shrinks same, ?_, rise⟩
    · have := s.toDev.mer.slewNow_none noSlew
      dsimp only
      omega
    · dsimp only
      omega
    · dsimp only
      rw [slewLeft, Int.sub_sub_self]
      exact s.toDev.mer.slewNow_natAbs
    · exact Nat.sub_le ..

end Sys2Proof.Machine
end

section
/-!
Register accesses as rows: reads and writes that reach a register, and what answers the others (R3, R4, R415 to R421).
-/
namespace Sys2Proof.Machine

open Sys2Proof.Safety

/-! ## REGISTER_READ and REGISTER_WRITE (R3) -/

/-- An 8-byte alignment is a 4-byte one of both words. -/
theorem locAligned_words {loc : Loc} (h : locAligned loc 8 = true) : locAligned loc 4 = true ∧ locAligned (nextWord loc) 4 = true := by
  unfold locAligned at h ⊢
  rw [beq_iff_eq] at h
  have next : locOffset (nextWord loc) = locOffset loc + 4 := by cases loc <;> rfl
  rw [beq_iff_eq, beq_iff_eq, next]
  omega

section Sizes
variable (d : Dev) (req : Requester) {loc : Loc} (v : BitVec 64)

theorem Dev.registerWrite_four (h : locAligned loc 4 = true) : d.registerWrite req loc 4 v = d.regWrite req loc (v.setWidth 32) := by
  simp [Dev.registerWrite, h]

theorem Dev.registerWrite_eight (h : locAligned loc 8 = true) :
    d.registerWrite req loc 8 v = (d.registerWrite req loc 4 v).registerWrite req (nextWord loc) 4 (v >>> 32) := by
  rw [Dev.registerWrite_four _ _ _ (locAligned_words h).1, Dev.registerWrite_four _ _ _ (locAligned_words h).2, Dev.registerWrite]
  simp [h]

theorem Dev.registerRead_four (h : locAligned loc 4 = true) : d.registerRead req loc 4 = d.regRead req loc := by
  simp [Dev.registerRead, h]

theorem Dev.registerRead_eight (h : locAligned loc 8 = true) :
    d.registerRead req loc 8 = (d.registerRead req loc 4).registerRead req (nextWord loc) 4 := by
  rw [Dev.registerRead_four _ _ (locAligned_words h).1, Dev.registerRead_four _ _ (locAligned_words h).2, Dev.registerRead]
  simp [h]

end Sizes

/-- A row out of reset whose operation is two others', one after the other, is the second after the first. -/
theorem exec_then {s t : State} {i j k : Instr} {f g h : Dev → Dev} (out : s.toDev.inReset = false) (hi : exec i s = s.on f)
    (hj : exec j s = s.on g) (hk : exec k t = t.on h) (both : f s.toDev = h (g s.toDev)) (first : exec j s = .next t)
    (still : t.toDev.inReset = false) : exec i s = exec k t := by
  rw [exec_out out hj] at first
  cases first
  rw [exec_out out hi, exec_out still hk, both]
  rfl

/-! ## O12 -/

/-- A read of a register that does not latch answers its word without the write-only bits. -/
theorem Dev.readReg_plain (d : Dev) {a : RegAt} (latch : a.reg.latches = false) (send : a.reg ≠ .MBX_SEND) :
    d.readReg a = (d.wordOf a &&& ~~~ ((a.reg.access a.word).wo ||| (a.reg.access a.word).w1p),
      d.clearRead a (d.wordOf a &&& ~~~ ((a.reg.access a.word).wo ||| (a.reg.access a.word).w1p))) := by
  simp only [Dev.readReg, latch, send, if_false, Bool.false_eq_true]

/-- Settles O12: writes and reads of four bytes that reach a register, and writes of eight. -/
theorem registerAccesses : Obligations.RegisterAccesses := by
  unfold Obligations.RegisterAccesses
  refine ⟨fun s req loc l a v => ⟨fun h al h1 h2 h3 => ?_, fun out al t first still => ?_⟩, fun s req loc l a h al latch send => ?_⟩
  · exact exec_wrote (g := fun d => d.registerWrite req loc 4 v) h rfl (Dev.registerWrite_four _ _ _ al) ⟨h1, h2, h3⟩ rfl
  · exact exec_then (f := fun d => d.registerWrite req loc 8 v) (g := fun d => d.registerWrite req loc 4 v)
      (h := fun d => d.registerWrite req (nextWord loc) 4 (v >>> 32)) out rfl rfl rfl (Dev.registerWrite_eight _ _ _ al) first still
  · exact exec_read (g := fun d => d.registerRead req loc 4) h rfl (Dev.registerRead_four _ _ al) (Dev.readReg_plain _ latch send)

/-! ## O13 -/

/-- The spot that an access of a size means: a reserved one unless it is 4 bytes, aligned (R3). -/
def Dev.spotOf (e : Dev) (req : Requester) (loc l : Loc) (size : Nat) : Spot :=
  if size = 4 && locAligned loc 4 then e.spotAt req l else .reserved

/-- The BAR that a capture names. -/
def barOf : Loc → Nat
  | .msix .. => 1
  | _ => 0

/-- The record of a write that its target drops (R421). -/
def Dev.recordDropped (e x : Dev) (req : Requester) (l : Loc) (sp : Spot) (v : BitVec 64) : Dev :=
  if barOf l = 1 then x else x.logWrite req l (e.regSource l sp) (regFunction l sp) e.now (v.setWidth 32) false true

/-- The capture of a write at a reserved location, which is a host's alone (R311). -/
def Dev.captured (e : Dev) (req : Requester) (l : Loc) : Dev :=
  match req with
  | .host f => e.busError f (barOf l) 0 (locOffset l)
  | _ => e

section Size
variable {d : Dev} {req : Requester} {loc l : Loc} (seen : reach req loc = some l) (may : d.canAccess req = true) {size : Nat}
  (single : size = 8 → locAligned loc 8 = false)
include seen may single

/-- An access that is not two is one, of its size. -/
theorem Dev.registerRead_single : d.registerRead req loc size = answered req ((d.noteJtag req).readAt req l (size = 4 && locAligned loc 4)) := by
  have one : ¬((decide (size = 8) && locAligned loc 8) = true) := by simpa using single
  rw [Dev.registerRead, if_neg one, Dev.regRead]
  simp only [seen, may, if_true]

theorem Dev.registerWrite_single (v : BitVec 64) : d.registerWrite req loc size v =
    answered req ((d.noteJtag req).writeAt req l (size = 4 && locAligned loc 4) (v.setWidth 32)) := by
  have one : ¬((decide (size = 8) && locAligned loc 8) = true) := by simpa using single
  rw [Dev.registerWrite, if_neg one, Dev.regWrite]
  simp only [seen, may, if_true]

end Size

section Target
variable {e : Dev} {req : Requester} {l : Loc} {aligned : Bool}

/-- Out of STANDBY a host's access is barred in D3hot alone (R290). -/
theorem Dev.hostBarred_awake (awake : e.standby = false) (live : ∀ f, req = .host f → (e.hif.cfg.getD f {}).d3hot = false) (sp : Spot) :
    e.hostBarred req sp = false := by
  cases req with
  | host f => simp [Dev.hostBarred, awake, live f rfl]
  | core => rfl
  | jtag => rfl

/-- A function in D3hot is barred. -/
theorem Dev.hostBarred_d3hot {f : Nat} (host : req = .host f) (cold : (e.hif.cfg.getD f {}).d3hot = true) (sp : Spot) :
    e.hostBarred req sp = true := by
  subst host
  simp [Dev.hostBarred, cold]

/-- A read at a reserved location is refused and leaves nothing (R416). -/
theorem Dev.readAt_reserved (awake : e.standby = false) (live : ∀ f, req = .host f → (e.hif.cfg.getD f {}).d3hot = false)
    (reserved : (if aligned then e.spotAt req l else .reserved) = .reserved) : e.readAt req l aligned = (refusal req false false, e) := by
  simp [Dev.readAt, reserved, Dev.hostBarred_awake awake live, awake]

/-- A write at a reserved location is refused, captured for a host, and recorded (R311, R416, R421). -/
theorem Dev.writeAt_reserved (awake : e.standby = false) (live : ∀ f, req = .host f → (e.hif.cfg.getD f {}).d3hot = false)
    (reserved : (if aligned then e.spotAt req l else .reserved) = .reserved) (v : BitVec 64) :
    e.writeAt req l aligned (v.setWidth 32) = (refusal req false true,
      e.recordDropped (e.captured req l) req l .reserved v) := by
  unfold Dev.writeAt
  simp only [reserved, Dev.hostBarred_awake awake live, awake, Bool.false_and, Bool.false_eq_true, if_false, if_true]
  cases req <;> rfl

/-- A read at an unavailable target is refused and captured (R415, R424). -/
theorem Dev.readAt_unavailable {a : RegAt} {b : Nat} (awake : e.standby = false) (al : aligned = true) (at_ : e.spotAt req l = .reg a)
    (open_ : e.hostBarred req (.reg a) = false) (off : e.unavailable (.reg a) = some b) :
    e.readAt req l aligned = (refusal req true false, e.domainError req l b false) := by
  simp [Dev.readAt, al, at_, open_, awake, off]

/-- A write at an unavailable target is refused, captured and recorded (R415, R421, R424). -/
theorem Dev.writeAt_unavailable {a : RegAt} {b : Nat} (awake : e.standby = false) (al : aligned = true) (at_ : e.spotAt req l = .reg a)
    (open_ : e.hostBarred req (.reg a) = false) (off : e.unavailable (.reg a) = some b) (v : BitVec 64) :
    e.writeAt req l aligned (v.setWidth 32) = (refusal req true true, e.recordDropped (e.domainError req l b true) req l (.reg a) v) := by
  unfold Dev.writeAt
  simp only [al, if_true, at_, open_, awake, Bool.false_and, Bool.false_eq_true, if_false, reduceCtorEq, off]
  rfl

/-- A function in D3hot meets Unsupported Request (R290). -/
theorem Dev.readAt_d3hot {f : Nat} (host : req = .host f) (cold : (e.hif.cfg.getD f {}).d3hot = true) :
    e.readAt req l aligned = (.unsupportedRequest, e) := if_pos (Dev.hostBarred_d3hot host cold _)

theorem Dev.writeAt_d3hot {f : Nat} (host : req = .host f) (cold : (e.hif.cfg.getD f {}).d3hot = true) (v : Word) :
    e.writeAt req l aligned v = (.done, e) := if_pos (Dev.hostBarred_d3hot host cold _)

end Target

/-- An access of another size than 4, or unaligned, meets a reserved location; so does one that finds none. -/
theorem reserved_of {e : Dev} {req : Requester} {loc l : Loc} {size : Nat}
    (four : size = 4 → locAligned loc 4 = true → e.spotAt req l = .reserved) :
    (if decide (size = 4) && locAligned loc 4 then e.spotAt req l else .reserved) = .reserved := by
  split
  next h => exact four (of_decide_eq_true (Bool.and_eq_true_iff.1 h).1) (Bool.and_eq_true_iff.1 h).2
  next => rfl

/-- The capture of a write at a reserved location, with cause 0. -/
theorem Dev.busError_reserved (d : Dev) (f bar off : Nat) :
    d.busError f bar 0 off = if d.on? Fld.HIF_BUS_ERR_VALID then (d.bump .HIF_BUS_ERR_COUNT).set Fld.HIF_BUS_ERR_MULTI 0 1
      else ((d.bump .HIF_BUS_ERR_COUNT).wr .HIF_BUS_ERR 0 0 (toWord (2 ^ 31 + bar * 2 ^ 27 + f * 2 ^ 16))).wr .HIF_BUS_ERR_ADDR 0 0
        (toWord off) := by
  rw [Dev.busError, Nat.zero_mul, Nat.add_zero]

/-- Settles O13: an access is one of its size, and its target refuses it. -/
theorem accessErrors : Obligations.AccessErrors := by
  unfold Obligations.AccessErrors
  intro s req loc l out may seen
  dsimp only
  intro awake
  refine ⟨fun size v live eight four => ⟨?_, ?_⟩, fun a b v al at_ open_ off => ⟨?_, ?_⟩, fun size f v host cold eight => ⟨?_, ?_⟩,
    fun al t first still => ?_⟩
  · refine exec_leaves (fun d => d.registerRead req loc size) out rfl ?_
    rw [Dev.registerRead_single seen may eight, Dev.readAt_reserved awake live (reserved_of four)]
    cases req <;> rfl
  · refine (exec_leaves (i := .registerWrite req loc size v) (fun d => d.registerWrite req loc size v) out rfl
      ((Dev.registerWrite_single seen may eight v).trans
        (congrArg (answered req) (Dev.writeAt_reserved awake live (reserved_of four) v)))).trans ?_
    cases req with
    | host f =>
      rw [Dev.captured, Dev.busError_reserved]
      rfl
    | core => rfl
    | jtag => rfl
  · refine exec_leaves (fun d => d.registerRead req loc 4) out rfl ?_
    rw [Dev.registerRead_single seen may (size := 4) nofun, Dev.readAt_unavailable awake (by simp [al]) at_ open_ off]
    cases req <;> rfl
  · refine exec_leaves (fun d => d.registerWrite req loc 4 v) out rfl ?_
    rw [Dev.registerWrite_single seen may (size := 4) nofun, Dev.writeAt_unavailable awake (by simp [al]) at_ open_ off]
    cases req <;> rfl
  · refine exec_leaves (fun d => d.registerRead req loc size) out rfl ?_
    rw [Dev.registerRead_single seen may fun e => absurd e eight, Dev.readAt_d3hot host cold]
    rfl
  · refine exec_leaves (fun d => d.registerWrite req loc size v) out rfl ?_
    rw [Dev.registerWrite_single seen may fun e => absurd e eight, Dev.writeAt_d3hot host cold]
    rfl
  · exact exec_then (f := fun d => d.registerRead req loc 8) (g := fun d => d.registerRead req loc 4)
      (h := fun d => d.registerRead req (nextWord loc) 4) out rfl rfl rfl (Dev.registerRead_eight _ _ al) first still

end Sys2Proof.Machine
end

section
/-!
Rows of single registers: thread controls, ENABLE bits, latching reads, doorbells and mailboxes.
-/
namespace Sys2Proof.Machine

open Sys2Proof.Safety

/-! ## A row's write -/

/-- A write of the register stores its fields under their codes; GO writes and the debug unit's views of a thread do not (R89, R425). -/
def Reg.stores (r : Reg) : Bool := decide (r ≠ .DBG_RESET_CTRL) && decide (r ≠ .DBG_THREAD_GREG) && decide (r ≠ .DBG_THREAD_PC)

/-- A row whose operation writes one word of a register that stores it. -/
theorem exec_writes {s : State} {i : Instr} {req : Requester} {loc l : Loc} {a : RegAt} {v : Word} {f : Dev → Dev} (g : Dev → Dev)
    (h : Reaches s.toDev req loc l a) (hi : exec i s = s.on g) (hg : g s.toDev = s.toDev.regWrite req loc v)
    (stores : a.reg.stores = true)
    (hf : (stored (s.toDev.noteJtag req) a v).afterWrite a ((s.toDev.noteJtag req).rd a.reg a.item a.word) v =
      f (stored (s.toDev.noteJtag req) a v)) : exec i s = .next (wrote s req l a v f) := by
  simp only [Reg.stores, Bool.and_eq_true, decide_eq_true_eq, and_assoc] at stores
  exact exec_wrote h hi hg stores hf

/-- A location that reaches a register is none of an MSI-X table. -/
theorem barOf_reached {d : Dev} {req : Requester} {loc l : Loc} {a : RegAt} (h : Reaches d req loc l a) : barOf l = 0 := by
  have at_ := h.at_
  cases l with
  | msix f o =>
    simp only [Dev.spotAt] at at_
    repeat' split at at_
    all_goals exact Spot.noConfusion at_
  | dev off => rfl
  | page f off => rfl

/-- A write that reaches a register, whatever it is, leaves what the write of that register leaves, its record and its answer. -/
theorem Dev.regWrite_reached {d : Dev} {req : Requester} {loc l : Loc} {a : RegAt} {v : Word} {x : Dev} {kept : Bool}
    (h : Reaches d req loc l a) (hw : (d.noteJtag req).writeReg a l v = (kept, x)) :
    d.regWrite req loc v = (x.logWrite req l ((d.noteJtag req).regSource l (.reg a)) (regFunction l (.reg a)) (d.noteJtag req).now v kept
      false).emit (.answer req .done) := by
  have bar : ¬(barOf l = 1) := by simp [barOf_reached h]
  simp only [Dev.regWrite, h.seen, h.may, if_true, answered, Dev.writeAt, h.at_, h.open_, h.awake, h.there, if_false,
    Bool.false_eq_true, hw, reduceCtorEq]
  exact congrArg (fun y : Dev => y.emit (.answer req .done)) (if_neg bar)

/-- A row of an item that its register has is its operation. -/
theorem Dev.named_lt (d : Dev) {r : Reg} {n : Nat} (h : n < r.info.count) (g : Dev → Dev) : d.named r n g = g d := if_pos h

/-! ## O14 -/

/-- DBG_THREAD_CTRL takes its ones in the order of its bits; one bit is one control. -/
theorem Dev.threadCtrlWrite_bit (d : Dev) (t : Nat) :
    d.threadCtrlWrite t 1 = d.haltWrite t ∧ d.threadCtrlWrite t 2 = d.resumeWrite t ∧ d.threadCtrlWrite t 4 = d.stepWrite t ∧
      d.threadCtrlWrite t 8 = d.abandonWrite t ∧ d.threadCtrlWrite t 16 = d.pokeWrite t :=
  ⟨rfl, rfl, rfl, rfl, rfl⟩

/-- DBG_THREAD_GREG writes a register of the selected halted thread, DBG_THREAD_PC its program counter (R89). -/
theorem Dev.writeReg_greg {d : Dev} {h : Nat} (sel : d.selectedHalted = some h) {k : Nat} {l : Loc} {w : Word} :
    d.writeReg (devAt .DBG_THREAD_GREG k) l w = (false, d.updThread h fun x => x.setReg k w) := by
  simp [Dev.writeReg, Dev.afterWrite, devAt, sel]

theorem Dev.writeReg_pc {d : Dev} {h : Nat} (sel : d.selectedHalted = some h) {l : Loc} {w : Word} :
    d.writeReg (devAt .DBG_THREAD_PC 0) l w = (false, d.updThread h fun x => { x with pc := bitsOf w 13 0 }) := by
  simp [Dev.writeReg, Dev.afterWrite, devAt, sel]

/-- Settles O14: one bit of DBG_THREAD_CTRL is one control; the debug registers write the selected thread. -/
theorem threadControls : Obligations.ThreadControls := by
  unfold Obligations.ThreadControls
  intro s req t l ht
  refine ⟨fun h => ⟨?_, ?_, ?_, ?_, ?_⟩, fun w h => ?_, fun k h w sel => ⟨fun hk hr => ?_, fun hr => ?_⟩⟩
  · exact exec_writes (fun d => d.threadCtrl req t 0) h rfl (Dev.named_lt _ ht _) rfl rfl
  · exact exec_writes (fun d => d.threadCtrl req t 1) h rfl (Dev.named_lt _ ht _) rfl rfl
  · exact exec_writes (fun d => d.threadCtrl req t 2) h rfl (Dev.named_lt _ ht _) rfl rfl
  · exact exec_writes (fun d => d.threadCtrl req t 3) h rfl (Dev.named_lt _ ht _) rfl rfl
  · exact exec_writes (fun d => d.threadCtrl req t 4) h rfl (Dev.named_lt _ ht _) rfl rfl
  · exact exec_writes (fun d => d.named .PCA_THREAD_CTRL t fun e => e.regWrite req (regLoc .PCA_THREAD_CTRL t) w) h rfl
      (Dev.named_lt _ ht _) rfl rfl
  · refine exec_leaves (fun d => d.named .DBG_THREAD_GREG k fun e => e.regWrite req (regLoc .DBG_THREAD_GREG k) w) hr.out rfl ?_
    rw [Dev.named_lt _ hk, Dev.regWrite_reached hr (Dev.writeReg_greg sel)]
  · refine exec_leaves (fun d => d.regWrite req (regLoc .DBG_THREAD_PC 0) w) hr.out rfl ?_
    rw [Dev.regWrite_reached hr (Dev.writeReg_pc sel)]

/-! ## O15 -/

/-- The words of a device window lie within its megabyte, so none of another window is SEC_STAT's. -/
theorem regKey_ne_secStat {r : Reg} {n : Nat} (queue : r ≠ .HIF_QP_CTX) (device : r.info.page = false) (window : r.info.window ≠ 16)
    (fits : r.info.off + 4 * (r.info.words * r.info.count) ≤ 0x100000) (words : 0 < r.info.words) (hn : n < r.info.count) :
    regKey r n 0 ≠ regKey .SEC_STAT 0 0 := by
  have stat : regKey .SEC_STAT 0 0 = 0x1000000 := rfl
  have key : regKey r n 0 = 0x100000 * r.info.window + r.info.off + 4 * (r.info.words * n + 0) := by
    rw [regKey, if_neg queue, device]
    rfl
  have below : r.info.words * n < r.info.words * r.info.count := Nat.mul_lt_mul_of_pos_left hn words
  omega

/-- A JTAG access notes itself in SEC_STAT alone (R440). -/
theorem Dev.rd_noteJtag (d : Dev) (req : Requester) {r : Reg} {n w : Nat} (h : regKey r n w ≠ regKey .SEC_STAT 0 0) :
    (d.noteJtag req).rd r n w = d.rd r n w := by
  unfold Dev.noteJtag
  split
  · exact d.rd_wr_ne _ h
  · rfl

/-- A one-bit field is its bit of the word. -/
theorem Dev.on?_eq_getLsbD (d : Dev) (r : Reg) (i w bit : Nat) : d.on? ⟨r, w, bit, bit⟩ i = (d.rd r i w).getLsbD bit := by
  have value : bitsOf (d.rd r i w) bit bit = ((d.rd r i w).getLsbD bit).toNat := by
    refine Nat.eq_of_testBit_eq fun j => ?_
    rw [testBit_bitsOf]
    cases j with
    | zero => cases (d.rd r i w).getLsbD bit <;> simp
    | succ j => cases (d.rd r i w).getLsbD bit <;> simp [Nat.testBit_succ]
  rw [Dev.on?, Dev.get, value]
  cases (d.rd r i w).getLsbD bit <;> rfl

/-- A written bit of code RW is the bit of the value. -/
theorem on?_stored (e : Dev) (a : RegAt) (v : Word) {bit : Nat} (rw_ : (a.reg.access a.word).rw.getLsbD bit = true) :
    (stored e a v).on? ⟨a.reg, a.word, bit, bit⟩ a.item = v.getLsbD bit := by
  rw [Dev.on?_eq_getLsbD, stored, Dev.rd_wr]
  simp only [Access.merge, BitVec.getLsbD_or, BitVec.getLsbD_and, BitVec.getLsbD_not, rw_, Bool.true_or, Bool.not_true, Bool.and_false,
    Bool.false_or, Bool.and_true]

/-- A register of a device window, stored, whose bit is of code RW. -/
structure Reg.Holds (r : Reg) (bit : Nat) : Prop where
  stores : r.stores = true
  queue : r ≠ .HIF_QP_CTX
  device : r.info.page = false
  window : r.info.window ≠ 16
  fits : r.info.off + 4 * (r.info.words * r.info.count) ≤ 0x100000
  words : 0 < r.info.words
  rw_ : (r.access 0).rw.getLsbD bit = true

section Bit
variable {s : State} {i : Instr} {req : Requester} {r : Reg} {n bit : Nat} {l : Loc} {v : Word} {f : Dev → Dev} (holds : r.Holds bit)
  (hn : n < r.info.count) (h : Reaches s.toDev req (regLoc r n) l (devAt r n)) (g : Dev → Dev) (hi : exec i s = s.on g)
  (hg : g s.toDev = s.toDev.regWrite req (regLoc r n) v)
include holds hn h hi hg

/-- A row that writes a bit of a register leaves what follows a write that found the bit `was` and leaves it as written. -/
theorem exec_writes_bit {was : Bool} (old : (s.toDev.rd r n).getLsbD bit = was)
    (follows : ∀ (b : Dev) (o : Word), o.getLsbD bit = was → b.on? ⟨r, 0, bit, bit⟩ n = v.getLsbD bit →
      b.afterWrite (devAt r n) o v = f b) : exec i s = .next (wrote s req l (devAt r n) v f) := by
  refine exec_writes g h hi hg holds.stores (follows _ _ ?_ (on?_stored _ (devAt r n) v holds.rw_))
  rw [← old]
  exact congrArg (fun w : Word => w.getLsbD bit) (s.toDev.rd_noteJtag req
    (regKey_ne_secStat holds.queue holds.device holds.window holds.fits holds.words hn))

end Bit

section Bit31
variable {s : State} {i : Instr} {req : Requester} {r : Reg} {n : Nat} {l : Loc} {v : Word} {f : Dev → Dev} (holds : r.Holds 31)
  (hn : n < r.info.count) (h : Reaches s.toDev req (regLoc r n) l (devAt r n))
include holds hn h

/-- A row that takes bit 31 of a register from 0 to 1. -/
theorem exec_writeOn (hi : exec i s = s.on fun d => d.writeOn req r n v) (on : v.getLsbD 31 = true) (old : (s.toDev.rd r n).getLsbD 31 = false)
    (follows : ∀ (b : Dev) (o : Word), o.getLsbD 31 = false → b.on? ⟨r, 0, 31, 31⟩ n = true → b.afterWrite (devAt r n) o v = f b) :
    exec i s = .next (wrote s req l (devAt r n) v f) :=
  exec_writes_bit holds hn h _ hi ((if_pos hn).trans (if_pos (by rw [on, old]; rfl))) old fun b o ho hb => follows b o ho (hb.trans on)

/-- A row that takes bit 31 of a register from 1 to 0. -/
theorem exec_writeOff (hi : exec i s = s.on fun d => d.writeOff req r n v) (off : v.getLsbD 31 = false)
    (old : (s.toDev.rd r n).getLsbD 31 = true)
    (follows : ∀ (b : Dev) (o : Word), o.getLsbD 31 = true → b.on? ⟨r, 0, 31, 31⟩ n = false → b.afterWrite (devAt r n) o v = f b) :
    exec i s = .next (wrote s req l (devAt r n) v f) :=
  exec_writes_bit holds hn h _ hi ((if_pos hn).trans (if_pos (by rw [off, old]; rfl))) old fun b o ho hb => follows b o ho (hb.trans off)

end Bit31

/-! ## What follows a write of an ENABLE bit -/

section Follows
variable {b : Dev} {o : Word} (n : Nat)

theorem Dev.portCfgWritten_on (ho : o.getLsbD 31 = false) (hb : b.on? Fld.PRT_PORT_CFG_ENABLE n = true) :
    b.portCfgWritten n o =
      (b.runMode n (b.modeOf n) false).setPort n { (b.runMode n (b.modeOf n) false).port n with interval := b.ref, bitsRx := 0, bitsTx := 0 } := by
  simp only [Dev.portCfgWritten, ho, hb]

/-- A port that has been disabled, with its link down. -/
def Dev.portDown (b : Dev) (n : Nat) : Dev := ((b.linkFails n).set Fld.PRT_LINK_STAT_CUR_MODE n 0).set Fld.PRT_LINK_STAT_STEPPED n 0

theorem Dev.portCfgWritten_off (ho : o.getLsbD 31 = true) (hb : b.on? Fld.PRT_PORT_CFG_ENABLE n = false) :
    b.portCfgWritten n o = (b.portDown n).setPort n { (b.portDown n).port n with sent := ⟨[]⟩, stepAt := none } := by
  simp only [Dev.portCfgWritten, ho, hb]
  rfl

theorem Dev.tblCtrlWritten_on (ho : o.getLsbD 31 = false) (hb : b.on? Fld.TBL_CTRL_ENABLE = true) :
    b.tblCtrlWritten o = b.setTbl fun x => { x with scan := some (b.ref, 0), lastPass := some b.ref, passCfg := b.rd .TBL_AGE_CFG } := by
  simp only [Dev.tblCtrlWritten, ho, hb]

theorem Dev.tblCtrlWritten_off (ho : o.getLsbD 31 = true) (hb : b.on? Fld.TBL_CTRL_ENABLE = false) :
    b.tblCtrlWritten o = b.setTbl fun x => { x with scan := none, learnQ := [] } := by
  simp only [Dev.tblCtrlWritten, ho, hb]

theorem Dev.descCfgWritten_on (ho : o.getLsbD 31 = false) (hb : b.tblEnabled n = true) : b.descCfgWritten n o = b.startClearing n :=
  if_pos (by rw [ho, hb]; rfl)

theorem Dev.descCfgWritten_off (ho : o.getLsbD 31 = true) : b.descCfgWritten n o = b := if_neg (by rw [ho]; exact Bool.false_ne_true)

theorem Dev.shaperCtrlWritten_on (ho : o.getLsbD 31 = false) (hb : b.shaperOn n = true) :
    b.shaperCtrlWritten n o = b.setShaper n { b.shaper n with
      credit := if b.on? Fld.TMG_SHAPER_CTRL_CREDIT_INIT n then b.get Fld.TMG_SHAPER_HI_HI_LIMIT n * 204800000 else 0 } :=
  if_pos (by rw [ho, hb]; rfl)

theorem Dev.shaperCtrlWritten_off (ho : o.getLsbD 31 = true) : b.shaperCtrlWritten n o = b := if_neg (by rw [ho]; exact Bool.false_ne_true)

theorem Dev.merCtrlWritten_on (ho : o.getLsbD 0 = false) (hb : b.on? Fld.MER_CTRL_ENABLE = true) : b.merCtrlWritten o = b.merEnable := by
  simp only [Dev.merCtrlWritten, ho, hb]

theorem Dev.merCtrlWritten_off (ho : o.getLsbD 0 = true) (hb : b.on? Fld.MER_CTRL_ENABLE = false) : b.merCtrlWritten o = b.merDisable := by
  simp only [Dev.merCtrlWritten, ho, hb]

theorem Dev.logCtrlWritten_on (ho : o.getLsbD 31 = false) (hb : b.on? Fld.DBG_LOG_CTRL_ENABLE = true) :
    b.logCtrlWritten o = ({ b with log := { b.log with filled := 0 } } : Dev).set Fld.DBG_LOG_CTRL_STOPPED 0 0 :=
  if_pos (by rw [ho, hb]; rfl)

end Follows

/-- A write of MER_LOAD leaves the enable of the Meridian. -/
theorem on?_stored_merLoad (d : Dev) (req : Requester) (v : Word) (n : Nat) :
    (stored (d.noteJtag req) (devAt .MER_LOAD 0 n) v).on? Fld.MER_CTRL_ENABLE = d.on? Fld.MER_CTRL_ENABLE := by
  have load : regKey .MER_CTRL 0 0 ≠ regKey .MER_LOAD 0 n := by
    have ctrl : regKey .MER_CTRL 0 0 = 0x300000 := rfl
    have word : regKey .MER_LOAD 0 n = 0x300000 + 0x20 + 4 * (3 * 0 + n) := rfl
    omega
  have word : (stored (d.noteJtag req) (devAt .MER_LOAD 0 n) v).rd .MER_CTRL = d.rd .MER_CTRL :=
    (Dev.rd_wr_ne _ _ load).trans (d.rd_noteJtag req (by decide))
  exact congrArg (fun x : Word => bitsOf x 0 0 == 1) word

/-- Settles O15: each write of an ENABLE bit is `exec_writes_bit` with what follows a write of its register. -/
theorem enables : Obligations.Enables := by
  unfold Obligations.Enables
  refine ⟨fun s req n w l => ⟨fun hn h => ⟨fun on old => ?_, fun off old => ?_⟩, fun hn h => ⟨fun on old => ?_, fun off old => ?_⟩,
    fun h => ⟨fun on old => ?_, fun off old => ?_⟩, fun hn h => ⟨fun on old => ?_, fun off old => ?_⟩, fun hn h off => ?_⟩,
    fun s req n w l => ⟨fun hn off h => ?_, fun h => ⟨fun on old => ?_, fun off old => ?_⟩, fun h on old => ?_⟩⟩
  · exact exec_writeOn (by constructor <;> decide) hn h rfl on old fun b o => Dev.portCfgWritten_on n
  · exact exec_writeOff (by constructor <;> decide) hn h rfl off old fun b o => Dev.portCfgWritten_off n
  · exact exec_writeOn (by constructor <;> decide) hn h rfl on old fun b o => Dev.descCfgWritten_on n
  · exact exec_writeOff (by constructor <;> decide) hn h rfl off old fun b o ho _ => Dev.descCfgWritten_off n ho
  · exact exec_writeOn (n := 0) (by constructor <;> decide) (by decide) h rfl on old fun b o => Dev.tblCtrlWritten_on
  · exact exec_writeOff (n := 0) (by constructor <;> decide) (by decide) h rfl off old fun b o => Dev.tblCtrlWritten_off
  · exact exec_writeOn (by constructor <;> decide) hn h rfl on old fun b o => Dev.shaperCtrlWritten_on n
  · exact exec_writeOff (by constructor <;> decide) hn h rfl off old fun b o ho _ => Dev.shaperCtrlWritten_off n ho
  · exact exec_writes (fun d => if w.getLsbD 31 then d else d.named .PCA_CHAN_CFG n fun e => e.regWrite req (regLoc .PCA_CHAN_CFG n) w) h
      rfl ((if_neg (ne_true_of_eq_false off)).trans (Dev.named_lt _ hn _)) rfl (if_neg (ne_true_of_eq_false off))
  · refine exec_writes (fun d => if n < 3 && !d.on? Fld.MER_CTRL_ENABLE then d.regWrite req (regLoc .MER_LOAD 0 n) w else d) h
      rfl (if_pos (by simp [hn, off])) rfl (if_neg (ne_true_of_eq_false ?_))
    rw [← off]
    exact on?_stored_merLoad s.toDev req w n
  · exact exec_writes_bit (n := 0) (by constructor <;> decide) (by decide) h (fun d => d.writeBit0 req .MER_CTRL true w) rfl
      (if_pos (by rw [on, old]; rfl)) old fun b o ho hb => Dev.merCtrlWritten_on ho (hb.trans on)
  · exact exec_writes_bit (n := 0) (by constructor <;> decide) (by decide) h (fun d => d.writeBit0 req .MER_CTRL false w) rfl
      (if_pos (by rw [off, old]; rfl)) old fun b o ho hb => Dev.merCtrlWritten_off ho (hb.trans off)
  · exact exec_writeOn (n := 0) (by constructor <;> decide) (by decide) h rfl on old fun b o => Dev.logCtrlWritten_on

/-! ## O16 -/

section Latch
variable {s : State} {i : Instr} {req : Requester} {loc l : Loc} {a : RegAt} {ws : List Word} {e : Dev} (g : Dev → Dev)
  (h : Reaches s.toDev req loc l a) (hi : exec i s = s.on g) (hg : g s.toDev = s.toDev.regRead req loc)
  (latches : a.reg.latches = true) (first : a.word = 0) (hl : (s.toDev.noteJtag req).latched a = (ws, e))
include h hi hg latches first hl

/-- A row that reads word 0 of a latching register without RC bits answers the first of its words and keeps them. -/
theorem exec_latches (rc : (a.reg.access a.word).rc = 0) : exec i s = .next (readOut s req (ws.headD 0) (e.keepLatched a ws)) := by
  refine exec_read h hi hg ((Dev.readReg_first latches first hl).trans ?_)
  rw [Dev.clearRead_of_rc_zero _ _ rc]

end Latch

/-- A word of a register whose offset is one lies at a multiple of 4. -/
theorem locAligned_regLoc {r : Reg} {n w : Nat} (h : r.info.off % 4 = 0) : locAligned (regLoc r n w) 4 = true := by
  have offset : locOffset (regLoc r n w) = 0x100000 * r.info.window + r.info.off + 4 * (r.info.words * n + w) := rfl
  rw [locAligned, offset, beq_iff_eq]
  omega

/-- A read of MER_TIO_STAMP takes the oldest stamp. -/
theorem Dev.latched_tioStamp {d : Dev} {n : Nat} {t : Stamp} {rest : List Stamp} (fifo : (d.pin n).fifo = t :: rest) :
    d.latched (devAt .MER_TIO_STAMP n) = (stampWords t, d.setPin n { d.pin n with fifo := rest }) := by
  simp only [Dev.latched, devAt, Dev.tioPop, fifo]

/-- Settles O16: each latching register's word 0 answers the first of the words that it keeps. -/
theorem latchingReads : Obligations.LatchingReads := by
  unfold Obligations.LatchingReads
  intro s req n l
  refine ⟨fun h => ?_, fun r hr zero h => ?_, fun h => ?_, fun hn h => ⟨fun empty => ?_, fun t rest fifo => ?_⟩, fun hn h => ?_,
    fun hn h => ?_, fun h => ?_⟩
  · exact exec_latches (fun d => d.regRead req (regLoc .MER_NOW 0)) h rfl rfl rfl rfl rfl rfl
  · rcases hr with rfl | ⟨rfl, hn⟩
    · cases zero rfl
      exact exec_latches (fun d => d.registerRead req (regLoc .MER_LOAD 0) 4) h rfl (Dev.registerRead_four _ _ (locAligned_regLoc rfl))
        rfl rfl rfl rfl
    · exact exec_latches (fun d => d.registerRead req (regLoc .MER_TIO_TARGET n) 4) h rfl
        (Dev.registerRead_four _ _ (locAligned_regLoc rfl)) rfl rfl rfl rfl
  · exact exec_latches (fun d => d.regRead req (regLoc .MER_RATE_ADJ 0)) h rfl rfl rfl rfl rfl rfl
  · exact exec_read (g := fun d => d.named .MER_TIO_STAMP n fun e => e.regRead req (regLoc .MER_TIO_STAMP n)) h rfl (Dev.named_lt _ hn _)
      (Dev.readReg_tioStamp_empty empty)
  · exact exec_latches (fun d => d.named .MER_TIO_STAMP n fun e => e.regRead req (regLoc .MER_TIO_STAMP n)) h rfl (Dev.named_lt _ hn _)
      rfl rfl (Dev.latched_tioStamp fifo) rfl
  · exact exec_read (g := fun d => d.named .TMG_GATE_STAT n fun e => e.regRead req (regLoc .TMG_GATE_STAT n)) h rfl (Dev.named_lt _ hn _)
      (Dev.readReg_first rfl rfl rfl)
  · exact exec_latches (fun d => d.named .FNC_GEN_REC n fun e => e.regRead req (regLoc .FNC_GEN_REC n)) h rfl (Dev.named_lt _ hn _) rfl rfl
      rfl rfl
  · exact exec_latches (fun d => d.regRead req (pageLoc n .MBX_RX_STAMP 0)) h rfl rfl rfl rfl rfl rfl

end Sys2Proof.Machine
end

section
/-!
Doorbells, queue enables and mailbox accesses (R297, R299, R306, R346 to R350, R355).
-/
namespace Sys2Proof.Machine

open Sys2Proof.Safety

/-! ## O17 -/

section Rings
variable {b : Dev} {f n : Nat} (w : Word) (open_ : b.fnState f ≠ 1)
include open_

theorem Dev.doorbell_tx (on : b.on? Fld.HIF_QP_CTX_ENABLE (b.qpBase f + n) = true) :
    b.doorbell f n false w = if sub32 w.toNat (b.qp (b.qpBase f + n)).txTail ≤ b.txSize (b.qpBase f + n)
      then b.setQp (b.qpBase f + n) { b.qp (b.qpBase f + n) with txTail := w.toNat } else b.doorbellError f (4 * n) := by
  simp [Dev.doorbell, open_, on, b2n]

theorem Dev.doorbell_rx (on : b.on? Fld.HIF_QP_CTX_ENABLE (b.qpBase f + n) = true) :
    b.doorbell f n true w = if sub32 w.toNat (b.qp (b.qpBase f + n)).rxTail ≤ b.rxSize (b.qpBase f + n)
      then b.setQp (b.qpBase f + n) { b.qp (b.qpBase f + n) with rxTail := w.toNat } else b.doorbellError f (0x100 + 4 * n) := by
  simp [Dev.doorbell, open_, on, b2n]

theorem Dev.cplHead_open (rx : Bool) : b.cplHead f n rx w = b.setQp (b.qpBase f + n)
    (if rx then { b.qp (b.qpBase f + n) with rxcHead := w.toNat } else { b.qp (b.qpBase f + n) with txcHead := w.toNat }) := if_neg open_

theorem Dev.aqTail_open (on : b.on? Fld.HIF_AQ_CFG_ENABLE f = true) :
    b.aqTail f w = if sub32 w.toNat (b.hif.aqs.getD f {}).tail ≤ b.aqSize f then b.setAq f { b.hif.aqs.getD f {} with tail := w.toNat }
      else b.doorbellError f 0x400 := by
  simp [Dev.aqTail, open_, on]

theorem Dev.aqcHead_open : b.aqcHead f w = b.setAq f { b.hif.aqs.getD f {} with head := w.toNat } := if_neg open_

end Rings

/-- A written HIF_AQ_CFG starts its queue anew, or leaves it. -/
theorem Dev.aqCfgWritten_stored {b : Dev} {f : Nat} {w : Word} (written : b.on? Fld.HIF_AQ_CFG_ENABLE f = w.getLsbD 31) :
    b.aqCfgWritten f = if w.getLsbD 31 then
        (b.setAq f {}).hostOut f (.hostWrite f ((b.rd .HIF_AQ_CFG f 6).toNat + 2 ^ 32 * (b.rd .HIF_AQ_CFG f 7).toNat) (bytesLE 4 0))
      else b := by
  rw [Dev.aqCfgWritten, written]

/-- What follows a write of word 0 of HIF_AQ_CFG. -/
theorem Dev.afterWrite_aqCfg (d e : Dev) (f : Nat) (o w : Word) : d.afterWrite (pageAt e f .HIF_AQ_CFG) o w = d.aqCfgWritten f :=
  show (if (pageAt e f .HIF_AQ_CFG).word = 0 then d.aqCfgWritten f else d) = d.aqCfgWritten f from if_pos rfl

/-- The enables of a queue pair and of an administration queue are of code RW. -/
theorem enableRw : (Reg.HIF_QP_CTX.access 0).rw.getLsbD 31 = true ∧ (Reg.HIF_AQ_CFG.access 0).rw.getLsbD 31 = true := by decide

/-- Settles O17: each doorbell, head and enable is the write of its register with what follows it. -/
theorem doorbellsAndQueues : Obligations.DoorbellsAndQueues := by
  unfold Obligations.DoorbellsAndQueues
  refine ⟨fun s req f n w l => ⟨fun hn h => ?_, fun hn h => ?_, fun hn h => ?_, fun hn h => ?_, fun h => ?_, fun h => ?_⟩,
    fun s req f n w l => ⟨fun hn h => ⟨fun on => ?_, fun off => ?_⟩, fun hf h => ?_⟩⟩
  · intro b q open_ on
    exact exec_writes (fun d => d.named .HIF_TX_TAIL n fun e => e.regWrite req (pageLoc f .HIF_TX_TAIL n) w) h rfl (Dev.named_lt _ hn _) rfl
      (Dev.doorbell_tx w open_ on)
  · intro b q open_ on
    exact exec_writes (fun d => d.named .HIF_RX_TAIL n fun e => e.regWrite req (pageLoc f .HIF_RX_TAIL n) w) h rfl (Dev.named_lt _ hn _) rfl
      (Dev.doorbell_rx w open_ on)
  · intro b q open_
    exact exec_writes (fun d => d.named .HIF_TXC_HEAD n fun e => e.regWrite req (pageLoc f .HIF_TXC_HEAD n) w) h rfl
      (Dev.named_lt _ hn _) rfl (Dev.cplHead_open w open_ false)
  · intro b q open_
    exact exec_writes (fun d => d.named .HIF_RXC_HEAD n fun e => e.regWrite req (pageLoc f .HIF_RXC_HEAD n) w) h rfl
      (Dev.named_lt _ hn _) rfl (Dev.cplHead_open w open_ true)
  · intro b q open_ on
    exact exec_writes (fun d => d.regWrite req (pageLoc f .HIF_AQ_TAIL 0) w) h rfl rfl rfl (Dev.aqTail_open w open_ on)
  · intro b open_
    exact exec_writes (fun d => d.regWrite req (pageLoc f .HIF_AQC_HEAD 0) w) h rfl rfl rfl (Dev.aqcHead_open w open_)
  · refine exec_writes (fun d => if w.getLsbD 31 then d.named .HIF_QP_CTX n fun e => e.regWrite req (pageLoc f .HIF_QP_CTX n) w else d) h rfl
      ((if_pos on).trans (Dev.named_lt _ hn _)) rfl (if_pos ?_)
    exact (on?_stored (bit := 31) _ (pageAt (s.toDev.noteJtag req) f .HIF_QP_CTX n) w enableRw.1).trans on
  · refine exec_writes (fun d => if w.getLsbD 31 then d else d.named .HIF_QP_CTX n fun e => e.regWrite req (pageLoc f .HIF_QP_CTX n) w) h rfl
      ((if_neg (ne_true_of_eq_false off)).trans (Dev.named_lt _ hn _)) rfl (if_neg (ne_true_of_eq_false ?_))
    exact (on?_stored (bit := 31) _ (pageAt (s.toDev.noteJtag req) f .HIF_QP_CTX n) w enableRw.1).trans off
  · have item : (pageAt (s.toDev.noteJtag req) f .HIF_AQ_CFG).item = f := show 1 * f + 0 = f by omega
    have written := on?_stored (bit := 31) (s.toDev.noteJtag req) (pageAt (s.toDev.noteJtag req) f .HIF_AQ_CFG) w enableRw.2
    rw [item] at written
    exact exec_writes (fun d => d.regWrite req (pageLoc f .HIF_AQ_CFG 0) w) h rfl rfl rfl
      ((Dev.afterWrite_aqCfg ..).trans (Dev.aqCfgWritten_stored written))

/-! ## O18 -/

/-- A read of MBX_SEND that may send and finds room sends (R347). -/
theorem Dev.readReg_send {e : Dev} {f : Nat} (may : e.sendRefusal f = none) (on : e.mailDomain (e.txDest f) = true)
    (room : e.hasRoom f (e.txDest f) = true) (free : e.postHeld f (e.txDest f) = false) :
    e.readReg (pageAt e f .MBX_SEND) = (0, e.send f (e.txDest f) (e.txKind f) (e.txBytes f) false) := by
  have sent : e.mbxSend f = (.ok, e.send f (e.txDest f) (e.txKind f) (e.txBytes f) false) := by
    simp [Dev.mbxSend, may, on, room, free]
  have read : e.readReg (pageAt e f .MBX_SEND) = (toWord (e.mbxSend f).1.code, (e.mbxSend f).2) := rfl
  rw [read, sent]
  rfl

/-- A post that finds room is sent (R348). -/
theorem Dev.mbxPost_room {b : Dev} {f : Nat} (may : b.sendRefusal f = none) (on : b.mailDomain (b.txDest f) = true)
    (room : b.hasRoom f (b.txDest f) = true) (free : b.postHeld f (b.txDest f) = false) :
    b.mbxPost f = b.send f (b.txDest f) (b.txKind f) (b.txBytes f) false := by
  simp [Dev.mbxPost, may, on, room, free]

/-- A post for a receiver whose domain is off is held (R348). -/
theorem Dev.mbxPost_held {b : Dev} {f : Nat} (may : b.sendRefusal f = none) (off : b.mailDomain (b.txDest f) = false)
    (few : b.mbx.holding.length < 1024) :
    let held := b.setHolding (b.mbx.holding ++ [{ sender := f, receiver := b.txDest f, kind := b.txKind f, bytes := b.txBytes f,
                                                  senderGen := b.mbxGen f, receiverGen := b.mbxGen (b.txDest f) }])
    b.mbxPost f = if b.txDest f < 1024 then held else held.bump .MBX_HOLD_WAKES := by
  simp [Dev.mbxPost, may, off, Nat.not_le.2 few]

/-- A ring of a function's mailbox sets doorbell bits (R350). -/
theorem Dev.mbxRing_function {b : Dev} {f : Nat} (w : Word) (fn : b.txDest f < 1024) (may : b.mayMail f (b.txDest f) 1 = true) :
    let r := b.txDest f
    let rung := (b.wr .MBX_DOORBELL r 0 (b.rd .MBX_DOORBELL r ||| w)).logMail f r (b.gen f) (b.gen r) 0 b.now
    b.mbxRing f w = if b.on? Fld.MBX_CFG_DB_IRQ_EN r then rung.interrupt r (b.get Fld.MBX_CFG_VEC r) else rung :=
  if_pos (by simp [fn, may])

/-- Settles O18: a send, a post, a ring and a pop are the access of their register with what follows it. -/
theorem mailboxAccesses : Obligations.MailboxAccesses := by
  unfold Obligations.MailboxAccesses
  intro s req f w l
  refine ⟨fun h may on room free => ?_, fun h => ?_, fun h => ?_, fun h => ?_, fun h pop => ?_⟩
  · exact exec_read (g := fun d => d.regRead req (pageLoc f .MBX_SEND 0)) h rfl rfl (Dev.readReg_send may on room free)
  · intro b may on room free
    exact exec_writes (fun d => d.regWrite req (pageLoc f .MBX_POST 0) w) h rfl rfl rfl
      (congrArg Dev.controlFollows (Dev.mbxPost_room may on room free))
  · intro b r may off few p held
    exact exec_writes (fun d => d.regWrite req (pageLoc f .MBX_POST 0) w) h rfl rfl rfl
      (congrArg Dev.controlFollows (Dev.mbxPost_held may off few))
  · intro b r fn may
    exact exec_writes (fun d => d.regWrite req (pageLoc f .MBX_RING 0) w) h rfl rfl rfl (Dev.mbxRing_function w fn may)
  · exact exec_writes (fun d => d.regWrite req (pageLoc f .MBX_RX_POP 0) w) h rfl rfl rfl (if_pos pop)

end Sys2Proof.Machine
end

section
/-!
Device commands, the firmware's start and switch, and what they read (R341, R352 to R354, R430, R431).
-/
namespace Sys2Proof.Machine

open Sys2Proof.Safety

/-! ## Reads of host memory -/

/-- A reach that is ready leaves the device as it is. -/
theorem Dev.ownReach_ready {d g : Dev} {f : Nat} {l : List (Nat × Nat)} (h : d.ownReach f l = (.ready, g)) : g = d := by
  unfold Dev.ownReach Dev.reachPages at h
  split at h
  · cases h
  · split at h
    · cases h
      rfl
    · dsimp only at h
      split at h <;> cases h

/-- Reads put on the way are output, and nothing else. -/
theorem Dev.putReads_eq (d : Dev) (f : Nat) (l : List (Nat × Nat)) : ∃ o, d.putReads f l = { d with out := o } := by
  have each : ∀ (bs : List (Nat × Nat)) (x : Dev), ∃ o,
      bs.foldl (fun x b => x.emit (.hostRead f (d.hostAddr f b.1) b.2)) x = { x with out := o } := by
    intro bs
    induction bs with
    | nil => exact fun x => ⟨x.out, rfl⟩
    | cons b rest ih =>
      intro x
      obtain ⟨o, ho⟩ := ih (x.emit (.hostRead f (d.hostAddr f b.1) b.2))
      exact ⟨o, ho⟩
  exact each _ d

/-- Data that a taken command reads is put on the way, and what the command does with it follows. -/
theorem Dev.withData_ready {d : Dev} {n addr len : Nat} {g : Dev}
    (ready : d.ownReach (((d.vcl.cmds.look? n).map (·.cmd.issuer)).getD 0) [(addr, len)] = (.ready, g)) (go : Bytes → Dev → Dev) :
    let f := ((d.vcl.cmds.look? n).map (·.cmd.issuer)).getD 0
    d.withData n addr len none go = ((g.putReads f [(addr, len)]).hostError f).reply n .hostErr ∧
    ∀ bs, d.withData n addr len (some bs) go = go bs (g.putReads f [(addr, len)]) := by
  constructor
  · simp only [Dev.withData, ready]
  · intro bs
    simp only [Dev.withData, ready]

/-! ## O19 -/

/-- A command of an opcode that its row serves is the row's command of that opcode. -/
theorem exec_serves {s : State} {i : Instr} {op n : Nat} {c : Cmd} {a : Accepted} {p : Bytes} {e : Dev} {ops : Nat → Bool}
    {body : Nat → Accepted → Bytes → Dev → Dev} (h : Taken s.toDev op c n a p e) (serves : ops op = true)
    (hf : exec i s = s.on fun d => d.vucel ops c body) : exec i s = .next (withDev s (body n a p e)) := by
  have same : s.toDev.vucel ops c body = s.toDev.vucel1 op c body := by
    simp only [Dev.vucel1, Dev.vucel, Dev.runVucel, h.opcode, serves, beq_self_eq_true]
  exact exec_vucel h hf same

/-- An MRAM read of one good range goes on. -/
theorem Dev.mramRead_one (d : Dev) (n lo hi : Nat) (k : Dev → Dev) :
    d.mramRead n [(lo, hi)] k = if d.mramBad lo hi then d.reply n .badState else k d := by
  simp [Dev.mramRead]

/-- The device after a piece of an image has been written to the slot that does not run (R352). -/
def Dev.staged (r : Dev) (first : Bool) (off len : Nat) (bs : Bytes) : Dev :=
  let old : Bytes := if first then [] else r.norSlot r.stageSlot
  let wide := old ++ List.replicate (off - old.length) 0xFF
  (r.setSec fun x => { x with nor := x.nor.put r.stageSlot (wide.take off ++ sized len bs ++ wide.drop (off + len)) }).set
    Fld.VCL_FW_STATE_STAGED 0 0

/-- A piece that ends beyond the slot, or that is too long, is refused. -/
theorem Dev.fwStage_badParam {d : Dev} {n : Nat} {p : Bytes} (data : Option Bytes)
    (bad : 65536 < (le32 p 16).toNat ∨ 0x1000000 < (le32 p 4).toNat + (le32 p 16).toNat) : d.fwStage n p data = d.reply n .badParam :=
  if_pos (by simpa using bad)

/-- What FW_STAGE does once a piece is in its slot: the last one has the image verified (R352, R431). -/
def Dev.fwVerify (x : Dev) (slot n : Nat) (last : Bool) : Dev :=
  if !last then x.replyOk n
  else
    x.mramRead n [(0x2000, 0x3000)] fun y =>
      if !y.imageOk slot then y.reply n .verifyFail
      else if y.on? Fld.SEC_STAT_RECOVERY then
        y.mramWrite n fun z => ((z.setMram fun m => m.setWord 0 0).set Fld.VCL_FW_STATE_STAGED 0 1).replyOk n
      else (y.set Fld.VCL_FW_STATE_STAGED 0 1).replyOk n

theorem Dev.fwVerify_eq (x : Dev) (slot n : Nat) (last : Bool) :
    x.fwVerify slot n last =
      if last = false then x.replyOk n
      else if x.mramBad 0x2000 0x3000 then x.reply n .badState
      else if x.imageOk slot = false then x.reply n .verifyFail
      else if x.on? Fld.SEC_STAT_RECOVERY = false then (x.set Fld.VCL_FW_STATE_STAGED 0 1).replyOk n
      else if x.railsGood then ((x.setMram fun m => m.setWord 0 0).set Fld.VCL_FW_STATE_STAGED 0 1).replyOk n
      else x.wait n := by
  rw [Dev.fwVerify, Dev.mramRead_one]
  cases last with
  | false => rfl
  | true =>
    cases x.imageOk slot with
    | false => rfl
    | true => cases x.on? Fld.SEC_STAT_RECOVERY <;> rfl

/-- A piece in range is read from the host's memory and staged; the last one has the image verified. -/
theorem Dev.fwStage_inRange {e g : Dev} {n : Nat} {p : Bytes} (short : (le32 p 16).toNat ≤ 65536)
    (inside : (le32 p 4).toNat + (le32 p 16).toNat ≤ 0x1000000)
    (ready : e.ownReach (((e.vcl.cmds.look? n).map (·.cmd.issuer)).getD 0) [(le p 8 8, (le32 p 16).toNat)] = (.ready, g)) :
    let f := ((e.vcl.cmds.look? n).map (·.cmd.issuer)).getD 0
    let r := g.putReads f [(le p 8 8, (le32 p 16).toNat)]
    e.fwStage n p none = (r.hostError f).reply n .hostErr ∧
    ∀ bs, let x := r.staged ((le32 p 0).getLsbD 31) (le32 p 4).toNat (le32 p 16).toNat bs
      e.fwStage n p (some bs) =
        if (le32 p 0).getLsbD 30 = false then x.replyOk n
        else if x.mramBad 0x2000 0x3000 then x.reply n .badState
        else if x.imageOk r.stageSlot = false then x.reply n .verifyFail
        else if x.on? Fld.SEC_STAT_RECOVERY = false then (x.set Fld.VCL_FW_STATE_STAGED 0 1).replyOk n
        else if x.railsGood then ((x.setMram fun m => m.setWord 0 0).set Fld.VCL_FW_STATE_STAGED 0 1).replyOk n
        else x.wait n := by
  have good : ¬((decide ((le32 p 16).toNat > 65536) || decide ((le32 p 4).toNat + (le32 p 16).toNat > 0x1000000)) = true) := by
    simp only [Bool.or_eq_true, decide_eq_true_eq]
    omega
  have same := Dev.ownReach_ready ready
  subst same
  constructor
  · exact (if_neg good).trans (Dev.withData_ready ready _).1
  · intro bs
    refine (if_neg good).trans (((Dev.withData_ready ready _).2 bs).trans ?_)
    obtain ⟨o, ho⟩ := g.putReads_eq (((g.vcl.cmds.look? n).map (·.cmd.issuer)).getD 0) [(le p 8 8, (le32 p 16).toNat)]
    rw [ho]
    exact Dev.fwVerify_eq _ _ n _

/-- Settles O19: the five device commands, by their bodies. -/
theorem deviceCommands : Obligations.DeviceCommands := by
  unfold Obligations.DeviceCommands
  intro s c n a p e
  refine ⟨fun h => ?_, fun h => exec_taken h rfl rfl, fun h => exec_taken h rfl rfl,
    fun h => ⟨fun data bad => exec_taken h rfl (Dev.fwStage_badParam data bad), fun g bs short inside ready => ⟨?_, ?_⟩⟩,
    fun h => exec_taken h rfl rfl⟩
  · exact exec_serves (ops := fun op => op == 0x0100 || (opInfo op).isNone) (body := fun n _ _ d => d.replyOk n) h rfl rfl
  · exact exec_taken h rfl (Dev.fwStage_inRange short inside ready).1
  · exact exec_taken h rfl ((Dev.fwStage_inRange short inside ready).2 bs)

/-! ## O20 -/

/-- Events that rails owe wait for firmware that runs (R386, log entry 39). -/
theorem Dev.railEvents_waiting {d : Dev} (h : d.fwRuns = false) : d.railEvents = d := if_neg (ne_true_of_eq_false h)

/-- No firmware runs while it is off, or while a switch is under way. -/
theorem Dev.fwRuns_off {d : Dev} (h : d.vcl.up = false) : d.fwRuns = false := by simp [Dev.fwRuns, h]
theorem Dev.fwRuns_switching {d : Dev} {w : FwSwitch} (h : d.vcl.switch = some w) : d.fwRuns = false := by simp [Dev.fwRuns, h]

/-- FW_ACTIVATE checks the staged image, then names its slot and starts the switch (R353). -/
theorem Dev.fwActivate_eq (e : Dev) (n : Nat) :
    let chosen := (e.setMram fun m => m.setWord 0 e.stageSlot).commit n
    e.fwActivate n =
      if e.on? Fld.VCL_FW_STATE_STAGED = false then e.reply n .badState
      else if e.mramBad 0x2000 0x3000 then e.reply n .badState
      else if e.imageOk e.stageSlot = false then e.reply n .verifyFail
      else if e.railsGood then { chosen with vcl := { chosen.vcl with switch := some { start := chosen.ref, cmd := n, stopped := false } } }
      else e.wait n := by
  dsimp only
  rw [Dev.fwActivate, Dev.mramRead_one]
  cases e.on? Fld.VCL_FW_STATE_STAGED with
  | false => rfl
  | true => cases e.imageOk e.stageSlot <;> rfl

/-- At S + 10 ms what is left ends, and the generation of block 24 rises (R354). -/
theorem Dev.fwSwitchTimeout_due {d : Dev} {w : FwSwitch} (hw : d.vcl.switch = some w) (running : w.stopped = false)
    (due : w.start + 10000000 ≤ d.ref) :
    let ended := ((d.restartCommands w.cmd).dropSlow).raiseBlockGen 24
    d.fwSwitchTimeout = { ended with vcl := { ended.vcl with switch := some { w with stopped := true } } } := by
  simp [Dev.fwSwitchTimeout, hw, running, due]

/-- Then the other image runs, replies and sends FW_SWITCHED, unless a rail warning holds up its start. -/
theorem Dev.fwSwitchComplete_stopped {d : Dev} {w : FwSwitch} (hw : d.vcl.switch = some w) (stopped : w.stopped = true) :
    let started := d.startImage (1 - d.image)
    let e : Dev := { started with vcl := { started.vcl with switch := none } }
    d.fwSwitchComplete = if d.mayStart (1 - d.image) then
      (e.replyOk w.cmd [toWord e.image]).eventPfs 0x8008 (wordBytes [toWord e.image, toWord (e.blockGen 24)]) else d := by
  simp only [Dev.fwSwitchComplete, hw, stopped, Bool.true_and]

/-- The boot ROM's choice, once the POWER_ON sequence is done (R430). -/
theorem Dev.boot_ready {d : Dev} (out : d.inReset = false) (off : d.vcl.up = false) (calm : d.on? Fld.SEC_STAT_RECOVERY = false)
    (done_ : d.on? Fld.PWR_STAT_POR_DONE = true) :
    let slot := d.sec.mram.bootSlot
    d.boot = if d.imageOk slot then (if d.mayStart slot then d.startImage slot else d)
      else if d.imageOk (1 - slot) then
        (if d.mayStart (1 - slot) then (d.startImage (1 - slot)).set Fld.SEC_STAT_BOOT_FALLBACK 0 1 else d)
      else d.set Fld.SEC_STAT_RECOVERY 0 1 :=
  if_neg (by simp [out, off, calm, done_])

/-- Settles O20: the switch's steps and the boot ROM's choice; rail events wait where no firmware runs. -/
theorem firmwareStart : Obligations.FirmwareStart := by
  unfold Obligations.FirmwareStart
  refine ⟨fun s => ⟨fun c n a p e h => exec_taken h rfl ?_, fun w out hw running due => ?_,
    fun w out hw stopped => ⟨fun may => ?_, fun wait => ?_⟩⟩, fun s out off calm done_ => ?_⟩
  · exact Dev.fwActivate_eq e n
  · exact exec_leaves (fun d => d.fwSwitchTimeout) out rfl (Dev.fwSwitchTimeout_due hw running due)
  · exact exec_leaves (fun d => d.fwSwitchComplete.railEvents) out rfl
      (congrArg Dev.railEvents ((Dev.fwSwitchComplete_stopped hw stopped).trans (if_pos may)))
  · have left := (Dev.fwSwitchComplete_stopped hw stopped).trans (if_neg (ne_true_of_eq_false wait))
    exact exec_leaves (e := s.toDev) (fun d => d.fwSwitchComplete.railEvents) out rfl
      ((congrArg Dev.railEvents left).trans (Dev.railEvents_waiting (Dev.fwRuns_switching hw)))
  · refine (exec_leaves (i := .boot) (fun d => d.boot.railEvents) out rfl (congrArg Dev.railEvents (Dev.boot_ready out off calm done_))).trans ?_
    have idle : s.toDev.railEvents = s.toDev := Dev.railEvents_waiting (Dev.fwRuns_off off)
    have recovers : (s.toDev.set Fld.SEC_STAT_RECOVERY 0 1).railEvents = s.toDev.set Fld.SEC_STAT_RECOVERY 0 1 :=
      Dev.railEvents_waiting (Dev.fwRuns_off off)
    split
    · split
      · rfl
      · rw [idle]
        rfl
    · split
      · split
        · rfl
        · rw [idle]
          rfl
      · rw [recovers]

/-! ## O21 -/

/-- The device after an ATTEST has spent its tokens (R437). -/
def Dev.paid (e : Dev) (fn : Nat) : Dev :=
  e.setSec fun x => { x with pkgTokens := x.pkgTokens - 1, fnMissing := x.fnMissing.putD 0 fn (x.fnMissing.getD fn 0 + 1) }

/-- An ATTEST that finds tokens, good MRAM, a key ready and none before it signs at once. -/
theorem Dev.attest_signs {e : Dev} {n : Nat} {a : Accepted} {p : Bytes} (ok : Bool) (oob : a.cmd.via.oob = true → attestAddr p = 0)
    (fresh : (le32 p 0).getLsbD 31 = false) (pkg : e.sec.pkgTokens ≠ 0) (fn : e.fnTokens a.fn ≠ 0) (index : e.nextIndex < 2 ^ 30)
    (good : ∀ r ∈ e.attestReads a p, e.mramBad r.1 r.2 = false) (may : e.mayProceed = true) (none_ : e.sec.attests = []) :
    e.attest n a p ok = (e.paid a.fn).attestSign n a p ok := by
  have here : ¬((a.cmd.via.oob && decide (attestAddr p ≠ 0)) = true) := by simpa using oob
  have tokens : ¬((decide (e.sec.pkgTokens = 0) || decide (e.fnTokens a.fn = 0)) = true) := by simp [pkg, fn]
  have reads : ¬(((e.attestReads a p).any fun r => e.mramBad r.1 r.2) = true) := by
    simpa using fun x y hr => good (x, y) hr
  have now : ((e.paid a.fn).mayProceed && (e.paid a.fn).sec.attests.isEmpty) = true := by
    have may' : (e.paid a.fn).mayProceed = true := may
    have none' : (e.paid a.fn).sec.attests = [] := none_
    rw [may', none']
    rfl
  unfold Dev.attest
  rw [if_neg here, if_neg (ne_true_of_eq_false fresh), if_neg tokens, if_neg (Nat.not_le.2 index), Dev.mramRead, if_neg reads]
  exact if_pos now

/-- The device after the signing index of an ATTEST has been spent, with its ring word (R438, R439). -/
def Dev.indexSpent (d : Dev) (i : Nat) : Dev :=
  ((d.setMram fun m => { m with ring := m.ring.put (i % 64) (ringWord i), failed := m.failed.erase (0x1000 + 8 * (i % 64)) }).wr
    .SEC_SIGN_INDEX 0 0 (toWord (i + 1))).startKeygen

/-- The device after the report of an ATTEST has been made and kept. -/
def Dev.reportKept (d : Dev) (a : Accepted) (rep : Bytes) : Dev :=
  (d.bump .SEC_SIGN_COUNT).setSec fun x => { x with reports := x.reports.put a.cmd.via.code rep }

/-- An ATTEST that signs spends the next index and gives the report made under it. -/
theorem Dev.attestSign_eq (d : Dev) (n : Nat) (a : Accepted) (p : Bytes) (ok : Bool) {i : Nat} (hi : d.nextIndex = i) {rep : Bytes}
    (hr : (d.indexSpent i).report a p i = rep) :
    d.attestSign n a p ok = ((d.indexSpent i).reportKept a rep).giveReport n a p rep ok := by
  subst hi hr
  rfl

/-- The report's first bytes that a transport carries. -/
theorem Dev.giveReport_eq (d : Dev) (n : Nat) (a : Accepted) (p rep : Bytes) (ok : Bool) :
    d.giveReport n a p rep ok = if attestAddr p = 0 then d.reply n .ok ((rep.drop (le32 p 4).toNat).take (a.cmd.via.largest - 32))
      else if ok then (d.hostPut a.cmd.issuer (attestAddr p) rep).replyOk n [toWord rep.length] else d.reply n .hostErr := rfl

theorem Dev.keygenDone_some {d : Dev} {k : Nat} (hk : d.sec.keygen = some k) :
    d.keygenDone = if d.railsGood then (((d.setSec fun x => { x with keygen := none, mram := x.mram.writeCache k }).set
      Fld.SEC_STAT_KEYGEN_BUSY 0 0).startKeygen).attestResume else d := by
  simp only [Dev.keygenDone, hk]
  cases d.railsGood <;> rfl

/-- A function's interval that has passed refills its bucket by one token (R437). -/
theorem Dev.tokenRefill_fn {d : Dev} {f : Nat} (hf : f < 1024) (due : d.sec.fnAt.getD f d.sec.fnFrom + d.fnInterval ≤ d.ref) :
    d.tokenRefill (some f) = d.setSec fun x => { x with fnAt := x.fnAt.put f (x.fnAt.getD f x.fnFrom + d.fnInterval),
                                                        fnMissing := x.fnMissing.putD 0 f (x.fnMissing.getD f 0 - 1) } := by
  simp only [Dev.tokenRefill, hf, due, decide_true, Bool.and_self, if_true, Dev.setSec]

/-- TRNG_READ of 1 to 64 bytes of a healthy source replies them (R445). -/
theorem Dev.trngRead_healthy {e : Dev} {n : Nat} {p : Bytes} (low : 1 ≤ bitsOf (le32 p 0) 6 0) (high : bitsOf (le32 p 0) 6 0 ≤ 64)
    (well : e.on? Fld.SEC_STAT_TRNG_FAIL = false) :
    e.trngRead n p = ({ e with fresh := e.fresh + 1 } : Dev).reply n .ok ((List.range (bitsOf (le32 p 0) 6 0)).map (Config.freeByte e.fresh)) := by
  have good : ¬((decide (bitsOf (le32 p 0) 6 0 = 0) || decide (bitsOf (le32 p 0) 6 0 > 64)) = true) := by
    simp only [Bool.or_eq_true, decide_eq_true_eq]
    omega
  exact (if_neg good).trans (if_neg (ne_true_of_eq_false well))

/-- An ATTEST that has paid spends the index that was next before it paid. -/
theorem Dev.attestSign_paid (e : Dev) (n : Nat) (a : Accepted) (p : Bytes) (ok : Bool) :
    let spent := (e.paid a.fn).indexSpent e.nextIndex
    let rep := spent.report a p e.nextIndex
    let kept := spent.reportKept a rep
    (e.paid a.fn).attestSign n a p ok =
      if attestAddr p = 0 then kept.reply n .ok ((rep.drop (le32 p 4).toNat).take (a.cmd.via.largest - 32))
      else if ok then (kept.hostPut a.cmd.issuer (attestAddr p) rep).replyOk n [toWord rep.length] else kept.reply n .hostErr := by
  have index : (e.paid a.fn).nextIndex = e.nextIndex := rfl
  exact (Dev.attestSign_eq (e.paid a.fn) n a p ok index rfl).trans (Dev.giveReport_eq ..)

/-- Settles O21: an ATTEST that may proceed signs; the ends and the random source, by their operations. -/
theorem attestationAndRandom : Obligations.AttestationAndRandom := by
  unfold Obligations.AttestationAndRandom
  refine ⟨fun s => ⟨fun c n a p e ok h oob fresh pkg fn index good may none_ => exec_taken h rfl ?_, fun out =>
    ⟨fun k hk => ⟨fun rails => ?_, fun rails => ?_⟩, fun up => ?_, fun due => ?_, fun f hf due => ?_⟩⟩,
    fun s => ⟨fun c n a p e h => ?_, fun out => ⟨fun well due => ?_, ?_, fun pass fails due => ?_⟩⟩⟩
  · exact (Dev.attest_signs ok oob fresh pkg fn index good may none_).trans (Dev.attestSign_paid e n a p ok)
  · exact exec_leaves (fun d => d.keygenDone) out rfl ((Dev.keygenDone_some hk).trans (if_pos rails))
  · exact exec_leaves (e := s.toDev) (fun d => d.keygenDone) out rfl ((Dev.keygenDone_some hk).trans (if_neg (ne_true_of_eq_false rails)))
  · exact exec_leaves (fun d => d.signReady) out rfl (if_pos up)
  · exact exec_leaves (fun d => d.tokenRefill none) out rfl (if_pos due)
  · exact exec_leaves (fun d => d.tokenRefill (some f)) out rfl (Dev.tokenRefill_fn hf due)
  · intro k low high well
    refine exec_taken h rfl ?_
    exact Dev.trngRead_healthy low high well
  · exact exec_leaves (fun d => d.drbgReseed) out rfl (if_neg (by simpa [well] using due))
  · exact exec_leaves (fun d => d.trngHealthFail) out rfl rfl
  · exact exec_leaves (fun d => d.trngRetest pass) out rfl (if_pos (by simp [fails, due]))

end Sys2Proof.Machine
end

section
/-!
Secrets at rest, cartouches, and the writes of owner and keys (R432 to R434, R442 to R444).
-/
namespace Sys2Proof.Machine

open Sys2Proof.Safety

/-! ## AES-GCM opens what it has sealed -/

/-- Every 16 bytes of a text under a function of their place. -/
def blockwise (f : Nat → Bytes → Bytes) (n : Nat) (text : Bytes) : Bytes :=
  (List.range n).flatMap fun i => f i ((text.drop (16 * i)).take 16)

/-- Blocks of a text are its first 16 bytes and the blocks of the rest. -/
theorem blockwise_succ (f : Nat → Bytes → Bytes) (n : Nat) (text : Bytes) :
    blockwise f (n + 1) text = f 0 (text.take 16) ++ blockwise (fun i => f (i + 1)) n (text.drop 16) := by
  simp only [blockwise, List.range_succ_eq_map, List.flatMap_cons, List.flatMap_map, List.drop_drop]
  refine congrArg (fun g => f 0 (text.take 16) ++ (List.range n).flatMap g) (funext fun i => ?_)
  rw [Nat.mul_succ, Nat.add_comm]

section Blockwise
variable {n : Nat} {text : Bytes}

/-- A function that keeps lengths keeps the text's. -/
theorem length_blockwise {f : Nat → Bytes → Bytes} (len : ∀ i (b : Bytes), b.length ≤ 16 → (f i b).length = b.length)
    (enough : text.length ≤ 16 * n) : (blockwise f n text).length = text.length := by
  induction n generalizing f text with
  | zero => simp_all [blockwise]
  | succ n ih =>
    rw [blockwise_succ, List.length_append, len 0 _ (List.length_take_le ..), ih (fun i => len (i + 1)) (by simp; omega)]
    simp
    omega

/-- A function that undoes another block by block undoes it on the text. -/
theorem blockwise_blockwise {f g : Nat → Bytes → Bytes} (len : ∀ i (b : Bytes), b.length ≤ 16 → (f i b).length = b.length)
    (undoes : ∀ i (b : Bytes), b.length ≤ 16 → g i (f i b) = b) (enough : text.length ≤ 16 * n) :
    blockwise g n (blockwise f n text) = text := by
  induction n generalizing f g text with
  | zero => simp_all [blockwise]
  | succ n ih =>
    have first : (f 0 (text.take 16)).length = (text.take 16).length := len 0 _ (List.length_take_le ..)
    have rest := length_blockwise (n := n) (text := text.drop 16) (fun i => len (i + 1)) (by simp; omega)
    have again := ih (f := fun i => f (i + 1)) (g := fun i => g (i + 1)) (text := text.drop 16) (fun i => len (i + 1)) (fun i => undoes (i + 1))
      (by simp; omega)
    have split : (blockwise f (n + 1) text).take 16 = f 0 (text.take 16) ∧
        (blockwise f (n + 1) text).drop 16 = blockwise (fun i => f (i + 1)) n (text.drop 16) := by
      rw [blockwise_succ]
      by_cases long : 16 ≤ text.length
      · have : (f 0 (text.take 16)).length = 16 := by simp [first, long]
        exact ⟨List.take_left' this, List.drop_left' this⟩
      · have : blockwise (fun i => f (i + 1)) n (text.drop 16) = [] := List.eq_nil_of_length_eq_zero (by rw [rest]; simp; omega)
        have short : (f 0 (text.take 16)).length ≤ 16 := by rw [first]; exact List.length_take_le ..
        rw [this, List.append_nil]
        exact ⟨List.take_of_length_le short, List.drop_of_length_le short⟩
    rw [blockwise_succ g, split.1, split.2, again, undoes 0 _ (List.length_take_le ..), List.take_append_drop]

end Blockwise

/-- A text with a key stream laid over it. -/
def xorStream (text stream : Bytes) : Bytes := (text.zip stream).map fun p => p.1 ^^^ p.2

theorem length_xorStream {text stream : Bytes} (h : text.length ≤ stream.length) : (xorStream text stream).length = text.length := by
  simp [xorStream, h]

/-- The same stream twice is none. -/
theorem xorStream_xorStream {text stream : Bytes} (h : text.length ≤ stream.length) : xorStream (xorStream text stream) stream = text := by
  induction text generalizing stream with
  | nil => rfl
  | cons x rest ih =>
    cases stream with
    | nil => simp at h
    | cons k ks =>
      have tail := ih (stream := ks) (by simpa using h)
      simp only [xorStream] at tail ⊢
      simp [tail, BitVec.xor_assoc]

/-- The key stream of a block. -/
def gcmBlock (key nonce : Bytes) (i : Nat) : Bytes :=
  let w := aesWords (natBytes key)
  let j := gcmStart (aesNum w 0) nonce
  bytesBE 16 (aesNum w (j / 2 ^ 32 * 2 ^ 32 + (j + 1 + i) % 2 ^ 32))

/-- The stream cipher lays its blocks over the text's. -/
theorem gcmStream_eq (key nonce text : Bytes) :
    gcmStream key nonce text = blockwise (fun i b => xorStream b (gcmBlock key nonce i)) ((text.length + 15) / 16) text := by
  simp only [gcmStream, blockwise, xorStream, gcmBlock, List.map_flatMap]

/-- AES-GCM opens what it has sealed. -/
theorem gcmStream_gcmStream (key nonce text : Bytes) : gcmStream key nonce (gcmStream key nonce text) = text := by
  have block : ∀ i, (gcmBlock key nonce i).length = 16 := fun i => by simp [gcmBlock, bytesBE, bytesLE]
  have len : ∀ i (b : Bytes), b.length ≤ 16 → (xorStream b (gcmBlock key nonce i)).length = b.length := fun i b hb =>
    length_xorStream (by rw [block]; exact hb)
  have enough : text.length ≤ 16 * ((text.length + 15) / 16) := by omega
  rw [gcmStream_eq key nonce (gcmStream key nonce text), gcmStream_eq key nonce text, length_blockwise len enough]
  exact blockwise_blockwise len (fun i b hb => xorStream_xorStream (by rw [block]; exact hb)) enough

/-- A sealed secret reads back as it was (R434). -/
theorem plain_sealed (iv plain : Bytes) : (sealed iv plain).plain = plain := gcmStream_gcmStream mramKey iv plain

/-! ## Cartouches: a write goes to the copy that the selector does not name (R442) -/

theorem TwoCopies.now_write_other (c : TwoCopies) (u : Bool) (new : Bytes) : (c.write u new).now (!u) = new := by
  cases u <;> rfl

theorem TwoCopies.now_write_same (c : TwoCopies) (u : Bool) (new : Bytes) : (c.write u new).now u = c.now u := by
  cases u <;> rfl

@[simp] theorem Triple.value_all (n : Nat) : (Triple.all n).value = some n := by
  simp [Triple.all, Triple.value, Triple.votes]

namespace Mram
variable (m : Mram)

@[simp] theorem word_setWord (w n : Nat) : (m.setWord w n).word w = n := by
  simp [word, setWord, Tbl.getD_putD]

theorem word_setWord_ne {w v : Nat} (n : Nat) (h : v ≠ w) : (m.setWord w n).word v = m.word v := by
  simp [word, setWord, Tbl.getD_putD_ne, h]

/-- The cartouche's selector changes. -/
theorem selector_writeCartouche (new : Bytes) : (m.writeCartouche new).selector = !m.selector := by
  rw [writeCartouche, selector, word_setWord]
  cases m.selector <;> rfl

/-- The control area's word that holds a function's selector. -/
theorem word_writeFcartouche (f : Nat) (new : Bytes) (w : Nat) :
    (m.writeFcartouche f new).word w = if w = 16 + f / 64 then m.word w ^^^ 2 ^ (f % 64) else m.word w := by
  by_cases h : w = 16 + f / 64
  · rw [if_pos h, h, writeFcartouche, word_setWord]
  · rw [if_neg h, writeFcartouche, word_setWord_ne _ _ h]
    rfl

/-- The function's selector changes. -/
theorem fselector_writeFcartouche (f : Nat) (new : Bytes) : (m.writeFcartouche f new).fselector f = !m.fselector f := by
  simp [fselector, word_writeFcartouche]

/-- No other function's selector changes. -/
theorem fselector_writeFcartouche_ne {f g : Nat} (new : Bytes) (h : g ≠ f) :
    (m.writeFcartouche f new).fselector g = m.fselector g := by
  rw [fselector, fselector, word_writeFcartouche]
  split
  · rw [Nat.testBit_xor, Nat.testBit_two_pow_of_ne (by omega), Bool.xor_false]
  · rfl

end Mram

/-! ## The commands -/

variable {e : Dev} {n : Nat} {a : Accepted} {p : Bytes}

/-- While no rail is in warning a write of the MRAM does not wait (R390). -/
theorem Dev.mramWrite_good (rails : e.railsGood = true) (k : Dev → Dev) : e.mramWrite n k = k e := if_pos rails

/-- Words that can be read do not stop a command. -/
theorem Dev.mramRead_good {lo hi : Nat} (good : e.mramBad lo hi = false) (k : Dev → Dev) : e.mramRead n [(lo, hi)] k = k e := by
  rw [Dev.mramRead_one, good]
  rfl

/-- A part of the cartouche is read or written (R444). -/
theorem Dev.cartoucheWrite_inRange (rails : e.railsGood = true)
    (good : e.mramBad (cartoucheAt e.sec.mram.selector) (cartoucheAt e.sec.mram.selector + 1024) = false)
    (off : bitsOf (le32 p 0) 9 0 % 8 = 0) (len : (le32 p 4).toNat % 8 = 0)
    (inside : bitsOf (le32 p 0) 9 0 + (le32 p 4).toNat ≤ 1024) :
    e.cartoucheWrite n a p =
      if (le32 p 4).toNat = 0 then e.reply n .ok ((e.cartouche.drop (bitsOf (le32 p 0) 9 0)).take (a.cmd.via.largest - 32))
      else (e.setMram fun m => m.writeCartouche
        (overwrite e.cartouche (bitsOf (le32 p 0) 9 0) ((p.drop 8).take (le32 p 4).toNat))).replyOk n := by
  have range : ¬ (decide (bitsOf (le32 p 0) 9 0 % 8 ≠ 0) || decide ((le32 p 4).toNat % 8 ≠ 0) ||
      decide (bitsOf (le32 p 0) 9 0 + (le32 p 4).toNat > 1024)) = true := by simpa [off, len] using inside
  rw [Dev.cartoucheWrite, if_neg range, Dev.cartoucheRange, Dev.mramRead_good good, Dev.mramWrite_good rails]

/-- A physical function writes the cartouche of a function of its own (R444). -/
theorem Dev.fcartoucheWrite_own (rails : e.railsGood = true) (own : pfOf (bitsOf (le32 p 0) 9 0) = a.cmd.issuer)
    (there : e.exists? (bitsOf (le32 p 0) 9 0) = true) :
    e.fcartoucheWrite n a p = (e.setFcartouche (bitsOf (le32 p 0) 9 0) (slice p 4 64)).replyOk n := by
  rw [Dev.fcartoucheWrite, if_neg (Classical.not_not.2 own), there, if_neg (by decide), Dev.mramWrite_good rails]

section Owner
variable (rails : e.railsGood = true) (good : e.mramBad 0x2000 0x3000 = false)
include rails good

/-- The first owner needs no signature (R432). -/
theorem Dev.ownerKeySet_first (none_ : e.owner? = none) (set_ : (le32 p 0).getLsbD 31 = false) (len : (le32 p 4).toNat = 100) :
    let pay := (p.drop 8).take (le32 p 4).toNat
    e.ownerKeySet n p = (e.setOwner (some { pub := pay.take 68, wrap := pay.drop 68 })).replyOk n := by
  rw [Dev.ownerKeySet, Dev.mramRead_good good]
  simp only [none_, set_]
  rw [if_pos len, Dev.mramWrite_good rails]

/-- An owner's signature installs the next owner (R432). -/
theorem Dev.ownerKeySet_next {o : Owner} (owner : e.owner? = some o) (set_ : (le32 p 0).getLsbD 31 = false)
    (len : (le32 p 4).toNat = 2928) :
    let pay := (p.drop 8).take (le32 p 4).toNat
    e.ownerKeySet n p =
      if xmssVerify o.pub (e.ownerMessage (pay.take 108)) (pay.drop 108) then
        match aesUnwrap o.wrap (slice pay 68 40) with
        | none => e.reply n .authFail
        | some w => (e.setOwner (some { pub := pay.take 68, wrap := w })).replyOk n
      else e.reply n .authFail := by
  rw [Dev.ownerKeySet, Dev.mramRead_good good]
  simp only [owner, set_]
  rw [if_neg (Classical.not_not.2 len)]
  simp only [Dev.mramWrite_good rails]
  cases xmssVerify o.pub (e.ownerMessage (((p.drop 8).take (le32 p 4).toNat).take 108)) (((p.drop 8).take (le32 p 4).toNat).drop 108) <;>
    rfl

/-- An owner's signature removes the owner (R432). -/
theorem Dev.ownerKeySet_remove {o : Owner} (owner : e.owner? = some o) (remove : (le32 p 0).getLsbD 31 = true)
    (len : (le32 p 4).toNat = 2820) :
    e.ownerKeySet n p =
      if xmssVerify o.pub (e.ownerMessage []) ((p.drop 8).take (le32 p 4).toNat) then (e.setOwner none).replyOk n
      else e.reply n .authFail := by
  rw [Dev.ownerKeySet, Dev.mramRead_good good]
  simp only [owner, remove]
  rw [if_neg (Classical.not_not.2 len), Dev.mramWrite_good rails]
  cases xmssVerify o.pub (e.ownerMessage []) ((p.drop 8).take (le32 p 4).toNat) <;> rfl

end Owner

section Wrapped
variable (rails : e.railsGood = true) (good : e.mramBad 0x2000 0x4000 = false) {o : Owner} (owner : e.owner? = some o)
include rails good owner

/-- A key that the owner has wrapped is unwrapped (R433). -/
theorem Dev.wrappedKey_set (wrapped : Bytes) (k : Option Bytes → Dev → Dev) :
    e.wrappedKey n false 40 wrapped true k =
      match aesUnwrap o.wrap wrapped with
      | none => e.reply n .authFail
      | some key => k (some key) e := by
  rw [Dev.wrappedKey, Dev.mramRead_good good]
  simp only [owner, Dev.mramWrite_good rails]
  rfl

/-- A removal carries no key (R433). -/
theorem Dev.wrappedKey_remove (wrapped : Bytes) (k : Option Bytes → Dev → Dev) :
    e.wrappedKey n true 0 wrapped true k = k none e := by
  rw [Dev.wrappedKey, Dev.mramRead_good good]
  simp only [owner, Dev.mramWrite_good rails]
  rfl

end Wrapped

/-- Settles O22: the MRAM's words and the secrets by what reading gives after writing, each command by the lemma that gives its
body under the clause's conditions. -/
theorem trustWrites : Obligations.TrustWrites := by
  unfold Obligations.TrustWrites
  refine ⟨plain_sealed, fun m f new => ⟨m.selector_writeCartouche new, ?_, ?_, m.fselector_writeFcartouche f new, ?_, ?_⟩,
    fun s c n a p e rails => ⟨?_, ?_, ?_, ?_⟩⟩
  · rw [m.selector_writeCartouche]
    exact TwoCopies.now_write_other ..
  · exact TwoCopies.now_write_same ..
  · rw [m.fselector_writeFcartouche]
    refine Eq.trans (congrArg (fun t : TwoCopies => t.now _) (Tbl.getD_put ..)) (TwoCopies.now_write_other ..)
  · exact fun g hg => ⟨Tbl.getD_put_ne _ _ _ hg, m.fselector_writeFcartouche_ne new hg⟩
  · refine fun h good off len inside => ?_
    refine exec_taken (e := e) h rfl ?_
    exact Dev.cartoucheWrite_inRange rails good off len inside
  · refine fun h own there => ?_
    refine exec_taken (e := e) h rfl ?_
    exact Dev.fcartoucheWrite_own rails own there
  · refine fun h good => ⟨fun none_ set_ len => ?_, fun o owner set_ len => ?_, fun o owner remove len => ?_⟩
    · refine exec_taken (e := e) h rfl ?_
      exact Dev.ownerKeySet_first rails good none_ set_ len
    · refine exec_taken (e := e) h rfl ?_
      rw [Dev.ownerKeySet_next rails good owner set_ len]
      rfl
    · refine exec_taken (e := e) h rfl ?_
      rw [Dev.ownerKeySet_remove rails good owner remove len, Dev.ownerMessage, List.append_nil]
  · refine fun o good owner => ⟨fun h kid => ⟨fun set_ len => ?_, fun remove len => ?_⟩,
      fun h => ⟨fun set_ len => ?_, fun remove len => ?_⟩⟩
    · refine exec_taken (e := e) h rfl ?_
      rw [Dev.mgmtKeySet, set_, len, decide_eq_true kid, Dev.wrappedKey_set rails good owner] <;> rfl
    · refine exec_taken (e := e) h rfl ?_
      rw [Dev.mgmtKeySet, remove, len, decide_eq_true kid, Dev.wrappedKey_remove rails good owner]
    · refine exec_taken (e := e) h rfl ?_
      rw [Dev.migDomainSet, set_, len, Dev.wrappedKey_set rails good owner]
      cases aesUnwrap o.wrap (slice p 12 40) with
      | none => rfl
      | some key => simp
    · refine exec_taken (e := e) h rfl ?_
      rw [Dev.migDomainSet, remove, len, Dev.wrappedKey_remove rails good owner]
      rfl

end Sys2Proof.Machine
end

section
/-!
The slow path, held posts, SMBus and the management VLAN (R334 to R336, R343, R345, R348, R349).
-/
namespace Sys2Proof.Machine

open Sys2Proof.Safety

/-! ## Slow-path verdicts (R345) -/

section Verdict
variable {e : Dev} {n fn : Nat} {p : Bytes} {x : SlowEnt} {f : Frame} (found : e.vcl.slow.look? (le32 p 0).toNat = some x)
include found

/-- A HANDLE of another owner is not found. -/
theorem Dev.slowVerdict_foreign (foreign : x.owner ≠ fn) : e.slowVerdict n fn p = e.reply n .notFound := by
  simp only [Dev.slowVerdict, found]
  rw [if_pos foreign]

/-- A HANDLE whose time has ended is not found, and its frame is dropped. -/
theorem Dev.slowVerdict_expired (own : x.owner = fn) (past : x.deadline ≤ e.ref) :
    e.slowVerdict n fn p = (e.slowDrop (le32 p 0).toNat x (Config.dropReason 29)).reply n .notFound := by
  simp only [Dev.slowVerdict, found]
  rw [if_neg (Classical.not_not.2 own), if_pos past]

/-- A frame that is still held takes the action of the verdict. -/
theorem Dev.slowVerdict_held (own : x.owner = fn) (held : e.ref < x.deadline) (frame : e.frame? x.frame = some f)
    (fresh : e.staleFrame f = false) (action : bitsOf (le32 p 4) 1 0 ≠ 3)
    (queue : bitsOf (le32 p 4) 1 0 = 2 → bitsOf (le32 p 4) 21 16 < e.qpCount fn) :
    e.slowVerdict n fn p =
      if bitsOf (le32 p 4) 1 0 = 0 then (e.slowDrop (le32 p 0).toNat x (Config.dropReason 28)).replyOk n
      else if bitsOf (le32 p 4) 1 0 = 1 then ((e.unslow (le32 p 0).toNat).reinject x.frame f).replyOk n
      else ((e.unslow (le32 p 0).toNat).slowDeliver x.frame f (bitsOf (le32 p 4) 21 16)).replyOk n := by
  have legal : ¬ (decide (bitsOf (le32 p 4) 1 0 = 3) ||
      (decide (bitsOf (le32 p 4) 1 0 = 2) && decide (bitsOf (le32 p 4) 21 16 ≥ e.qpCount fn))) = true := by
    simpa [action] using queue
  simp only [Dev.slowVerdict, found]
  rw [if_neg (Classical.not_not.2 own), if_neg (Nat.not_le.2 held), if_neg legal]
  simp only [frame]
  rw [fresh, if_neg Bool.false_ne_true]

end Verdict

/-- The end of a HANDLE's time drops its frame. -/
theorem Dev.slowHoldExpiry_past {d : Dev} {h : Nat} {x : SlowEnt} (found : d.vcl.slow.look? h = some x) (past : x.deadline ≤ d.ref) :
    d.slowHoldExpiry h = d.slowDrop h x (Config.dropReason 29) := by
  simp only [Dev.slowHoldExpiry, found]
  rw [if_pos past]

/-- The oldest held post is delivered to a receiver that is on and has room (R348). -/
theorem Dev.postDeliver_room {d : Dev} {sender receiver : Nat} {p : HeldPost}
    (found : (d.mbx.holding.find? fun q => q.sender == sender && q.receiver == receiver) = some p)
    (on_ : d.mailDomain receiver = true) (room : d.hasRoom sender receiver = true) :
    d.postDeliver sender receiver = (d.setHolding (d.mbx.holding.erase p)).deliver receiver
      { kind := p.kind, sender := sender, bytes := p.bytes, senderGen := p.senderGen, receiverGen := p.receiverGen, stamp := d.now,
        replyPlace := false } := by
  simp only [Dev.postDeliver, found]
  rw [on_, room]
  rfl

/-- Settles O23: the verdict's checks in their order, then its action; the end of a HANDLE's time; the delivery. -/
theorem mail : Obligations.Mail := by
  unfold Obligations.Mail
  refine ⟨fun s => ⟨fun c n a p e x f h found => ⟨?_, ?_, ?_⟩, ?_⟩, ?_⟩
  · refine fun foreign => ?_
    refine exec_taken (e := e) h rfl ?_
    exact Dev.slowVerdict_foreign found foreign
  · refine fun own past => ?_
    refine exec_taken (e := e) h rfl ?_
    exact Dev.slowVerdict_expired found own past
  · refine fun own held frame fresh => ⟨fun action => ?_, fun action => ?_, fun action queue => ?_⟩
    · refine exec_taken (e := e) h rfl ?_
      have legal : bitsOf (le32 p 4) 1 0 ≠ 3 := by omega
      exact (Dev.slowVerdict_held found own held frame fresh legal (by omega)).trans (if_pos action)
    · refine exec_taken (e := e) h rfl ?_
      have legal : bitsOf (le32 p 4) 1 0 ≠ 3 := by omega
      rw [Dev.slowVerdict_held found own held frame fresh legal (by omega), action]
      rfl
    · refine exec_taken (e := e) h rfl ?_
      have legal : bitsOf (le32 p 4) 1 0 ≠ 3 := by omega
      rw [Dev.slowVerdict_held found own held frame fresh legal (fun _ => queue), action]
      rfl
  · exact fun h x out found past => exec_leaves (fun d => d.slowHoldExpiry h) out rfl (Dev.slowHoldExpiry_past found past)
  · exact fun s sender receiver p out found on_ room =>
      exec_leaves (fun d => d.postDeliver sender receiver) out rfl (Dev.postDeliver_room found on_ room)

/-! ## SMBus and the management VLAN (R334 to R336) -/

/-- A block that comes while a packet is in work is not acknowledged. -/
theorem Dev.smbWrite_busy {d : Dev} (busy : d.vcl.smbBusy = true) (bytes : Bytes) (ok : Bool) : d.smbWrite bytes ok = d.emit .smbNack :=
  if_pos busy

/-- A block whose PEC fails is discarded, another one is taken. -/
theorem Dev.smbWrite_free {d : Dev} (free : d.vcl.smbBusy = false) (bytes : Bytes) (ok : Bool) :
    d.smbWrite bytes ok = if ok then { d with vcl := { d.vcl with smb := some (bytes.take 255), smbBusy := true, smbReply := none } }
      else d.bump .VCL_SMB_PEC_ERR := by
  rw [Dev.smbWrite, free]
  cases ok <;> rfl

/-- In STANDBY the control cluster's island follows what is left for the firmware. -/
theorem Dev.controlFollows_standby {d : Dev} (standby : d.pwrState = 3) :
    d.controlFollows = if d.controlWanted then d.powerUp 12 9 [] else d.powerDown 12 9 :=
  if_neg (Classical.not_not.2 standby)

/-- A management frame of a known key, in a queue with room. -/
theorem Dev.mgmtFrameRx_keyed {d : Dev} {id kid counter : Nat} {f : Frame} {pkt aad tag : Bytes} {k : MgmtKey}
    (frame : d.frame? id = some f) (stage : f.stage = .legend) (diverted : d.diverts f = true) (room : d.vcl.mgmtQ.length < 64)
    (parts : mgmtParts f.bytes = some (kid, counter, pkt, aad, tag)) (good : d.mramBad 0x3000 0x4000 = false)
    (key : d.mgmtKey kid = some k) :
    let noted := d.mgmtCount kid counter k.reply (k.acceptCommit counter) k.replyKept
    let m : MgmtCmd := { port := f.inPort, src := be f.bytes 6 6, key := kid, vid := d.get Fld.VCL_MGMT_CFG_VID, packet := pkt }
    d.mgmtFrameRx id =
      if mgmtOk k counter aad tag then
        if !d.railsGood && k.acceptCommit counter != k.highKept then d
        else ({ noted with vcl := { noted.vcl with mgmtQ := noted.vcl.mgmtQ ++ [m] } } : Dev).endFrame id
      else (d.bump .VCL_MGMT_AUTH_FAIL).endFrame id := by
  have reached : ¬ (decide (f.stage ≠ .legend) || !d.diverts f) = true := by simp [stage, diverted]
  simp only [Dev.mgmtFrameRx, frame]
  rw [if_neg reached, if_neg (Nat.not_le.2 room)]
  simp only [parts, good, Bool.false_eq_true, if_false, key]

/-- Settles O24: each row by the lemma on its operation; in STANDBY a command ends with the island that follows it. -/
theorem outOfBand : Obligations.OutOfBand := by
  unfold Obligations.OutOfBand
  refine fun s out => ⟨fun bytes => ⟨fun busy ok => ?_, fun free => ⟨?_, ?_⟩⟩, Dev.controlFollows_awake _, fun standby ops c body => ?_,
    fun standby wanted => ?_, fun standby idle => ?_, ?_, fun id kid counter f pkt aad tag k frame stage diverted room parts good key => ?_⟩
  · exact exec_leaves (fun d => (d.smbWrite bytes ok).controlFollows) out rfl (congrArg _ (Dev.smbWrite_busy busy bytes ok))
  · exact exec_leaves (fun d => (d.smbWrite bytes true).controlFollows) out rfl (congrArg _ (Dev.smbWrite_free free bytes true))
  · exact exec_leaves (fun d => (d.smbWrite bytes false).controlFollows) out rfl (congrArg _ (Dev.smbWrite_free free bytes false))
  · exact if_pos standby
  · rw [Dev.controlFollows_standby standby, wanted, if_pos rfl]
  · rw [Dev.controlFollows_standby standby, idle, if_neg Bool.false_ne_true]
  · exact exec_leaves (fun d => d.smbRead) out rfl rfl
  · have keyed := Dev.mgmtFrameRx_keyed frame stage diverted room parts good key
    refine ⟨fun fails => ?_, fun verifies => ⟨fun commits => ?_, fun warned moves => ?_⟩⟩
    · refine exec_leaves (fun d => d.mgmtFrameRx id) out rfl (keyed.trans ?_)
      rw [fails]
      rfl
    · refine exec_leaves (fun d => d.mgmtFrameRx id) out rfl (keyed.trans ?_)
      have goes : (!s.toDev.railsGood && k.acceptCommit counter != k.highKept) = false := by
        cases commits with
        | inl rails => simp [rails]
        | inr same =>
          have same : k.acceptCommit counter = k.highKept := same
          simp [same]
      rw [verifies, goes]
      rfl
    · refine exec_leaves (e := s.toDev) (fun d => d.mgmtFrameRx id) out rfl (keyed.trans ?_)
      have moves : k.acceptCommit counter ≠ k.highKept := moves
      have waits : (!s.toDev.railsGood && k.acceptCommit counter != k.highKept) = true := by simp [warned, moves]
      rw [verifies, waits]
      rfl

end Sys2Proof.Machine
end

section
/-!
Contour and power commands, windows and demands, rails, dies and resets (R386 to R407, R415, R425).
-/
namespace Sys2Proof.Machine

open Sys2Proof.Safety

/-! ## Contour commands (R393, R397, R406, R407) -/

section Contour
variable {e : Dev} {n : Nat} {a : Accepted} {p : Bytes}

/-- The end of CONTOUR_SET: the keep-set is written where there is something to keep or to remove. -/
def Dev.keepContour (x : Dev) (n : Nat) (w0 w1 : Word) : Dev :=
  let b := bitsOf w0 4 0
  let keep := w0.getLsbD 31
  if keep = false ∧ x.sec.mram.keepSet.look? b = none then x.replyOk n
  else if x.railsGood then
    ((x.set Fld.PWR_ISLAND_STAT_KEEP b (b2n keep)).setMram fun m => m.writeKeep b (if keep then some (w0, w1) else none)).replyOk n
  else x.wait n

/-- A CONTOUR_SET that has been applied, and one whose values are in their ranges, go on to the keep-set. -/
theorem Dev.contourSet_keeps
    (ok : a.committed = true ∨ contourOk (le32 p 0) (le32 p 4) = true ∧
      (e.contourApply (bitsOf (le32 p 0) 4 0) (le32 p 0) (le32 p 4)).l4Fits = true ∧
      ((List.range 18).all fun q => !(e.leadRec q).islands.testBit (bitsOf (le32 p 0) 4 0) ||
        (e.leadRec q).covers (bitsOf (le32 p 0) 10 8)) = true) :
    e.contourSet n a p = Dev.keepContour
      (if a.committed then e
        else ((e.contourApply (bitsOf (le32 p 0) 4 0) (le32 p 0) (le32 p 4)).settle (bitsOf (le32 p 0) 4 0) 1).commit n)
      n (le32 p 0) (le32 p 4) := by
  have write (x : Dev) : (if ((le32 p 0).getLsbD 31 || (x.sec.mram.keepSet.look? (bitsOf (le32 p 0) 4 0)).isSome) = true then
        x.mramWrite n fun x => (((x.set Fld.PWR_ISLAND_STAT_KEEP (bitsOf (le32 p 0) 4 0) (b2n ((le32 p 0).getLsbD 31))).setMram fun m =>
          m.writeKeep (bitsOf (le32 p 0) 4 0) (if (le32 p 0).getLsbD 31 then some (le32 p 0, le32 p 4) else none)).replyOk n)
      else x.replyOk n) = x.keepContour n (le32 p 0) (le32 p 4) := by
    simp only [Dev.keepContour, Dev.mramWrite]
    cases (le32 p 0).getLsbD 31 <;> cases x.sec.mram.keepSet.look? (bitsOf (le32 p 0) 4 0) <;> simp
  cases hc : a.committed with
  | true =>
    simp only [Dev.contourSet, hc, if_true]
    exact write e
  | false =>
    obtain hc' | ⟨range, fits, leads⟩ := ok
    · rw [hc] at hc'
      cases hc'
    · simp only [Dev.contourSet, hc, range, fits, leads, Bool.not_true, Bool.or_self, Bool.false_eq_true, if_false]
      exact write _

section Lead
variable (port : bitsOf (le32 p 0) 4 0 ≤ 17) (level : (leadOf (le32 p 0) (le32 p 4)).level ≤ 4)
include port level

/-- A lead record that names islands is written where their floors and the allowance permit it (R397, R399). -/
theorem Dev.contourLeadSet_named (islands : (leadOf (le32 p 0) (le32 p 4)).islands < 2 ^ 14)
    (some_ : (leadOf (le32 p 0) (le32 p 4)).islands ≠ 0) (lead : 400 ≤ (leadOf (le32 p 0) (le32 p 4)).lead)
    (covers : ((List.range 14).all fun i => !(leadOf (le32 p 0) (le32 p 4)).islands.testBit i ||
      (leadOf (le32 p 0) (le32 p 4)).covers (e.islFloor i)) = true)
    (fits : ((e.wr .PWR_LEAD_CFG (bitsOf (le32 p 0) 4 0) 0 (le32 p 0)).wr .PWR_LEAD_CFG (bitsOf (le32 p 0) 4 0) 1 (le32 p 4)).l4Fits = true) :
    e.contourLeadSet n p =
      ((e.wr .PWR_LEAD_CFG (bitsOf (le32 p 0) 4 0) 0 (le32 p 0)).wr .PWR_LEAD_CFG (bitsOf (le32 p 0) 4 0) 1 (le32 p 4)).replyOk n := by
  simp only [Dev.contourLeadSet]
  rw [if_neg (by simp; omega), if_neg some_, covers, fits]
  rfl

/-- A lead record that names none is taken away with its demands. -/
theorem Dev.contourLeadSet_none (none_ : (leadOf (le32 p 0) (le32 p 4)).islands = 0) :
    e.contourLeadSet n p =
      (((((e.wr .PWR_LEAD_CFG (bitsOf (le32 p 0) 4 0) 0 0).wr .PWR_LEAD_CFG (bitsOf (le32 p 0) 4 0) 1 0)).setPwr fun x =>
        { x with demands := x.demands.filter fun w => w.port != bitsOf (le32 p 0) 4 0 }).settleAll 1).replyOk n := by
  simp only [Dev.contourLeadSet]
  rw [if_neg (by simp [none_]; omega), if_pos none_]

end Lead

end Contour

/-! ## Power of islands (R392, R400 to R403) -/

section Turn
variable {d : Dev} {b reason : Nat} {cmds : List Nat}

/-- An island that is rising takes the command with its confirmation. -/
theorem Dev.turnOn_rising (rising : d.rising b = true) :
    d.turnOn b reason cmds = d.setIsl b { d.isl b with cmds := (d.isl b).cmds ++ cmds } :=
  if_pos rising

/-- A block that is on replies at once. -/
theorem Dev.turnOn_on (still : d.rising b = false) (on_ : d.islOn b = true) :
    d.turnOn b reason cmds = cmds.foldl (fun x n => x.replyOk n) d :=
  (if_neg (ne_true_of_eq_false still)).trans (if_pos on_)

/-- An island that is off begins to rise. -/
theorem Dev.turnOn_island (still : d.rising b = false) (off : d.islOn b = false) (island : b < 14) :
    let on_ := d.set Fld.PWR_ISLAND_STAT_ON b 1
    d.turnOn b reason cmds = (on_.set Fld.PWR_ISLAND_STAT_CHANGING b 1).setIsl b
      { on_.isl b with target := some (on_.islandTarget b, reason), rising := true, cmds := (on_.isl b).cmds ++ cmds } :=
  ((if_neg (ne_true_of_eq_false still)).trans (if_neg (ne_true_of_eq_false off))).trans (if_neg (Nat.not_le.2 island))

/-- A block that follows others is at its level at once. -/
theorem Dev.turnOn_follower (still : d.rising b = false) (off : d.islOn b = false) (follower : 14 ≤ b) :
    let on_ := d.set Fld.PWR_ISLAND_STAT_ON b 1
    d.turnOn b reason cmds = cmds.foldl (fun x n => x.replyOk n) (on_.logContour b 15 (on_.levelOf b) reason) :=
  ((if_neg (ne_true_of_eq_false still)).trans (if_neg (ne_true_of_eq_false off))).trans (if_pos follower)

end Turn

section IslandPower
variable {e : Dev} {n : Nat} {p : Bytes} (block : bitsOf (le32 p 0) 4 0 ≤ 23)
include block

/-- OFF of a block that may go off. -/
theorem Dev.islandPower_off (action : bitsOf (le32 p 0) 9 8 = 0) (allowed : e.offRefused (bitsOf (le32 p 0) 4 0) = none) :
    e.islandPower n p = ((e.setPwr fun q => { q with offByCmd := e.pwr.offByCmd.filter (· ≠ bitsOf (le32 p 0) 4 0) ++
      [bitsOf (le32 p 0) 4 0] }).powerDown (bitsOf (le32 p 0) 4 0) 12).replyOk n := by
  simp only [Dev.islandPower]
  rw [if_neg (Nat.not_lt.2 block), action, allowed]
  rfl

/-- ON of a block. -/
theorem Dev.islandPower_on (action : bitsOf (le32 p 0) 9 8 = 1) :
    e.islandPower n p = ((e.commit n).setPwr fun q => { q with offByCmd := e.pwr.offByCmd.filter (· ≠ bitsOf (le32 p 0) 4 0) }).powerUp
      (bitsOf (le32 p 0) 4 0) 12 [n] := by
  simp only [Dev.islandPower]
  rw [if_neg (Nat.not_lt.2 block), action]
  rfl

/-- CYCLE of a block that may go off. -/
theorem Dev.islandPower_cycle (action : bitsOf (le32 p 0) 9 8 = 2) (allowed : e.offRefused (bitsOf (le32 p 0) 4 0) = none) :
    e.islandPower n p = ((e.commit n).setPwr fun q => { q with offByCmd := e.pwr.offByCmd.filter (· ≠ bitsOf (le32 p 0) 4 0) }).cycle
      (bitsOf (le32 p 0) 4 0) [n] := by
  simp only [Dev.islandPower]
  rw [if_neg (Nat.not_lt.2 block), action, allowed]
  rfl

/-- RESET of a block that can be reset. -/
theorem Dev.islandPower_reset (action : bitsOf (le32 p 0) 9 8 = 3) (able : resettable (bitsOf (le32 p 0) 4 0) = true) :
    let reset := (e.commit n).resetBlock (bitsOf (le32 p 0) 4 0)
    e.islandPower n p =
      reset.setIsl (bitsOf (le32 p 0) 4 0) { reset.isl (bitsOf (le32 p 0) 4 0) with resetting := some (some n) } := by
  simp only [Dev.islandPower]
  rw [if_neg (Nat.not_lt.2 block), action, able]
  rfl

end IslandPower

section PowerState
variable {e : Dev} {n : Nat} {a : Accepted} {p : Bytes} (trim : bitsOf (le32 p 0) 10 8 ≤ 4)
include trim

/-- A power state other than STANDBY. -/
theorem Dev.pwrStateSet_awake (awake : bitsOf (le32 p 0) 1 0 ≠ 3)
    (doze : bitsOf (le32 p 0) 1 0 = 2 → ((List.range 4).any fun r => r != bitsOf (le32 p 0) 5 4 && e.leadNames r) = false) :
    let x := (e.commit n).setPwr fun q => { q with trimLevel := bitsOf (le32 p 0) 10 8, dozeRegion := bitsOf (le32 p 0) 5 4 }
    let settled := ((x.set Fld.PWR_STAT_STATE 0 (bitsOf (le32 p 0) 1 0)).applyState (bitsOf (le32 p 0) 1 0) (bitsOf (le32 p 0) 5 4)).settleAll 9
    e.pwrStateSet n a p = if settled.someRising then settled.setPwr fun q => { q with cmds := q.cmds ++ [n] } else settled.replyOk n := by
  have region : ¬ (decide (bitsOf (le32 p 0) 1 0 = 2) && (List.range 4).any (fun r => r != bitsOf (le32 p 0) 5 4 && e.leadNames r)) = true := by
    by_cases h : bitsOf (le32 p 0) 1 0 = 2
    · rw [doze h, Bool.and_false]
      exact Bool.false_ne_true
    · rw [decide_eq_false h]
      exact Bool.false_ne_true
  have running : ¬ (decide (bitsOf (le32 p 0) 1 0 = 3) && e.standbyRefused a) = true := by
    rw [decide_eq_false awake]
    exact Bool.false_ne_true
  simp only [Dev.pwrStateSet]
  rw [if_neg (Nat.not_lt.2 trim), if_neg region, if_neg running, if_neg awake]

/-- STANDBY (R402). -/
theorem Dev.pwrStateSet_standby (standby : bitsOf (le32 p 0) 1 0 = 3) :
    let x := (e.commit n).setPwr fun q => { q with trimLevel := bitsOf (le32 p 0) 10 8, dozeRegion := bitsOf (le32 p 0) 5 4 }
    let off := (((x.replyOk n).abortAll).applyState 3 (bitsOf (le32 p 0) 5 4)).stateReplies
    e.pwrStateSet n a p = if e.standbyRefused a then e.reply n .badState
      else ({ off with log := { off.log with trace := ⟨[]⟩, filled := 0 }, vcl := { off.vcl with mgmtQ := [] } } : Dev).set
        Fld.PWR_STAT_STATE 0 3 := by
  simp only [Dev.pwrStateSet, standby]
  rw [if_neg (Nat.not_lt.2 trim)]
  simp only [Nat.reduceEqDiff, decide_false, Bool.false_and, Bool.false_eq_true, if_false, decide_true, Bool.true_and, if_true]

end PowerState

/-- The end of a region's reload. -/
theorem Dev.regionReloadEnd_there {d : Dev} {r : Nat} (there : d.available r = true) (reload : (d.isl r).reload.isSome = true) :
    d.regionReloadEnd r = d.setIsl r { d.isl r with reload := none } := by
  rw [Dev.regionReloadEnd, there, reload]
  rfl

/-- Settles O25: each command by the lemma on the case that the clause names. -/
theorem powerAndContour : Obligations.PowerAndContour := by
  unfold Obligations.PowerAndContour
  refine ⟨fun s c n a p e => ⟨fun h ok => ?_, fun h port level islands => ⟨fun some_ lead covers fits => ?_, fun none_ => ?_⟩, fun h => ?_⟩,
    fun s => ⟨fun c n a p e h block => ⟨fun action allowed => ?_, fun action => ⟨fun rising => ?_, fun still on_ => ?_,
      fun still off => ⟨fun island => ?_, fun follower => ?_⟩⟩, fun action allowed => ?_, fun action able => ?_⟩,
    fun c n a p e h trim => ⟨fun awake doze => ?_, fun standby => ?_⟩, fun r out there reload => ?_⟩⟩
  · refine exec_taken (e := e) h rfl ?_
    exact Dev.contourSet_keeps ok
  · refine exec_taken (e := e) h rfl ?_
    exact Dev.contourLeadSet_named port level islands some_ lead covers fits
  · refine exec_taken (e := e) h rfl ?_
    exact Dev.contourLeadSet_none port level none_
  · refine exec_taken (e := e) h rfl ?_
    rfl
  · refine exec_taken (e := e) h rfl ?_
    exact Dev.islandPower_off block action allowed
  · refine exec_taken (e := e) h rfl ?_
    rw [Dev.islandPower_on block action, Dev.powerUp, Dev.turnOn_rising rising]
  · refine exec_taken (e := e) h rfl ?_
    rw [Dev.islandPower_on block action, Dev.powerUp, Dev.turnOn_on still on_]
    rfl
  · refine exec_taken (e := e) h rfl ?_
    rw [Dev.islandPower_on block action, Dev.powerUp, Dev.turnOn_island still off island]
  · refine exec_taken (e := e) h rfl ?_
    rw [Dev.islandPower_on block action, Dev.powerUp, Dev.turnOn_follower still off follower]
    rfl
  · refine exec_taken (e := e) h rfl ?_
    exact Dev.islandPower_cycle block action allowed
  · refine exec_taken (e := e) h rfl ?_
    exact Dev.islandPower_reset block action able
  · refine exec_taken (e := e) h rfl ?_
    exact Dev.pwrStateSet_awake trim awake doze
  · refine exec_taken (e := e) h rfl ?_
    exact Dev.pwrStateSet_standby trim standby
  · exact exec_leaves (fun d => d.regionReloadEnd r) out rfl (Dev.regionReloadEnd_there there reload)

end Sys2Proof.Machine
end

section
/-!
Windows, demands and pace; rails, dies, pins and debug resets (R386 to R398, R404, R425).
-/
namespace Sys2Proof.Machine

open Sys2Proof.Safety

/-! ## Windows, confirmations and demands (R392 to R398) -/

section Contour
variable {d : Dev}

/-- A window whose lead has come demands its level (R397, R398). -/
theorem Dev.contourRaise_due {p o : Nat} {cl : Option Nat} (port : p < 18) (named : (d.leadRec p).islands ≠ 0)
    (active : d.gateActive p = true) (window : d.dueWindow p = some (o, cl)) (due : o ≤ d.nowNs + (d.leadRec p).lead) :
    let late := decide (o + 1 < d.nowNs + (d.leadRec p).lead)
    let r := d.leadRec p
    let w : WinDemand := { port := p, islands := r.islands, level := r.level, opens := o, closes := cl, tail := r.tail, late := late }
    let raised := (d.setPwr fun x => { x with demands := x.demands ++ [w] }).settleAll (if late then 11 else 2)
    d.contourRaise p = raised.setPwr fun x => { x with demands := d.pwr.demands ++ [{ w with raising := raised.raisingMask w }] } := by
  have goes : ¬ (decide (p ≥ 18) || decide ((d.leadRec p).islands = 0) || !d.gateActive p) = true := by
    simpa [active, named] using port
  simp only [Dev.contourRaise]
  rw [if_neg goes, window]
  exact if_neg (Nat.not_lt.2 due)

/-- A new level is confirmed (R393). -/
theorem Dev.contourConfirm_target {b t why : Nat} (target : (d.isl b).target = some (t, why)) :
    let x := d.isl b
    let seen := ((d.set Fld.PWR_ISLAND_STAT_LEVEL b t).set Fld.PWR_ISLAND_STAT_CHANGING b 0).logContour b
      (if x.rising then 15 else d.islLevel b) t why
    let settled := (seen.countLateWindows b t).setIsl b
      { x with target := none, rising := false, cmds := [], reload := if x.rising && b < 4 then some d.ref else x.reload }
    d.contourConfirm b = ((x.cmds.foldl (fun y n => y.replyOk n) (settled.follow d why)).stateReplies).railEvents := by
  simp only [Dev.contourConfirm, target]

/-- A load demand rises and falls (R396). -/
theorem Dev.loadUp_moves {b pct : Nat} (moves : d.loadMoves b = true) (busy : (d.isl b).upPct ≤ pct) (room : (d.isl b).load < 4) :
    d.loadUp b pct = (d.setIsl b { d.isl b with load := (d.isl b).load + 1 }).settle b 4 :=
  if_pos (by simp [moves, busy, room])

theorem Dev.loadDown_moves {b pct : Nat} (moves : d.loadMoves b = true) (idle : pct ≤ (d.isl b).downPct) (some_ : 0 < (d.isl b).load) :
    d.loadDown b pct = (d.setIsl b { d.isl b with load := (d.isl b).load - 1 }).settle b 5 :=
  if_pos (by simp [moves, idle, some_])

section Pace
variable {b pace : Nat} (block : b < 24) (powered : d.powered b = true)
include block powered

/-- A pace that is good, or that comes while the level changes, is noted alone (R395). -/
theorem Dev.paceLow_noted (h : 1000 ≤ pace ∨ (d.isl b).target.isSome = true) : d.paceLow b pace = d.set Fld.PWR_PACE_PACE b pace := by
  have there : ¬ (decide (b ≥ 24) || !d.powered b) = true := by simpa [powered] using block
  have noted : (decide (pace ≥ 1000) || (d.isl b).target.isSome) = true := by simpa using h
  simp only [Dev.paceLow]
  rw [if_neg there, if_pos noted]

/-- A low pace asks for the next level, or cannot be met (R395). -/
theorem Dev.paceLow_asks (low : pace < 1000) (still : (d.isl b).target = none) :
    let noted := (d.set Fld.PWR_PACE_PACE b pace).set Fld.PWR_PACE_PACE_LOW b 1
    let asked := (noted.setIsl b { d.isl b with pace := max (d.isl b).pace (d.levelOf b + 1) }).set Fld.PWR_ISLAND_STAT_PACE_RAISED b 1
    d.paceLow b pace =
      if d.levelOf b < 3 ∨ d.levelOf b = 3 ∧ asked.l4Fits = true then (if b < 14 then asked.settle b 6 else asked.follow d 6)
      else (noted.set Fld.PWR_STAT_PACE_FAIL 0 1).logPower 5 b (toWord pace) := by
  have there : ¬ (decide (b ≥ 24) || !d.powered b) = true := by simpa [powered] using block
  have asks : ¬ (decide (pace ≥ 1000) || (d.isl b).target.isSome) = true := by simpa [still] using low
  have fails (fits : Bool) : (decide (d.levelOf b + 1 > 4) || (decide (d.levelOf b + 1 = 4) && !fits)) = true ↔
      ¬ (d.levelOf b < 3 ∨ d.levelOf b = 3 ∧ fits = true) := by
    cases fits <;> simp <;> omega
  simp only [Dev.paceLow]
  rw [if_neg there, if_neg asks]
  simp only [fails]
  exact ite_not ..

end Pace

end Contour

/-- Settles O26: each event by the lemma on the case that the clause names. -/
theorem contourEvents : Obligations.ContourEvents := by
  unfold Obligations.ContourEvents
  refine fun s out => ⟨fun p o cl port named active window due => ?_, fun p => ?_, fun b t why target => ?_, fun b pct moves busy room => ?_,
    fun b pct moves idle some_ => ?_, fun b pace block powered => ⟨fun h => ?_, fun low still => ?_⟩⟩
  · exact exec_leaves (fun d => d.contourRaise p) out rfl (Dev.contourRaise_due port named active window due)
  · exact exec_leaves (fun d => d.contourRelease p) out rfl rfl
  · exact exec_leaves (fun d => d.contourConfirm b) out rfl (Dev.contourConfirm_target target)
  · exact exec_leaves (fun d => d.loadUp b pct) out rfl (Dev.loadUp_moves moves busy room)
  · exact exec_leaves (fun d => d.loadDown b pct) out rfl (Dev.loadDown_moves moves idle some_)
  · exact exec_leaves (fun d => d.paceLow b pace) out rfl (Dev.paceLow_noted block powered h)
  · exact exec_leaves (fun d => d.paceLow b pace) out rfl (Dev.paceLow_asks block powered low still)

/-! ## Rails, dies and pins (R386 to R391) -/

/-- The next state of a row that acts in reset too. -/
theorem exec_always {s : State} {i : Instr} (f : Dev → Dev) (hf : exec i s = s.onAlways f) {e : Dev} (he : f s.toDev = e) :
    exec i s = .next (withDev s e) := by
  subst he
  exact hf

section Sensors
variable {d : Dev}

theorem Dev.railWarn_low {r mv : Nat} (rail : r < 7) (low : 100 * mv < 94 * railNominal r) (good : d.on? Fld.PWR_RAIL_STAT_WARN r = false) :
    let w := (d.railState r true).set Fld.PWR_RAIL_STAT_MILLIVOLTS r mv
    d.railWarn r mv = if d.inReset then w
      else ((((w.set Fld.PWR_RAIL_STAT_WARN_SEEN r 1).bump .PWR_WARN_COUNT).settleAll 7).logPower 1 r (toWord mv)).owesEvent 0x8006 r :=
  if_neg (by simp [rail, low, good])

theorem Dev.railWarnClear_high {r mv : Nat} (rail : r < 7) (high : 96 * railNominal r < 100 * mv)
    (warned : d.on? Fld.PWR_RAIL_STAT_WARN r = true) :
    let w := (d.railState r false).set Fld.PWR_RAIL_STAT_MILLIVOLTS r mv
    let x := w.logPower 2 r (toWord mv)
    d.railWarnClear r mv = if d.inReset then (w.setPwr fun p => { p with railHold := p.railHold.filter (· ≠ r) }).porEnds
      else (if x.railsGood then ((x.settleAll 8).attestResume).mgmtResume else x).owesEvent 0x8007 r :=
  if_neg (by simp [rail, high, warned])

theorem Dev.railReset_low {r mv : Nat} (rail : r < 7) (low : 100 * mv < 90 * railNominal r) (free : d.pwr.railHold.contains r = false) :
    let held := ((d.railState r true).set Fld.PWR_RAIL_STAT_MILLIVOLTS r mv).setPwr fun p => { p with railHold := p.railHold ++ [r] }
    d.railReset r mv = held.afterReset true (toWord (2 ^ 29 + (held.pwr.railHold.map fun i => 2 ^ i).foldl (· + ·) 0)) := by
  have goes : ¬ (decide (r ≥ 7) || decide (100 * mv ≥ 90 * railNominal r) || d.pwr.railHold.contains r) = true := by
    rw [free]
    simp [rail, low]
  rw [Dev.railReset, if_neg goes]

theorem Dev.dieHot_hot {die : Nat} {t : Int} (there : die < 4) (cool : d.pwr.hotDies.contains die = false) (hot : d.thermHot ≤ t) :
    let x := ((d.setTemp die t).setHot (d.pwr.hotDies ++ [die])).logPower 3 die (toWord (unsignedOf 32 t))
    d.dieHot die t = if die = 0 then x.settleAll 10 else x := by
  have goes : ¬ (decide (die ≥ 4) || d.pwr.hotDies.contains die || decide (t < d.thermHot)) = true := by
    rw [cool]
    simp [there, hot]
  rw [Dev.dieHot, if_neg goes]

theorem Dev.dieHotClear_cool {die : Nat} {t : Int} (hot : d.pwr.hotDies.contains die = true) (cool : t < d.thermHot - 80) :
    let x := ((d.setTemp die t).setHot (d.pwr.hotDies.filter (· ≠ die))).logPower 4 die (toWord (unsignedOf 32 t))
    d.dieHotClear die t = if die = 0 then x.settleAll 10 else x := by
  have goes : ¬ (!d.pwr.hotDies.contains die || decide (t ≥ d.thermHot - 80)) = true := by
    rw [hot, decide_eq_false (Int.not_le.2 cool)]
    decide
  rw [Dev.dieHotClear, if_neg goes]

theorem Dev.thermalTrip_hot {die : Nat} {t : Int} (there : die < 4) (first : d.pwr.tripped = false) (hot : 2000 ≤ t) :
    d.thermalTrip die t =
      (((d.setTemp die t).emit (.tripPin true)).setPwr fun p => { p with tripped := true }).afterReset true 0x40000000 :=
  if_neg (by simp [there, first, hot])

end Sensors

/-! ## Debug resets (R404, R425) -/

/-- A GO write of a block that can be reset, or of a region to be cycled, orders the reset. -/
theorem Dev.debugGo_orders {e : Dev} {w : Word} (free : e.on? Fld.DBG_RESET_CTRL_BUSY = false)
    (target : (w.getLsbD 8 = false ∧ resettable (bitsOf w 4 0) = true) ∨ (w.getLsbD 8 = true ∧ bitsOf w 4 0 < 4)) :
    let t := bitsOf w 4 0
    let reset := if w.getLsbD 8 then (e.setPwr fun p => { p with offByCmd := p.offByCmd.filter (· ≠ t) }).cycle t [] else e.resetBlock t
    let busy := (reset.wr .DBG_RESET_CTRL 0 0 (w &&& 0x11F)).set Fld.DBG_RESET_CTRL_BUSY 0 1
    let ordered : Dev := { busy with dbg := { ordered := some t } }
    e.debugGo w = ordered.setIsl t { busy.isl t with resetting := some (busy.isl t).resetting.join } := by
  rcases target with ⟨cycle, able⟩ | ⟨cycle, region⟩
  · have other : bitsOf w 4 0 ≠ 31 := fun h => absurd able (by rw [h]; decide)
    simp only [Dev.debugGo, cycle, able]
    rw [if_neg (ne_true_of_eq_false free), if_neg other]
    rfl
  · have other : bitsOf w 4 0 ≠ 31 := by omega
    simp only [Dev.debugGo, cycle, region]
    rw [if_neg (ne_true_of_eq_false free), if_neg other]
    rfl

/-- The row DEBUG_RESET writes GO. -/
theorem exec_debugReset {s : State} {req : Requester} {w : Word} {l : Loc}
    (h : Reaches s.toDev req (regLoc .DBG_RESET_CTRL 0) l (devAt .DBG_RESET_CTRL 0))
    (go : w.getLsbD 31 = true) {x : Dev} (hx : (s.toDev.noteJtag req).debugGo w = x) :
    exec (.debugReset req w) s = .next (withDev s
      ((x.logWrite req l ((s.toDev.noteJtag req).regSource l (.reg (devAt .DBG_RESET_CTRL 0))) (regFunction l (.reg (devAt .DBG_RESET_CTRL 0)))
        (s.toDev.noteJtag req).now w false false).emit (.answer req .done))) := by
  have hw : (s.toDev.noteJtag req).writeReg (devAt .DBG_RESET_CTRL 0) l w = (false, x) := by
    rw [← hx]
    simp only [Dev.writeReg, go, devAt, decide_true, Bool.and_self, if_true]
  refine exec_leaves (fun d => if w.getLsbD 31 then d.regWrite req (regLoc .DBG_RESET_CTRL 0) w else d) h.out rfl ?_
  exact (if_pos go).trans (Dev.regWrite_reached h hw)

/-- The end of the reset that the debug unit ordered. -/
theorem Dev.debugResetDone_ordered {d : Dev} {b : Nat} (ordered : d.dbg.ordered = some b) (still : d.rising b = false) :
    let ended := (d.set Fld.DBG_RESET_CTRL_BUSY 0 0).setIsl b { d.isl b with resetting := none }
    let e : Dev := { ended with dbg := {} }
    d.debugResetDone = ((d.isl b).resetting.join.map fun n => e.replyOk n).getD e := by
  simp only [Dev.debugResetDone, ordered]
  rw [if_neg (ne_true_of_eq_false still)]
  cases (d.isl b).resetting.join <;> rfl

/-- The end of a reset that a command ordered, or none. -/
theorem Dev.blockResetEnd_resetting {d : Dev} {b : Nat} {cmd : Option Nat} (other : d.dbg.ordered ≠ some b)
    (resetting : (d.isl b).resetting = some cmd) :
    let e := d.setIsl b { d.isl b with resetting := none }
    d.blockResetEnd b = (cmd.map fun n => e.replyOk n).getD e := by
  simp only [Dev.blockResetEnd, resetting]
  rw [if_neg other]
  cases cmd <;> rfl

/-- Settles O27: rails, dies and pins by their lemmas; a debug reset by the write that orders it, and its end. -/
theorem resets : Obligations.Resets := by
  unfold Obligations.Resets
  refine ⟨fun s => ⟨fun r mv rail low good => ?_, fun r mv rail high warned => ?_, fun out => ?_, fun r mv rail low free => ?_,
    fun die t there cool hot => ?_, fun die t hot cool => ?_, fun die t there first hot => ?_, fun tripped => ?_, fun high => ?_,
    fun low => ?_⟩, fun s => ⟨fun req w l h go free target => ?_, fun b out ordered still => ?_, fun b cmd out other resetting => ?_⟩⟩
  · exact exec_always (fun d => d.railWarn r mv) rfl (Dev.railWarn_low rail low good)
  · exact exec_always (fun d => d.railWarnClear r mv) rfl (Dev.railWarnClear_high rail high warned)
  · exact exec_leaves (fun d => d.perst0) out rfl rfl
  · exact exec_always (fun d => d.railReset r mv) rfl (Dev.railReset_low rail low free)
  · exact exec_always (fun d => d.dieHot die t) rfl (Dev.dieHot_hot there cool hot)
  · exact exec_always (fun d => d.dieHotClear die t) rfl (Dev.dieHotClear_cool hot cool)
  · exact exec_always (fun d => d.thermalTrip die t) rfl (Dev.thermalTrip_hot there first hot)
  · exact exec_always (fun d => d.thermalTripEnd) rfl (if_pos tripped)
  · exact exec_always (fun d => d.resetNAssert) rfl (if_neg (ne_true_of_eq_false high))
  · exact exec_always (fun d => d.resetNRise) rfl (if_pos low)
  · exact exec_debugReset h go (Dev.debugGo_orders free target)
  · refine exec_leaves (fun d => d.debugResetDone) out rfl ((Dev.debugResetDone_ordered ordered still).trans ?_)
    cases (s.toDev.isl b).resetting.join <;> rfl
  · refine exec_leaves (fun d => (d.blockResetEnd b).railEvents) out rfl (congrArg Dev.railEvents ?_)
    rw [Dev.blockResetEnd_resetting other resetting]
    cases cmd <;> rfl

end Sys2Proof.Machine
end

section
/-!
Ports: commands, reception, link changes, stops and holdoffs (R39, R40, R361 to R381).
-/
namespace Sys2Proof.Machine

open Sys2Proof.Safety

/-! ## Port commands (R371, R374, R377 to R381) -/

section Commands
variable {e : Dev} {n : Nat} {a : Accepted} {p : Bytes}

theorem Dev.portSet_inRange (port : bitsOf (le32 p 0) 4 0 < 18)
    (combo : comboOk (bitsOf (le32 p 0) 4 0) (bitsOf (le32 p 4) 3 0) (bitsOf (le32 p 4) 5 4) (bitsOf (le32 p 4) 7 6) = true)
    (an : (le32 p 4).getLsbD 9 = true → bitsOf (le32 p 4) 5 4 = 0)
    (low : 1514 ≤ bitsOf (le32 p 12) 13 0) (high : bitsOf (le32 p 12) 13 0 ≤ 9728)
    (off : (e.on? Fld.PRT_PORT_CFG_ENABLE (bitsOf (le32 p 0) 4 0) && (le32 p 4).getLsbD 31) = false) :
    let port := bitsOf (le32 p 0) 4 0
    let disabled := e.portWord .PRT_PORT_CFG port (e.rd .PRT_PORT_CFG port &&& 0x7FFFFFFF)
    e.portSet n p = (((disabled.portWord .PRT_FC_CFG port (le32 p 8)).portWord .PRT_MAX_LEN port
      (toWord (bitsOf (le32 p 12) 13 0))).portWord .PRT_PORT_CFG port (le32 p 4)).replyOk n := by
  have negotiates : ((le32 p 4).getLsbD 9 && decide (bitsOf (le32 p 4) 5 4 ≠ 0)) = false := by
    rw [Bool.and_eq_false_iff, decide_eq_false_iff_not, Classical.not_not]
    by_cases h : (le32 p 4).getLsbD 9 = true
    · exact .inr (an h)
    · exact .inl (eq_false_of_ne_true h)
  have legal : ¬ (decide (bitsOf (le32 p 0) 4 0 ≥ 18) ||
      !comboOk (bitsOf (le32 p 0) 4 0) (bitsOf (le32 p 4) 3 0) (bitsOf (le32 p 4) 5 4) (bitsOf (le32 p 4) 7 6) ||
      ((le32 p 4).getLsbD 9 && decide (bitsOf (le32 p 4) 5 4 ≠ 0)) || decide (bitsOf (le32 p 12) 13 0 < 1514) ||
      decide (9728 < bitsOf (le32 p 12) 13 0)) = true := by
    rw [combo, negotiates]
    simp [port, low, high]
  simp only [Dev.portSet]
  rw [if_neg legal, if_neg (ne_true_of_eq_false off)]

/-- The physical function's own, its functions', and a virtual function's own with the privilege may set an injector (R380). -/
theorem Dev.faultSet_inRange {who idx : Nat} {func : Bool} (hwho : a.cmd.issuer = who) (hidx : bitsOf (le32 p 0) 9 0 = idx)
    (hfunc : (le32 p 0).getLsbD 30 = func)
    (mine : (who < 4 ∧ (func = true → pfOf idx = who)) ∨ (4 ≤ who ∧ func = true ∧ idx = who ∧ (e.rd .FNC_PRIV who).getLsbD 0 = true))
    (port : func = false → idx < 18) (there : func = true → e.exists? idx = true) (action : bitsOf (le32 p 0) 28 27 ≠ 3)
    (kind : bitsOf (le32 p 0) 26 25 ≠ 3) (ok : (le32 p 0).getLsbD 31 = true → faultOk p = true)
    (rest : bitsOf (le32 p 0) 28 27 ≠ 2 → le32 p 8 = 0 ∧ le32 p 12 = 0) :
    let k := if func then idx else 2 * idx + b2n ((le32 p 0).getLsbD 29)
    let held := (e.injector func k).held.map (·.1)
    let drawn := if e.on? Fld.SEC_STAT_TRNG_FAIL then ((e.injector func k).seed, e) else e.drawNat
    e.faultSet n a p =
      ((((((drawn.2.setInjector func k { seed := drawn.1 }).letGo func k held).wrWords (if func then .PRT_FAULT_FUNC else .PRT_FAULT_PORT) k
        (wordsOf p 4)).logFault func k true ((le32 p 0).getLsbD 29) (bitsOf (le32 p 0) 26 25)).replyOk n)) := by
  have allowed : ¬ (!(if who < 4 then !func || pfOf idx == who else func && idx == who && (e.rd .FNC_PRIV who).getLsbD 0)) = true := by
    rcases mine with ⟨pf, own⟩ | ⟨vf, hf, same, priv⟩
    · rw [if_pos pf]
      cases func <;> simp_all
    · rw [if_neg (Nat.not_lt.2 vf), hf, same, priv]
      simp
  have legal : ¬ ((!func && decide (idx ≥ 18)) || (func && !e.exists? idx) || decide (bitsOf (le32 p 0) 28 27 = 3) ||
      decide (bitsOf (le32 p 0) 26 25 = 3) || ((le32 p 0).getLsbD 31 && !faultOk p) ||
      (decide (bitsOf (le32 p 0) 28 27 ≠ 2) && (decide (le32 p 8 ≠ 0) || decide (le32 p 12 ≠ 0)))) = true := by
    have item : ((!func && decide (idx ≥ 18)) || (func && !e.exists? idx)) = false := by
      cases func with
      | false => simpa using port rfl
      | true => simpa using there rfl
    have params : ((le32 p 0).getLsbD 31 && !faultOk p) = false := by
      cases h : (le32 p 0).getLsbD 31 with
      | false => rfl
      | true => simpa using ok h
    have zeros : (decide (bitsOf (le32 p 0) 28 27 ≠ 2) && (decide (le32 p 8 ≠ 0) || decide (le32 p 12 ≠ 0))) = false := by
      by_cases h : bitsOf (le32 p 0) 28 27 = 2
      · simp [h]
      · simp [rest h]
    rw [item, params, zeros]
    simp [action, kind]
  simp only [Dev.faultSet, hwho, hidx, hfunc]
  rw [if_neg allowed, if_neg legal]

theorem Dev.stepdownSet_on (port : bitsOf (le32 p 0) 4 0 < 16) (on_ : (le32 p 0).getLsbD 31 = true)
    (enabled : e.on? Fld.PRT_PORT_CFG_ENABLE (bitsOf (le32 p 0) 4 0) = true) (phy : e.phyOf (bitsOf (le32 p 0) 4 0) = 0)
    (an : e.on? Fld.PRT_PORT_CFG_AN (bitsOf (le32 p 0) 4 0) = true) (low : 5 ≤ e.modeOf (bitsOf (le32 p 0) 4 0))
    (high : e.modeOf (bitsOf (le32 p 0) 4 0) ≤ 7) (floor : e.modeOf (bitsOf (le32 p 0) 4 0) + 1 ≤ bitsOf (le32 p 0) 11 8)
    (least : bitsOf (le32 p 0) 11 8 ≤ 8) (down : bitsOf (le32 p 4) 31 16 < bitsOf (le32 p 4) 15 0)
    (up : bitsOf (le32 p 4) 15 0 < modeRate (bitsOf (le32 p 0) 11 8)) (quiet : bitsOf (le32 p 8) 15 0 ≠ 0)
    (idle : e.gateActive (bitsOf (le32 p 0) 4 0) = false) :
    e.stepdownSet n p = (e.wrWords .PRT_STEPDOWN (bitsOf (le32 p 0) 4 0) (wordsOf p 3)).replyOk n := by
  simp only [Dev.stepdownSet]
  rw [if_neg (by omega), on_, enabled, phy, an, idle]
  simp [port, low, high, floor, least, down, up, quiet]

/-- Settles O28: each command by the lemma on parameters in range. -/
theorem portCommands : Obligations.PortCommands := by
  unfold Obligations.PortCommands
  intro s c n a p e
  refine ⟨fun h port combo an low high off => ?_, fun h port => ?_, fun h mine port there action kind ok rest => ?_,
    fun h port off => ?_, fun h port on_ enabled phy an low high floor least down up quiet idle => ?_, fun h port limit => ?_⟩
  · refine exec_taken (e := e) h rfl ?_
    exact Dev.portSet_inRange port combo an low high off
  · refine exec_taken (e := e) h rfl ?_
    exact if_neg (Nat.not_le.2 port)
  · refine exec_taken (e := e) h rfl ?_
    refine (Dev.faultSet_inRange rfl rfl rfl mine port there action kind ok rest).trans ?_
    cases e.on? Fld.SEC_STAT_TRNG_FAIL <;> rfl
  · refine exec_taken (e := e) h rfl ?_
    simp only [Dev.stepdownSet]
    rw [if_neg (Nat.not_le.2 port), off]
    rfl
  · refine exec_taken (e := e) h rfl ?_
    exact Dev.stepdownSet_on port on_ enabled phy an low high floor least down up quiet idle
  · refine exec_taken (e := e) h rfl ?_
    exact if_neg (by simpa [limit] using port)

end Commands

/-! ## Reception and links (R39, R40, R361 to R363, R374 to R376) -/

@[simp] theorem Dev.port_setPort (d : Dev) (p : Nat) (x : Port) : (d.setPort p x).port p = x := Tbl.getD_putD ..

section Port
variable {d : Dev} {p : Nat}

/-- The port counts the codewords that its FEC has corrected. -/
theorem Dev.fecCount_eq (heard : Dev) (ok : Bool) :
    heard.fecCount p ok = if (heard.port p).fec = 0 then heard
      else if ok then heard.drawNat.2.drawNat.2.bumpBy .PRT_FEC_CORR p heard.drawNat.1
        else (heard.drawNat.2.drawNat.2.bumpBy .PRT_FEC_CORR p heard.drawNat.1).bumpBy .PRT_FEC_UNCORR p heard.drawNat.2.drawNat.1 :=
  rfl

/-- A port that is enabled and has link receives. -/
theorem Dev.frameReceive_linked {bytes : Bytes} {ok : Bool} (port : p < 18) (enabled : d.on? Fld.PRT_PORT_CFG_ENABLE p = true)
    (link : d.linkUp? p = true) :
    let heard := (d.setPort p { d.port p with bitsRx := (d.port p).bitsRx + 8 * (bytes.length + 24) }).fecCount p ok
    let delay := if d.phyOf p = 0 then 0 else d.get Fld.MER_PHY_DELAY_RX_DELAY p
    let f : Frame := { inPort := p, stamp := (d.now + 2 ^ 72 - delay) % 2 ^ 72, bytes := bytes, stage := .buffers, seq := d.nextFrame,
                       since := d.ref }
    d.frameReceive p bytes ok =
      if bytes.length + 4 < 64 then heard.bump .PRT_RX_RUNT p
      else if !ok then heard.bump .PRT_RX_FCS_ERR p
      else (heard.addFrame f).2.rxInject p (heard.addFrame f).1 f := by
  have linked : (decide (p < 18) && d.on? Fld.PRT_PORT_CFG_ENABLE p && d.linkUp? p) = true := by simp [port, enabled, link]
  rw [Dev.frameReceive, if_pos linked]

/-- A line that loses its link ends what it sends, and its stops take effect. -/
theorem Dev.linkDownPort_up (port : p < 18) (link : d.linkUp? p = true) :
    let down := (d.linkSet p false).setLine p { d.line p with busy := none, aside := none }
    let cut := ((d.line p).busy.map fun b => down.abortTx p b.copy).getD down
    let cut2 := ((d.line p).aside.map fun x => cut.abortTx p x.1).getD cut
    d.linkDownPort p = cut2.stopsTakeEffect p := by
  simp only [Dev.linkDownPort, Dev.linkFails, if_pos port, link, Bool.not_true, Bool.false_eq_true, if_false]
  cases (d.line p).busy <;> cases (d.line p).aside <;> rfl

/-- The interval of a port without step-down. -/
theorem Dev.stepdownInterval_off (port : p < 18) (off : (d.rd .PRT_STEPDOWN p).getLsbD 31 = false)
    (due : (d.port p).interval + 1000000 ≤ d.ref) :
    let x := d.port p
    d.stepdownInterval p = d.setPort p { x with
      bitsRx := 0, bitsTx := 0, interval := d.ref,
      quiet := if max x.bitsRx x.bitsTx < 1000 * bitsOf (d.rd .PRT_STEPDOWN p 1) 31 16 then x.quiet + 1 else 0, dropped := false } := by
  simp only [Dev.stepdownInterval, off, Bool.false_and, Bool.false_eq_true, if_false, Bool.not_false, if_true]
  rw [if_neg (Nat.not_le.2 port), if_neg (Nat.not_lt.2 due)]

/-- The port's state at the end of an interval. -/
def Dev.intervalEnds (d : Dev) (p : Nat) : Dev :=
  let x := d.port p
  d.setPort p { x with
    bitsRx := 0, bitsTx := 0, interval := d.ref,
    quiet := if max x.bitsRx x.bitsTx < 1000 * bitsOf (d.rd .PRT_STEPDOWN p 1) 31 16 then x.quiet + 1 else 0, dropped := false }

/-- A port that has been quiet long enough takes the next lower mode. -/
theorem Dev.stepdownInterval_steps (port : p < 18) (on_ : (d.rd .PRT_STEPDOWN p).getLsbD 31 = true)
    (top : d.on? Fld.PRT_LINK_STAT_STEPPED p = false) (due : (d.port p).interval + 1000000 ≤ d.ref) (link : d.linkUp? p = true)
    (floor : d.curMode p < bitsOf (d.rd .PRT_STEPDOWN p 0) 11 8)
    (quiet : bitsOf (d.rd .PRT_STEPDOWN p 2) 15 0 ≤
      if max (d.port p).bitsRx (d.port p).bitsTx < 1000 * bitsOf (d.rd .PRT_STEPDOWN p 1) 31 16 then (d.port p).quiet + 1 else 0)
    (held : (d.port p).modeSince + 1000000 * bitsOf (d.rd .PRT_STEPDOWN p 2) 31 16 ≤ d.ref) (free : (d.port p).noStep ≤ d.ref) :
    let stepped := (d.intervalEnds p).runMode p (d.curMode p + 1) true 5000000
    d.stepdownInterval p = stepped.setPort p { stepped.port p with stepAt := some d.ref } := by
  simp only [Dev.stepdownInterval, on_, top, Bool.and_false, Bool.false_and, Bool.false_eq_true, if_false, Bool.not_true]
  rw [if_neg (Nat.not_le.2 port), if_neg (Nat.not_lt.2 due), if_pos (by simp only [link, floor, quiet, held, free, decide_true, Bool.and_self])]
  rfl

/-- The lower mode runs with its FEC, negotiation and training. -/
theorem Dev.runMode_stepped {e : Dev} {mode down : Nat} (some_ : mode ≠ 0) :
    let failed := e.linkFails p
    let fec := if mode = 6 ∧ e.get Fld.PRT_PORT_CFG_FEC p = 1 then 1 else 0
    let put := ((failed.set Fld.PRT_LINK_STAT_CUR_MODE p mode).set Fld.PRT_LINK_STAT_STEPPED p 1).setPort p { failed.port p with
      modeSince := e.ref, quiet := 0, dropped := false, stepAt := none, downTill := e.ref + down, fec := fec }
    let said := if e.on? Fld.PRT_PORT_CFG_AN p then put.emit (.negotiate p mode fec) else put
    e.runMode p mode true down = if e.on? Fld.PRT_PORT_CFG_TRAIN p then said.emit (.train p mode) else said := by
  have hf : e.fecOf p mode true = if mode = 6 ∧ e.get Fld.PRT_PORT_CFG_FEC p = 1 then 1 else 0 := by simp [Dev.fecOf]
  have hp : (e.linkFails p |>.set Fld.PRT_LINK_STAT_CUR_MODE p mode).port p = (e.linkFails p).port p := rfl
  simp only [Dev.runMode, hf, hp, some_, ne_eq, not_false_eq_true, decide_true, Bool.and_true, b2n, if_true]

/-- A step that the partner does not accept is taken back. -/
theorem Dev.stepdownAcceptTimeout_due {t : Nat} (stepped : (d.port p).stepAt = some t) (down : d.linkUp? p = false)
    (due : t + 50000000 ≤ d.ref) :
    let back := d.runMode p (d.modeOf p) false 5000000
    d.stepdownAcceptTimeout p = back.setPort p { back.port p with
      noStep := d.ref + 1000000 * bitsOf (d.rd .PRT_STEPDOWN p 2) 31 16 } := by
  simp only [Dev.stepdownAcceptTimeout, stepped]
  rw [if_pos (by simp [down, due])]
  rfl

/-! ## Stops and holdoffs (R366 to R371) -/

theorem Dev.stopExpiry_due {prio : Nat} {r : Stop} (stop : (d.port p).stops.look? prio = some r) (due : r.ends ≤ d.ref) :
    d.stopExpiry p prio = d.setPort p { d.port p with stops := (d.port p).stops.erase prio } := by
  simp only [Dev.stopExpiry, stop, if_pos due]

theorem Dev.wdogExpiry_due {prio : Nat} {r : Stop} (stop : (d.port p).stops.look? prio = some r) (active : d.gateActive p = true)
    (force : r.inForce = true) (due : r.since + 10000 * d.get Fld.PRT_PAUSE_WDOG_LIMIT p ≤ d.ref) :
    let hold := d.get Fld.PRT_PAUSE_WDOG_HOLDOFF p
    let freed := d.setPort p { d.port p with
      stops := (d.port p).stops.erase prio,
      holdoffs := if hold = 0 then (d.port p).holdoffs else (d.port p).holdoffs.put prio (d.ref + 10000 * hold) }
    d.wdogExpiry p prio = (freed.bump .PRT_PAUSE_WDOG_CNT p).logNow 0x12 p none 0x600 (toWord p) (toWord (2 ^ prio)) := by
  simp only [Dev.wdogExpiry, stop]
  rw [if_pos (by simp [active, force, due])]

theorem Dev.holdoffEnd_due {prio t : Nat} (holdoff : (d.port p).holdoffs.look? prio = some t) (due : t ≤ d.ref) :
    d.holdoffEnd p prio = d.setPort p { d.port p with holdoffs := (d.port p).holdoffs.erase prio } := by
  simp only [Dev.holdoffEnd, holdoff, if_pos due]

theorem Dev.fcRefresh_due {prio t : Nat} (sent : (d.port p).sent.look? prio = some t) (due : t ≤ d.ref)
    (full : d.xon p ≤ d.heldBytes p prio) : d.fcRefresh p prio = d.fcXoff p prio := by
  simp only [Dev.fcRefresh, sent]
  exact if_pos (by simp [due, full])

end Port

/-- Settles O29: reception, link and step-down by their lemmas, then the ends of stops and holdoffs. -/
theorem portEvents : Obligations.PortEvents := by
  unfold Obligations.PortEvents
  refine ⟨fun s port bytes out hp enabled link => ?_, fun s port out hp => ⟨fun phyOk enabled mode down phy till => ?_, fun link => ?_,
    fun off due => ?_, fun on_ top due link floor quiet held free => ?_, fun t stepped down due => ?_⟩,
    fun s port prio out => ⟨fun r stop due => ?_, fun r hprio stop due => ?_, fun r stop active force due => ?_, fun t holdoff due => ?_,
      fun t sent due full => ?_, fun func tx n => ?_⟩⟩
  · have counts (ok : Bool) : (s.toDev.setPort port { s.toDev.port port with
        bitsRx := (s.toDev.port port).bitsRx + 8 * (bytes.length + 24) }).fecCount port ok = _ := Dev.fecCount_eq ..
    refine ⟨fun fcsOk runt => ?_, fun long => ?_, fun long => ?_⟩
    · refine exec_leaves (fun d => d.frameReceive port bytes fcsOk) out rfl ((Dev.frameReceive_linked hp enabled link).trans ?_)
      rw [if_pos (by omega), counts, Dev.port_setPort]
    · refine exec_leaves (fun d => d.frameReceive port bytes false) out rfl ((Dev.frameReceive_linked hp enabled link).trans ?_)
      rw [if_neg (by omega), counts, Dev.port_setPort]
      rfl
    · refine exec_leaves (fun d => d.frameReceive port bytes true) out rfl ((Dev.frameReceive_linked hp enabled link).trans ?_)
      rw [if_neg (by omega), counts, Dev.port_setPort]
      rfl
  · refine exec_leaves (fun d => d.linkUpPort port phyOk) out rfl (if_pos ?_)
    simpa [hp, enabled, mode, down, till] using phy
  · exact exec_leaves (fun d => d.linkDownPort port) out rfl (Dev.linkDownPort_up hp link)
  · exact exec_leaves (fun d => d.stepdownInterval port) out rfl (Dev.stepdownInterval_off hp off due)
  · refine exec_leaves (fun d => d.stepdownInterval port) out rfl
      ((Dev.stepdownInterval_steps hp on_ top due link floor quiet held free).trans ?_)
    rw [Dev.runMode_stepped (Nat.succ_ne_zero _)]
    rfl
  · exact exec_leaves (fun d => d.stepdownAcceptTimeout port) out rfl (Dev.stepdownAcceptTimeout_due stepped down due)
  · exact exec_leaves (fun d => d.stopExpiry port 8) out rfl (Dev.stopExpiry_due stop due)
  · exact exec_leaves (fun d => if prio < 8 then d.stopExpiry port prio else d) out rfl ((if_pos hprio).trans (Dev.stopExpiry_due stop due))
  · exact exec_leaves (fun d => d.wdogExpiry port prio) out rfl (Dev.wdogExpiry_due stop active force due)
  · exact exec_leaves (fun d => d.holdoffEnd port prio) out rfl (Dev.holdoffEnd_due holdoff due)
  · exact exec_leaves (fun d => d.fcRefresh port prio) out rfl (Dev.fcRefresh_due sent due full)
  · exact exec_leaves (fun d => d.reorderTimeout func tx n) out rfl rfl

end Sys2Proof.Machine
end

section
/-!
Legends, and frames queued again (R51, R66, R118, R131, R345, R466).
-/
namespace Sys2Proof.Machine

open Sys2Proof.Safety

/-! ## The fields of a legend -/

/-- A field of another word, and a field of other bits, stays as it was. -/
theorem lgGet_lgSet_word {f g : LgField} (lg : List Word) (v : Nat) (h : f.word ≠ g.word) : lgGet (lgSet lg f v) g = lgGet lg g := by
  simp only [lgGet, lgSet, List.getD_eq_getElem?_getD, List.getElem?_set_ne h]

theorem lgGet_lgSet_apart {f g : LgField} (lg : List Word) (v : Nat) (same : f.word = g.word) (top : f.hi < 32)
    (apart : g.hi < f.lo ∨ f.hi < g.lo) : lgGet (lgSet lg f v) g = lgGet lg g := by
  simp only [lgGet, lgSet, List.getD_eq_getElem?_getD, ← same, List.getElem?_set_self']
  cases lg[f.word]? with
  | none => rfl
  | some w => exact bitsOf_setBits_apart w v top apart

/-! ## The legend of a frame (R66, R466) -/

section Legend
variable (d : Dev) (id : Nat) (f : Frame)

/-- The frame with its legend. -/
def Dev.legended : Frame :=
  let fn := d.ownerFor f
  let hash := flowHash f.bytes
  let slot := orderSlot fn hash
  let sheet := d.pinFor fn f.stamp
  { f with lg := newLegend f fn (d.gen fn) hash, owner := fn, gen := d.gen fn,
           slot := if decide (64 ≤ d.slotLoad slot) then none else some slot, charge := if sheet = 0 then none else some sheet }

/-- The device once the frame has its legend and is recorded. -/
def Dev.legendRecorded : Dev :=
  let fn := d.ownerFor f
  let hash := flowHash f.bytes
  let kept := d.updFrame id fun _ => d.legended f
  (if decide (64 ≤ d.slotLoad (orderSlot fn hash)) then kept.bump .TMG_RESEQ_UNTRACKED else kept).logGen 0x01 f.inPort (some (fn, d.gen fn))
    f.stamp (toWord (f.inPort * 2 ^ 24 + f.bytes.length)) hash (toWord (f.chain.headD 0))

variable {d id f} (frame : d.frame? id = some f) (stage : f.stage = .legend) (kept : d.diverts f = false)
include frame stage kept

/-- A port without a function gives its frames up. -/
theorem Dev.legendMake_noFunction (port : srcIsPort f.inPort = true) (none_ : d.exists? (d.ownerFor f) = false) :
    d.legendMake id = (d.bump .PRT_RX_NOFUNC f.inPort).endFrame id := by
  simp only [Dev.legendMake, frame]
  rw [if_neg (by simp [stage, kept]), if_pos (by simp [port, none_])]

/-- A frame of a function that has changed its generation ends. -/
theorem Dev.legendMake_stale (port : srcIsPort f.inPort = false) (stale : d.gen f.owner ≠ f.gen) : d.legendMake id = d.endFrame id := by
  have owner : d.ownerFor f = f.owner := by simp [Dev.ownerFor, port]
  simp only [Dev.legendMake, frame, owner]
  rw [if_neg (by simp [stage, kept]), if_neg (by simp [port]), if_pos (by simp [port, stale])]

section Owned
variable (owned : if srcIsPort f.inPort then d.exists? (d.ownerFor f) = true else d.gen (d.ownerFor f) = f.gen)
include owned

/-- A frame with an owner is recorded, and goes on if its source is a member of its VLAN. -/
theorem Dev.legendMake_owned {member : Bool}
    (hm : (((d.legendRecorded id f).vlanOf (d.legended f) f.inPort (d.ownerFor f)).map fun v =>
      v.2.hasSource f.inPort (d.ownerFor f)).getD false = member) :
    let e := d.legendRecorded id f
    d.legendMake id =
      if member then e.enqueueLegend id
        (regionFor (if srcIsPort f.inPort then e.rd .PCA_PORT_REGION f.inPort else e.rd .PCA_HOST_REGION) (flowHash f.bytes))
      else (if srcIsPort f.inPort then e.bump .VSW_PORT_VLAN_DROP f.inPort else e.bump .VSW_FUNC_VLAN_DROP (d.ownerFor f)).dropFrame id 42
        (Config.dropReason 9) := by
  have exists_ : ¬ (srcIsPort f.inPort && !d.exists? (d.ownerFor f)) = true := by
    cases h : srcIsPort f.inPort <;> simp_all
  have fresh : ¬ (!srcIsPort f.inPort && decide (d.gen (d.ownerFor f) ≠ f.gen)) = true := by
    cases h : srcIsPort f.inPort <;> simp_all
  simp only [Dev.legendMake, frame]
  rw [if_neg (by simp [stage, kept]), if_neg exists_, if_neg fresh]
  simp only [Dev.legendRecorded, Dev.legended, decide_eq_true_eq] at hm ⊢
  generalize Dev.vlanOf _ _ _ _ = v at hm ⊢
  subst hm
  cases v with
  | none => rfl
  | some v => cases h : v.2.hasSource f.inPort (d.ownerFor f) <;> simp [h]

end Owned

end Legend

/-! ## A legend queued again (R118, R131, R345) -/

section Recirc
variable {d : Dev} {t id : Nat} {f : Frame} (frame : d.frame? id = some f) (exception : lgGet f.lg lgException = 0)
  (fragment : lgOn f.lg lgFragment = false)
include frame exception fragment

/-- A frame for a further traverse is queued again. -/
theorem Dev.endUnit_again (fast : lgOn f.lg lgSlowPath = false) (dest : lgGet f.lg lgDest ≠ 2) (plain : lgOn f.lg lgEncrypt = false)
    (room : lgGet f.lg lgTraverse < d.traverseMax (lgGet f.lg lgFunction)) :
    d.endUnit t id true = d.recirculate id (regionOf t) := by
  have shallow : (true && decide (lgGet f.lg lgException = 0) &&
      decide (lgGet f.lg lgTraverse ≥ d.traverseMax (lgGet f.lg lgFunction))) = false := by
    simpa [exception] using room
  have goesOn : ¬ (decide (lgGet f.lg lgDest = 2) || lgOn f.lg lgEncrypt) = true := by simp [dest, plain]
  simp only [Dev.endUnit, frame, shallow, fragment, fast, if_true, Bool.false_eq_true, if_false]
  rw [exception, if_neg (by decide), if_neg (Classical.not_not.2 rfl), if_neg goesOn]

/-- One at its limit ends with the exception of R131. -/
theorem Dev.endUnit_deep (deep : d.traverseMax (lgGet f.lg lgFunction) ≤ lgGet f.lg lgTraverse) :
    let e := d.updFrame id fun y => { y with lg := lgSet y.lg lgException 8 }
    ((e.bump .CLS_EXC_COUNT 8).rd .CLS_EXC_DISP (lgGet f.lg lgFunction)).getLsbD 8 = false →
      d.endUnit t id true = ((e.bump .CLS_EXC_COUNT 8).bump .CLS_EXC_DROP (lgGet f.lg lgFunction)).dropFrame id (32 + regionOf t) 0x00030008 := by
  intro e drops
  have tooDeep : (true && decide (lgGet f.lg lgException = 0) &&
      decide (lgGet f.lg lgTraverse ≥ d.traverseMax (lgGet f.lg lgFunction))) = true := by simpa [exception] using deep
  simp only [Dev.endUnit, frame, tooDeep, fragment, if_true]
  rw [if_neg Bool.false_ne_true, if_neg (by decide), if_pos (by decide), if_neg (ne_true_of_eq_false drops)]
  rfl

end Recirc

section Reinject
variable {d : Dev} {id : Nat} {f : Frame}

/-- What SLOW_VERDICT sets in a legend leaves TRAVERSE and FUNCTION alone. -/
theorem lgGet_reinjected {g : LgField} (lg : List Word) (h7 : g.word ≠ 7) (h3 : g.word = 3 → 22 ≤ g.lo) :
    lgGet (lgSet (lgSet (lgSet lg lgSlowPath 0) lgException 0) lgInPort 25) g = lgGet lg g := by
  have slow : lgGet (lgSet (lgSet lg lgSlowPath 0) lgException 0) g = lgGet lg g :=
    (lgGet_lgSet_word _ _ h7.symm).trans (lgGet_lgSet_word _ _ h7.symm)
  rw [← slow]
  by_cases h : g.word = 3
  · exact lgGet_lgSet_apart _ _ h.symm (by decide) (.inr (h3 h))
  · exact lgGet_lgSet_word _ _ (Ne.symm h)

/-- The hash of the legend stays. -/
theorem hash_reinjected (lg : List Word) : (lgSet (lgSet (lgSet lg lgSlowPath 0) lgException 0) lgInPort 25).getD 5 0 = lg.getD 5 0 := by
  simp [lgSet, lgSlowPath, lgException, lgInPort, List.getElem?_set]

/-- A reinjected frame goes on to a further traverse. -/
theorem Dev.reinject_again (room : lgGet f.lg lgTraverse < d.traverseMax (lgGet f.lg lgFunction)) :
    let lg := lgSet (lgSet (lgSet f.lg lgSlowPath 0) lgException 0) lgInPort 25
    d.reinject id f = (d.updFrame id fun x => { x with lg := lg, inPort := 25 }).recirculate id
      (regionFor (d.rd .PCA_HOST_REGION) (f.lg.getD 5 0)) := by
  simp only [Dev.reinject, lgGet_reinjected f.lg (g := lgTraverse) (by decide) (by decide),
    lgGet_reinjected f.lg (g := lgFunction) (by decide) (by decide), hash_reinjected]
  exact if_neg (Nat.not_le.2 room)

/-- A reinjected frame at its limit ends. -/
theorem Dev.reinject_deep (deep : d.traverseMax (lgGet f.lg lgFunction) ≤ lgGet f.lg lgTraverse) :
    d.reinject id f = (d.bump .CLS_EXC_DROP (lgGet f.lg lgFunction)).dropFrame id 45 0x00030008 := by
  simp only [Dev.reinject, lgGet_reinjected f.lg (g := lgTraverse) (by decide) (by decide),
    lgGet_reinjected f.lg (g := lgFunction) (by decide) (by decide), hash_reinjected]
  exact if_pos deep

end Reinject

/-- Settles O30: a legend by the cases of its making, END RECIRC and SLOW_VERDICT by the depth of the frame. -/
theorem legendMaking : Obligations.LegendMaking := by
  unfold Obligations.LegendMaking
  refine fun s id f => ⟨fun out frame stage kept => ⟨fun port none_ => ?_, fun port stale => ?_, fun owned => ⟨fun v vlan source => ?_,
    fun outside => ?_⟩⟩, fun t h hx frame exception fragment => ⟨fun fast dest plain room => ?_, fun deep drops => ?_⟩,
    fun c n a p e x h found own held same frame fresh action => ⟨fun room => ?_, fun deep => ?_⟩⟩
  · refine exec_leaves (fun d => d.legendMake id) out rfl (Dev.legendMake_noFunction frame stage kept port ?_)
    rw [Dev.ownerFor]
    exact none_
  · refine exec_leaves (fun d => d.legendMake id) out rfl (Dev.legendMake_stale frame stage kept port ?_)
    simpa [port] using stale
  · refine exec_leaves (fun d => d.legendMake id) out rfl ((Dev.legendMake_owned frame stage kept owned (member := true) ?_).trans (if_pos rfl))
    have vlan : (s.toDev.legendRecorded id f).vlanOf (s.toDev.legended f) f.inPort (s.toDev.ownerFor f) = some v := vlan
    rw [vlan]
    exact source
  · refine exec_leaves (fun d => d.legendMake id) out rfl ((Dev.legendMake_owned frame stage kept owned (member := false) ?_).trans
      (if_neg Bool.false_ne_true))
    have outside : ∀ v, (s.toDev.legendRecorded id f).vlanOf (s.toDev.legended f) f.inPort (s.toDev.ownerFor f) = some v →
      v.2.hasSource f.inPort (s.toDev.ownerFor f) = false := outside
    cases vlan : (s.toDev.legendRecorded id f).vlanOf (s.toDev.legended f) f.inPort (s.toDev.ownerFor f) with
    | none => rfl
    | some v => exact outside v vlan
  · refine exec_legal h rfl rfl ((Dev.endThread_setThread _ hx _).trans (congrArg (fun d : Dev => d.freeThread t) ?_))
    exact Dev.endUnit_again frame exception fragment fast dest plain room
  · refine exec_legal h rfl rfl ((Dev.endThread_setThread _ hx _).trans (congrArg (fun d : Dev => d.freeThread t) ?_))
    exact Dev.endUnit_deep frame exception fragment deep drops
  · subst same
    refine exec_taken (e := e) h rfl ?_
    rw [Dev.slowVerdict_held found own held frame fresh (by rw [action]; decide) (by rw [action]; omega), if_neg (by rw [action]; decide),
      if_pos action, Dev.reinject_again room]
    rfl
  · subst same
    refine exec_taken (e := e) h rfl ?_
    rw [Dev.slowVerdict_held found own held frame fresh (by rw [action]; decide) (by rw [action]; omega), if_neg (by rw [action]; decide),
      if_pos action, Dev.reinject_deep deep]

end Sys2Proof.Machine
end

section
/-!
Sheets: the classifier's answers, the sheet commands and swaps (R121 to R128, R341).
-/
namespace Sys2Proof.Machine

open Sys2Proof.Safety

/-! ## A CLASSIFY answered from its sheet (R122) -/

/-- The classifier answers a request whose block and function stand and whose frame has a sheet. -/
theorem Dev.classifyReply_live {d : Dev} {n : Nat} {r : LookReq} {f : Frame} {sh : Sheet} (found : d.pca.reqs.look? n = some r)
    (kind : r.kind = 3) (still : d.rising 10 = false) (frame : d.frame? r.frame = some f) (block : r.blockGen = d.blockGen 10)
    (there : d.available 10 = true) (gen : d.gen r.function = r.fnGen) (own : r.function = f.owner)
    (live : d.liveSheet f.owner (lgGet f.lg lgSheet) = some sh) :
    let q := d.ruleFor (regionOf r.thread) f.owner sh r.key
    d.classifyReply n = (q.1.map fun v => (q.2.applyResult r.thread r.frame (toWord v)).classDone n r 0 v).getD
      ((q.2.applyResult r.thread r.frame sh.dflt).classDone n r 1 sh.dflt.toNat) := by
  simp only [Dev.classifyReply, found]
  rw [if_neg (by simp [kind, still])]
  simp only [frame]
  rw [if_neg (by simp [block, there, gen]), if_neg (Classical.not_not.2 own)]
  simp only [live]
  rcases d.ruleFor (regionOf r.thread) f.owner sh r.key with ⟨_ | v, e⟩ <;> rfl

/-! ## Sheet commands (R125) -/

section Commands
variable {e : Dev} {n f : Nat} {p : Bytes} (classifier : e.available 10 = true) (tables : e.available 9 = true)
  (clear : e.tblClearing 1 = false)

include classifier tables clear in
/-- The sheet commands run where the classifier and the tables are there and RULE is not being cleared. -/
theorem Dev.onSheets_there (k : Dev → Dev) : e.onSheets n k = k e := by
  rw [Dev.onSheets, Dev.needBlock_there classifier, Dev.needBlock_there tables, clear]
  rfl

/-- A staged sheet is found. -/
theorem Dev.withStaged_staged {sh : Sheet} (staged : (e.banks f).other = .staged sh) (k : Sheet → Dev → Dev) :
    e.withStaged n f k = k sh e := by
  simp only [Dev.withStaged, staged]

/-- An empty bank takes a new sheet. -/
theorem Dev.stageSheet_fresh :
    let num := (e.banks f).lastNum % 65535 + 1
    e.stageSheet n f false =
      (e.setBanks f { e.banks f with lastNum := num, openWait := none, other := .staged { num := num } }).replyOk n [toWord num] :=
  rfl

/-- An empty bank takes a copy of the active sheet. -/
theorem Dev.stageSheet_copy {act : Sheet} {x : Dev} {num : Nat} (hnum : (e.banks f).lastNum % 65535 + 1 = num)
    (active : (e.banks f).active = some act)
    (copied : (e.setBanks f { e.banks f with
      lastNum := num, openWait := none, other := .staged { num := num, dflt := act.dflt, profiles := act.profiles } }).copyRules num
        (e.sheetRules f act.num) = some x) : e.stageSheet n f true = x.replyOk n [toWord num] := by
  simp only [active] at copied
  simp only [Dev.stageSheet, if_true, hnum, active, copied]

include classifier tables clear in
/-- SHEET_OPEN of an empty bank. -/
theorem Dev.sheetOpen_empty (empty : (e.banks f).other = .empty) : e.sheetOpen n f p = e.stageSheet n f ((le32 p 0).getLsbD 31) := by
  rw [Dev.sheetOpen, Dev.onSheets_there classifier tables clear]
  simp only [empty]

end Commands

/-! ## Swaps (R126, R128, R341) -/

section Swap
variable {d : Dev} {f : Nat}

/-- A swap commits at its instant. -/
theorem Dev.sheetSwapCommit_due {sh : Sheet} {t : Stamp} {n : Nat} (staged : (d.banks f).other = .staged sh)
    (swap : (d.banks f).swapAt = some (t, n)) (due : t ≤ d.now) :
    d.sheetSwapCommit f = ((d.setBanks f { d.banks f with
      active := some { sh with since := t }, other := ((d.banks f).active.map .draining).getD .empty, swapAt := none,
      drainAfter := t + 2000000 * 256 }).commit n).replyOk n (toWord sh.num :: stampWords t) := by
  simp only [Dev.sheetSwapCommit, staged, swap]
  rw [if_pos due]
  cases (d.banks f).active <;> rfl

/-- A drained sheet is released, and an open that waits for it goes on. -/
theorem Dev.sheetRelease_drained {sh : Sheet} (draining : (d.banks f).other = .draining sh) (free : d.pinned f = 0)
    (due : (d.banks f).drainAfter ≤ d.now) :
    let gone := (d.removeSheet f sh.num).setBanks f { d.banks f with other := .empty, openWait := none }
    d.sheetRelease f = ((d.banks f).openWait.map fun w => gone.stageSheet w.2.2 f w.2.1).getD gone := by
  simp only [Dev.sheetRelease, draining]
  rw [if_pos (by simp [free, due])]
  rcases (d.banks f).openWait with _ | ⟨_, _, _⟩ <;> rfl

/-- An open that has waited too long ends. -/
theorem Dev.sheetOpenTimeout_due {limit n : Nat} {copy : Bool} (waits : (d.banks f).openWait = some (limit, copy, n)) (due : limit ≤ d.ref) :
    d.sheetOpenTimeout f = (d.setBanks f { d.banks f with openWait := none }).reply n .sheetBusy := by
  simp only [Dev.sheetOpenTimeout, waits]
  exact if_pos due

end Swap

/-- Settles O31: the answer from the sheet, each command where it finds its sheet, each event of a swap when it is due. -/
theorem sheets : Obligations.Sheets := by
  unfold Obligations.Sheets
  refine ⟨fun s => ⟨fun n r f sh out found kind still frame block there gen own live => ?_,
      fun c n a p e classifier tables clear => ⟨fun h empty => ⟨fun fresh => ?_, fun act x copy active copied => ?_⟩, fun sh staged =>
        ⟨fun h free => ?_, fun h low colour => ?_, fun h ok => ?_, fun h ok => ?_, fun h => ?_⟩⟩⟩,
    fun s => ⟨fun c n a p e sh h classifier staged => ?_, fun f out => ⟨fun sh t n staged swap due => ?_,
      fun sh draining free due => ?_, fun limit copy n waits due => ?_⟩⟩⟩
  · refine exec_leaves (fun d => d.classifyReply n) out rfl
      ((Dev.classifyReply_live found kind still frame block there gen own live).trans ?_)
    rcases s.toDev.ruleFor (regionOf r.thread) f.owner sh r.key with ⟨_ | v, e⟩ <;> rfl
  · refine exec_taken (e := e) h rfl ?_
    rw [Dev.sheetOpen_empty classifier tables clear empty, fresh]
    exact Dev.stageSheet_fresh
  · refine exec_taken (e := e) h rfl ?_
    rw [Dev.sheetOpen_empty classifier tables clear empty, copy]
    exact Dev.stageSheet_copy rfl active copied
  · refine exec_taken (e := e) h rfl ?_
    rw [Dev.sheetProfile, Dev.onSheets_there classifier tables clear, Dev.withStaged_staged staged, if_neg (ne_true_of_eq_false free)]
  · refine exec_taken (e := e) h rfl ?_
    rw [Dev.sheetDefault, Dev.onSheets_there classifier tables clear, Dev.withStaged_staged staged, if_neg (by simp [low, colour])]
  · refine exec_taken (e := e) h rfl ?_
    rw [Dev.ruleAdd, Dev.onSheets_there classifier tables clear, Dev.withStaged_staged staged]
    simp only [ok]
    rfl
  · refine exec_taken (e := e) h rfl ?_
    rw [Dev.ruleDel, Dev.onSheets_there classifier tables clear, Dev.withStaged_staged staged]
    simp only [ok]
    rfl
  · refine exec_taken (e := e) h rfl ?_
    rw [Dev.sheetDiscard, Dev.onSheets_there classifier tables clear, Dev.withStaged_staged staged]
  · refine exec_taken (e := e) h rfl ?_
    rw [Dev.sheetSwap, Dev.needBlock_there classifier, Dev.withStaged_staged staged]
  · refine exec_leaves (fun d => d.sheetSwapCommit f) out rfl ((Dev.sheetSwapCommit_due staged swap due).trans ?_)
    cases (s.toDev.banks f).active <;> rfl
  · refine exec_leaves (fun d => d.sheetRelease f) out rfl ((Dev.sheetRelease_drained draining free due).trans ?_)
    rcases (s.toDev.banks f).openWait with _ | ⟨_, _, _⟩ <;> rfl
  · exact exec_leaves (fun d => d.sheetOpenTimeout f) out rfl (Dev.sheetOpenTimeout_due waits due)

end Sys2Proof.Machine
end

section
/-!
Table commands (R136 to R154, R469, R471, R474).
-/
namespace Sys2Proof.Machine

open Sys2Proof.Safety

variable {e : Dev} {n : Nat} {a : Accepted} {p : Bytes}

/-! ## TABLE_CREATE (R153, R474) -/

/-- The buckets of a table as TABLE_CREATE gives them. -/
def createdSize (p : Bytes) : Nat := if bitsOf (le32 p 8) 4 0 = 0 then 0 else 2 ^ clampTo 10 20 (bitsOf (le32 p 8) 4 0)

/-- A FLOW table that is disabled, fits and meets no other is created and begins to be cleared. -/
theorem Dev.tableCreate_fits {t base : Nat} (ht : bitsOf (le32 p 0) 5 0 = t) (hbase : bitsOf (le32 p 4) 20 0 = base)
    (flow : 4 ≤ t) (off : e.tblEnabled t = false) (room : base + createdSize p ≤ e.partBuckets)
    (apart : ∀ k m, k < 64 → k ≠ t → e.tblEnabled k = true → e.tblLog2 k = some m → createdSize p = 0 ∨
      e.get Fld.TBL_DESC_BASE_BASE k + 2 ^ m ≤ base ∨ base + createdSize p ≤ e.get Fld.TBL_DESC_BASE_BASE k) :
    let placed := (e.wr .TBL_DESC_BASE t 0 (toWord base)).wr .TBL_DESC_SEED t 0 (le32 p 12)
    e.tableCreate n p =
      (((placed.set Fld.TBL_DESC_CFG_LOG2_BUCKETS t (bitsOf (le32 p 8) 4 0)).set Fld.TBL_DESC_CFG_ENABLE t 1).startClearing t).commit n := by
  subst ht hbase
  refine (if_neg ?_).trans (if_neg (ne_true_of_eq_false off))
  simp only [Bool.or_eq_true, decide_eq_true_eq, List.any_eq_true, List.mem_range, not_or, Nat.not_lt, gt_iff_lt]
  refine ⟨⟨flow, ?_⟩, room⟩
  rintro ⟨k, hk, h⟩
  cases size : e.tblLog2 k with
  | none => simp [size] at h
  | some m =>
    simp only [size, ne_eq, Bool.and_eq_true, decide_eq_true_eq] at h
    obtain ⟨⟨other, on_⟩, ⟨some_, below⟩, above⟩ := h
    rcases apart k m hk other on_ size with zero | low | high
    · exact some_ zero
    · exact absurd low (Nat.not_le.2 below)
    · exact absurd high (Nat.not_le.2 above)

/-! ## The entry commands (R141, R154, R469) -/

section OnTable
variable {t : Nat} (there : e.available 9 = true) (table : t = 0 ∨ 3 < t)
  (granted : 4 ≤ a.cmd.issuer → t ≠ 0 ∧ e.tblGranted a.cmd.issuer t = true) (on_ : e.tblEnabled t = true) (clear : e.tblClearing t = false)
include there table granted on_ clear

/-- The entry commands run on a table that is enabled, granted and clear. -/
theorem Dev.onTable_open (k : Dev → Dev) : e.onTable n a t k = k e := by
  have kind : ¬ (decide (1 ≤ t) && decide (t ≤ 3)) = true := by simp; omega
  have allowed : ¬ (decide (a.cmd.issuer ≥ 4) && (decide (t = 0) || !e.tblGranted a.cmd.issuer t)) = true := by
    by_cases h : 4 ≤ a.cmd.issuer
    · simp [granted h]
    · simp [h]
  rw [Dev.onTable, if_neg kind, if_neg allowed, on_, clear, Dev.needBlock_there there]
  rfl

end OnTable

/-- ENTRY_WRITE of an entry that stands, and of a new one. -/
theorem Dev.entryWrite_replaces {t : Nat} (ht : bitsOf (le32 p 0) 5 0 = t) (runs : ∀ k, e.onTable n a t k = k e) {q : Place} {old : Entry}
    (found : e.findEntry (e.hostEntry t a.fn (slice p 4 32)).toMatch = some (q, old))
    (fits : e.moveFits q old.fn (e.hostEntry t a.fn (slice p 4 32)).fn = true) :
    e.entryWrite n a p = ((e.putEntry q (e.hostEntry t a.fn (slice p 4 32))).logTable t a.fn
      (e.updIndex (e.hostEntry t a.fn (slice p 4 32)).toMatch (some q)) 1 .ok).replyOk n := by
  subst ht
  simp only [Dev.entryWrite, runs, found]
  exact if_pos fits

theorem Dev.entryWrite_inserts {t : Nat} (ht : bitsOf (le32 p 0) 5 0 = t) (runs : ∀ k, e.onTable n a t k = k e) {q : Place} {y : Dev}
    (absent : e.findEntry (e.hostEntry t a.fn (slice p 4 32)).toMatch = none)
    (room : e.insertEntry (e.hostEntry t a.fn (slice p 4 32)) false = some (q, y)) :
    e.entryWrite n a p = (y.logTable t a.fn (y.updIndex (e.hostEntry t a.fn (slice p 4 32)).toMatch (some q)) 1 .ok).replyOk n := by
  subst ht
  simp only [Dev.entryWrite, runs, absent, room]

/-- TABLE_FLUSH drops and logs what it picks. -/
theorem Dev.tableFlush_runs {t : Nat} (ht : bitsOf (le32 p 0) 5 0 = t) (runs : ∀ k, e.onTable n a t k = k e)
    (fid : (le32 p 0).getLsbD 30 = true → t = 0) :
    let picked (x : Entry) : Bool := x.table == t && (!((le32 p 0).getLsbD 31 || a.cmd.issuer ≥ 4) || x.fn == a.fn) &&
      (!(le32 p 0).getLsbD 30 || natBits x.key 59 48 == bitsOf (le32 p 4) 27 16)
    let hit := (e.tbl.slots.cells.filter fun x => picked x.2).map (fun x => (Place.slot x.1, x.2))
      ++ (e.tbl.ovf.cells.filter fun x => picked x.2).map fun x => (Place.ovf x.1, x.2)
    e.tableFlush n a p =
      (hit.foldl (fun (x : Dev) y => (x.dropEntry y.1).logTable t y.2.fn (e.updIndex y.2.toMatch (some y.1)) 3 .ok) e).replyOk n
        [toWord hit.length] := by
  subst ht
  have legal : ¬ ((le32 p 0).getLsbD 30 && decide (bitsOf (le32 p 0) 5 0 ≠ 0)) = true := by
    cases h : (le32 p 0).getLsbD 30 with
    | false => simp
    | true => simp [fid h]
  simp only [Dev.tableFlush]
  rw [if_neg legal, runs]

/-- ENTRY_DELETE and ENTRY_READ of an entry that stands. -/
theorem Dev.entryDelete_found (runs : ∀ k, e.onTable n a (entryMatch p a.fn).table k = k e) {q : Place} {x : Entry}
    (found : e.findEntry (entryMatch p a.fn) = some (q, x)) :
    e.entryDelete n a p =
      ((e.dropEntry q).logTable (entryMatch p a.fn).table x.fn (e.updIndex (entryMatch p a.fn) (some q)) 2 .ok).replyOk n := by
  simp only [Dev.entryDelete, runs, found]

theorem Dev.entryRead_found (runs : ∀ k, e.onTable n a (entryMatch p a.fn).table k = k e) {q : Place} {x : Entry}
    (found : e.findEntry (entryMatch p a.fn) = some (q, x)) : e.entryRead n a p = e.replyOk n (e.entryWords q x) := by
  simp only [Dev.entryRead, runs, found]

/-! ## Routes (R145, R146) -/

section Route
variable {f : Nat} {v6 : Bool} {len key : Nat} (there : e.available 9 = true) (route : routeOf p = some (v6, len, key))
  (clear : e.tblClearing (2 + b2n v6) = false)
include there route clear

theorem Dev.lpmAdd_default (all_ : len = 0) :
    e.lpmAdd n f p = ((e.setTbl fun x => { x with dflt := x.dflt.put (2 * f + b2n v6) (le p 20 8) }).logTable (2 + b2n v6) f 0xFFFFFFFF 4
      .ok).replyOk n := by
  simp only [Dev.lpmAdd, route]
  rw [if_neg (ne_true_of_eq_false clear), Dev.needBlock_there there, if_pos all_]

theorem Dev.lpmAdd_replaces {q : Place} {x : Entry} (some_ : len ≠ 0) (found : e.findEntry (routeMatch v6 f len key) = some (q, x)) :
    e.lpmAdd n f p = ((e.putEntry q { x with result := le p 20 8 }).logTable (2 + b2n v6) f
      (e.updIndex (routeMatch v6 f len key) (some q)) 4 .ok).replyOk n := by
  simp only [Dev.lpmAdd, route]
  rw [if_neg (ne_true_of_eq_false clear), Dev.needBlock_there there, if_neg some_, found]

theorem Dev.lpmAdd_inserts {q : Place} {y : Dev} (some_ : len ≠ 0) (absent : e.findEntry (routeMatch v6 f len key) = none)
    (room : e.insertEntry { key := (routeMatch v6 f len key).key, result := le p 20 8, static := true, ageEn := false, table := 2 + b2n v6,
                            fn := f, qual := (routeMatch v6 f len key).qual } false = some (q, y)) :
    e.lpmAdd n f p = (y.logTable (2 + b2n v6) f (y.updIndex (routeMatch v6 f len key) (some q)) 4 .ok).replyOk n := by
  simp only [Dev.lpmAdd, route]
  rw [if_neg (ne_true_of_eq_false clear), Dev.needBlock_there there, if_neg some_, absent]
  simp only [room]

theorem Dev.lpmDel_default {r : Nat} (all_ : len = 0) (found : e.tbl.dflt.look? (2 * f + b2n v6) = some r) :
    e.lpmDel n f p = ((e.setTbl fun x => { x with dflt := x.dflt.erase (2 * f + b2n v6) }).logTable (2 + b2n v6) f 0xFFFFFFFF 5
      .ok).replyOk n := by
  simp only [Dev.lpmDel, route]
  rw [if_neg (ne_true_of_eq_false clear), Dev.needBlock_there there, if_pos all_, found]

theorem Dev.lpmDel_found {q : Place} {x : Entry} (some_ : len ≠ 0) (found : e.findEntry (routeMatch v6 f len key) = some (q, x)) :
    e.lpmDel n f p =
      ((e.dropEntry q).logTable (2 + b2n v6) f (e.updIndex (routeMatch v6 f len key) (some q)) 5 .ok).replyOk n := by
  simp only [Dev.lpmDel, route]
  rw [if_neg (ne_true_of_eq_false clear), Dev.needBlock_there there, if_neg some_, found]

end Route

/-- Settles O32: TABLE_CREATE by its checks, the entry commands on an open table, the routes by what stands. -/
theorem tableCommands : Obligations.TableCommands := by
  unfold Obligations.TableCommands
  refine fun s c n a p e there => ⟨fun h flow off room apart => ?_, fun h => ?_, fun table granted on_ clear => ⟨fun h =>
    ⟨fun q old found fits => ?_, fun q y absent room => ?_⟩, fun h fid => ?_⟩, fun q x table granted on_ clear found =>
    ⟨fun h => ?_, fun h => ?_⟩, fun v6 len key route clear => ⟨fun h => ⟨fun all_ => ?_, fun q x some_ found => ?_,
      fun q y some_ absent room => ?_⟩, fun h => ⟨fun r all_ found => ?_, fun q x some_ found => ?_⟩⟩, fun h => ?_⟩
  · refine exec_taken (e := e) h rfl ?_
    rw [Dev.needBlock_there there]
    exact Dev.tableCreate_fits rfl rfl flow off room apart
  · refine exec_taken (e := e) h rfl ?_
    exact Dev.needBlock_there there _
  · refine exec_taken (e := e) h rfl ?_
    exact Dev.entryWrite_replaces rfl (Dev.onTable_open there table granted on_ clear) found fits
  · refine exec_taken (e := e) h rfl ?_
    exact Dev.entryWrite_inserts rfl (Dev.onTable_open there table granted on_ clear) absent room
  · refine exec_taken (e := e) h rfl ?_
    exact Dev.tableFlush_runs rfl (Dev.onTable_open there table granted on_ clear) fid
  · refine exec_taken (e := e) h rfl ?_
    exact Dev.entryDelete_found (Dev.onTable_open there table granted on_ clear) found
  · refine exec_taken (e := e) h rfl ?_
    exact Dev.entryRead_found (Dev.onTable_open there table granted on_ clear) found
  · refine exec_taken (e := e) h rfl ?_
    exact Dev.lpmAdd_default there route clear all_
  · refine exec_taken (e := e) h rfl ?_
    exact Dev.lpmAdd_replaces there route clear some_ found
  · refine exec_taken (e := e) h rfl ?_
    exact Dev.lpmAdd_inserts there route clear some_ absent room
  · refine exec_taken (e := e) h rfl ?_
    exact Dev.lpmDel_default there route clear all_ found
  · refine exec_taken (e := e) h rfl ?_
    exact Dev.lpmDel_found there route clear some_ found
  · refine exec_taken (e := e) h rfl ?_
    rw [Dev.needBlock_there there]
    rfl

end Sys2Proof.Machine
end

section
/-!
Lookups, learning, ageing, clearing and ECC errors (R99, R143 to R153, R474).
-/
namespace Sys2Proof.Machine

open Sys2Proof.Safety

variable {d : Dev}

/-! ## Lookups (R99, R143) -/

/-- A lookup is answered. -/
theorem Dev.tableLookup_answers {n : Nat} {r : LookReq} (found : d.pca.reqs.look? n = some r) (kind : r.kind ≠ 3) (fetch : r.prefetch = false)
    (open_ : r.answer = none) (still : d.rising 9 = false) :
    d.tableLookup n = (d.lookupAnswer r).2.setReqs fun x => x.put n { r with answer := some (d.lookupAnswer r).1 } := by
  simp only [Dev.tableLookup, found]
  rw [if_neg (by simp [kind, open_, still]), if_neg (ne_true_of_eq_false fetch)]

/-- The reply fills the slot it was made for. -/
theorem Dev.lookupReply_fills {n o len v : Nat} {r : LookReq} (found : d.pca.reqs.look? n = some r) (answer : r.answer = some (o, len, v))
    (block : r.blockGen = d.blockGen 9) : d.lookupReply n = (d.setReqs fun x => x.erase n).fillSlot r n o len v := by
  simp only [Dev.lookupReply, found, answer]
  exact if_neg (Classical.not_not.2 block)

/-! ## Learning, ageing and clearing (R150 to R153) -/

theorem Dev.learnApply_first {r : LearnReq} {rest : List LearnReq} (queue : d.tbl.learnQ = r :: rest) (on_ : d.tblOn = true)
    (clear : d.tblClearing 0 = false) (fresh : d.gen r.fn = r.gen) :
    d.learnApply = (d.setTbl fun x => { x with learnQ := rest }).learn r := by
  simp only [Dev.learnApply, queue]
  exact if_neg (by simp [on_, clear, fresh])

theorem Dev.ageRefresh_first {n k f q : Nat} {rest : List (Nat × Nat × Nat × Nat)} {place : Place} {entry : Entry}
    (queue : d.tbl.refreshQ = (n, k, f, q) :: rest) (found : d.findEntry { table := n, key := k, fn := f, qual := q } = some (place, entry)) :
    d.ageRefresh = (d.setTbl fun x => { x with refreshQ := rest }).putEntry place { entry with age := 0 } := by
  simp only [Dev.ageRefresh, queue, found]

theorem Dev.scanPassStart_due (on_ : d.tblOn = true) (due : ∀ t, d.tbl.lastPass = some t → t + scanPeriod d.tbl.passCfg ≤ d.ref) :
    d.scanPassStart = d.setTbl fun x => { x with scan := some (d.ref, 0), lastPass := some d.ref, passCfg := d.rd .TBL_AGE_CFG } := by
  refine if_pos ?_
  cases last : d.tbl.lastPass with
  | none => simpa using on_
  | some t => simpa [on_] using due t last

theorem Dev.scanVisit_bucket {start b : Nat} (scan : d.tbl.scan = some (start, b)) (on_ : d.tblOn = true)
    (due : start + scanPeriod d.tbl.passCfg * b / d.partBuckets ≤ d.ref) (used : d.bucketInUse b = true) (good : d.bucketFailed b = false) :
    let moved := d.setTbl fun x => { x with scan := if b + 1 < d.partBuckets then some (start, b + 1) else none }
    let slots := (List.range 4).filterMap fun i => (d.tbl.slots.look? (4 * b + i)).map fun e => (Place.slot (4 * b + i), e)
    let spilt := (d.tbl.ovf.cells.filter fun c => d.homeOf c.2 == some b).map fun c => (Place.ovf c.1, c.2)
    d.scanVisit = (((slots ++ spilt).filter fun x => d.tblEnabled x.2.table).foldl (fun y x => y.scanPlace x.1 x.2) moved).trimSpill b := by
  simp only [Dev.scanVisit, scan]
  rw [if_neg (by simp only [on_, Bool.not_true, Bool.false_or, decide_eq_true_eq]; exact Nat.not_lt.2 due), if_neg (by simp [used, good])]

/-- A clearing that ends answers the TABLE_CREATE that began it. -/
theorem Dev.tableClearDone_clearing {n : Nat} (table : n < 64) (clearing : d.tblClearing n = true) :
    let x := d.set Fld.TBL_DESC_CFG_CLEARING n 0
    d.tableClearDone n = ((x.vcl.cmds.first? fun _ a => a.opcode == 0x0501 && a.started && bitsOf (le32 a.params 0) 5 0 == n).map fun c =>
      x.replyOk c.1).getD x := by
  have runs : (decide (n < 64) && d.tblClearing n) = true := by rw [decide_eq_true table, clearing, Bool.and_self]
  simp only [Dev.tableClearDone, if_pos runs]
  generalize Tbl.first? _ _ = c
  cases c <;> rfl

/-- Settles O33: lookups, the fronts of the queues, the scan and the clearing by their lemmas, each error by its row. -/
theorem tableEvents : Obligations.TableEvents := by
  unfold Obligations.TableEvents
  refine fun s out => ⟨fun n r found kind fetch open_ still => ?_, fun n r o len v found answer block => ?_,
    fun r rest queue on_ clear fresh => ?_, fun n k f q rest place entry queue found => ?_, fun on_ due => ?_,
    fun start b scan on_ due used good => ?_, fun n table clearing => ?_, fun b inside => ?_, fun id there => ?_, fun die => ?_, fun k => ?_,
    fun at_ => ⟨?_, ?_⟩⟩
  · exact exec_leaves (fun d => d.tableLookup n) out rfl (Dev.tableLookup_answers found kind fetch open_ still)
  · exact exec_leaves (fun d => d.lookupReply n) out rfl (Dev.lookupReply_fills found answer block)
  · exact exec_leaves (fun d => d.learnApply) out rfl (Dev.learnApply_first queue on_ clear fresh)
  · exact exec_leaves (fun d => d.ageRefresh) out rfl (Dev.ageRefresh_first queue found)
  · exact exec_leaves (fun d => d.scanPassStart) out rfl (Dev.scanPassStart_due on_ due)
  · exact exec_leaves (fun d => d.scanVisit) out rfl (Dev.scanVisit_bucket scan on_ due used good)
  · refine exec_leaves (fun d => d.tableClearDone n) out rfl ((Dev.tableClearDone_clearing table clearing).trans ?_)
    generalize Tbl.first? _ _ = c
    cases c <;> rfl
  · exact exec_leaves (fun d => d.eccError (.bucket b)) out rfl (if_pos inside)
  · exact exec_leaves (fun d => d.eccError (.frame id)) out rfl (if_neg (by simpa [Option.isSome_iff_ne_none] using there))
  · exact exec_leaves (fun d => d.eccError (.corrected die)) out rfl rfl
  · exact exec_leaves (fun d => d.eccError (.engine k)) out rfl rfl
  · exact exec_leaves (fun d => d.eccError (.mram at_)) out rfl rfl
  · exact exec_leaves (fun d => d.eccError (.mramCorrected at_)) out rfl rfl

end Sys2Proof.Machine
end

section
/-!
The virtual switch: its commands and a frame at the switch (R163 to R176, R198, R341).
-/
namespace Sys2Proof.Machine

open Sys2Proof.Safety

/-! ## Commands (R168, R169, R176) -/

section Commands
variable {e : Dev} {n : Nat} {p : Bytes}

/-- A change of the switch's tables is in force at once; it replies once no earlier copy waits. -/
theorem Dev.vswCommit_eq (f : Vsw → Vsw) :
    e.vswCommit n f = if ((e.setVsw f).commit n).tunnelBusy then (e.setVsw f).commit n else ((e.setVsw f).commit n).replyOk n :=
  rfl

theorem Dev.vlanSet_inRange (low : bitsOf (le32 p 0) 11 0 ≠ 0) (high : bitsOf (le32 p 0) 11 0 ≠ 4095)
    (many : bitsOf (le32 p 0x10C) 4 0 ≤ 16)
    (tunnels : ∀ t, t ∈ (List.range (min (bitsOf (le32 p 0x10C) 4 0) 16)).map (fun i => le p (0x110 + 2 * i) 2) → t < 4096) :
    let tuns := (List.range (min (bitsOf (le32 p 0x10C) 4 0) 16)).map fun i => le p (0x110 + 2 * i) 2
    let v : Vlan :=
      { fid := bitsOf (le32 p 0) 27 16, floodUc := (le32 p 0).getLsbD 31, floodMc := (le32 p 0).getLsbD 30, ports := (le32 p 4).toNat,
        untagPorts := (le32 p 8).toNat, funcs := le p 12 128, untagFuncs := le p 0x8C 128, tunnels := tuns }
    e.vlanSet n p = e.vswCommit n fun x => { x with vlans := x.vlans.put (bitsOf (le32 p 0) 11 0) v } := by
  refine if_neg ?_
  simp only [Bool.or_eq_true, decide_eq_true_eq, not_or, Nat.not_lt, List.any_eq_true, not_exists, not_and, Nat.not_le]
  exact ⟨⟨⟨low, high⟩, many⟩, tunnels⟩

theorem Dev.groupSet_inRange (many : (le32 p 4).toNat ≤ 64)
    (dests : ((List.range (le32 p 4).toNat).map fun i => le p (8 + 2 * i) 2).all groupDest = true) :
    let dests := (List.range (le32 p 4).toNat).map fun i => le p (8 + 2 * i) 2
    e.groupSet n p = e.vswCommit n fun v =>
      { v with groups := v.groups.put (bitsOf (le32 p 0) 11 0) (Machine.Group.mk (bitsOf (le32 p 0) 27 16) dests) } := by
  refine if_neg ?_
  rw [dests]
  simpa using many

theorem Dev.tunnelDel_found {r : List Word} (found : e.vsw.tunnels.look? (bitsOf (le32 p 0) 11 0) = some r) :
    e.tunnelDel n p = e.vswCommit n fun v => { v with tunnels := v.tunnels.erase (bitsOf (le32 p 0) 11 0) } := by
  simp only [Dev.tunnelDel, found]

theorem Dev.switchDrainReply_drained {a : Accepted} (found : e.vcl.cmds.look? n = some a) (op : a.opcode / 256 = 6) (started : a.started = true)
    (committed : a.committed = true) (idle : e.tunnelBusy = false) : e.switchDrainReply n = e.replyOk n := by
  simp only [Dev.switchDrainReply, found]
  exact if_pos (by simp [op, started, committed, idle])

/-- Settles O34: each command by its checks, then by what it changes. -/
theorem switchCommands : Obligations.SwitchCommands := by
  unfold Obligations.SwitchCommands
  refine fun s => ⟨fun c n a p e there => ⟨fun h low high many tunnels => ?_, fun h found => ?_, fun h many dests => ?_, fun h found => ?_,
    fun h ok => ?_, fun r h found => ?_⟩, fun c n a p e h => ?_, fun n a out found op started committed idle => ?_⟩
  · refine exec_taken (e := e) h rfl ?_
    rw [Dev.needBlock_there there]
    exact Dev.vlanSet_inRange low high many tunnels
  · refine exec_taken (e := e) h rfl ?_
    rw [Dev.needBlock_there there]
    exact if_pos found
  · refine exec_taken (e := e) h rfl ?_
    rw [Dev.needBlock_there there]
    exact Dev.groupSet_inRange many dests
  · refine exec_taken (e := e) h rfl ?_
    rw [Dev.needBlock_there there]
    exact if_pos found
  · refine exec_taken (e := e) h rfl ?_
    rw [Dev.needBlock_there there]
    exact if_pos ok
  · refine exec_taken (e := e) h rfl ?_
    rw [Dev.needBlock_there there]
    exact Dev.tunnelDel_found found
  · refine exec_taken (e := e) h rfl ?_
    rfl
  · exact exec_leaves (fun d => d.switchDrainReply n) out rfl (Dev.switchDrainReply_drained found op started committed idle)

end Commands

/-! ## A frame at the switch (R163, R174, R198) -/

/-- A block that answers is not being brought up. -/
theorem Dev.rising_of_available {d : Dev} {b : Nat} (there : d.available b = true) : d.rising b = false := by
  simp only [Dev.available, Dev.powered, Bool.and_eq_true, Bool.not_eq_true'] at there
  exact there.1.2

section Switch
variable {d : Dev} {id : Nat} {f : Frame} (frame : d.frame? id = some f) (fresh : d.staleFrame f = false) (there : d.available 11 = true)

include frame fresh there in
/-- A frame whose verdict stands is emitted. -/
theorem Dev.switchFrame_emits (stage : f.stage = .toSwitch none) : d.switchFrame id = d.emitFrame id f := by
  simp only [Dev.switchFrame, frame, stage, fresh, Dev.rising_of_available there, there, Bool.false_eq_true, if_false, Bool.not_true]

include frame fresh there in
/-- A frame that recirculates protected goes to the IPsec slots, another one is terminated. -/
theorem Dev.switchFrame_recirculates {r : Nat} (stage : f.stage = .toSwitch (some r)) :
    d.switchFrame id = if lgOn f.lg lgEncrypt then
        ((d.updFrame id fun x => { x with stage := .espIn r, since := d.ref }).moveFrame id 97).espEnqueue (lgGet f.lg lgFunction) (.espIn id)
      else d.terminate id r f := by
  simp only [Dev.switchFrame, frame, stage, fresh, Dev.rising_of_available there, there, Bool.false_eq_true, if_false, Bool.not_true]

/-! ### Termination (R174) -/

/-- A Geneve frame with O = 1 goes to the slow path. -/
theorem Dev.terminate_slow {r : Nat} (o : geneveO f.bytes = true) : d.terminate id r f = d.slowPath id 42 0 := by
  simp only [Dev.terminate, o, if_true]

/-- A frame that its endpoint does not match is dropped. -/
theorem Dev.terminate_mismatch {r : Nat} (plain : geneveO f.bytes = false)
    (none_ : ∀ rec, d.vsw.tunnels.look? (lgGet f.lg lgTunnel) = some rec → termination rec f.bytes = none) :
    d.terminate id r f = (d.bump .VSW_TUN_MISMATCH).dropFrame id 42 (Config.dropReason 8) := by
  simp only [Dev.terminate, plain, Bool.false_eq_true, if_false]
  cases tunnel : d.vsw.tunnels.look? (lgGet f.lg lgTunnel) with
  | none => rfl
  | some rec => simp only [none_ rec tunnel]

/-- A frame that its endpoint matches loses its outer headers and is queued again. -/
theorem Dev.terminate_match {r start lin : Nat} {rec : List Word} (plain : geneveO f.bytes = false)
    (tunnel : d.vsw.tunnels.look? (lgGet f.lg lgTunnel) = some rec) (fits : termination rec f.bytes = some (start, lin)) :
    d.terminate id r f = (d.updFrame id fun x => { x with
      bytes := slice x.bytes start lin, lg := lgSet (lgSet x.lg lgFrameLen lin) lgDecap 1,
      decap := some (4096 * lgGet f.lg lgTunnel + epVid rec) }).recirculate id r := by
  simp only [Dev.terminate, plain, Bool.false_eq_true, if_false, tunnel, fits]

/-! ### Emission (R163 to R173, R198) -/

/-- What the switch knows of a frame that its VLAN admits. -/
def Frame.context (f : Frame) (sel : VlanSel) (v : Vlan) : SwCtx :=
  { sel := sel, vlan := v, inPort := lgGet f.lg lgInPort, fn := lgGet f.lg lgFunction, bytes := f.bytes, hash := f.lg.getD 5 0 }

/-- The device once the frame's source has been learned where it is asked. -/
def Dev.sourceLearned (d : Dev) (f : Frame) (v : Vlan) : Dev :=
  if lgOn f.lg lgLearn then
    d.learnSubmit { fid := v.fid, mac := be f.bytes 6 6, inPort := lgGet f.lg lgInPort, fn := lgGet f.lg lgFunction,
                    gen := lgGet f.lg lgGeneration, stamp := d.ingress f.lg, tunnel := f.decap.map (· / 4096) }
  else d

/-- A frame that its VLAN does not let in is dropped. -/
theorem Dev.emitFrame_isolated {sel : VlanSel} {v : Vlan} (vlan : d.vlanOf f (lgGet f.lg lgInPort) (lgGet f.lg lgFunction) = some (sel, v))
    (outside : v.hasSource (lgGet f.lg lgInPort) (lgGet f.lg lgFunction) = false ∨
      d.holdsFrame (f.context sel v) f.lg f.decap.isSome = false) :
    d.emitFrame id f = (d.bump .FNC_ISOLATION_DROP (lgGet f.lg lgFunction)).dropFrame id 42 (Config.dropReason 6) := by
  simp only [Frame.context] at outside
  simp only [Dev.emitFrame, vlan]
  refine if_pos ?_
  rcases outside with source | dest
  · rw [source]
    rfl
  · rw [dest, Bool.not_false, Bool.or_true]

section Admitted
variable {sel : VlanSel} {v : Vlan} (vlan : d.vlanOf f (lgGet f.lg lgInPort) (lgGet f.lg lgFunction) = some (sel, v))
  (source : v.hasSource (lgGet f.lg lgInPort) (lgGet f.lg lgFunction) = true)
  (holds : d.holdsFrame (f.context sel v) f.lg f.decap.isSome = true)

include vlan source holds in
/-- A frame whose ESP slot does not fit is dropped (R198). -/
theorem Dev.emitFrame_unfit (encrypt : lgOn f.lg lgEncrypt = true) (cipher : d.cipOn = true)
    (unfit : d.espFits (lgGet f.lg lgKeySlot) (lgGet f.lg lgFunction) 3 = false) :
    let refused := d.espRefused (lgGet f.lg lgKeySlot) (lgGet f.lg lgFunction) 3
    d.emitFrame id f = refused.1.dropFrame id 42 refused.2 := by
  simp only [Frame.context] at holds
  simp only [Dev.emitFrame, vlan, source, holds, encrypt, cipher, unfit, Bool.not_true, Bool.not_false, Bool.or_self, Bool.false_eq_true,
    if_false, Bool.and_self, if_true]

variable (fits : lgOn f.lg lgEncrypt = true → d.cipOn = true → d.espFits (lgGet f.lg lgKeySlot) (lgGet f.lg lgFunction) 3 = true)

include fits in
/-- What fits is not refused. -/
theorem Dev.encrypts_fitting :
    (lgOn f.lg lgEncrypt && d.cipOn && !d.espFits (lgGet f.lg lgKeySlot) (lgGet f.lg lgFunction) 3) = false := by
  cases he : lgOn f.lg lgEncrypt with
  | false => rfl
  | true =>
    cases hc : d.cipOn with
    | false => rfl
    | true => simp [fits he hc]

include vlan source holds fits

/-- An admitted frame is copied to its set and its mirrors. -/
theorem Dev.emitFrame_copies
    (onward : lgGet f.lg lgDest = sourceDest (lgGet f.lg lgInPort) (lgGet f.lg lgFunction) → viaEndpoint f.lg (lgGet f.lg lgDest) = true) :
    let dest := lgGet f.lg lgDest
    let learned := d.sourceLearned f v
    let set := learned.destSet (f.context sel v) f.lg f.decap.isSome
    let nowhere : Bool := dest / 2 ^ 13 == 2 && !learned.exists? (dest % 2 ^ 13)
    let counted := if (set.isEmpty && (destDrops dest || dest == 1)) || nowhere then learned.bump .VSW_NO_DEST else learned
    let plan := counted.planAll (f.context sel v) set
    let mirror := plan.2.mirrors (f.context sel v) (lgOn f.lg lgMirror) plan.1
    d.emitFrame id f = mirror.2.replicate id f (plan.1 ++ mirror.1) 5 := by
  have hairpin : (decide (lgGet f.lg lgDest = sourceDest (lgGet f.lg lgInPort) (lgGet f.lg lgFunction)) &&
      !viaEndpoint f.lg (lgGet f.lg lgDest)) = false := by
    by_cases h : lgGet f.lg lgDest = sourceDest (lgGet f.lg lgInPort) (lgGet f.lg lgFunction)
    · simp [onward h]
    · simp [h]
  simp only [Frame.context] at holds
  simp only [Dev.emitFrame, vlan, source, holds, Dev.encrypts_fitting fits, hairpin, Bool.not_true, Bool.or_self, Bool.false_eq_true,
    if_false]
  rfl

/-- An admitted frame that would go back to where it came from goes to its mirrors alone. -/
theorem Dev.emitFrame_hairpin (back : lgGet f.lg lgDest = sourceDest (lgGet f.lg lgInPort) (lgGet f.lg lgFunction))
    (direct : viaEndpoint f.lg (lgGet f.lg lgDest) = false) :
    let mirror := ((d.sourceLearned f v).bump .VSW_HAIRPIN_DROP).mirrors (f.context sel v) (lgOn f.lg lgMirror) []
    d.emitFrame id f = mirror.2.replicate id f mirror.1 7 := by
  have hairpin : (decide (lgGet f.lg lgDest = sourceDest (lgGet f.lg lgInPort) (lgGet f.lg lgFunction)) &&
      !viaEndpoint f.lg (lgGet f.lg lgDest)) = true := by simp [← back, direct]
  simp only [Frame.context] at holds
  simp only [Dev.emitFrame, vlan, source, holds, Dev.encrypts_fitting fits, hairpin, Bool.not_true, Bool.or_self, Bool.false_eq_true,
    if_false, if_true, Dev.planAll, List.nil_append]
  rfl

end Admitted

end Switch

/-- Settles O35: a recirculated frame by its protection and termination, an emitted one by what its VLAN admits. -/
theorem switching : Obligations.Switching := by
  unfold Obligations.Switching
  refine fun s id f out frame fresh there => ⟨fun r stage encrypt => ?_, fun r stage open_ o => ?_, fun r stage open_ plain none_ => ?_,
    fun r rec start lin stage open_ plain tunnel fits => ?_, fun sel v stage vlan source holds => ⟨fun unfit => ?_,
      fun fits onward => ?_, fun fits back direct => ?_⟩, fun stage sel v vlan outside => ?_⟩
  · exact exec_leaves (fun d => d.switchFrame id) out rfl ((Dev.switchFrame_recirculates frame fresh there stage).trans (if_pos encrypt))
  · exact exec_leaves (fun d => d.switchFrame id) out rfl (((Dev.switchFrame_recirculates frame fresh there stage).trans
      (if_neg (ne_true_of_eq_false open_))).trans (Dev.terminate_slow o))
  · exact exec_leaves (fun d => d.switchFrame id) out rfl (((Dev.switchFrame_recirculates frame fresh there stage).trans
      (if_neg (ne_true_of_eq_false open_))).trans (Dev.terminate_mismatch plain none_))
  · exact exec_leaves (fun d => d.switchFrame id) out rfl (((Dev.switchFrame_recirculates frame fresh there stage).trans
      (if_neg (ne_true_of_eq_false open_))).trans (Dev.terminate_match plain tunnel fits))
  · obtain ⟨encrypt, unfit⟩ := Classical.not_imp.1 unfit
    obtain ⟨cipher, unfit⟩ := Classical.not_imp.1 unfit
    exact exec_leaves (fun d => d.switchFrame id) out rfl ((Dev.switchFrame_emits frame fresh there stage).trans
      (Dev.emitFrame_unfit vlan source holds encrypt cipher (eq_false_of_ne_true unfit)))
  · exact exec_leaves (fun d => d.switchFrame id) out rfl ((Dev.switchFrame_emits frame fresh there stage).trans
      (Dev.emitFrame_copies vlan source holds fits onward))
  · exact exec_leaves (fun d => d.switchFrame id) out rfl ((Dev.switchFrame_emits frame fresh there stage).trans
      (Dev.emitFrame_hairpin vlan source holds fits back direct))
  · exact exec_leaves (fun d => d.switchFrame id) out rfl ((Dev.switchFrame_emits frame fresh there stage).trans
      (Dev.emitFrame_isolated vlan outside))

end Sys2Proof.Machine
end

section
/-!
Loading, binding and unloading of insets (R66, R104, R105, R307).
-/
namespace Sys2Proof.Machine

open Sys2Proof.Safety

section Commands
variable {e : Dev} {n f : Nat} {a : Accepted} {p : Bytes}

/-! ## Who may use insets (R307) -/

theorem Dev.mayInset_denied (denied : ¬ (4 ≤ a.cmd.issuer → (e.rd .FNC_PRIV a.cmd.issuer).getLsbD 1 = true)) (k : Dev → Dev) :
    e.mayInset n a.cmd k = e.reply n .denied := by
  obtain ⟨vf, priv⟩ := Classical.not_imp.1 denied
  refine if_pos ?_
  rw [decide_eq_true vf, eq_false_of_ne_true priv]
  rfl

theorem Dev.mayInset_may (may : 4 ≤ a.cmd.issuer → (e.rd .FNC_PRIV a.cmd.issuer).getLsbD 1 = true) (k : Dev → Dev) :
    e.mayInset n a.cmd k = k e :=
  if_neg (by simpa using may)

/-! ## Loading (R104, R105) -/

/-- An inset that the loader takes and finds room for is placed, and its change begins. -/
theorem Dev.insetLoad_placed {bytes : Bytes} {g x y : Dev} {bases wins : Tbl Nat} (idle : e.pca.changes.look? f = none)
    (few : (le32 p 12).toNat ≤ 16) (data : ∀ go, e.withData n (le p 0 8) (le32 p 8).toNat (some bytes) go = go bytes g) :
    let o := tlamond (slice bytes 0 (le32 p 8).toNat)
    let maps := (List.range (le32 p 12).toNat).map fun i => ((le32 p (16 + 8 * i)).toNat, (byteAt p (20 + 8 * i)).toNat)
    let cs := g.groupClusters f
    g.loaderRefuses f o maps = none → g.placeAll 0x1000 0x4000 1 o.text.length g.textUsed cs = (some bases, x) →
    x.placeAll 0x40000 0x80000 1024 o.rgn x.rgnUsed (cs.map (· / 4)).eraseDups = (some wins, y) →
    let bound := (o.figures.map (·.2)).getD 0
    let granted := if o.chanMask ≠ 0 ∨ o.softMask ≠ 0 then g.exclusive f else []
    let i : Inset :=
      { function := f, text := o.text, base := bases, rgnBase := wins, priv := o.priv, rgn := o.rgn,
        entries := o.entries.map fun e => (e.1, e.2.1, e.2.2.1),
        handles := o.handles.map fun h => (g.handleTable f h.2.1 maps h.2.2).getD 0,
        handleKinds := o.handles.map (·.2.1), chanMask := o.chanMask, softMask := o.softMask, granted := granted, bound := bound }
    let k := y.pca.insets.nextKey
    let placed := (((y.setPca fun q => { q with insets := q.insets.put k i }).zeroWindows i).setGroupMasks f cs).grantInset f o granted
    e.insetLoad n f p (some bytes) = placed.startChange f (some k) bound (some n) := by
  intro o maps cs takes text windows
  simp only [Dev.insetLoad, idle, Option.isSome_none, Bool.false_eq_true, if_false, data]
  rw [if_neg (Nat.not_lt.2 few)]
  simp only [o, maps, cs] at takes text windows
  simp only [takes, text, windows, Bool.or_eq_true, decide_eq_true_eq, o, cs, maps]

/-- A set of bindings that no record refuses is bound. -/
theorem Dev.insetBind_all
    (takes : ∀ r, r ∈ (List.range (le32 p 0).toNat).map (fun i => (le32 p (4 + 8 * i), le32 p (8 + 8 * i))) → e.bindRefuses f r.1 = none) :
    let rs := (List.range (le32 p 0).toNat).map fun i => (le32 p (4 + 8 * i), le32 p (8 + 8 * i))
    let seq := e.pca.binds + 1
    e.insetBind n f p = (rs.foldl (fun x r => x.bindRecord f seq r.1 r.2) (e.setPca fun q => { q with binds := seq })).replyOk n := by
  simp only [Dev.insetBind, List.findSome?_eq_none_iff.2 takes]

/-- An unload of what is in force begins its change. -/
theorem Dev.insetUnload_idle (idle : e.pca.changes.look? f = none) :
    e.insetUnload n f = if (e.insetInForce f).isSome then e.startChange f none 0 (some n) else e.replyOk n := by
  rw [Dev.insetUnload, idle]
  cases e.insetInForce f <;> rfl

end Commands

/-! ## Commit and drain (R66, R105) -/

section Changes
variable {d : Dev} {f : Nat} {ch : InsetChange} (change : d.pca.changes.look? f = some ch)
include change

/-- A region commits the change. -/
theorem Dev.insetCommitApply_region {r : Nat} (region : ch.regions.contains r = true) :
    d.insetCommitApply f r = d.setPca fun q => { q with
      insetAt := (ch.new.map fun k => d.pca.insetAt.put (4 * f + r) k).getD (d.pca.insetAt.erase (4 * f + r))
      changes := q.changes.put f { ch with regions := ch.regions.filter (· ≠ r) } } := by
  simp only [Dev.insetCommitApply, change]
  rw [if_pos region]
  cases ch.new <;> rfl

/-- The change ends once every region has committed and the old inset runs nowhere. -/
theorem Dev.insetDrainEnd_drained (all_ : ch.regions = []) (drained : d.oldInsetRuns f ch.new = false) :
    let freed := (d.setPca fun q => { q with
      changes := q.changes.erase f, insets := q.insets.keep fun k i => i.function != f || some k == ch.new }).set Fld.FNC_INSET_STAT_DRAINING f 0
    d.insetDrainEnd f = (ch.cmd.map fun n => (ch.new.map fun k => freed.loadReply n k).getD (freed.replyOk n)).getD freed := by
  simp only [Dev.insetDrainEnd, change]
  rw [if_pos (by rw [all_, drained]; rfl)]
  cases ch.cmd <;> cases ch.new <;> rfl

end Changes

/-- Settles O36: the privilege first, then each command and each end of a change by its lemma. -/
theorem insets : Obligations.Insets := by
  unfold Obligations.Insets
  refine fun s => ⟨fun c n a p e => ⟨fun h denied obj => ?_, fun h denied => ?_, fun h denied => ?_,
    fun bytes o' ready h may idle few reach bases x wins y takes text windows => ?_, fun h may takes => ?_, fun h may idle => ?_⟩,
    fun f r ch out change region => ?_, fun f ch out change all_ drained => ?_⟩
  · refine exec_taken (e := e) h rfl ?_
    exact Dev.mayInset_denied denied _
  · refine exec_taken (e := e) h rfl ?_
    exact Dev.mayInset_denied denied _
  · refine exec_taken (e := e) h rfl ?_
    exact Dev.mayInset_denied denied _
  · refine exec_taken (e := o') h rfl ?_
    exact (Dev.mayInset_may may _).trans (Dev.insetLoad_placed idle few (fun go => (Dev.withData_ready reach go).2 bytes) takes text windows)
  · refine exec_taken (e := e) h rfl ?_
    exact (Dev.mayInset_may may _).trans (Dev.insetBind_all takes)
  · refine exec_taken (e := e) h rfl ?_
    exact (Dev.mayInset_may may _).trans (Dev.insetUnload_idle idle)
  · refine exec_leaves (fun d => d.insetCommitApply f r) out rfl ((Dev.insetCommitApply_region change region).trans ?_)
    cases ch.new <;> rfl
  · refine exec_leaves (fun d => d.insetDrainEnd f) out rfl ((Dev.insetDrainEnd_drained change all_ drained).trans ?_)
    cases ch.cmd <;> cases ch.new <;> rfl

end Sys2Proof.Machine
end

section
/-!
The commands of functions: queue pairs, privileges, reset and migration (R295, R307, R317 to R326).
-/
namespace Sys2Proof.Machine

open Sys2Proof.Safety

section Commands
variable {e : Dev} {n f : Nat} {p : Bytes}

/-- QP_ASSIGN of queue pairs that no function has and that are idle. -/
theorem Dev.qpAssign_idle {base count : Nat} (hbase : bitsOf (le32 p 0) 13 0 = base) (hcount : bitsOf (le32 p 4) 6 0 = count) (few : count ≤ 64)
    (inside : base + count ≤ 16384) (apart : e.qpOverlaps f base count = false) (old : ∀ i, i < e.qpCount f → e.qpBusy (e.qpBase f + i) = false)
    (new : ∀ i, i < count → e.qpBusy (base + i) = false) :
    e.qpAssign n f p = ((e.wr .FNC_QP_MAP f 0 (toWord (count * 2 ^ 24 + base))).rssDefault f).replyOk n := by
  subst hbase hcount
  refine (if_neg ?_).trans (if_neg ?_)
  · rw [apart, Bool.or_false, Bool.or_eq_true, decide_eq_true_eq, decide_eq_true_eq, not_or]
    exact ⟨Nat.not_lt.2 few, Nat.not_lt.2 inside⟩
  · simp only [Bool.or_eq_true, List.any_eq_true, List.mem_range, not_or, not_exists, not_and]
    exact ⟨fun i hi => ne_true_of_eq_false (old i hi), fun i hi => ne_true_of_eq_false (new i hi)⟩

/-- FUNC_FREEZE of a running function without connections and without a second sheet (R323). -/
theorem Dev.funcFreeze_runs (runs : e.fnState f = 0) (conns : (e.sto.conns.first? fun _ x => x.fn == f && x.live) = none)
    (sheet : (e.banks f).other = .empty) :
    let begun : Dev := { e with fnc := { e.fnc with freezes := e.fnc.freezes.put f { z := e.now, cmd := some n } } }
    e.funcFreeze n f = ((begun.set Fld.FNC_FUNC_STATE_STATE f 2).set Fld.FNC_FUNC_STATE_SAVED f 0).commit n := by
  simp only [Dev.funcFreeze, conns, sheet]
  exact if_neg (by simp [runs])

/-- FUNC_SAVE of a frozen function writes its image (R324). -/
theorem Dev.funcSave_image {ident : Nat} {key : Bytes} {x : Dev} {z : Freeze} {b : Accepted} (frozen : e.fnState f = 3)
    (trng : e.on? Fld.SEC_STAT_TRNG_FAIL = false) (good : e.mramBad 0x3000 0x4000 = false) (domain : e.saveDomain = (some (ident, key), x))
    (freeze : x.fnc.freezes.look? f = some z) (cmd : x.vcl.cmds.look? n = some b) :
    let clear := (x.imageSections f).filter fun s => !s.2.isEmpty
    let keys := x.keySection f
    let secs := clear ++ [(12, keys)]
    let body := clear.flatMap fun s => s.2.flatMap id
    let pre := 96 + 16 * secs.length
    let total := pre + body.length + 144 * keys.length
    total ≤ (le32 p 8).toNat →
    let iv := x.drawBytes 12
    let rnd := iv.2.drawBytes 8
    let aad := imageHeader total secs.length f (e.gen f) ident z.z iv.1 rnd.1 ++ (directory pre secs).flatMap id ++ body
    let sealed := sized (144 * keys.length) (gcmSeal key iv.1 aad (keys.flatMap id))
    let tag := sized 16 (gcmTag key iv.1 aad sealed)
    e.funcSave n f p =
      ((rnd.2.hostPut b.cmd.issuer (le p 0 8) (overwrite (aad ++ sealed) 0x30 tag)).set Fld.FNC_FUNC_STATE_SAVED f 1).replyOk n [toWord total] := by
  intro clear keys secs body pre total fits
  simp only [Dev.funcSave]
  rw [if_neg (by simp [frozen, trng, good])]
  simp only [domain, freeze, cmd]
  exact if_neg (Nat.not_lt.2 fits)

/-- FUNC_RESTORE of an image that has been read (R325). -/
theorem Dev.funcRestore_image {raw : Bytes} {read : Dev}
    (data : ∀ go, e.withData n (le p 0 8) (le32 p 8).toNat (some raw) go = go raw read) (good : read.mramBad 0x3000 0x4000 = false) :
    let b := sized (le32 p 8).toNat raw
    e.funcRestore n f p (some raw) = ((read.restoreRefuses f b).map fun why => read.reply n .badParam (wordBytes [toWord why])).getD
      (((read.genChange f 6 (some n)).commit n).updReset f fun r => { r with restore := some (n, b) }) := by
  refine (data _).trans ((if_neg (ne_true_of_eq_false good)).trans ?_)
  generalize Dev.restoreRefuses _ _ _ = why
  cases why <;> rfl

end Commands

section Drains
variable {d : Dev} {f : Nat}

/-- The drain of a freeze ends (R323). -/
theorem Dev.freezeDrainEnd_drained {z : Freeze} (freezing : d.fnState f = 2) (idle : d.dmaBusy f = false)
    (freeze : d.fnc.freezes.look? f = some z) :
    let frozen := (d.unfetch f).set Fld.FNC_FUNC_STATE_STATE f 3
    let ended : Dev := { frozen with fnc := { frozen.fnc with freezes := frozen.fnc.freezes.put f { z with cmd := none } } }
    d.freezeDrainEnd f = (z.cmd.map fun n => ended.replyOk n).getD ended := by
  simp only [Dev.freezeDrainEnd, freeze]
  rw [if_neg (by simp [freezing, idle])]
  cases z.cmd <;> rfl

/-- The drain of a function reset that installs no image ends (R318). -/
theorem Dev.funcResetDrainEnd_drained {r : FnReset} (resetting : d.fnState f = 1) (drained : d.resetDrained f = true)
    (found : d.fnc.resets.look? f = some r) (plain : r.restore = none) :
    let cleared : Dev := { d with fnc := { d.fnc with resets := d.fnc.resets.erase f } }
    let ready := ((cleared.set Fld.FNC_FUNC_STATE_STATE f 0).set Fld.FNC_FUNC_STATE_RESET_DONE f 1).writeGenRec f r.stamp r.reason r.discarded
    let told := (r.cmds.foldl (fun x n => x.replyOk n) ready).event (pfOf f) 0x8004 (wordBytes [toWord f, toWord (r.reason + d.gen f * 2 ^ 16)])
    d.funcResetDrainEnd f = if r.flr then told.emit (.flrDone f) else told := by
  simp only [Dev.funcResetDrainEnd, found, plain]
  rw [if_neg (by simp [resetting, drained, FnReset.writesMram, plain])]

end Drains

/-- Settles O37: each command by its lemma, the two drains by what they leave. -/
theorem functionCommands : Obligations.FunctionCommands := by
  unfold Obligations.FunctionCommands
  refine fun s => ⟨fun c n a p e => ⟨fun h few inside apart old new => ?_, fun h vf => ?_, fun h => ?_, fun h runs conns sheet => ?_,
    fun ident key x z b h frozen trng good domain freeze cmd fits => ?_, fun raw ready h reach good => ⟨?_, ?_⟩, fun h frozen => ?_⟩,
    fun f z out freezing idle freeze => ?_, fun f r out resetting drained found plain => ?_⟩
  · refine exec_taken (e := e) h rfl ?_
    exact Dev.qpAssign_idle rfl rfl few inside apart old new
  · refine exec_taken (e := e) h rfl ?_
    exact if_neg (Nat.not_lt.2 vf)
  · refine exec_taken (e := e) h rfl ?_
    rfl
  · refine exec_taken (e := e) h rfl ?_
    exact Dev.funcFreeze_runs runs conns sheet
  · refine exec_taken (e := e) h rfl ?_
    exact Dev.funcSave_image frozen trng good domain freeze cmd fits
  · refine exec_taken (e := e) h rfl ?_
    exact (Dev.withData_ready reach _).1
  · refine exec_taken (e := e) h rfl ?_
    refine (Dev.funcRestore_image (fun go => (Dev.withData_ready reach go).2 raw) good).trans ?_
    generalize Dev.restoreRefuses _ _ _ = why
    cases why <;> rfl
  · refine exec_taken (e := e) h rfl ?_
    exact Dev.funcThaw_frozen n frozen
  · refine exec_leaves (fun d => d.freezeDrainEnd f) out rfl ((Dev.freezeDrainEnd_drained freezing idle freeze).trans ?_)
    cases z.cmd <;> rfl
  · exact exec_leaves (fun d => d.funcResetDrainEnd f) out rfl (Dev.funcResetDrainEnd_drained resetting drained found plain)

end Sys2Proof.Machine
end

section
/-!
What PCIe does to functions (R285, R288, R290, R292, R305).
-/
namespace Sys2Proof.Machine

open Sys2Proof.Safety

variable {d : Dev}

/-- A link with functions goes down (R292). -/
theorem Dev.linkDown_some {link : Nat} (some_ : (d.linkFns link).filter d.exists? ≠ []) :
    let fs := (d.linkFns link).filter d.exists?
    d.linkDown link = (fs.foldl (fun x g => x.cfgReset g false) (fs.foldl (fun x g => x.genChange g 3) d)).wr .HIF_LINK_STAT link 0 0 :=
  if_neg (by simpa using some_)

/-- An invalidation completes once no transfer uses its page. -/
theorem Dev.atsInvalComplete_idle {f tag page : Nat}
    (found : (d.dma.invals.find? fun i => i.1 == f && i.2.1 == tag) = some (f, tag, page)) (idle : d.invalBusy f page = false) :
    d.atsInvalComplete f tag =
      (({ d with dma := { d.dma with invals := d.dma.invals.erase (f, tag, page) } } : Dev).bump .HIF_ATS_INVAL).emit (.invalidated f tag) := by
  simp only [Dev.atsInvalComplete, found]
  exact if_neg (ne_true_of_eq_false idle)

section Vector
variable {f vec : Nat} {w : Word}

/-- A vector unmasked with its pending bit set is sent (R305). -/
theorem Dev.vectorWrite_pending (unmasks : w.getLsbD 0 = false) (pending : (d.hif.msix.getD (2048 * f + vec) {}).pending = true)
    (enabled : (d.hif.cfg.getD f {}).msixEnable = true) (open_ : (d.hif.cfg.getD f {}).msixMask = false) :
    let v := d.hif.msix.getD (2048 * f + vec) {}
    d.vectorWrite f vec 3 w = (({ d with hif := { d.hif with
      msix := d.hif.msix.putD {} (2048 * f + vec) { v with masked := false, pending := false } } } : Dev).holdVector f vec).hostOut f
        (.msix f vec) := by
  simp only [Dev.vectorWrite, unmasks, pending, enabled, open_]
  rfl

/-- A host's write of a vector's mask word that reaches it. -/
theorem Dev.regWrite_vector {x : Dev} (may : d.canAccess (.host f) = true) (spot : d.spotAt (.host f) (.msix f (16 * vec + 12)) = .vector f vec 3)
    (barred : d.hostBarred (.host f) (.vector f vec 3) = false) (awake : d.standby = false) (there : d.unavailable (.vector f vec 3) = none)
    (reaches : reach (.host f) (.msix f (16 * vec + 12)) = some (.msix f (16 * vec + 12))) (writes : d.vectorWrite f vec 3 w = x) :
    d.regWrite (.host f) (.msix f (16 * vec + 12)) w = x.emit (.answer (.host f) .done) := by
  have same : d.noteJtag (.host f) = d := rfl
  simp only [Dev.regWrite, reaches, may, if_true, same, answered, Dev.writeAt, spot, barred, awake, there, Bool.false_and,
    Bool.false_eq_true, if_false, reduceCtorEq, writes]

end Vector

/-- Settles O38: functions reset and powered, the links, the translations and the vectors, each by its operation. -/
theorem hostEvents : Obligations.HostEvents := by
  unfold Obligations.HostEvents
  refine fun s out => ⟨fun f there => ⟨?_, ?_, fun hot => ?_⟩, fun k hk => ⟨?_, fun on_ => ?_, fun n off few => ?_⟩, fun link some_ => ?_,
    fun dual some_ => ?_, fun link rate width hr hw hl => ?_, fun f tag page => ?_, fun f tag page found idle => ?_,
    fun f vec w hv unmasks may spot barred awake there pending enabled open_ reaches => ?_⟩
  · refine exec_leaves (fun d => d.flr f) out rfl (if_neg ?_)
    rw [there]
    decide
  · exact exec_leaves (fun d => d.d3hotEnter f) out rfl (if_pos there)
  · refine exec_leaves (fun d => d.d0Enter f) out rfl (if_pos ?_)
    rw [there, hot]
    rfl
  · exact exec_leaves (fun d => d.vfEnableSet k) out rfl (if_pos hk)
  · refine exec_leaves (fun d => d.vfEnableClear k) out rfl (if_pos ?_)
    rw [decide_eq_true hk, on_]
    rfl
  · refine exec_leaves (fun d => d.numvfsWrite k n) out rfl ((if_pos ?_).trans ?_)
    · rw [decide_eq_true hk, off]
      rfl
    · rw [Nat.min_eq_left few]
  · exact exec_leaves (fun d => d.linkDown link) out rfl (Dev.linkDown_some some_)
  · exact exec_leaves (fun d => d.perst1) out rfl ((if_pos dual).trans (Dev.linkDown_some some_))
  · refine exec_leaves (fun d => d.pcieLinkUp link rate width) out rfl ((if_pos ?_).trans ?_)
    · rcases hl with rfl | ⟨rfl, dual⟩ <;> simp [*]
    · rw [Nat.mod_eq_of_lt hr, Nat.mod_eq_of_lt hw]
  · exact exec_leaves (fun d => d.atsInvalidation f tag page) out rfl rfl
  · exact exec_leaves (fun d => d.atsInvalComplete f tag) out rfl (Dev.atsInvalComplete_idle found idle)
  · refine exec_leaves (fun d => d.vectorUnmask f vec w) out rfl ((if_pos ?_).trans ?_)
    · rw [decide_eq_true hv, unmasks]
      rfl
    · exact Dev.regWrite_vector may spot barred awake there reaches (Dev.vectorWrite_pending unmasks pending enabled open_)

end Sys2Proof.Machine
end

section
/-!
The traffic manager's commands (R217 to R225).
-/
namespace Sys2Proof.Machine

open Sys2Proof.Safety

variable {e : Dev} {n : Nat} {a : Accepted} {p : Bytes}

/-! ## GATE_SET (R222 to R225) -/

section Gate
variable (port : bitsOf (le32 p 0) 4 0 < 18)
  (ok : gateListOk p (bitsOf (le32 p 4) 26 16) (le32 p 16).toNat (le32 p 20).toNat (e.preemption (bitsOf (le32 p 0) 4 0)) = true)
include port ok

/-- A list that R222 accepts is not refused. -/
theorem Dev.gateSet_accepted (stepUp : Nat → Dev → Dev) :
    let port := bitsOf (le32 p 0) 4 0
    let cycle := (le32 p 16).toNat
    let need := ceilDiv (a.stamp + 2000 * 256) 256
    let skip := if need ≤ le p 8 8 then 0 else ceilDiv (need - le p 8 8) cycle
    let t := le p 8 8 + skip * cycle
    let l : GateList :=
      { entries := gateEntries p (bitsOf (le32 p 4) 26 16), base := le p 8 8, cycle := cycle, ext := (le32 p 20).toNat,
        init := bitsOf (le32 p 4) 7 0, t := t, n := skip }
    let g := e.gate port
    let held := e.setGate port { g with pending := some l, hold := if g.oper.isSome then none else some l.init }
    let told := ((held.set Fld.TMG_GATE_STAT_BASE_ADVANCED port (b2n (0 < skip))).wr .TMG_GATE_STAT port 1 (toWord skip)).wr
      .TMG_GATE_STAT port 2 (toWord (skip / 2 ^ 32))
    let begun :=
      if g.oper.isSome || g.pending.isSome then told
      else told.setPort port { told.port port with stops := (told.port port).stops.mapVals fun _ x => { x with since := e.ref } }
    e.gateSet n a p stepUp = if (le32 p 0).getLsbD 31 then
        (stepUp port begun).replyOk n (stampWords (256 * t) ++ [toWord skip, toWord (skip / 2 ^ 32)])
      else (e.gateEnd port).replyOk n [0, 0, 0, 0, 0] := by
  have legal : ¬ (decide (bitsOf (le32 p 0) 4 0 ≥ 18) || !gateListOk p (bitsOf (le32 p 4) 26 16) (le32 p 16).toNat (le32 p 20).toNat
      (e.preemption (bitsOf (le32 p 0) 4 0))) = true := by simp [ok, port]
  simp only [Dev.gateSet, ge_iff_le, gt_iff_lt]
  rw [if_neg legal]
  cases (le32 p 0).getLsbD 31 with
  | false => rw [if_pos (by decide), if_neg Bool.false_ne_true]
  | true => rw [if_neg (by decide), if_pos rfl]

end Gate

/-! ## Filters, meters and 802.1CB (R217 to R221) -/

theorem Dev.filterSet_inRange (h0 : bitsOf ((wordsOf (p.drop 4) 4).getD 0 0) 13 10 = 0)
    (h1 : bitsOf ((wordsOf (p.drop 4) 4).getD 1 0) 31 29 = 0) (h1' : bitsOf ((wordsOf (p.drop 4) 4).getD 1 0) 15 14 = 0)
    (h2 : (wordsOf (p.drop 4) 4).getD 2 0 = 0) (h3 : (wordsOf (p.drop 4) 4).getD 3 0 = 0)
    (action : bitsOf ((wordsOf (p.drop 4) 4).getD 0 0) 27 26 ≠ 3)
    (meter : ((wordsOf (p.drop 4) 4).getD 0 0).getLsbD 30 = true → bitsOf ((wordsOf (p.drop 4) 4).getD 0 0) 9 0 < 4) :
    let k := bitsOf (le32 p 0) 12 0
    let r := wordsOf (p.drop 4) 4
    e.filterSet n p = (e.setTm fun x => { x with
      filters := x.filters.put k { e.tm.filters.getD k { w0 := 0, w1 := 0 } with w0 := r.getD 0 0, w1 := r.getD 1 0, blocked := false } }).replyOk
        n := by
  refine if_neg ?_
  simp only [Bool.or_eq_true, Bool.and_eq_true, decide_eq_true_eq, not_or, not_and, Classical.not_not, ge_iff_le, Nat.not_le]
  exact ⟨⟨⟨⟨⟨⟨h0, h1⟩, h1'⟩, h2⟩, h3⟩, action⟩, meter⟩

theorem Dev.meterSet_inRange (h2 : bitsOf ((wordsOf (p.drop 4) 4).getD 2 0) 26 24 = 0)
    (h3 : bitsOf ((wordsOf (p.drop 4) 4).getD 3 0) 31 24 = 0) :
    let r := wordsOf (p.drop 4) 4
    let full (x : Word) : Nat := bitsOf x 23 0 * (256 * 8000000)
    let m : Meter :=
      { cir := (r.getD 0 0).toNat, eir := (r.getD 1 0).toNat, w2 := r.getD 2 0, w3 := r.getD 3 0,
        tc := full (r.getD 2 0), te := full (r.getD 3 0), last := e.now }
    e.meterSet n p = (e.setTm fun x => { x with meters := x.meters.put (bitsOf (le32 p 0) 12 0) m }).replyOk n := by
  refine if_neg ?_
  simp only [Bool.or_eq_true, decide_eq_true_eq, not_or, Classical.not_not]
  exact ⟨h2, h3⟩

theorem Dev.cbSet_inRange (bit30 : (le32 p 4).getLsbD 30 = false) (low0 : bitsOf (le32 p 4) 23 0 = 0) (low1 : bitsOf (le32 p 8) 15 0 = 0)
    (some_ : 1 ≤ bitsOf (le32 p 4) 29 24) (few : bitsOf (le32 p 4) 29 24 ≤ 32) (reset : bitsOf (le32 p 8) 31 16 ≠ 0) :
    e.cbSet n p = (e.setCb (bitsOf (le32 p 0) 11 0) { w0 := le32 p 4, w1 := le32 p 8 }).replyOk n := by
  refine if_neg ?_
  simp only [Bool.or_eq_true, decide_eq_true_eq, not_or, Classical.not_not, Nat.not_lt, gt_iff_lt]
  exact ⟨⟨⟨⟨⟨ne_true_of_eq_false bit30, low0⟩, low1⟩, some_⟩, few⟩, reset⟩

theorem Dev.cbStats_found {x : CbStream} (found : e.tm.cb.look? (bitsOf (le32 p 0) 11 0) = some x) :
    let read := if (le32 p 0).getLsbD 31 then
        e.setCb (bitsOf (le32 p 0) 11 0) { x with tagless := 0, rogue := 0, discarded := 0, outOfOrder := 0, resets := 0 }
      else e
    e.cbStats n p = read.replyOk n [toWord x.tagless, toWord x.rogue, toWord x.discarded, toWord x.outOfOrder, toWord x.resets] := by
  have there : e.tm.cb.getD (bitsOf (le32 p 0) 11 0) { w0 := 0, w1 := 0 } = x := by rw [Tbl.getD, found, Option.getD_some]
  simp only [Dev.cbStats, there, found, Option.isSome_some, Bool.and_true]

/-- Settles O39: each command by its checks, then by what it changes and answers. -/
theorem trafficCommands : Obligations.TrafficCommands := by
  unfold Obligations.TrafficCommands
  refine fun s c n a p e there => ⟨fun h port ok => ⟨fun off => ?_, fun on_ => ?_⟩, fun h h0 h1 h1' h2 h3 action meter => ?_, fun h => ?_,
    fun h h2 h3 => ?_, fun h bit30 low0 low1 some_ few reset => ?_, fun x h found => ?_⟩
  · refine exec_taken (e := e) h rfl ?_
    refine (Dev.needBlock_there there _).trans (congrArg Dev.contourGates ?_)
    exact (Dev.gateSet_accepted port ok _).trans (if_neg (ne_true_of_eq_false off))
  · refine exec_taken (e := e) h rfl ?_
    refine (Dev.needBlock_there there _).trans (congrArg Dev.contourGates ?_)
    exact (Dev.gateSet_accepted port ok _).trans (if_pos on_)
  · refine exec_taken (e := e) h rfl ?_
    exact (Dev.needBlock_there there _).trans (Dev.filterSet_inRange h0 h1 h1' h2 h3 action meter)
  · refine exec_taken (e := e) h rfl ?_
    exact Dev.needBlock_there there _
  · refine exec_taken (e := e) h rfl ?_
    exact (Dev.needBlock_there there _).trans (Dev.meterSet_inRange h2 h3)
  · refine exec_taken (e := e) h rfl ?_
    exact (Dev.needBlock_there there _).trans (Dev.cbSet_inRange bit30 low0 low1 some_ few reset)
  · refine exec_taken (e := e) h rfl ?_
    exact (Dev.needBlock_there there _).trans (Dev.cbStats_found found)

end Sys2Proof.Machine
end

section
/-!
The traffic manager's events: admission, selection, launch and the line, gates and preemption (R22, R50, R52, R210 to R229, R364,
R367, R370, R373).
-/
namespace Sys2Proof.Machine

open Sys2Proof.Safety

variable {d : Dev}

/-! ## Admission and timeouts (R22, R52, R210, R221) -/

/-- One copy of an admitted frame goes to its port or to its function. -/
def Dev.admitCopy (rtag : Option Nat) (y : Dev) (c : Nat) : Dev :=
  match y.copy? c with
  | none => y
  | some x => if x.dest < 1000 then y.admitPort c x rtag else y.handDma c x

section Admit
variable {id : Nat} {f : Frame} {policed : Policed × Dev} (frame : d.frame? id = some f) (still : d.rising 6 = false)
  (there : d.available 6 = true) (fresh : d.staleFrame f = false)
  (hp : (if f.filtered then (.pass (lgGet f.lg lgColour), d) else d.police id f) = policed)
  (some_ : (d.copies.cells.filter fun c => c.2.frame == id && c.2.stage == .admitting).map (·.1) ≠ [])
include frame still there fresh hp some_

/-- A frame that the filter drops. -/
theorem Dev.tmFrameAdmit_drop {r : Word} (drop : policed.1 = .drop r) :
    let seen := policed.2.updFrame id fun x => { x with filtered := true }
    d.tmFrameAdmit id = ((seen.copies.cells.filter fun c => c.2.frame == id).map (·.1)).foldl (fun y c => y.dropCopy c 44 r) seen := by
  simp only [Dev.tmFrameAdmit, frame]
  rw [if_neg (by simpa [still] using some_), if_neg (by simp [there]), if_neg (ne_true_of_eq_false fresh)]
  simp only [hp, drop]

/-- A frame that the filter passes, with its colour. -/
theorem Dev.tmFrameAdmit_pass {colour : Nat} (pass : policed.1 = .pass colour) :
    let seen := policed.2.updFrame id fun x => { x with filtered := true }
    let marked := (seen.updCopies id fun c => { c with lg := lgSet c.lg lgColour colour }).updFrame id fun x =>
      { x with lg := lgSet x.lg lgColour colour }
    d.tmFrameAdmit id = ((d.copies.cells.filter fun c => c.2.frame == id && c.2.stage == .admitting).map (·.1)).foldl
      (Dev.admitCopy ((marked.frame? id).bind (·.rtag))) marked := by
  simp only [Dev.tmFrameAdmit, frame]
  rw [if_neg (by simpa [still] using some_), if_neg (by simp [there]), if_neg (ne_true_of_eq_false fresh)]
  simp only [hp, pass]
  rfl

end Admit

theorem Dev.cbResetTimeout_due {n t : Nat} {x : CbStream} (found : d.tm.cb.look? n = some x) (last : x.lastPass = some t)
    (due : t + x.resetMs * 1000000 ≤ d.ref) :
    d.cbResetTimeout n = d.setCb n { x with takeAny := true, resets := addCount x.resets, lastPass := none } := by
  simp only [Dev.cbResetTimeout, found, last]
  exact if_pos due

theorem Dev.reseqTimeout_due {p id t : Nat} (first : ((d.held_ p).find? fun h => h.2 ≤ d.ref) = some (id, t)) :
    d.reseqTimeout p = d.reseqRelease p id 1 := by
  simp only [Dev.reseqTimeout, first]

theorem Dev.residencyDiscard_old {id q : Nat} {c : Copy} (copy : d.copy? id = some c) (stage : c.stage = .queued q)
    (old : 2 ^ 55 ≤ d.now - d.ingress c.lg) :
    d.residencyDiscard id = ((d.unqueue q id).bump .TMG_RESIDENCY_DROP c.dest).dropCopy id 44 (Config.dropReason 21) := by
  simp only [Dev.residencyDiscard, copy, stage]
  exact if_pos old

/-! ## The scheduler (R212, R213) -/

/-- The planned start of a class. -/
def Dev.classStart (d : Dev) (p k : Nat) : Nat :=
  if d.planFree p k ≤ d.nowLine + d.lead p && d.nowLine + d.lead p < d.planFree p k + 2 * lineNs then d.planFree p k
  else max (d.planFree p k) (d.nowLine + d.lead p)

/-- A class that the scheduler takes: its line is free, it can send, and the head of its choice is there. -/
def Dev.classReady (d : Dev) (p k : Nat) : Prop :=
  d.planFree p k ≤ d.nowLine + d.lead p ∧ d.canSend p k = true ∧
    ∃ g q gDef qDef y, d.pick p k (d.classStart p k) = some (g, q, gDef, qDef) ∧ d.head q = some y

/-- A class that is not ready is passed over. -/
theorem Dev.selectFrom_unready {p fuel k : Nat} (unready : ¬ d.classReady p k) :
    d.selectFrom p d.nowLine (fuel + 1) (k + 1) = d.selectFrom p d.nowLine fuel k := by
  rw [Dev.selectFrom]
  simp only [Bool.or_eq_true, decide_eq_true_eq, Bool.not_eq_true']
  split
  · rfl
  · next open_ =>
    simp only [not_or, Nat.not_lt, gt_iff_lt, Bool.not_eq_false] at open_
    split
    · rfl
    · next g q gDef qDef pick =>
      split
      · rfl
      · next id c head => exact absurd ⟨open_.1, open_.2, g, q, gDef, qDef, (id, c), pick, head⟩ unready

/-- Classes that are not ready are passed over one after another. -/
theorem Dev.selectFrom_down {p fuel k : Nat} : ∀ m, (∀ j, k ≤ j → j < k + m → ¬ d.classReady p j) →
    d.selectFrom p d.nowLine (fuel + m) (k + m) = d.selectFrom p d.nowLine fuel k
  | 0, _ => rfl
  | m + 1, unready =>
    (Dev.selectFrom_unready (fuel := fuel + m) (unready (k + m) (by omega) (by omega))).trans
      (Dev.selectFrom_down m fun j low high => unready j low (by omega))

/-- The first ready class gives its head up, or goes on where the resequencer holds the head. -/
theorem Dev.selectFrom_ready {p fuel tc g q id : Nat} {gDef qDef : Tbl Nat} {c : Copy} (free : d.planFree p tc ≤ d.nowLine + d.lead p)
    (sends : d.canSend p tc = true) (pick : d.pick p tc (d.classStart p tc) = some (g, q, gDef, qDef)) (head : d.head q = some (id, c)) :
    d.selectFrom p d.nowLine (fuel + 1) (tc + 1) =
      if (d.reseqCheck p id c).1 then (d.reseqCheck p id c).2.release p tc (d.classStart p tc) g q id c gDef qDef
      else (d.reseqCheck p id c).2.selectFrom p d.nowLine fuel (tc + 1) := by
  rw [Dev.selectFrom]
  simp only [show ¬ (decide (d.planFree p tc > d.nowLine + d.lead p) || !d.canSend p tc) = true by simp [sends, free]]
  simp only [Dev.classStart] at pick ⊢
  simp only [pick, head, Bool.false_eq_true, if_false]
  rcases d.reseqCheck p id c with ⟨_ | _, x⟩ <;> rfl

section Select
variable {p : Nat} (port : p < 18) (there : d.available 6 = true) (on_ : d.on? Fld.TMG_CTRL_ENABLE = true) (room : d.txWaiting p < 32)
include port there on_ room

/-- The scheduler begins with the highest class. -/
theorem Dev.schedulerSelect_runs : d.schedulerSelect p = d.selectFrom p d.nowLine (8 + d.tm.queues.size + 1) 8 :=
  if_pos (by simp [port, there, on_, room])

/-- Nothing is ready, nothing happens. -/
theorem Dev.schedulerSelect_idle (unready : ∀ k, k < 8 → ¬ d.classReady p k) : d.schedulerSelect p = d := by
  rw [Dev.schedulerSelect_runs port there on_ room, show 8 + d.tm.queues.size + 1 = (d.tm.queues.size + 1) + 8 by omega]
  exact (Dev.selectFrom_down (k := 0) 8 fun j _ high => unready j (by omega)).trans rfl

/-- The highest ready class is taken. -/
theorem Dev.schedulerSelect_class {tc g q id : Nat} {gDef qDef : Tbl Nat} {c : Copy} (class_ : tc < 8)
    (above : ∀ k, tc < k → k < 8 → ¬ d.classReady p k) (free : d.planFree p tc ≤ d.nowLine + d.lead p) (sends : d.canSend p tc = true)
    (pick : d.pick p tc (d.classStart p tc) = some (g, q, gDef, qDef)) (head : d.head q = some (id, c)) :
    d.schedulerSelect p =
      if (d.reseqCheck p id c).1 then (d.reseqCheck p id c).2.release p tc (d.classStart p tc) g q id c gDef qDef
      else (d.reseqCheck p id c).2.selectFrom p d.nowLine (d.tm.queues.size + 1 + tc) (tc + 1) := by
  obtain ⟨m, hm⟩ : ∃ m, 8 = tc + 1 + m := ⟨7 - tc, by omega⟩
  rw [Dev.schedulerSelect_runs port there on_ room, show 8 + d.tm.queues.size + 1 = (d.tm.queues.size + 1 + tc + 1) + m by omega]
  calc d.selectFrom p d.nowLine ((d.tm.queues.size + 1 + tc + 1) + m) 8
      = d.selectFrom p d.nowLine ((d.tm.queues.size + 1 + tc + 1) + m) (tc + 1 + m) := by rw [← hm]
    _ = d.selectFrom p d.nowLine (d.tm.queues.size + 1 + tc + 1) (tc + 1) :=
        Dev.selectFrom_down m fun j low high => above j (by omega) (by omega)
    _ = _ := Dev.selectFrom_ready free sends pick head

end Select

/-! ## Launch and the line (R214, R226, R228, R364, R367, R373) -/

/-- A launch starts the first frame that can start, preempts for it, or lets a preempted frame go on. -/
theorem Dev.frameLaunch_up {p : Nat} (port : p < 18) (link : d.linkUp? p = true) :
    let cut := (d.preemptClosed p).fcRetry p
    let ready := (cut.launchSlots p).filter fun e => cut.canSend p (cut.qClass e.2.2.1)
    let counted := cut.countLate p ready
    let first := (cut.launchHeads ready).find? fun e =>
      cut.startFits p (cut.qClass e.2.2.1) e.2.2.2 e.2.1 && cut.lineTakes p (cut.qClass e.2.2.1)
    d.frameLaunch p = (first.map fun e =>
      if (cut.line p).busy.isSome then counted.preempt p else counted.startCopy p e.1 e.2.2.1 e.2.2.2 e.2.1).getD (counted.resumeAside p) := by
  have runs : (decide (p < 18) && d.linkUp? p) = true := by simp [port, link]
  simp only [Dev.frameLaunch, if_pos runs]
  generalize List.find? _ _ = first
  rcases first with _ | ⟨_, _, _, _⟩ <;> rfl

section TxEnd
variable {p : Nat} {b : OnLine} (busy : (d.line p).busy = some b) (due : b.ends ≤ d.refLine)
include busy due

/-- The line is free once the frame on it has ended. -/
theorem Dev.frameTxEnd_free :
    let free := ((d.setLine p { d.line p with busy := none }).stopsTakeEffect p).fcRetry p
    free.copy? b.copy = none → d.frameTxEnd p = free := by
  intro free gone
  simp only [Dev.frameTxEnd, busy]
  rw [if_pos due, gone]

/-- A frame sent whole is counted; one that has run empty is an underrun. -/
theorem Dev.frameTxEnd_copy {c : Copy} {q z : Nat} :
    let free := ((d.setLine p { d.line p with busy := none }).stopsTakeEffect p).fcRetry p
    free.copy? b.copy = some c → c.stage = .line q z →
      d.frameTxEnd p = if c.cutAt.isSome then free.endUnderrun p b.copy q else (free.bump .PRT_TX_FRAMES p).endCopy b.copy := by
  intro free copy stage
  simp only [Dev.frameTxEnd, busy]
  rw [if_pos due, copy]
  simp only [stage]
  rfl

end TxEnd

/-! ## Gates (R222 to R224) -/

theorem Dev.gateEntryChange_new {p : Nat} {l : GateList} (oper : (d.gate p).oper = some l)
    (runs : ((d.gate p).pending.any fun n => n.t ≤ d.nowNs) = false)
    (new : ¬ ((d.gate p).entry = ((d.gate p).place l d.nowNs).2 ∧ (d.gate p).cycle = ((d.gate p).place l d.nowNs).1.toNat)) :
    d.gateEntryChange p = (d.setGate p ((d.gate p).apply l ((d.gate p).place l d.nowNs).1.toNat ((d.gate p).place l d.nowNs).2)).preemptClosed p := by
  have now : d.gateNow p = some (l, ((d.gate p).place l d.nowNs).1.toNat, ((d.gate p).place l d.nowNs).2) := by
    simp only [Dev.gateNow, oper, Option.map_some]
  simp only [Dev.gateEntryChange, runs, now, Bool.false_eq_true, if_false]
  exact if_neg (by simpa using new)

theorem Dev.gateListStart_due {p : Nat} {l : GateList} (pending : (d.gate p).pending = some l) (due : l.t ≤ d.nowNs) :
    d.gateListStart p = d.gateStart p l (256 * l.t) := by
  simp only [Dev.gateListStart, pending]
  exact if_pos due

/-! ## Preemption (R228, R229) -/

section Hold
variable {p : Nat} (held : d.holds p = true)

include held in
/-- Preemptable traffic that is held gives the line up. -/
theorem Dev.preemptableHold_held : d.preemptableHold p = d.preemptClosed p := if_pos held

theorem Dev.preemptClosed_idle (idle : (d.line p).busy = none) : d.preemptClosed p = d := by
  simp only [Dev.preemptClosed, idle]

/-- The frame on the line with `n` bytes of its fragment sent gives the line up. -/
def Dev.lineCut (d : Dev) (p : Nat) (b : OnLine) (n : Nat) : Dev :=
  (((d.setLine p { d.line p with busy := none, aside := some (b.copy, b.before + n),
                                 idleAt := b.began + (24 + n) * d.byteTime p }).bump .TMG_PREEMPT_COUNT p).reshape b.copy fun x =>
    { x with gap := 16 * d.byteTime p }).stopsTakeEffect p

variable {b : OnLine} {c : Copy} {q z : Nat} (busy : (d.line p).busy = some b) (copy : d.copy? b.copy = some c) (stage : c.stage = .line q z)
include busy

theorem Dev.preemptAt_busy (n : Nat) : d.preemptAt p n = d.lineCut p b n := by
  simp only [Dev.preemptAt, busy, Dev.lineCut]

theorem Dev.preempt_busy : d.preempt p = d.lineCut p b (d.sentNow p b) := by
  simp only [Dev.preempt, busy, Dev.preemptAt_busy busy]

include copy stage

theorem Dev.preemptClosed_express (express : d.preemptable p (d.qClass q) = false) : d.preemptClosed p = d := by
  simp only [Dev.preemptClosed, busy, copy, stage, express, Bool.not_false, if_true]

variable (slow : d.preemptable p (d.qClass q) = true)
include slow

/-- While the gate is open, traffic that is held is cut as soon as the standard allows. -/
theorem Dev.preemptClosed_open (held : d.holds p = true) (opens : ((d.gate p).at d.nowNs).opens false (2 ^ d.qClass q) = true) :
    d.preemptClosed p = if d.canPreempt p then d.lineCut p b (d.sentNow p b) else d := by
  simp only [Dev.preemptClosed, busy, copy, stage, slow, opens, held, Dev.preempt_busy busy, Bool.not_true, Bool.false_eq_true, if_false, if_true]

variable (shut : ((d.gate p).at d.nowNs).opens false (2 ^ d.qClass q) = false)
include shut

/-- A gate that has no end of its window cuts as soon as the standard allows. -/
theorem Dev.preemptClosed_shut (none_ : (d.gate p).closeAt (2 ^ d.qClass q) ((d.nowLine + b.began - d.refLine) / lineNs) = none) :
    d.preemptClosed p = if d.canPreempt p then d.lineCut p b (d.sentNow p b) else d := by
  simp only [Dev.preemptClosed, busy, copy, stage, slow, shut, none_, Dev.preempt_busy busy, Bool.not_true, Bool.false_eq_true, if_false]

variable {e : Nat} (close : (d.gate p).closeAt (2 ^ d.qClass q) ((d.nowLine + b.began - d.refLine) / lineNs) = some e)
include close

/-- A frame that ended by the close stays. -/
theorem Dev.preemptClosed_ended (ends : b.ends + d.nowLine ≤ d.refLine + e * lineNs) : d.preemptClosed p = d := by
  simp only [Dev.preemptClosed, busy, copy, stage, slow, shut, close, Bool.not_true, Bool.false_eq_true, if_false, if_pos ends]

/-- A frame that went on past the close is cut at the last point before it, or else as soon as the standard allows. -/
theorem Dev.preemptClosed_late (late : d.refLine + e * lineNs < b.ends + d.nowLine) :
    d.preemptClosed p = ((d.cutBy p (e * lineNs) b c).map fun n => d.lineCut p b n).getD
      (if d.canPreempt p then d.lineCut p b (d.sentNow p b) else d) := by
  simp only [Dev.preemptClosed, busy, copy, stage, slow, shut, close, Dev.preempt_busy busy, Dev.preemptAt_busy busy, Bool.not_true,
    Bool.false_eq_true, if_false, if_neg (Nat.not_le.2 late)]
  cases d.cutBy p (e * lineNs) b c <;> rfl

end Hold

/-- Settles O40: admission, selection and launch by their lemmas, the gates by what comes into force, preemption by the frame on
the line. -/
theorem trafficEvents : Obligations.TrafficEvents := by
  unfold Obligations.TrafficEvents
  refine fun s out => ⟨fun id f frame still there fresh some_ => ⟨fun r drop => ?_, fun colour pass => ?_⟩, fun n x t found last due => ?_,
    fun p port there on_ room => ⟨fun unready => ?_, fun tc g q gDef qDef id c class_ above free sends pick head =>
      ⟨fun x held => ?_, fun x goes => ⟨fun plain => ?_, fun applies takes => ?_, fun applies refuses => ?_⟩⟩⟩,
    fun p id t first => ?_, fun p port link => ?_, fun id c q copy stage old => ?_, fun p l oper runs new => ?_,
    fun p l pending due => ?_, fun p b busy due => ⟨fun gone => ?_, fun c q z copy stage => ⟨fun whole => ?_, fun cut => ?_⟩⟩,
    fun p held => ⟨fun idle => ?_, fun b c q z busy copy stage => ⟨fun express => ?_, fun slow => ⟨fun opens => ?_, fun shut none_ => ?_,
      fun e shut close => ⟨fun ends => ?_, fun late => ⟨fun none_ => ?_, fun n some_ => ?_⟩⟩⟩⟩⟩⟩
  · exact exec_leaves (fun d => d.tmFrameAdmit id) out rfl (Dev.tmFrameAdmit_drop frame still there fresh rfl some_ drop)
  · exact exec_leaves (fun d => d.tmFrameAdmit id) out rfl (Dev.tmFrameAdmit_pass frame still there fresh rfl some_ pass)
  · exact exec_leaves (fun d => d.cbResetTimeout n) out rfl (Dev.cbResetTimeout_due found last due)
  · exact exec_leaves (fun d => d.schedulerSelect p) out rfl (Dev.schedulerSelect_idle port there on_ room unready)
  · refine exec_leaves (fun d => d.schedulerSelect p) out rfl
      ((Dev.schedulerSelect_class port there on_ room class_ above free sends pick head).trans ?_)
    rw [held]
    rfl
  · refine exec_leaves (fun d => d.schedulerSelect p) out rfl
      ((Dev.schedulerSelect_class port there on_ room class_ above free sends pick head).trans ?_)
    rw [goes]
    exact if_neg (ne_true_of_eq_false plain)
  · refine exec_leaves (fun d => d.schedulerSelect p) out rfl
      ((Dev.schedulerSelect_class port there on_ room class_ above free sends pick head).trans ?_)
    rw [goes]
    exact (if_pos applies).trans (if_pos takes)
  · refine exec_leaves (fun d => d.schedulerSelect p) out rfl
      ((Dev.schedulerSelect_class port there on_ room class_ above free sends pick head).trans ?_)
    rw [goes]
    exact (if_pos applies).trans (if_neg (ne_true_of_eq_false refuses))
  · exact exec_leaves (fun d => d.reseqTimeout p) out rfl (Dev.reseqTimeout_due first)
  · refine exec_leaves (fun d => d.frameLaunch p) out rfl ((Dev.frameLaunch_up port link).trans ?_)
    generalize List.find? _ _ = first
    rcases first with _ | ⟨_, _, _, _⟩ <;> rfl
  · exact exec_leaves (fun d => d.residencyDiscard id) out rfl (Dev.residencyDiscard_old copy stage old)
  · exact exec_leaves (fun d => d.gateEntryChange p) out rfl (Dev.gateEntryChange_new oper runs new)
  · exact exec_leaves (fun d => d.gateListStart p) out rfl (Dev.gateListStart_due pending due)
  · exact exec_leaves (fun d => d.frameTxEnd p) out rfl (Dev.frameTxEnd_free busy due gone)
  · refine exec_leaves (fun d => d.frameTxEnd p) out rfl ((Dev.frameTxEnd_copy busy due copy stage).trans ?_)
    rw [whole]
    rfl
  · refine exec_leaves (fun d => d.frameTxEnd p) out rfl ((Dev.frameTxEnd_copy busy due copy stage).trans ?_)
    exact if_pos (Option.isSome_iff_ne_none.2 cut)
  · exact exec_leaves (fun d => d.preemptableHold p) out rfl ((Dev.preemptableHold_held held).trans (Dev.preemptClosed_idle idle))
  · exact exec_leaves (fun d => d.preemptableHold p) out rfl ((Dev.preemptableHold_held held).trans
      (Dev.preemptClosed_express busy copy stage express))
  · exact exec_leaves (fun d => d.preemptableHold p) out rfl ((Dev.preemptableHold_held held).trans
      (Dev.preemptClosed_open busy copy stage slow held opens))
  · exact exec_leaves (fun d => d.preemptableHold p) out rfl ((Dev.preemptableHold_held held).trans
      (Dev.preemptClosed_shut busy copy stage slow shut none_))
  · exact exec_leaves (fun d => d.preemptableHold p) out rfl ((Dev.preemptableHold_held held).trans
      (Dev.preemptClosed_ended busy copy stage slow shut close ends))
  · refine exec_leaves (fun d => d.preemptableHold p) out rfl ((Dev.preemptableHold_held held).trans
      ((Dev.preemptClosed_late busy copy stage slow shut close late).trans ?_))
    rw [none_]
    rfl
  · refine exec_leaves (fun d => d.preemptableHold p) out rfl ((Dev.preemptableHold_held held).trans
      ((Dev.preemptClosed_late busy copy stage slow shut close late).trans ?_))
    rw [some_]
    rfl

end Sys2Proof.Machine
end

section
/-!
Buffer requests and frees, DMA windows, held interrupts, descriptor fetches (R240, R241, R243, R247, R257, R258, R288, R298,
R300, R305).
-/
namespace Sys2Proof.Machine

open Sys2Proof.Safety

variable {d : Dev}

/-! ## Buffers (R240, R241, R243) -/

section Request
variable {sto : Nat → Option (List Nat) → Dev → Dev} {id pool : Nat} {r : BufReq}

/-- A request that has just arrived is decided from its own pool. -/
theorem Dev.bufferRequest_new (found : d.bpm.reqs.look? id = some r) (new : r.arrived = false) (steady : d.rising 13 = false)
    (there : d.available 13 = true) (on : d.on? Fld.BPM_CTRL_ENABLE = true) :
    let made := d.decideFrom id r 4 r.pool false
    d.bufferRequest id sto = made.2.bufFinish id r made.1 sto := by
  simp only [Dev.bufferRequest, found]
  rw [if_neg (by simp [new, steady]), if_neg (by simp [there, on])]

/-- The first request that waits for a pool is decided once no earlier stamp can come, or no counter gives the order. -/
theorem Dev.bufferStampDecide_due {rest : List (Nat × BufReq)} (first : d.waitingOf pool = (id, r) :: rest) (there : d.available 13 = true)
    (on : d.on? Fld.BPM_CTRL_ENABLE = true) (due : r.stamp + 64 * 256 < d.now ∨ d.on? Fld.MER_CTRL_ENABLE = false) :
    let made := d.decideFrom id r 4 pool true
    d.bufferStampDecide pool sto = made.2.bufFinish id r made.1 sto := by
  simp only [Dev.bufferStampDecide, first, gt_iff_lt]
  rw [if_neg (by simp [there, on]), if_pos (by simpa using due)]

end Request

section Free
variable {party h : Nat} {g : Grant}

theorem Dev.ownsBuffer_found (found : d.bpm.grants.look? h = some g) : d.ownsBuffer party h = g.owners.contains party := by
  simp only [Dev.ownsBuffer, found]
  rfl

theorem chainFrom_found {t : Tbl Grant} {fuel : Nat} (found : t.look? h = some g) :
    chainFrom t (fuel + 1) h = h :: (g.next.map fun n => chainFrom t fuel n).getD [] := by
  simp only [chainFrom, found]

/-- The buffers of a chain that an owner frees begin with the one that it names. -/
theorem Dev.ownedChain_head (found : d.bpm.grants.look? h = some g) (owns : g.owners.contains party = true) :
    ∃ rest, (chainFrom d.bpm.grants 256 h).filter (d.ownsBuffer party) = h :: rest := by
  have chain : chainFrom d.bpm.grants 256 h = _ := chainFrom_found (fuel := 255) found
  rw [chain]
  exact ⟨_, List.filter_cons_of_pos ((Dev.ownsBuffer_found found).trans owns)⟩

/-- What one step of a free leaves of the grants. -/
theorem freeOne_eq : freeOne party = fun (t : Tbl Grant) b => ((t.look? b).map fun x =>
    if x.owners.contains party = false then t
    else if x.owners.length ≤ 1 then t.erase b else t.put b { x with owners := x.owners.erase party }).getD t := by
  funext t b
  unfold freeOne
  cases t.look? b with
  | none => rfl
  | some x => cases x.owners.contains party <;> simp

/-- An owner's free takes it from every buffer of the chain that it owns (R241). -/
theorem Dev.bufferFree_owner (found : d.bpm.grants.look? h = some g) (owns : g.owners.contains party = true) :
    d.bufferFree party h = { d with bpm := { d.bpm with
      grants := ((chainFrom d.bpm.grants 256 h).filter (d.ownsBuffer party)).foldl (freeOne party) d.bpm.grants } } := by
  obtain ⟨rest, head⟩ := Dev.ownedChain_head found owns
  simp only [Dev.bufferFree, found]
  rw [if_pos owns, head]
  exact if_pos ((Dev.ownsBuffer_found found).trans owns)

theorem Dev.bufferFree_stranger (found : d.bpm.grants.look? h = some g) (owns : g.owners.contains party = false) :
    d.bufferFree party h = d.freeDenied h party := by
  simp only [Dev.bufferFree, found]
  exact if_neg (ne_true_of_eq_false owns)

theorem Dev.bufferFree_unknown (none_' : d.bpm.grants.look? h = none) : d.bufferFree party h = d.freeDenied h party := by
  simp only [Dev.bufferFree, none_']

end Free

/-! ## Held interrupts and DMA windows (R305, R257) -/

theorem Dev.irqHoldoffEnd_due {q f : Nat} {rx : Bool} (owner : d.qpOwner q = some f) (on : d.on? Fld.HIF_QP_CTX_IRQ_EN q = true)
    (fresh : d.fnState f ≠ 1) (whole : d.fnState f ≠ 3)
    (waits : (if d.irqSide q rx then (d.qp q).rxWait else (d.qp q).txWait) = true)
    (due : (if d.irqSide q rx then (d.qp q).rxHold else (d.qp q).txHold) ≤ d.ref) : d.irqHoldoffEnd q rx = d.sendIrq q f rx := by
  simp only [Dev.irqHoldoffEnd, owner]
  rw [if_pos (by simp [waits, due, fresh, whole]), if_pos on]

theorem Dev.dmaWindowSet_fits {n f : Nat} {p : Bytes}
    (fits : (le32 p 0).getLsbD 31 = true → le p 4 8 % 4096 = 0 ∧ bitsOf (le32 p 12) 19 0 ≠ 0) :
    let k := 8 * f + bitsOf (le32 p 0) 2 0
    let base := le p 4 8
    let pages := bitsOf (le32 p 12) 19 0
    let v := (le32 p 0).getLsbD 31
    d.dmaWindowSet n f p = (((d.wr .DMA_PF_WIN k 0 (if v then toWord base else 0)).wr .DMA_PF_WIN k 1 (if v then toWord (base / 2 ^ 32) else 0)).wr
      .DMA_PF_WIN k 2 (if v then toWord (2 ^ 31 + pages) else 0)).replyOk n := by
  refine if_neg fun bad => ?_
  simp only [Bool.and_eq_true, Bool.or_eq_true, decide_eq_true_eq] at bad
  obtain ⟨valid, unaligned | empty⟩ := bad
  · exact unaligned (fits valid).1
  · exact (fits valid).2 empty

/-! ## Descriptor fetches (R247, R298, R300) -/

section Fetch
variable {q f : Nat} {rx : Bool} {e desc : Option Bytes} {entry bs : Bytes}

/-- The count of the next entry that a side of a queue pair reads. -/
def Dev.fetchIdx (d : Dev) (q : Nat) (rx : Bool) : Nat := if rx then (d.qp q).rxFetched else (d.qp q).txFetched

/-- Where a side's ring begins. -/
def Dev.fetchRing (d : Dev) (q : Nat) (rx : Bool) : Nat := if rx then d.qpAddr q 8 else d.qpAddr q 4

/-- How many entries it has. -/
def Dev.fetchSize (d : Dev) (q : Nat) (rx : Bool) : Nat := if rx then d.rxSize q else d.txSize q

/-- The bytes of the next entry. -/
def Dev.fetchPlace (d : Dev) (q : Nat) (rx : Bool) : Nat × Nat :=
  (d.fetchRing q rx + 16 * (d.fetchIdx q rx % d.fetchSize q rx), 16)

/-- The device once the entry has been read, and what lies beyond it prefetched. -/
def Dev.fetchRead (d : Dev) (q f : Nat) (rx : Bool) : Dev :=
  ((d.setQp q (if rx then { d.qp q with rxFetched := inc32 (d.fetchIdx q rx) } else { d.qp q with txFetched := inc32 (d.fetchIdx q rx) })).putReads
    f [d.fetchPlace q rx]).prefetch q f (d.fetchRing q rx) (d.fetchSize q rx) 16 (inc32 (d.fetchIdx q rx))
    (if rx then (d.qp q).rxTail else (d.qp q).txTail)

/-- A descriptor of which the entry alone is known. -/
def Dev.fetchBlank (d : Dev) (q f : Nat) (rx : Bool) (tag : Nat) : Desc :=
  { qp := q, idx := d.fetchIdx q rx, rx := rx, fn := f, gen := d.gen f, tag := tag,
    path := { d.qpPath q rx with desc := some (d.fetchIdx q rx) }, late := false, stampReq := false, total := 0, txTime := 0, elems := [],
    fetched := d.now }

/-- A descriptor that has been read. -/
def Dev.fetchFull (d : Dev) (q f : Nat) (rx : Bool) (tag : Nat) (r : DescRead) : Desc :=
  { d.fetchBlank q f rx tag with
    path := { (d.fetchBlank q f rx tag).path with barrier := r.barrier }, late := r.late, stampReq := r.stamp, total := r.total,
    txTime := r.txTime, elems := r.elems }

/-- An entry that keeps the rules (R298). -/
def entryGood (entry : Bytes) : Prop := bitsOf (le32 entry 8) 31 16 = 0 ∧ le32 entry 12 = 0 ∧ le entry 0 8 % 16 = 0

theorem entryGood_iff :
    (bitsOf (le32 entry 8) 31 16 == 0 && le32 entry 12 == 0 && le entry 0 8 % 16 == 0) = true ↔ entryGood entry := by
  simp [entryGood, and_assoc]

theorem Dev.mayFetch_holds (issues : d.dmaIssues = true) (fetches : d.fetches f = true) (on : d.on? Fld.HIF_QP_CTX_ENABLE q = true)
    (plain : d.on? Fld.HIF_QP_CTX_MODE q = false)
    (more : d.fetchIdx q rx ≠ if rx then (d.qp q).rxTail else (d.qp q).txTail)
    (room : sub32 (if rx then (d.qp q).rxcTail else (d.qp q).txcTail) (if rx then (d.qp q).rxcHead else (d.qp q).txcHead) + d.descCount q rx <
      d.fetchSize q rx)
    (free : d.dma.descs.look? (descKey q rx (d.fetchIdx q rx)) = none) : d.mayFetch q rx f = true := by
  unfold Dev.fetchIdx at more free
  unfold Dev.fetchSize at room
  cases rx <;> simp_all [Dev.mayFetch]

/-- Only a translation that is there leaves the device as it is. -/
theorem Dev.reachPages_ready {l : List (Nat × Nat)} (ready : (d.reachPages f l).1 = .ready) : d.reachPages f l = (.ready, d) := by
  unfold Dev.reachPages at ready ⊢
  split
  · rfl
  · rename_i missing
    rw [missing] at ready
    dsimp only at ready
    split at ready <;> cases ready

/-- A translation that is to come, at a place that is written in two ways. -/
theorem Dev.reachPages_waits {l l' : List (Nat × Nat)} (same : l' = l) (waits : (d.reachPages f l).1 = .waits) :
    d.reachPages f l' = (.waits, (d.reachPages f l).2) := by
  subst same
  exact Prod.ext waits rfl

variable (owner : d.qpOwner q = some f) (may : d.mayFetch q rx f = true)
include owner may

theorem Dev.descriptorFetch_waits {x : Dev} (waits : d.reachPages f [d.fetchPlace q rx] = (.waits, x)) :
    d.descriptorFetch q rx e desc = x := by
  unfold Dev.descriptorFetch
  simp -zeta only [owner]
  extract_lets s fetched size ring place
  rw [if_neg (by simp [may])]
  have reached : d.reachPages f [place] = (.waits, x) := waits
  simp -zeta only [reached, reduceCtorEq, decide_false, Bool.false_and, Bool.false_eq_true, if_false, if_true]

variable (ready : d.reachPages f [d.fetchPlace q rx] = (.ready, d))
include ready

/-- An entry that cannot be read ends with a free TAG, one that breaks the rules with its own. -/
theorem Dev.descriptorFetch_refused (bad : ∀ entry, e = some entry → ¬ entryGood entry) :
    let lost := ((d.fetchRead q f rx).hostError f).drawWord
    let y := d.fetchBlank q f rx (bitsOf lost.1 15 0)
    let blank := d.fetchBlank q f rx ((e.map fun e => bitsOf (le32 e 8) 15 0).getD 0)
    d.descriptorFetch q rx e desc =
      if e.isNone then (lost.2.putDesc y).descFail y .hostErr else ((d.fetchRead q f rx).putDesc blank).descFail blank .badParam := by
  intro lost y blank
  unfold Dev.descriptorFetch
  simp -zeta only [owner]
  extract_lets s fetched size ring place a good r p x d1 d2
  rw [if_neg (by simp [may])]
  have reached : d.reachPages f [place] = (.ready, d) := ready
  have wrong : good = false := by
    cases e with
    | none => rfl
    | some entry => exact eq_false_of_ne_true fun right => bad entry rfl (entryGood_iff.1 right)
  have moved : d2 = d.fetchRead q f rx := by
    simp only [d2, d1, reached, wrong, if_true, Bool.and_false, Bool.false_eq_true, if_false]
    rfl
  simp -zeta only [reached, wrong, moved, Bool.and_false, Bool.false_eq_true, Bool.not_false, if_true, if_false, reduceCtorEq, decide_false,
    Bool.false_or]
  rfl

/-- A descriptor of a good entry cannot be read, is refused, or waits for frames or for its read time, or asks for buffers. -/
theorem Dev.descriptorFetch_good (good : entryGood entry) :
    let a := le entry 0 8
    let r := (desc.map fun bs => readDesc bs a).getD
      { ok := false, late := false, stamp := false, barrier := false, total := 0, txTime := 0, elems := [], reads := [(a, 16)] }
    let got := (d.fetchRead q f rx).putReads f r.reads
    let blank := d.fetchBlank q f rx (bitsOf (le32 entry 8) 15 0)
    let y := d.fetchFull q f rx (bitsOf (le32 entry 8) 15 0) r
    let ctx := if rx then none else d.ctxOf q
    d.reachPages f r.reads = (.ready, d) → d.descriptorFetch q rx (some entry) desc =
      if desc.isNone then ((got.hostError f).putDesc blank).descFail blank .hostErr
      else if !r.ok || (rx && (r.late || r.stamp)) || (!rx && (r.total > 9728 || r.late ≠ ctx.isSome)) then
        (got.putDesc y).descFail y .badParam
      else if rx || r.late then got.putDesc y
      else (got.putDesc { y with got := List.replicate r.total 0 }).askBuffers (chanParty (d.qpChan q rx)) r.total
        (.descriptor q (d.fetchIdx q rx)) := by
  intro a r got blank y ctx there
  unfold Dev.descriptorFetch
  simp -zeta only [owner]
  extract_lets s fetched size ring place right p x d1 d2 d3 p' x2
  rw [if_neg (by simp [may])]
  have reached : d.reachPages f [place] = (.ready, d) := ready
  have read : d.reachPages f r.reads = (.ready, d) := there
  have whole : right = true := entryGood_iff.2 good
  have moved : d3 = got := by
    simp only [d3, d2, d1, reached, read, whole, if_true, Bool.and_true, decide_true]
    rfl
  simp -zeta only [reached, read, whole, moved, Bool.and_true, Bool.false_eq_true, Bool.not_true, if_true, if_false, reduceCtorEq, decide_false,
    decide_true, Bool.false_or, Option.isNone_some]
  rfl

/-- A descriptor that has been read is refused, or waits for frames or for its read time, or asks for buffers. -/
theorem Dev.descriptorFetch_read (good : entryGood entry) (there : d.reachPages f (readDesc bs (le entry 0 8)).reads = (.ready, d)) :
    let r := readDesc bs (le entry 0 8)
    let got := (d.fetchRead q f rx).putReads f r.reads
    let y := d.fetchFull q f rx (bitsOf (le32 entry 8) 15 0) r
    let ctx := if rx then none else d.ctxOf q
    d.descriptorFetch q rx (some entry) (some bs) =
      if !r.ok || (rx && (r.late || r.stamp)) || (!rx && (r.total > 9728 || r.late ≠ ctx.isSome)) then
        (got.putDesc y).descFail y .badParam
      else if rx || r.late then got.putDesc y
      else (got.putDesc { y with got := List.replicate r.total 0 }).askBuffers (chanParty (d.qpChan q rx)) r.total
        (.descriptor q (d.fetchIdx q rx)) := by
  have whole := Dev.descriptorFetch_good (desc := some bs) owner may ready good there
  simp only [Option.isNone_some, Bool.false_eq_true, if_false] at whole
  exact whole

end Fetch

/-- What is done with a descriptor that has been read depends on the state and on the descriptor alone. -/
theorem descLeaves_congr {x x' : Dev} {y y' : Desc} (f : Dev → Desc → Dev) (reads : x = x') (desc : y = y') : f x y = f x' y' := by
  rw [reads, desc]

/-- Settles O41: requests, frees, windows, held interrupts and fetches, each by its operation. -/
theorem buffersAndDescriptors : Obligations.BuffersAndDescriptors := by
  unfold Obligations.BuffersAndDescriptors
  refine ⟨fun s => ⟨fun out => ⟨fun id r found new steady there on => ?_, fun pool id r rest first there on due => ?_,
    fun party h => ⟨fun g found => ?_, fun unknown => ?_⟩, fun q rx f owner on fresh whole waits due => ?_⟩,
    fun c n a p e taken there fits => ?_⟩, fun s q f rx entry out owner issues fetches on plain more room free =>
      ⟨fun e desc waits => ?_, fun ready => ⟨fun desc => ?_, fun desc bad => ?_, fun good there => ?_, fun bs good there =>
        ⟨fun bad => ?_, fun ok side soon quiet => ?_, fun ok side short soon ctx => ?_, fun ok side short late ctx => ?_⟩⟩⟩⟩
  · exact exec_leaves (fun d => d.bufferRequest id fun n ch e => e.stoBuffers n ch) out rfl (Dev.bufferRequest_new found new steady there on)
  · exact exec_leaves (fun d => d.bufferStampDecide pool fun n ch e => e.stoBuffers n ch) out rfl
      (Dev.bufferStampDecide_due first there on due)
  · refine exec_leaves (fun d => d.bufferFree party h) out rfl ?_
    cases owns : g.owners.contains party with
    | true =>
      refine (Dev.bufferFree_owner found owns).trans (.symm ((if_pos rfl).trans ?_))
      refine congrArg (fun step => ({ s.toDev with bpm := { s.toDev.bpm with grants := List.foldl step _ _ } } : Dev)) ?_
      rw [freeOne_eq]
      funext t b
      cases t.look? b <;> rfl
    | false => exact Dev.bufferFree_stranger found owns
  · exact exec_leaves (fun d => d.bufferFree party h) out rfl (Dev.bufferFree_unknown unknown)
  · exact exec_leaves (fun d => d.irqHoldoffEnd q rx) out rfl (Dev.irqHoldoffEnd_due owner on fresh whole waits due)
  · refine exec_taken (e := e) taken rfl ?_
    exact (Dev.needBlock_there there _).trans (Dev.dmaWindowSet_fits fits)
  · refine exec_leaves (fun d => d.descriptorFetch q rx e desc) out rfl ?_
    exact Dev.descriptorFetch_waits owner (Dev.mayFetch_holds issues fetches on plain more room free) (Dev.reachPages_waits rfl waits)
  · refine exec_leaves (fun d => d.descriptorFetch q rx none desc) out rfl ?_
    exact Dev.descriptorFetch_refused owner (Dev.mayFetch_holds issues fetches on plain more room free) (Dev.reachPages_ready ready) nofun
  · refine exec_leaves (fun d => d.descriptorFetch q rx (some entry) desc) out rfl ?_
    refine Dev.descriptorFetch_refused owner (Dev.mayFetch_holds issues fetches on plain more room free) (Dev.reachPages_ready ready) ?_
    rintro _ ⟨⟩
    exact bad
  · refine exec_leaves (fun d => d.descriptorFetch q rx (some entry) none) out rfl ?_
    exact Dev.descriptorFetch_good owner (Dev.mayFetch_holds issues fetches on plain more room free) (Dev.reachPages_ready ready) good
      (Dev.reachPages_ready there)
  all_goals
    refine exec_leaves (fun d => d.descriptorFetch q rx (some entry) (some bs)) out rfl ?_
    refine (Dev.descriptorFetch_read owner (Dev.mayFetch_holds issues fetches on plain more room free)
      (Dev.reachPages_ready ready) good (Dev.reachPages_ready there)).trans ?_
  · refine (if_pos (by simp [bad])).trans ?_
    exact descLeaves_congr (fun (x : Dev) (y : Desc) =>
      ((x.putReads f (readDesc bs (le entry 0 8)).reads).putDesc y).descFail y .badParam) rfl rfl
  · subst side
    refine ((if_neg (by simp [ok, soon, quiet])).trans (if_pos rfl)).trans ?_
    exact descLeaves_congr (fun (x : Dev) (y : Desc) => (x.putReads f (readDesc bs (le entry 0 8)).reads).putDesc y) rfl rfl
  · subst side
    refine ((if_neg (by simp [ok, soon, ctx, short])).trans (if_neg (by simp [soon]))).trans ?_
    exact descLeaves_congr (fun (x : Dev) (y : Desc) => ((x.putReads f (readDesc bs (le entry 0 8)).reads).putDesc y).askBuffers
      (chanParty (s.toDev.qpChan q false)) (readDesc bs (le entry 0 8)).total (.descriptor q (s.toDev.qp q).txFetched)) rfl rfl
  · subst side
    refine ((if_neg (by simp [ok, late, ctx, short])).trans (if_pos (by simp [late]))).trans ?_
    exact descLeaves_congr (fun (x : Dev) (y : Desc) => (x.putReads f (readDesc bs (le entry 0 8)).reads).putDesc y) rfl rfl

end Sys2Proof.Machine
end

section
/-!
Host transfers: where the statement fails. HOST_READ_ERROR of a burst ends no command of the storage engine, as the bursts that
carry a command's data are writes (R275), while `failBurst` with the storage engine's ends does. The statement equates the two
for every read that has been issued, one that says it places a command's data among them.
-/
namespace Sys2Proof.Machine

open Sys2Proof.Safety

/-- An issued read that says that it places data of command 0 on connection 0. -/
def placingRead : Burst :=
  { path := { chan := 0 }, fn := 0, gen := 0, write := false, addr := 0, data := [], len := 0, for_ := .placed 0 0 none, issued := true }

/-- A connection that ends once everything is sent, with nothing left to send. -/
def endingConn : Conn :=
  { fn := 0, gen := 0, record := [], sndNxt := 0, sndUna := 0, rcvNxt := 0, sndWnd := 0, cwnd := 0, ssthresh := 0, rto := 0, txSlot := 0,
    rxSlot := 0, terminated := true }

/-- The device after reset with that read outstanding and that connection. -/
def placingReadOut : Dev :=
  { State.reset.toDev with
    dma := { State.reset.dma with bursts := ⟨[(0, placingRead)]⟩ }
    sto := { State.reset.sto with conns := ⟨[(0, endingConn)]⟩ } }

/-- The state of connection 0. -/
def Dev.connState (d : Dev) : Option ConnState := (d.conn? 0).map (·.state)

/-- The state of connection 0 where an outcome goes on. -/
def outcomeConn (o : Host.Outcome State Fault Refusal) : Option ConnState :=
  match o with
  | .next s => s.toDev.connState
  | _ => none

/-- The failed read leaves the connection as it is. -/
theorem placingReadOut_readError : (placingReadOut.hostReadError (.burst 0)).connState = some .active := by decide +kernel

/-- With the storage engine's ends the connection is lost. -/
theorem placingReadOut_failBurst :
    (placingReadOut.failBurst 0 (fun c pdu g => g.stoReadFail c pdu) (fun c cid g => g.stoPlaceFail c cid) fun r g => g.tlsZeroed r).connState =
      some .returned := by decide +kernel

theorem placingReadOut_outOfReset : placingReadOut.inReset = false := by decide +kernel

/-- Refutes O42: an issued read that places a command's data and fails ends alone, and not the command with it. -/
theorem not_hostTransfers : ¬ Obligations.HostTransfers := by
  unfold Obligations.HostTransfers
  intro h
  obtain ⟨-, -, -, ⟨-, readError, -⟩, -⟩ := h { toDev := placingReadOut } placingReadOut_outOfReset
  have claimed := readError 0 placingRead rfl
  rw [if_pos ⟨rfl, rfl⟩] at claimed
  have does := exec_leaves (s := { toDev := placingReadOut }) (i := .hostReadError (.burst 0)) (fun d => d.hostReadError (.burst 0))
    placingReadOut_outOfReset rfl rfl
  have same := congrArg outcomeConn (does.symm.trans claimed)
  exact absurd (placingReadOut_readError.symm.trans (same.trans placingReadOut_failBurst)) (by decide)

end Sys2Proof.Machine
end

section
/-!
Late-gather windows: read time, deadline and log (R252, R254, R255).
-/
namespace Sys2Proof.Machine

open Sys2Proof.Safety

variable {d e x : Dev}

/-! ## The registers that a denied free and its record change -/

/-- The counts and pointers that a record, its way to host memory and a denied free write. -/
def logKeys : List Nat :=
  [regKey .HIF_HOST_ERR 0 0, regKey .DBG_LOG_WPTR 0 0, regKey .DBG_LOG_CTRL 0 0, regKey .DBG_LOG_DROP 0 0, regKey .BPM_FREE_DENIED 0 0]

/-- `e` has of `d` every register word outside them. -/
structure Dev.KeepsRegs (d e : Dev) : Prop where
  rd : ∀ r i w, regKey r i w ∉ logKeys → e.rd r i w = d.rd r i w

theorem Dev.KeepsRegs.trans (h : d.KeepsRegs e) (h' : e.KeepsRegs x) : d.KeepsRegs x :=
  ⟨fun r i w away => (h'.rd r i w away).trans (h.rd r i w away)⟩

theorem Dev.KeepsRegs.of_regs (same : e.regs = d.regs) : d.KeepsRegs e := ⟨fun r i w _ => by rw [Dev.rd, Dev.rd, same]⟩

theorem Dev.KeepsRegs.refl (d : Dev) : d.KeepsRegs d := .of_regs rfl

theorem Dev.keepsRegs_wr {r : Reg} {i w : Nat} (v : Word) (listed : regKey r i w ∈ logKeys) : d.KeepsRegs (d.wr r i w v) :=
  ⟨fun _ _ _ away => d.rd_wr_ne v fun same => away (same ▸ listed)⟩

theorem Dev.keepsRegs_stopped (d : Dev) (v : Nat) : d.KeepsRegs (d.set Fld.DBG_LOG_CTRL_STOPPED 0 v) := Dev.keepsRegs_wr _ (by decide)

theorem Dev.OnlySends.keepsRegs (h : d.OnlySends e) : d.KeepsRegs e :=
  ⟨fun r i w away => h.rd r i w fun same => away (same ▸ by decide)⟩

theorem Dev.keepsRegs_logPut (d : Dev) (rec : List Word) : d.KeepsRegs (d.logPut rec) := by
  have moved : d.KeepsRegs (d.wr .DBG_LOG_WPTR 0 0 (toWord (((d.rd .DBG_LOG_WPTR).toNat % d.logSize + 1) % d.logSize))) :=
    Dev.keepsRegs_wr _ (by decide)
  unfold Dev.logPut
  dsimp only
  split
  · exact moved.trans (Dev.onlySends_hostOut _ 0 _).keepsRegs
  · split
    · refine Dev.KeepsRegs.trans ?_ (Dev.keepsRegs_stopped _ _)
      exact moved.trans (.of_regs rfl)
    · exact moved.trans (.of_regs rfl)

theorem Dev.keepsRegs_logLast (d : Dev) (cls : Nat) (rec : List Word) : d.KeepsRegs (d.logLast cls rec) := by
  unfold Dev.logLast
  dsimp only
  split
  · exact (d.keepsRegs_logPut rec).trans (Dev.keepsRegs_stopped _ _)
  · exact d.keepsRegs_logPut rec

theorem Dev.keepsRegs_log (d : Dev) (l : Logbook) : d.KeepsRegs { d with log := l } := .of_regs rfl

theorem Dev.keepsRegs_logSeq (d : Dev) (src : Nat) : d.KeepsRegs (d.logSeq src).2 := .of_regs rfl

theorem Dev.keepsRegs_logGap (d : Dev) : d.KeepsRegs d.logGap := by
  unfold Dev.logGap
  split
  · exact .refl d
  · exact ((d.keepsRegs_logSeq 52).trans (Dev.keepsRegs_logLast ..)).trans (Dev.keepsRegs_log _ _)

/-- A record that finds no room is counted. -/
theorem Dev.keepsRegs_logDrop (d : Dev) (n : Nat) :
    d.KeepsRegs { d.bump .DBG_LOG_DROP with log := { (d.bump .DBG_LOG_DROP).log with dropped := n } } :=
  (Dev.keepsRegs_wr (d := d) _ (by decide : regKey .DBG_LOG_DROP 0 0 ∈ logKeys)).trans (.of_regs rfl)

theorem Dev.keepsRegs_logAccept (d : Dev) (cls : Nat) (rec : List Word) : d.KeepsRegs (d.logAccept cls rec) := by
  rw [Dev.logAccept_eq]
  have gap := d.keepsRegs_logGap
  split
  · exact .refl d
  · split
    · exact d.keepsRegs_logDrop _
    · split
      · exact gap
      · split
        · exact gap.trans (Dev.keepsRegs_logDrop ..)
        · exact gap.trans (Dev.keepsRegs_logLast ..)

theorem Dev.keepsRegs_logGen (d : Dev) (cls src : Nat) (fn : Option (Nat × Nat)) (stamp : Stamp) (d0 d1 d2 : Word) (forced : Bool) :
    d.KeepsRegs (d.logGen cls src fn stamp d0 d1 d2 forced) := by
  unfold Dev.logGen
  split
  · exact (d.keepsRegs_logSeq src).trans (Dev.keepsRegs_logAccept ..)
  · exact .refl d

theorem Dev.keepsRegs_logNow (d : Dev) (cls src : Nat) (fn : Option Nat) (d0 d1 d2 : Word) : d.KeepsRegs (d.logNow cls src fn d0 d1 d2) :=
  d.keepsRegs_logGen ..

/-- A free writes no register but the count of denied ones, and what its record writes. -/
theorem Dev.keepsRegs_freeShare (d : Dev) (chain : List Nat) (party : Nat) : d.KeepsRegs (d.freeShare chain party) := by
  unfold Dev.freeShare
  split
  · exact .refl d
  · split
    · exact .of_regs rfl
    · split
      · exact (Dev.keepsRegs_wr _ (by decide : regKey .BPM_FREE_DENIED 0 0 ∈ logKeys)).trans (Dev.keepsRegs_logNow ..)
      · exact .refl d

/-- Word 0 of a late-gather context lies at none of those places. -/
theorem regKey_lgCtx_away (k : Nat) : regKey .DMA_LG_CTX k 0 ∉ logKeys := by
  have ctx : regKey .DMA_LG_CTX k 0 = 0x100000 * 11 + 0x20000 + 4 * (8 * k + 0) := rfl
  have keys : logKeys = [0x40, 0x110001C, 0x1100010, 0x1100018, 0xA00010] := rfl
  rw [ctx, keys]
  simp only [List.mem_cons, List.not_mem_nil, or_false]
  omega

theorem Dev.lgQp_freeShare (d : Dev) (chain : List Nat) (party k : Nat) :
    (d.freeShare chain party).get Fld.DMA_LG_CTX_QP k = d.get Fld.DMA_LG_CTX_QP k :=
  congrArg (bitsOf · 13 0) ((d.keepsRegs_freeShare chain party).rd .DMA_LG_CTX k 0 (regKey_lgCtx_away k))

/-! ## Read time (R252) -/

section ReadTime
variable {k f o : Nat}

/-- A window that opens without a head. -/
def Dev.emptyWin (d : Dev) (k f o : Nat) : LgWin :=
  { tOpen := o, deadline := d.lgDeadlineOf k o, idx := none, fn := f, gen := d.gen f, elems := [], tag := 0, total := 0 }

variable (fits : k < 1024) (owner : d.qpOwner (d.get Fld.DMA_LG_CTX_QP k) = some f) (opens : d.lgOpening k = some o)
  (on : d.on? Fld.DMA_LG_CTX_ENABLE k = true) (dma : d.dmaOn = true) (fetches : d.fetches f = true)
include fits owner opens on dma fetches

/-- No head is ready for the window. -/
theorem Dev.lgReadTime_empty (later : ∀ x, d.lgHead (d.get Fld.DMA_LG_CTX_QP k) = some x → o < x.txTime) :
    d.lgReadTime k = d.setLg k { d.lgCtx k with wins := (d.lgCtx k).wins ++ [d.emptyWin k f o], lastOpen := o } := by
  simp only [Dev.lgReadTime, owner, opens, ge_iff_le, gt_iff_lt]
  rw [if_neg (by simp [fits, on, dma, fetches])]
  cases head : d.lgHead (d.get Fld.DMA_LG_CTX_QP k) with
  | none => rfl
  | some x => exact if_pos (later x head)

/-- A head is gathered. -/
theorem Dev.lgReadTime_head {x : Desc} (head : d.lgHead (d.get Fld.DMA_LG_CTX_QP k) = some x) (due : x.txTime ≤ o)
    (inside : ∀ e, e ∈ x.elems → (d.inWindow f e.1 e.2).isSome = true) :
    let place := (x.elems.foldl (fun (acc : List (Nat × Nat × Nat) × Nat) e => (acc.1 ++ [(e.1, e.2, acc.2)], acc.2 + e.2)) ([], 0)).1
    let begun : Dev := { d with dma := { d.dma with
      descs := d.dma.descs.put (descKey (d.get Fld.DMA_LG_CTX_QP k) false x.idx) { x with taken := true } } }
    let reads := place.foldl (fun (acc : Nat × Dev) e =>
      if (d.inWindow f e.1 e.2.1).isSome then
        let m := acc.2.queueRead x.path f e.1 e.2.1 e.2.2 fun pos => .late k o pos
        (acc.1 + m.1, m.2)
      else (acc.1, acc.2.bumpBy .DMA_SPEC_DENIED 0 (d.readSplit x.path f e.1 e.2.1).length)) (0, begun)
    let full : LgWin :=
      { d.emptyWin k f o with
        idx := some x.idx, elems := x.elems, tag := x.tag, total := x.total, denied := false, reads := reads.1,
        got := List.replicate x.total 0 }
    d.lgReadTime k = (reads.2.setLg k { reads.2.lgCtx k with wins := (d.lgCtx k).wins ++ [full], lastOpen := o }).askBuffers
      (chanParty x.path.chan) x.total (.lateGather k o) := by
  have whole : (x.elems.all fun e => (d.inWindow f e.1 e.2).isSome) = true := List.all_eq_true.2 inside
  simp only [Dev.lgReadTime, owner, opens, head, ge_iff_le, gt_iff_lt]
  rw [if_neg (by simp [fits, on, dma, fetches]), if_neg (Nat.not_lt.2 due), whole]
  rfl

end ReadTime

/-! ## Deadline and log (R254, R255) -/

section Deadline
variable {k : Nat} {w : LgWin}

/-- The reads of a window. -/
def LgWin.reads? (w : LgWin) (k : Nat) (b : Burst) : Bool :=
  match b.for_ with
  | .late k' o _ => k' == k && o == w.tOpen
  | _ => false

/-- How many of them are out. -/
def Dev.lgOut (d : Dev) (k : Nat) (w : LgWin) : Nat := d.dma.bursts.countP fun _ b => w.reads? k b && b.issued

/-- The device with the window closed, its reads cancelled. -/
def Dev.lgShut (d : Dev) (k : Nat) (w : LgWin) : Dev :=
  let cut : Dev := { d with dma := { d.dma with
    bursts := (d.dma.bursts.keep fun _ b => !(w.reads? k b && !b.issued)).mapVals fun _ b =>
      if w.reads? k b then { b with for_ := .cancelled (some (k, w.tOpen)) } else b } }
  cut.setLg k { cut.lgCtx k with wins := (cut.lgCtx k).wins.filter (·.tOpen != w.tOpen) }

/-- The device with its buffers given back where nothing is out. -/
def Dev.lgClosed (d : Dev) (k : Nat) (w : LgWin) : Dev :=
  if d.lgOut k w = 0 then (d.lgShut k w).freeShare w.chain w.party else d.lgShut k w

theorem Dev.lgCancel_eq : d.lgCancel k w = (d.lgOut k w, d.lgClosed k w) := rfl

theorem Dev.lgQp_closed : (d.lgClosed k w).get Fld.DMA_LG_CTX_QP k = d.get Fld.DMA_LG_CTX_QP k := by
  unfold Dev.lgClosed
  split
  · exact (d.lgShut k w).lgQp_freeShare w.chain w.party k
  · rfl

/-- A window's descriptor completes at its deadline. -/
theorem Dev.lgFail_closed {st : Status} : (d.lgClosed k w).lgFail k w st = match w.idx with
    | some i => if w.failed then d.lgClosed k w else (d.lgClosed k w).txComplete (d.get Fld.DMA_LG_CTX_QP k) i st none false 0
    | none => d.lgClosed k w := by
  unfold Dev.lgFail
  cases w.idx with
  | none => rfl
  | some i => dsimp only; rw [Dev.lgQp_closed]

theorem Dev.lgDeadline_due (due : ((d.lgCtx k).wins.find? fun w => w.deadline ≤ d.now) = some w) :
    let copied := ((d.lgClosed k w).lgFail k w w.outcome.2).repeatCopy k
    let counted := copied.2.bump .DMA_LG_CTX k (if w.outcome.1 = 2 then 7 else 6)
    let known : Bool := w.outcome.1 != 1 || d.lgOut k w == 0
    let e : LgLog :=
      { tOpen := w.tOpen, deadline := w.deadline, outcome := w.outcome.1, repeated := copied.1, qp := d.get Fld.DMA_LG_CTX_QP k,
        cycle := d.cycleAt (d.get Fld.DMA_LG_CTX_PORT k) w.tOpen, reads := d.lgOut k w, chain := w.chain, party := w.party,
        written := known }
    let logged := if known then counted.lgLogWrite k e 0xFFFFFFFF else counted
    d.lgDeadline k = if d.lgOut k w = 0 then logged else logged.setLg k { logged.lgCtx k with logs := (logged.lgCtx k).logs ++ [e] } := by
  simp only [Dev.lgDeadline, due, Dev.lgCancel_eq]
  rfl

theorem Dev.lgEvlogTimeout_due {e : LgLog}
    (due : ((d.lgCtx k).logs.find? fun e => !e.written && e.deadline + 100000 * 256 ≤ d.now) = some e) :
    d.lgEvlogTimeout k = (d.setLg k { d.lgCtx k with
      logs := (d.lgCtx k).logs.map fun x => if x.tOpen = e.tOpen then { x with written := true } else x }).lgLogWrite k e 0xFFFFFFFF := by
  simp only [Dev.lgEvlogTimeout, due]

end Deadline

/-- Settles O43: a window's read time, deadline and log, each by its operation. -/
theorem lateGather : Obligations.LateGather := by
  unfold Obligations.LateGather
  refine fun s k out => ⟨fun f o fits owner opens on dma fetches => ⟨fun later => ?_, fun x head due inside => ?_⟩, fun w due => ?_,
    fun e due => ?_⟩
  · exact exec_leaves (fun d => d.lgReadTime k) out rfl (Dev.lgReadTime_empty fits owner opens on dma fetches later)
  · exact exec_leaves (fun d => d.lgReadTime k) out rfl (Dev.lgReadTime_head fits owner opens on dma fetches head due inside)
  · refine exec_leaves (fun d => d.lgDeadline k) out rfl ((Dev.lgDeadline_due due).trans ?_)
    rw [Dev.lgFail_closed]
    rfl
  · exact exec_leaves (fun d => d.lgEvlogTimeout k) out rfl (Dev.lgEvlogTimeout_due due)

end Sys2Proof.Machine
end

section
/-!
Key slot and MACsec commands (R189, R190, R193, R194, R196, R202, R203).
-/
namespace Sys2Proof.Machine

open Sys2Proof.Safety

variable {d : Dev} {n f : Nat} {p : Bytes} (there : d.available 4 = true)

/-! ## Key slots (R189, R190, R202, R203) -/

section Grant

/-- The slots that a grant names. -/
def grantedKeys (p : Bytes) : List Nat := (List.range (bitsOf (le32 p 8) 14 0)).map (bitsOf (le32 p 4) 13 0 + ·)

include there in
/-- Slots that no other function holds are granted, or taken back where no operation starts at this stamp. -/
theorem Dev.keyGrant_own (inside : bitsOf (le32 p 4) 13 0 + bitsOf (le32 p 8) 14 0 ≤ 16384)
    (own : ∀ x g, x ∈ grantedKeys p → d.cip.grants.look? x = some g → g = f)
    (calm : (le32 p 0).getLsbD 31 = false → ∀ x, x ∈ grantedKeys p → d.startedNow x = false) :
    let ks := grantedKeys p
    d.keyGrant n f p = if (le32 p 0).getLsbD 31 then (d.setCip fun x => { x with grants := ks.foldl (fun t y => t.put y f) x.grants }).replyOk n
      else
        (((ks.filter fun x => (d.cip.grants.look? x).isSome).foldl (fun x y => x.eraseSlot y)
          (d.setCip fun x => { x with grants := ks.foldl (fun t y => t.erase y) x.grants })).commit n).eraseReplies := by
  refine (if_neg fun bad => ?_).trans ((Dev.needBlock_there there _).trans ?_)
  · simp only [Bool.or_eq_true, decide_eq_true_eq, List.any_eq_true] at bad
    obtain beyond | ⟨k, mem, held⟩ := bad
    · exact Nat.not_lt.2 inside beyond
    · cases found : d.cip.grants.look? k with
      | none => simp [found] at held
      | some g => simp [found, own k g mem found] at held
  · cases give : (le32 p 0).getLsbD 31 with
    | true => rfl
    | false =>
      refine (if_neg Bool.false_ne_true).trans ((if_neg fun busy => ?_).trans (if_neg Bool.false_ne_true).symm)
      obtain ⟨k, mem, started⟩ := List.any_eq_true.1 busy
      exact absurd started (ne_true_of_eq_false (calm give k (List.mem_filter.1 mem).1))

end Grant

section Write
variable {k : Nat} {r : List Word}

/-- A slot's new key, the running operations keeping the old one. -/
theorem Dev.putKey_fresh :
    let old := d.slot k
    let running := (d.cip.cores.first? fun _ o => o.slot == k && o.epoch == old.epoch).isSome
    let kept := d.setCip fun x =>
      { x with retired := if running then x.retired.put old.epoch old else x.retired, writes := x.writes + 1 }
    d.putKey k 1 r = kept.setSlot k { state := 1, record := r, next := krNext r, window := 1, epoch := d.cip.writes + 1 } := rfl

include there in
/-- A good record of its owner enters a slot that is not being erased. -/
theorem Dev.keyWrite_own (good : recordOk (wordsOf (p.drop 4) 32) = true) (owner : krOwner (wordsOf (p.drop 4) 32) = f)
    (whole : (d.slot (bitsOf (le32 p 0) 13 0)).state ≠ 4)
    (holds : (d.cip.grants.look? (bitsOf (le32 p 0) 13 0) = none ∧ f < 4) ∨
      (d.cip.grants.look? (bitsOf (le32 p 0) 13 0) = some f ∧ (f < 4 ∨ 3 ≤ krType (wordsOf (p.drop 4) 32))))
    (calm : d.startedNow (bitsOf (le32 p 0) 13 0) = false) :
    d.keyWrite n f p = ((d.putKey (bitsOf (le32 p 0) 13 0) 1 (wordsOf (p.drop 4) 32)).commit n).replyOk n (stampWords d.now) := by
  simp only [Dev.keyWrite]
  rw [if_neg (by simp [good])]
  refine (if_neg ?_).trans ((Dev.needBlock_there there _).trans ((if_neg whole).trans (if_neg (ne_true_of_eq_false calm))))
  obtain ⟨free, pf⟩ | ⟨held, kind⟩ := holds
  · simp [free, pf, owner]
  · simpa [held, owner] using fun above => kind.resolve_left (Nat.not_lt.2 above)

end Write

section Hold
variable (holds : d.holdsSlot f (bitsOf (le32 p 0) 13 0) = true)
include there holds

theorem Dev.keyErase_held (calm : d.startedNow (bitsOf (le32 p 0) 13 0) = false) :
    d.keyErase n f p = ((d.eraseSlot (bitsOf (le32 p 0) 13 0)).commit n).eraseReplies := by
  simp only [Dev.keyErase]
  rw [if_neg (by simp [holds])]
  exact (Dev.needBlock_there there _).trans (if_neg (ne_true_of_eq_false calm))

theorem Dev.keyState_held :
    let x := d.slot (bitsOf (le32 p 0) 13 0)
    d.keyState n f p = d.replyOk n
      [d.keySlotWord (bitsOf (le32 p 0) 13 0), toWord x.next, toWord (x.next / 2 ^ 32), toWord x.ops, toWord x.tagFails,
        toWord x.replayDrops] := by
  simp only [Dev.keyState]
  rw [if_neg (by simp [holds])]
  exact Dev.needBlock_there there _

end Hold

/-! ## MACsec (R193, R194, R196) -/

section Macsec
variable (port : bitsOf (le32 p 0) 4 0 < 18)
include there port

theorem Dev.macsecPortSet_port :
    d.macsecPortSet n p = ((d.wr .CIP_PORT_MACSEC (bitsOf (le32 p 0) 4 0) 0
      ((le32 p 0 &&& 0xF0000000) ||| (d.rd .CIP_PORT_MACSEC (bitsOf (le32 p 0) 4 0) &&& 0x00003FFF))).setCip fun x =>
        { x with sci := x.sci.put (bitsOf (le32 p 0) 4 0) (le p 4 8) }).replyOk n :=
  (if_neg (Nat.not_le.2 port)).trans (Dev.needBlock_there there _)

theorem Dev.macsecTxSwitch_calm (calm : d.startedNow (d.get Fld.CIP_PORT_MACSEC_TX_SLOT (bitsOf (le32 p 0) 4 0)) = false) :
    d.macsecTxSwitch n p = ((d.set Fld.CIP_PORT_MACSEC_TX_SLOT (bitsOf (le32 p 0) 4 0) (bitsOf (le32 p 4) 13 0)).commit n).replyOk n
      (stampWords d.now) :=
  (if_neg (Nat.not_le.2 port)).trans ((Dev.needBlock_there there _).trans (if_neg (ne_true_of_eq_false calm)))

/-- The port's other channels. -/
def Dev.otherScs (d : Dev) (p : Bytes) : List RxSc := (d.cip.rxsc.getD (bitsOf (le32 p 0) 4 0) []).filter fun x => x.sci != le p 4 8

/-- The port has the channel that the parameters name. -/
def Dev.hasSc (d : Dev) (p : Bytes) : Bool := (d.cip.rxsc.getD (bitsOf (le32 p 0) 4 0) []).any fun x => x.sci == le p 4 8

/-- The slots that the parameters bind. -/
def scSlots (p : Bytes) : List Nat := (List.range 4).map fun i => le p (12 + 2 * i) 2

theorem Dev.macsecRxscSet_remove (removes : (le32 p 0).getLsbD 31 = true) (has : d.hasSc p = true) :
    d.macsecRxscSet n p = (d.setCip fun x => { x with rxsc := x.rxsc.putD [] (bitsOf (le32 p 0) 4 0) (d.otherScs p) }).replyOk n :=
  (if_neg (Nat.not_le.2 port)).trans ((Dev.needBlock_there there _).trans ((if_pos removes).trans (if_pos has)))

theorem Dev.macsecRxscSet_bind (binds : (le32 p 0).getLsbD 31 = false)
    (room : d.hasSc p = true ∨ (d.cip.rxsc.getD (bitsOf (le32 p 0) 4 0) []).length < 32)
    (fits : ∀ i, i < 4 → (scSlots p).getD i 0xFFFF = 0xFFFF ∨
      ((scSlots p).getD i 0xFFFF < 16384 ∧ krType (d.slot ((scSlots p).getD i 0xFFFF)).record = 2 ∧
        krAn (d.slot ((scSlots p).getD i 0xFFFF)).record = i)) :
    let sc : RxSc := { sci := le p 4 8, slots := (scSlots p).map fun x => if x = 0xFFFF then none else some x }
    d.macsecRxscSet n p =
      (d.setCip fun x => { x with rxsc := x.rxsc.put (bitsOf (le32 p 0) 4 0) (d.otherScs p ++ [sc]) }).replyOk n := by
  have slots : ((List.range 4).all fun i => (scSlots p).getD i 0xFFFF == 0xFFFF || ((scSlots p).getD i 0xFFFF < 16384 &&
      krType (d.slot ((scSlots p).getD i 0xFFFF)).record == 2 && krAn (d.slot ((scSlots p).getD i 0xFFFF)).record == i)) = true := by
    simp only [List.all_eq_true, List.mem_range, Bool.or_eq_true, Bool.and_eq_true, beq_iff_eq, decide_eq_true_eq, and_assoc]
    exact fits
  have full : ¬ (!d.hasSc p && decide (32 ≤ (d.cip.rxsc.getD (bitsOf (le32 p 0) 4 0) []).length)) = true := by
    obtain has | few := room
    · simp [has]
    · simp [Nat.not_le.2 few]
  refine (if_neg (Nat.not_le.2 port)).trans ((Dev.needBlock_there there _).trans ((if_neg (ne_true_of_eq_false binds)).trans
    ((if_neg ?_).trans (if_neg full))))
  rw [Bool.not_eq_true', Bool.not_eq_false]
  exact slots

end Macsec

/-- Settles O44: the commands of a holder and of a port, each by its operation. -/
theorem keyCommands : Obligations.KeyCommands := by
  unfold Obligations.KeyCommands
  refine fun s c n a p e there => ⟨fun taken inside own calm => ?_, fun taken good owner whole holds calm => ?_,
    fun holds => ⟨fun taken calm => ?_, fun taken => ?_⟩, fun port => ⟨fun taken => ?_, fun taken calm => ?_, fun taken =>
      ⟨fun removes has => ?_, fun binds room fits => ?_⟩⟩⟩
  · refine exec_taken (e := e) taken rfl ?_
    exact Dev.keyGrant_own there inside own calm
  · refine exec_taken (e := e) taken rfl ?_
    exact Dev.keyWrite_own there good owner whole holds calm
  · refine exec_taken (e := e) taken rfl ?_
    exact Dev.keyErase_held there holds calm
  · refine exec_taken (e := e) taken rfl ?_
    exact Dev.keyState_held there holds
  · refine exec_taken (e := e) taken rfl ?_
    exact Dev.macsecPortSet_port there port
  · refine exec_taken (e := e) taken rfl ?_
    exact Dev.macsecTxSwitch_calm there port calm
  · refine exec_taken (e := e) taken rfl ?_
    exact Dev.macsecRxscSet_remove there port removes has
  · refine exec_taken (e := e) taken rfl ?_
    exact Dev.macsecRxscSet_bind there port binds room fits

end Sys2Proof.Machine
end

section
/-!
Cipher work: where the statement fails. KEY_ERASE_DONE looks at every entry of the table of cores, while the statement asks of the
entry that a look-up of each core finds. In a table that lists one core twice the two differ. No step makes such a table, but the
statement is of every state.
-/
namespace Sys2Proof.Machine

open Sys2Proof.Safety

/-- A TLS operation on a slot. -/
def opOn (slot : Nat) : CipOp :=
  { subject := .tls 0, slot := slot, record := [], value := 0, fn := 0, start := 0, port := 0, seq := 0 }

/-- The device after reset with slot 0 being erased, and core 0 listed twice: with an operation on slot 1, then with one on slot
0. -/
def twiceListed : Dev :=
  { State.reset.toDev with
    cip := { State.reset.cip with slots := ⟨[(0, { state := 4 })]⟩, cores := ⟨[(0, opOn 1), (0, opOn 0)]⟩ } }

theorem twiceListed_outOfReset : twiceListed.inReset = false := by decide +kernel

/-- No look-up finds the operation on slot 0. -/
theorem twiceListed_apart (core : Nat) (o : CipOp) (found : twiceListed.cip.cores.look? core = some o) : o.slot ≠ 0 := by
  by_cases first : 0 = core
  · subst first
    cases found
    decide
  · have none' : twiceListed.cip.cores.look? core = none := by
      simp only [twiceListed, Tbl.look?, Tbl.lookCells, if_neg first]
    rw [none'] at found
    cases found

/-- The state of slot 0 where an outcome goes on. -/
def outcomeSlot (o : Host.Outcome State Fault Refusal) : Option Nat :=
  match o with
  | .next s => some (s.toDev.slot 0).state
  | _ => none

/-- The row finds the operation and leaves the slot as it is. -/
theorem twiceListed_waits : ((twiceListed.keyEraseDone 0).slot 0).state = 4 := by decide +kernel

theorem twiceListed_erased : (((twiceListed.setSlot 0 {}).eraseReplies).slot 0).state = 0 := by decide +kernel

/-- Refutes O45: with core 0 listed twice, the erasure of a slot on which a later entry still works does not end. -/
theorem not_cipherWork : ¬ Obligations.CipherWork := by
  unfold Obligations.CipherWork
  intro h
  obtain ⟨-, -, -, -, eraseDone, -⟩ := h { toDev := twiceListed } twiceListed_outOfReset
  have claimed := eraseDone 0 (by decide +kernel) twiceListed_apart
  have does := exec_leaves (s := { toDev := twiceListed }) (i := .keyEraseDone 0) (fun d => d.keyEraseDone 0) twiceListed_outOfReset rfl rfl
  have same : some ((twiceListed.keyEraseDone 0).slot 0).state = some (((twiceListed.setSlot 0 {}).eraseReplies).slot 0).state :=
    congrArg outcomeSlot (does.symm.trans claimed)
  rw [twiceListed_waits, twiceListed_erased] at same
  exact absurd same (by decide)

end Sys2Proof.Machine
end

section
/-!
Storage commands (R268, R278, R281, R282).
-/
namespace Sys2Proof.Machine

open Sys2Proof.Safety

variable {d : Dev} {n f : Nat} {p : Bytes}

/-- The connection that the parameters describe. -/
def Dev.offered (d : Dev) (f : Nat) (p : Bytes) : Conn :=
  let r := wordsOf (p.drop 4) 36
  { fn := f, gen := d.gen f, record := r, sndNxt := (r.getD 2 0).toNat, sndUna := (r.getD 2 0).toNat, rcvNxt := (r.getD 3 0).toNat,
    sndWnd := bitsOf (r.getD 4 0) 31 16, cwnd := 10 * bitsOf (r.getD 1 0) 31 16, ssthresh := 2 ^ 30,
    rto := 10000 * bitsOf (r.getD 5 0) 15 0, txSlot := bitsOf (r.getD 10 0) 13 0, rxSlot := bitsOf (r.getD 11 0) 13 0 }

/-- A good record on a free number is taken (R268). -/
theorem Dev.stoConnOffload_good (reserved : connReserved (wordsOf (p.drop 4) 36) = true) (ranges : connRanges (wordsOf (p.drop 4) 36) = true)
    (template : templateOk (d.offered f p).v6 (d.offered f p).hdr (wordBytes ((wordsOf (p.drop 4) 36).drop 12)) = true)
    (owner : d.qpOwner (d.offered f p).qp = some f) (mode : d.on? Fld.HIF_QP_CTX_MODE (d.offered f p).qp = true)
    (slots : (d.offered f p).tls = true → d.tlsSlotOk f (d.offered f p).txSlot 5 = true ∧ d.tlsSlotOk f (d.offered f p).rxSlot 6 = true)
    (quota : d.connCount f < d.get Fld.STO_FUNC_QUOTA_CONN_LIMIT f) (free : d.conn? (bitsOf (le32 p 0) 13 0) = none) :
    d.stoConnOffload n f p = ({ d with sto := { d.sto with
      conns := d.sto.conns.put (bitsOf (le32 p 0) 13 0) (d.offered f p) } } : Dev).replyOk n := by
  refine (if_neg ?_).trans (if_neg ?_)
  · have keyed : ((d.offered f p).tls && !(d.tlsSlotOk f (d.offered f p).txSlot 5 && d.tlsSlotOk f (d.offered f p).rxSlot 6)) = false := by
      cases tls : (d.offered f p).tls with
      | false => rfl
      | true => simp [slots tls]
    simp only [Bool.or_eq_true, not_or, Bool.not_eq_true', decide_eq_true_eq, ge_iff_le, Nat.not_le, Bool.not_eq_false, Classical.not_not]
    exact ⟨⟨⟨⟨⟨⟨reserved, ranges⟩, template⟩, owner⟩, mode⟩, ne_true_of_eq_false keyed⟩, quota⟩
  · rw [free]
    exact Bool.false_ne_true

theorem Dev.stoConnState_free (free : d.conn? (bitsOf (le32 p 0) 13 0) = none) :
    d.stoConnState n f p = d.replyOk n [0, 0, 0, 0, 0, 0, 0, 0] := by
  simp only [Dev.stoConnState, free]

section Own
variable {x : Conn} (found : d.conn? (bitsOf (le32 p 0) 13 0) = some x) (own : x.fn = f)
include found own

theorem Dev.stoConnState_own : d.stoConnState n f p = d.replyOk n ([d.connWord (bitsOf (le32 p 0) 13 0)] ++ x.seqs ++
    [toWord (x.sndWnd * 2 ^ bitsOf (x.word 1) 15 12), toWord x.cwnd, toWord x.retransmits, toWord x.discards]) := by
  simp only [Dev.stoConnState, found]
  exact if_neg (Classical.not_not.2 own)

/-- A command on a connection of its own. -/
theorem Dev.ownConn_own {k : Conn → Dev → Dev} : d.ownConn n f (bitsOf (le32 p 0) 13 0) k = k x d := by
  simp only [Dev.ownConn, found]
  exact if_neg (Classical.not_not.2 own)

/-! ### Returns (R281) -/

section Return
variable (live : x.live = true)
include live

theorem Dev.stoConnReturn_waits (calm : (le32 p 0).getLsbD 31 = false) (first : x.returning = none) :
    d.stoConnReturn n f p = (d.updConn (bitsOf (le32 p 0) 13 0) fun z =>
      { z with returning := some (n, d.ref + 1000 * (le32 p 4).toNat) }).stoSettle (bitsOf (le32 p 0) 13 0) := by
  simp only [Dev.stoConnReturn, Dev.ownConn_own found own]
  refine (if_neg ?_).trans ((if_neg ?_).trans ((if_neg ?_).trans (if_neg ?_)))
  · simp [live]
  · simp only [calm, Bool.false_and, Bool.false_eq_true, not_false_eq_true]
  · exact ne_true_of_eq_false calm
  · simp [first]

theorem Dev.stoConnReturn_failing (force : (le32 p 0).getLsbD 31 = true) (failing : x.failing = true) :
    d.stoConnReturn n f p = d.updConn (bitsOf (le32 p 0) 13 0) fun z => { z with returning := some (n, d.ref + 2 ^ 64) } := by
  simp only [Dev.stoConnReturn, Dev.ownConn_own found own]
  exact (if_neg (by simp [live])).trans (if_pos (by simp [force, failing]))

theorem Dev.stoConnReturn_forced (force : (le32 p 0).getLsbD 31 = true) (whole : x.failing = false) :
    d.stoConnReturn n f p = (((d.stoFail (bitsOf (le32 p 0) 13 0) .connLost).bump .STO_CONN_LOST_CNT).event x.fn 0x8003
      (wordBytes [toWord (bitsOf (le32 p 0) 13 0), toWord 6])).connFree (bitsOf (le32 p 0) 13 0) n x := by
  simp only [Dev.stoConnReturn, Dev.ownConn_own found own]
  exact (if_neg (by simp [live])).trans ((if_neg (by simp [whole])).trans (if_pos force))

end Return

/-! ### Resuming and new keys (R278) -/

theorem Dev.stoConnResume_paused (paused : x.state = .paused)
    (slot : (le32 p 0).getLsbD 31 = true → d.tlsSlotOk f (bitsOf (le32 p 4) 13 0) 6 = true) :
    d.stoConnResume n f p = ((d.updConn (bitsOf (le32 p 0) 13 0) fun z => { z with
      state := .active, rxSlot := if (le32 p 0).getLsbD 31 then bitsOf (le32 p 4) 13 0 else z.rxSlot }).tlsNext
        (bitsOf (le32 p 0) 13 0)).replyOk n := by
  simp only [Dev.stoConnResume, Dev.ownConn_own found own]
  refine (if_neg (Classical.not_not.2 paused)).trans (if_neg fun bad => ?_)
  simp only [Bool.and_eq_true, Bool.not_eq_true'] at bad
  obtain ⟨fresh, wrong⟩ := bad
  exact absurd (slot fresh) (ne_true_of_eq_false wrong)

theorem Dev.stoConnRekey_live (live : x.live = true) (tls : x.tls = true) (goes : x.terminated = false) (some_ : 1 ≤ (le32 p 8).toNat)
    (short : (le32 p 8).toNat ≤ 64) (slot : d.tlsSlotOk f (bitsOf (le32 p 4) 13 0) 5 = true) :
    d.stoConnRekey n f p = ((d.sendRecords (bitsOf (le32 p 0) 13 0) 22 (slice p 12 (le32 p 8).toNat)).updConn (bitsOf (le32 p 0) 13 0) fun z =>
      { z with txSlot := bitsOf (le32 p 4) 13 0 }).replyOk n := by
  simp only [Dev.stoConnRekey, Dev.ownConn_own found own]
  refine (if_neg ?_).trans (if_neg ?_)
  · simp [live, tls, goes]
  · simp only [slot, Bool.or_eq_true, decide_eq_true_eq, Bool.not_true, Bool.false_eq_true, or_false, not_or, Nat.not_lt]
    exact ⟨some_, short⟩

end Own

/-- Settles O46: the commands on a function's own connections, each by its operation. -/
theorem storageCommands : Obligations.StorageCommands := by
  unfold Obligations.StorageCommands
  refine fun s c n a p e there => ⟨fun taken reserved ranges template owner mode slots quota free => ?_, fun taken free => ?_,
    fun x found own => ⟨fun taken => ?_, fun taken => ⟨fun live calm first => ?_, fun live force failing => ?_, fun live force whole => ?_⟩,
      fun taken paused slot => ?_, fun taken live tls goes some_ short slot => ?_⟩⟩
  all_goals
    refine exec_taken (e := e) taken rfl ((Dev.needBlock_there there _).trans ?_)
  · exact Dev.stoConnOffload_good reserved ranges template owner mode slots quota free
  · exact Dev.stoConnState_free free
  · exact Dev.stoConnState_own found own
  · exact Dev.stoConnReturn_waits found own live calm first
  · exact Dev.stoConnReturn_failing found own live force failing
  · exact Dev.stoConnReturn_forced found own live force whole
  · exact Dev.stoConnResume_paused found own paused slot
  · exact Dev.stoConnRekey_live found own live tls goes some_ short slot

end Sys2Proof.Machine
end

section
/-!
The storage engine's ring entries, segments, PDUs and timers (R266, R271 to R275, R279, R281).
-/
namespace Sys2Proof.Machine

open Sys2Proof.Safety

variable {d : Dev} {n q f : Nat}

/-! ## Ring entries (R273, R274) -/

section Fetch
variable {entry bs : Bytes} {e desc : Option Bytes} {c : Conn}

/-- Where a ring's next entry lies. -/
def Dev.ringEntry (d : Dev) (q : Nat) : Nat × Nat := (d.qpAddr q 4 + 128 * ((d.qp q).txFetched % d.txSize q), 128)

/-- The ring has had its turn. -/
def Dev.ringPassed (d : Dev) (q : Nat) : Dev := { d with sto := { d.sto with lastRing := q } }

/-- The entry has been taken, with what lies at `l` read. -/
def Dev.ringTaken (d : Dev) (q f : Nat) (l : List (Nat × Nat)) : Dev :=
  (((d.ringPassed q).setQp q { d.qp q with txFetched := inc32 (d.qp q).txFetched }).putReads f l).prefetch q f (d.qpAddr q 4) (d.txSize q) 128
    (inc32 (d.qp q).txFetched) (d.qp q).txTail

/-- The path of a command of one side of the queue pair. -/
def Dev.cmdPath (d : Dev) (q : Nat) (rx : Bool) : Path := { d.qpPath q rx with desc := some (d.qp q).txFetched }

/-- The queue pair's own name in a completion without a connection. -/
def Dev.cmdOwner (d : Dev) (q f : Nat) : Conn :=
  { fn := f, gen := d.gen f, record := [toWord q], sndNxt := 0, sndUna := 0, rcvNxt := 0, sndWnd := 0, cwnd := 0, ssthresh := 0, rto := 0,
    txSlot := 0, rxSlot := 0 }

/-- An entry completes without a command. -/
def Dev.cmdEnded (d : Dev) (q f : Nat) (x : Dev) (who conn : Nat) (st : Status) : Dev :=
  (x.openCqe who).2.stoPost (d.cmdPath q true) conn (d.cmdOwner q f) (x.openCqe who).1 st 0 false false

/-- The bytes of an entry that its command capsule carries. -/
def cmdInside (entry : Bytes) (c : Conn) (total : Nat) : Nat :=
  if (le32 entry 0).getLsbD 29 = true ∧ bitsOf (le32 entry 0) 31 30 = 1 ∧ total ≤ c.icdMax then total else 0

theorem cmdInside_eq (entry : Bytes) (c : Conn) (total : Nat) : cmdInside entry c total =
    if (le32 entry 0).getLsbD 29 && bitsOf (le32 entry 0) 31 30 == 1 && decide (total ≤ c.icdMax) then total else 0 := by
  simp only [cmdInside, Bool.and_eq_true, beq_iff_eq, decide_eq_true_eq, and_assoc]

/-- A command begins. -/
def Dev.cmdBegun (d : Dev) (q : Nat) (entry : Bytes) (x : Dev) (c : Conn) (barrier : Bool) (total : Nat) (elems : List (Nat × Nat)) : Dev :=
  let n := bitsOf (le32 entry 0) 13 0
  let k : StoCmd :=
    { cid := le entry 0x42 2, txPath := { d.cmdPath q false with barrier := barrier }, rxPath := { d.cmdPath q true with barrier := barrier },
      dir := bitsOf (le32 entry 0) 31 30, total := total, elems := elems }
  ((x.updConn n fun z => { z with cmds := z.cmds.put (le entry 0x42 2) k }).queuePdu n k
    (c.frontOf 4 0 (slice entry 0x40 64) (cmdInside entry c total)) 0 (cmdInside entry c total) false).stoFlush n

variable (owner : d.qpOwner q = some f) (turn : d.ringTurn q = true) (ready : d.reachPages f [d.ringEntry q] = (.ready, d))
include owner turn ready

/-- An entry that cannot be read ends with a free CID and connection. -/
theorem Dev.stoCmdFetch_lost :
    let word := ((d.ringTaken q f [d.ringEntry q]).hostError f).drawWord
    d.stoCmdFetch q none desc = d.cmdEnded q f word.2 (bitsOf word.1 15 0) (bitsOf word.1 29 16) .hostErr := by
  obtain ⟨reach, same⟩ : ∃ r, r = Dev.reachPages := ⟨_, rfl⟩
  rw [← same, Dev.ringEntry] at ready
  unfold Dev.stoCmdFetch
  rw [← same]
  simp only [owner, turn, ready, Bool.not_true, Bool.false_eq_true, if_false, if_true]
  rfl

/-- An entry that breaks the rules. -/
theorem Dev.stoCmdFetch_badEntry (bad : entryOk entry = false) :
    d.stoCmdFetch q (some entry) desc =
      d.cmdEnded q f (d.ringTaken q f [d.ringEntry q]) (le entry 0x42 2) (bitsOf (le32 entry 0) 13 0) .badParam := by
  obtain ⟨reach, same⟩ : ∃ r, r = Dev.reachPages := ⟨_, rfl⟩
  rw [← same, Dev.ringEntry] at ready
  unfold Dev.stoCmdFetch
  rw [← same]
  simp only [owner, turn, ready, bad, Bool.not_true, Bool.not_false, Bool.false_eq_true, if_false, if_true]
  rfl

section Good
variable (good : entryOk entry = true)
include good

theorem Dev.stoCmdFetch_noConn (free : d.conn? (bitsOf (le32 entry 0) 13 0) = none) :
    d.stoCmdFetch q (some entry) desc =
      d.cmdEnded q f (d.ringTaken q f [d.ringEntry q]) (le entry 0x42 2) (bitsOf (le32 entry 0) 13 0) .connLost := by
  obtain ⟨reach, same⟩ : ∃ r, r = Dev.reachPages := ⟨_, rfl⟩
  rw [← same, Dev.ringEntry] at ready
  unfold Dev.stoCmdFetch
  rw [← same]
  simp only [owner, turn, ready, good, free, Bool.not_true, Bool.false_eq_true, if_false]
  rfl

section Conn
variable (found : d.conn? (bitsOf (le32 entry 0) 13 0) = some c)
include found

/-- An entry of another function's or queue pair's connection, or of a command that is outstanding. -/
theorem Dev.stoCmdFetch_foreign
    (foreign : c.fn ≠ f ∨ c.qp ≠ q ∨ (c.live = true ∧ (c.cmds.look? (le entry 0x42 2)).isSome = true)) :
    d.stoCmdFetch q (some entry) desc =
      d.cmdEnded q f (d.ringTaken q f [d.ringEntry q]) (le entry 0x42 2) (bitsOf (le32 entry 0) 13 0) .badParam := by
  have bad : (decide (c.fn ≠ f) || decide (c.qp ≠ q) || (c.live && (c.cmds.look? (le entry 0x42 2)).isSome)) = true := by
    simpa [or_assoc] using foreign
  obtain ⟨reach, same⟩ : ∃ r, r = Dev.reachPages := ⟨_, rfl⟩
  rw [← same, Dev.ringEntry] at ready
  unfold Dev.stoCmdFetch
  rw [← same]
  simp only [owner, turn, ready, good, found, bad, Bool.not_true, Bool.false_eq_true, if_false, if_true]
  rfl

variable (fn : c.fn = f) (qp : c.qp = q)
include fn qp

/-- An entry of a connection that has been lost. -/
theorem Dev.stoCmdFetch_dead (dead : c.live = false) :
    d.stoCmdFetch q (some entry) desc =
      d.cmdEnded q f (d.ringTaken q f [d.ringEntry q]) (le entry 0x42 2) (bitsOf (le32 entry 0) 13 0) .connLost := by
  obtain ⟨reach, same⟩ : ∃ r, r = Dev.reachPages := ⟨_, rfl⟩
  rw [← same, Dev.ringEntry] at ready
  unfold Dev.stoCmdFetch
  rw [← same]
  simp only [owner, turn, ready, good, found, fn, qp, dead, ne_eq, not_true_eq_false, decide_false, Bool.false_and,
    Bool.or_self, Bool.not_true, Bool.not_false, Bool.false_eq_true, if_false, if_true]
  rfl

section Live
variable (live : c.live = true) (new : c.cmds.look? (le entry 0x42 2) = none)
include live new

theorem Dev.stoCmdFetch_full (full : d.ctxFree c = false) : d.stoCmdFetch q (some entry) desc = d.ringPassed q := by
  obtain ⟨reach, same⟩ : ∃ r, r = Dev.reachPages := ⟨_, rfl⟩
  rw [← same, Dev.ringEntry] at ready
  unfold Dev.stoCmdFetch
  rw [← same]
  simp only [owner, turn, ready, good, found, fn, qp, live, new, full, ne_eq, not_true_eq_false, decide_false, Bool.and_false,
    Option.isSome_none, Bool.or_self, Bool.not_true, Bool.not_false, Bool.false_eq_true, if_false, if_true]
  rfl

section Free
variable (context : d.ctxFree c = true)
include context

/-- A command without data. -/
theorem Dev.stoCmdFetch_plain (dir : bitsOf (le32 entry 0) 31 30 = 0) :
    d.stoCmdFetch q (some entry) desc = d.cmdBegun q entry (d.ringTaken q f [d.ringEntry q]) c false 0 [] := by
  obtain ⟨reach, same⟩ : ∃ r, r = Dev.reachPages := ⟨_, rfl⟩
  rw [← same, Dev.ringEntry] at ready
  unfold Dev.stoCmdFetch
  rw [← same]
  simp only [owner, turn, ready, good, found, fn, qp, live, new, context, dir, ne_eq, not_true_eq_false, decide_false, Bool.and_false,
    Option.isSome_none, Bool.or_self, Bool.not_true, Bool.false_eq_true, if_false, if_true]
  simp only [Dev.cmdBegun, cmdInside, dir, Nat.zero_ne_one, false_and, and_false, if_false, Nat.reduceBEq, Bool.and_false,
    Bool.false_and, Bool.false_eq_true]
  rfl

section Data
variable (dir : bitsOf (le32 entry 0) 31 30 ≠ 0)
include dir

/-- A list of elements that is not aligned. -/
theorem Dev.stoCmdFetch_unaligned (unaligned : le entry 8 8 % 16 ≠ 0) :
    d.stoCmdFetch q (some entry) (some bs) =
      d.cmdEnded q f (d.ringTaken q f [d.ringEntry q]) (le entry 0x42 2) (bitsOf (le32 entry 0) 13 0) .badParam := by
  obtain ⟨reach, same⟩ : ∃ r, r = Dev.reachPages := ⟨_, rfl⟩
  rw [← same, Dev.ringEntry] at ready
  unfold Dev.stoCmdFetch
  rw [← same]
  simp only [owner, turn, ready, good, found, fn, qp, live, new, context, dir, ne_eq, not_true_eq_false, decide_false, Bool.and_false,
    Option.isSome_none, Bool.or_self, Bool.not_true, Bool.false_eq_true, if_false, if_true, unaligned, not_false_eq_true]
  rfl

variable (aligned : le entry 8 8 % 16 = 0)
include aligned

/-- A list of elements that cannot be read. -/
theorem Dev.stoCmdFetch_noDesc (there : d.reachPages f [(le entry 8 8, 16)] = (.ready, d)) :
    d.stoCmdFetch q (some entry) none = d.cmdEnded q f ((d.ringTaken q f [d.ringEntry q, (le entry 8 8, 16)]).hostError f) (le entry 0x42 2)
      (bitsOf (le32 entry 0) 13 0) .hostErr := by
  obtain ⟨reach, same⟩ : ∃ r, r = Dev.reachPages := ⟨_, rfl⟩
  rw [← same] at there
  rw [← same, Dev.ringEntry] at ready
  unfold Dev.stoCmdFetch
  rw [← same]
  simp only [owner, turn, ready, good, found, fn, qp, live, new, context, dir, ne_eq, not_true_eq_false, decide_false, Bool.and_false,
    Option.isSome_none, Bool.or_self, Bool.not_true, Bool.false_eq_true, if_false, if_true, aligned, there]
  rfl

variable (there : d.reachPages f (readDesc bs (le entry 8 8)).reads = (.ready, d))
include there

/-- A list of elements that breaks the rules. -/
theorem Dev.stoCmdFetch_badDesc
    (bad : (readDesc bs (le entry 8 8)).ok = false ∨ (readDesc bs (le entry 8 8)).late = true ∨ (readDesc bs (le entry 8 8)).stamp = true) :
    d.stoCmdFetch q (some entry) (some bs) = d.cmdEnded q f (d.ringTaken q f (d.ringEntry q :: (readDesc bs (le entry 8 8)).reads))
      (le entry 0x42 2) (bitsOf (le32 entry 0) 13 0) .badParam := by
  have refused : (!(readDesc bs (le entry 8 8)).ok || (readDesc bs (le entry 8 8)).late || (readDesc bs (le entry 8 8)).stamp) = true := by
    simpa [or_assoc] using bad
  obtain ⟨reach, same⟩ : ∃ r, r = Dev.reachPages := ⟨_, rfl⟩
  rw [← same] at there
  rw [← same, Dev.ringEntry] at ready
  unfold Dev.stoCmdFetch
  rw [← same]
  simp only [owner, turn, ready, good, found, fn, qp, live, new, context, dir, ne_eq, not_true_eq_false, decide_false, Bool.and_false,
    Option.isSome_none, Bool.or_self, Bool.not_true, Bool.false_eq_true, if_false, if_true, aligned, there, refused]
  rfl

/-- A command with data begins. -/
theorem Dev.stoCmdFetch_data (ok : (readDesc bs (le entry 8 8)).ok = true) (soon : (readDesc bs (le entry 8 8)).late = false)
    (quiet : (readDesc bs (le entry 8 8)).stamp = false) :
    let r := readDesc bs (le entry 8 8)
    d.stoCmdFetch q (some entry) (some bs) =
      d.cmdBegun q entry (d.ringTaken q f (d.ringEntry q :: r.reads)) c r.barrier r.total r.elems := by
  obtain ⟨reach, same⟩ : ∃ r, r = Dev.reachPages := ⟨_, rfl⟩
  rw [← same] at there
  rw [← same, Dev.ringEntry] at ready
  unfold Dev.stoCmdFetch
  rw [← same]
  simp only [owner, turn, ready, good, found, fn, qp, live, new, context, dir, ne_eq, not_true_eq_false, decide_false, Bool.and_false,
    Option.isSome_none, Bool.or_self, Bool.not_true, Bool.false_eq_true, if_false, if_true, aligned, there, ok, soon, quiet]
  unfold Dev.cmdBegun
  rw [cmdInside_eq]
  rfl

end Data

end Free

end Live

end Conn

end Good

end Fetch

/-! ## Segments (R271, R272, R281) -/

section Segment
variable {id t e : Nat} {c : Copy} {k : Conn} {h1 : Bool} {h2 h3 : Nat}

/-- A segment of a live connection resets it, or is acknowledged and taken. -/
theorem Dev.stoSegmentRx_live (copy : d.copy? id = some c) (stage : c.stage = .storage n) (found : d.conn? n = some k)
    (tcp : tcpOf c.bytes = some (h1, h2, h3, t, e)) (live : k.live = true) (there : d.available 8 = true) (same : d.gen k.fn = k.gen) :
    let flags := (byteAt c.bytes (t + 13)).toNat
    let off := 4 * ((byteAt c.bytes (t + 12)).toNat / 16)
    let bs := slice c.bytes (t + off) (e - (t + off))
    let acked := if bitN flags 4 then (d.endCopy id).stoAcks n (be c.bytes (t + 8) 4) (be c.bytes (t + 14) 2) bs.isEmpty else d.endCopy id
    d.stoSegmentRx id = if bitN flags 2 || bitN flags 0 then (d.endCopy id).connLost n 1
      else (acked.stoPayload n (be c.bytes (t + 4) 4) bs).stoSettle n := by
  simp only [Dev.stoSegmentRx, copy, stage, found, tcp]
  exact if_neg (by simp [live, there, same])

end Segment

/-! ## Timers (R266, R271, R272, R281) -/

section Timers
variable {c : Conn} {t : Nat} (found : d.conn? n = some c)
include found

theorem Dev.stoSegmentTx_ready (live : c.live = true) (on : d.stoOn = true) (idle : c.want = []) (some_ : c.sendable ≠ 0) :
    d.stoSegmentTx n = (d.updConn n fun z => { z with want := [.data c.sendable] }).stoAsk n := by
  simp only [Dev.stoSegmentTx, found]
  exact if_neg (by simp [live, on, idle, some_])

/-- A retransmission timeout gives the connection up after its retries, and sends again before. -/
theorem Dev.stoRtoExpiry_due (timer : c.rtoAt = some t) (due : t ≤ d.ref) (live : c.live = true) (on : d.stoOn = true) :
    let rto := min (2 * c.rto) 1000000000
    d.stoRtoExpiry n = if c.retries ≤ c.timeouts + 1 then d.connLost n 2
      else (d.updConn n fun z => { z with
        timeouts := z.timeouts + 1, ssthresh := if z.timeouts = 0 then c.halfFlight else z.ssthresh, cwnd := z.mss, dupAcks := 0,
        rto := rto, rtoAt := some (d.ref + rto) }).stoResend n := by
  simp only [Dev.stoRtoExpiry, found, timer, ge_iff_le, gt_iff_lt]
  exact if_neg (by simp [due, live, on])

theorem Dev.stoAckTimer_due (timer : c.ackAt = some t) (due : t ≤ d.ref) (live : c.live = true) (on : d.stoOn = true) :
    d.stoAckTimer n = d.stoAck n := by
  simp only [Dev.stoAckTimer, found, timer]
  exact if_pos (by simp [due, live, on])

theorem Dev.stoBufferRetry_due (timer : c.retryAt = some t) (due : t ≤ d.ref) (on : d.stoOn = true) :
    d.stoBufferRetry n = (d.updConn n fun z => { z with retryAt := none }).stoAsk n := by
  simp only [Dev.stoBufferRetry, found, timer]
  exact if_pos (by simp [due, on])

theorem Dev.stoReturnTimeout_due {cmd : Nat} (timer : c.returning = some (cmd, t)) (due : t ≤ d.ref) :
    d.stoReturnTimeout n = (d.updConn n fun z => { z with returning := none }).reply cmd .badState := by
  simp only [Dev.stoReturnTimeout, found, Option.bind_some, timer]
  exact if_pos due

end Timers

/-! ## PDUs (R266, R274, R275, R279) -/

section Pdu
variable {c : Conn} {flags pdo plen typ : Nat} (found : d.conn? n = some c) (active : c.state = .active) (goes : c.terminated = false)
  (there : d.available 8 = true) (whole : plen ≤ c.rxOk)

include found active goes there in
/-- A good PDU of the type asked for is handled. -/
theorem Dev.onPdu_good (good : c.pduIn = .good typ flags pdo plen) (k : Conn → Nat → Nat → Nat → Dev → Dev) :
    d.onPdu n typ k = k c flags pdo plen d := by
  simp only [Dev.onPdu, found]
  rw [if_neg (by simp [active, goes, there]), good]
  exact if_pos rfl

include found active goes there whole

theorem Dev.pduCapsuleResp_good (good : c.pduIn = .good 5 flags pdo plen) (sent : (c.outQ.any fun p => p.cid == le c.rxBytes 20 2) = false) :
    let st : Status := if ((c.cmds.look? (le c.rxBytes 20 2)).map (·.failed)).getD false then .digestErr else .ok
    d.pduCapsuleResp n = ((((d.pduDone n plen).stoComplete n (le c.rxBytes 20 2) (some (wordsOf (slice c.rxBytes 8 16) 4)) st false).stoFlush
      n).stoSettle n) := by
  unfold Dev.pduCapsuleResp
  rw [Dev.onPdu_good found active goes there good]
  exact if_neg (by simp [sent, whole])

theorem Dev.pduC2hTermReq_good (good : c.pduIn = .good 3 flags pdo plen) : d.pduC2hTermReq n = d.connLost n 4 := by
  unfold Dev.pduC2hTermReq
  rw [Dev.onPdu_good found active goes there good]
  exact if_neg (Nat.not_lt.2 whole)

section Command
variable {k : StoCmd} (cmd : c.cmds.look? (le c.rxBytes 8 2) = some k) (more : k.lastSeen = false) (runs : k.ended = none)
include cmd more runs

/-- A transfer begins (R274). -/
theorem Dev.pduR2t_good (good : c.pduIn = .good 9 flags pdo plen)
    (inside : le c.rxBytes 12 4 + le c.rxBytes 16 4 ≤ if k.dir = 1 then k.total else 0) (room : k.r2ts < c.maxR2t + 1) :
    let cid := le c.rxBytes 8 2
    let off := le c.rxBytes 12 4
    let len := le c.rxBytes 16 4
    let taken := (d.pduDone n plen).updConn n fun z => { z with cmds := z.cmds.modify cid fun y => { y with r2ts := y.r2ts + 1 } }
    let count := max 1 (ceilDiv len c.maxH2c)
    d.pduR2t n = ((List.range count).foldl (fun x i =>
      let o := off + i * c.maxH2c
      let m := min c.maxH2c (off + len - o)
      let last := i + 1 == count
      let body := bytesLE 2 cid ++ bytesLE 2 (le c.rxBytes 10 2) ++ bytesLE 4 o ++ bytesLE 4 m ++ bytesLE 4 0
      x.queuePdu n k (c.frontOf 6 (4 * b2n last) body m) o m last) taken).stoFlush n := by
  unfold Dev.pduR2t
  rw [Dev.onPdu_good found active goes there good]
  simp only [cmd, ge_iff_le, gt_iff_lt]
  rw [if_neg (Nat.not_lt.2 whole), if_neg (by simp [more, runs]), if_neg (Nat.not_lt.2 inside), if_neg (Nat.not_le.2 room)]

/-- Data is placed, its digest checked, and the command completed where the PDU says so (R275, R279). -/
theorem Dev.pduC2hData_good (good : c.pduIn = .good 7 flags pdo plen)
    (inside : le c.rxBytes 12 4 + le c.rxBytes 16 4 ≤ if k.dir = 2 then k.total else 0) :
    let cid := le c.rxBytes 8 2
    let len := le c.rxBytes 16 4
    let placed := d.c2hPlace n cid c k pdo (le c.rxBytes 12 4) len
    let wrong := c.ddgst && len != 0 && crc32c (slice c.rxBytes pdo len) != le32 c.rxBytes (pdo + len)
    let seen := if wrong then placed.bump .STO_DDGST_ERR else placed
    let noted := (seen.pduDone n plen).updConn n fun z => { z with cmds := z.cmds.modify cid fun y =>
      { y with failed := y.failed || wrong, lastSeen := bitN flags 2 } }
    d.pduC2hData n = if bitN flags 3 then
        (((noted.stoComplete n cid (some [0, 0, 0, toWord cid]) (if k.failed || wrong then .digestErr else .ok) true)).stoFlush n).stoSettle n
      else noted := by
  unfold Dev.pduC2hData
  rw [Dev.onPdu_good found active goes there good]
  simp only [cmd, gt_iff_lt]
  rw [if_neg (by simp [more, runs]), if_neg (Nat.not_lt.2 inside), if_neg (Nat.not_lt.2 whole)]

end Command

end Pdu

/-- Settles O47: ring entries, segments, timers and PDUs, each by its operation. -/
theorem storageEvents : Obligations.StorageEvents := by
  unfold Obligations.StorageEvents
  refine fun s out => ⟨fun q f entry owner turn ready => ⟨fun desc => ?_, fun desc bad => ?_, fun desc good free => ?_,
      fun c good found => ⟨fun desc foreign => ?_, fun desc fn qp dead => ?_, fun fn qp live new => ⟨fun desc full => ?_, fun context =>
        ⟨fun desc dir => ?_, fun desc some_ dir unaligned => ?_, fun dir aligned there => ?_, fun bs dir aligned there =>
          ⟨fun ok soon quiet => ?_, fun bad => ?_⟩⟩⟩⟩⟩,
    fun id c n k h1 h2 h3 t e copy stage found tcp live there same => ⟨fun reset => ?_, fun calm whole => ?_⟩,
    fun n c found => ⟨fun live on idle some_ => ?_, fun t timer due live on => ⟨fun last => ?_, fun more => ?_⟩,
      fun t timer due live on => ?_, fun t timer due on => ?_, fun cmd t timer due => ?_,
      fun flags pdo plen active goes there whole => ⟨fun good sent => ?_, fun good => ?_, fun k good cmd more runs inside room => ?_,
        fun k good cmd more runs inside => ?_⟩⟩⟩
  · exact exec_leaves (fun d => d.stoCmdFetch q none desc) out rfl (Dev.stoCmdFetch_lost owner turn ready)
  · exact exec_leaves (fun d => d.stoCmdFetch q (some entry) desc) out rfl (Dev.stoCmdFetch_badEntry owner turn ready bad)
  · exact exec_leaves (fun d => d.stoCmdFetch q (some entry) desc) out rfl (Dev.stoCmdFetch_noConn owner turn ready good free)
  · exact exec_leaves (fun d => d.stoCmdFetch q (some entry) desc) out rfl (Dev.stoCmdFetch_foreign owner turn ready good found foreign)
  · exact exec_leaves (fun d => d.stoCmdFetch q (some entry) desc) out rfl (Dev.stoCmdFetch_dead owner turn ready good found fn qp dead)
  · exact exec_leaves (fun d => d.stoCmdFetch q (some entry) desc) out rfl
      (Dev.stoCmdFetch_full owner turn ready good found fn qp live new full)
  · exact exec_leaves (fun d => d.stoCmdFetch q (some entry) desc) out rfl
      (Dev.stoCmdFetch_plain owner turn ready good found fn qp live new context dir)
  · obtain ⟨bs, rfl⟩ := Option.ne_none_iff_exists'.1 some_
    exact exec_leaves (fun d => d.stoCmdFetch q (some entry) (some bs)) out rfl
      (Dev.stoCmdFetch_unaligned owner turn ready good found fn qp live new context dir unaligned)
  · exact exec_leaves (fun d => d.stoCmdFetch q (some entry) none) out rfl
      (Dev.stoCmdFetch_noDesc owner turn ready good found fn qp live new context dir aligned there)
  · exact exec_leaves (fun d => d.stoCmdFetch q (some entry) (some bs)) out rfl
      (Dev.stoCmdFetch_data owner turn ready good found fn qp live new context dir aligned there ok soon quiet)
  · exact exec_leaves (fun d => d.stoCmdFetch q (some entry) (some bs)) out rfl
      (Dev.stoCmdFetch_badDesc owner turn ready good found fn qp live new context dir aligned there bad)
  · exact exec_leaves (fun d => d.stoSegmentRx id) out rfl
      ((Dev.stoSegmentRx_live copy stage found tcp live there same).trans (if_pos (by simpa using reset)))
  · exact exec_leaves (fun d => d.stoSegmentRx id) out rfl
      ((Dev.stoSegmentRx_live copy stage found tcp live there same).trans (if_neg (by simp [calm, whole])))
  · exact exec_leaves (fun d => d.stoSegmentTx n) out rfl (Dev.stoSegmentTx_ready found live on idle some_)
  · exact exec_leaves (fun d => d.stoRtoExpiry n) out rfl ((Dev.stoRtoExpiry_due found timer due live on).trans (if_pos last))
  · exact exec_leaves (fun d => d.stoRtoExpiry n) out rfl
      ((Dev.stoRtoExpiry_due found timer due live on).trans (if_neg (Nat.not_le.2 more)))
  · exact exec_leaves (fun d => d.stoAckTimer n) out rfl (Dev.stoAckTimer_due found timer due live on)
  · exact exec_leaves (fun d => d.stoBufferRetry n) out rfl (Dev.stoBufferRetry_due found timer due on)
  · exact exec_leaves (fun d => d.stoReturnTimeout n) out rfl (Dev.stoReturnTimeout_due found timer due)
  · exact exec_leaves (fun d => d.pduCapsuleResp n) out rfl (Dev.pduCapsuleResp_good found active goes there whole good sent)
  · exact exec_leaves (fun d => d.pduC2hTermReq n) out rfl (Dev.pduC2hTermReq_good found active goes there whole good)
  · exact exec_leaves (fun d => d.pduR2t n) out rfl (Dev.pduR2t_good found active goes there whole cmd more runs good inside room)
  · exact exec_leaves (fun d => d.pduC2hData n) out rfl (Dev.pduC2hData_good found active goes there whole cmd more runs good inside)

end Sys2Proof.Machine
end

section
/-!
The checks that a command meets before its own (R338 to R342, R430).
-/
namespace Sys2Proof.Machine

open Sys2Proof.Safety

variable {d : Dev} {c : Cmd} {i : Instr}

/-! ## The rows of commands -/

/-- The row is that of a command which it serves. -/
def RunsCommand (i : Instr) (c : Cmd) : Prop :=
  ∃ ops body, ops c.opcode = true ∧ ∀ s, exec i s = s.on fun d => d.vucel ops c body

/-- A row of one opcode runs a command of that opcode. -/
theorem RunsCommand.of_vucel1 {op : Nat} {c' : Cmd} (body : Nat → Accepted → Bytes → Dev → Dev) (named : some (op, c') = some (c.opcode, c))
    (row : ∀ s, exec i s = s.on fun d => d.vucel1 op c' body) : RunsCommand i c := by
  obtain ⟨opcode, rfl⟩ := Prod.mk.inj (Option.some.inj named)
  exact ⟨(· == op), body, beq_iff_eq.2 opcode.symm, row⟩

theorem runsCommand_nop (served : (c.opcode == 0x0100 || (opInfo c.opcode).isNone) = true) : RunsCommand (.nop c) c :=
  ⟨fun op => op == 0x0100 || (opInfo op).isNone, _, served, fun _ => rfl⟩

theorem runsCommand_commandOf (named : commandOf i = some (c.opcode, c)) : RunsCommand i c := by
  unfold commandOf at named
  split at named
  case h_1 c' =>
    obtain ⟨opcode, rfl⟩ := Prod.mk.inj (Option.some.inj named)
    exact runsCommand_nop (by rw [← opcode]; rfl)
  case h_81 => cases named
  all_goals exact .of_vucel1 _ named fun _ => rfl

/-! ## A command up to its own checks -/

section Run
variable {ops : Nat → Bool} {body : Nat → Accepted → Bytes → Dev → Dev}

/-- A command that is accepted or waits for its turn, on a row that serves it, is worked on. -/
theorem Dev.runVucel_gate (served : ops c.opcode = true) (taken : (d.accepts c || (d.runs && d.waitsTurn c)) = true) :
    (!ops c.opcode || !(d.accepts c || (d.runs && d.waitsTurn c))) = false := by
  rw [served, taken]
  rfl

theorem Dev.runVucel_waits (served : ops c.opcode = true) (taken : (d.accepts c || (d.runs && d.waitsTurn c)) = true) {x : Dev}
    (reached : d.reachCmd c = (.waits, x)) : d.runVucel ops c body = x := by
  simp only [Dev.runVucel, Dev.runVucel_gate served taken, reached, Bool.false_eq_true, if_false]

theorem Dev.runVucel_denied (served : ops c.opcode = true) (taken : (d.accepts c || (d.runs && d.waitsTurn c)) = true) {x : Dev}
    (reached : d.reachCmd c = (.denied, x)) : d.runVucel ops c body = x.denyCmd c := by
  simp only [Dev.runVucel, Dev.runVucel_gate served taken, reached, Bool.false_eq_true, if_false]

theorem Dev.denyCmd_header (denied : ((pagesOf (d.cmdRanges c).1).any fun p => !d.translated c.issuer (4096 * p)) = true) :
    d.denyCmd c = d.adminFail c.issuer c := if_pos denied

theorem Dev.denyCmd_params (there : ((pagesOf (d.cmdRanges c).1).any fun p => !d.translated c.issuer (4096 * p)) = false) {n : Nat}
    {a : Accepted} {e : Dev} (accepted : d.accept c = some (n, a, e)) :
    d.denyCmd c = (e.hostError c.issuer).reply n .hostErr := by
  simp only [Dev.denyCmd, there, accepted, Bool.false_eq_true, if_false]

section Ready
variable {n : Nat} {a : Accepted} {e : Dev}

theorem Dev.runVucel_noTurn (served : ops c.opcode = true) (taken : (d.accepts c || (d.runs && d.waitsTurn c)) = true)
    (reached : (d.reachCmd c).1 = .ready) (accepted : d.accept c = some (n, a, e)) (turn : e.hasTurn n a = false) :
    d.runVucel ops c body = e := by
  obtain ⟨x, reached⟩ : ∃ x, d.reachCmd c = (.ready, x) := ⟨_, Prod.ext reached rfl⟩
  simp only [Dev.runVucel, Dev.runVucel_gate served taken, reached, accepted, turn, Bool.false_eq_true, Bool.not_false, if_false,
    if_true]

/-- A command whose turn has come is checked, as one that has started. -/
theorem Dev.runVucel_refused (served : ops c.opcode = true) (taken : (d.accepts c || (d.runs && d.waitsTurn c)) = true)
    (reached : (d.reachCmd c).1 = .ready) (accepted : d.accept c = some (n, a, e)) (turn : e.hasTurn n a = true) {e' : Dev}
    (started : e.updCmd n (fun x => { x with started := true }) = e') {st : Status} (refused : e'.vclCheck c = .error st) :
    d.runVucel ops c body = (if st = .hostErr then e'.hostError a.cmd.issuer else e').reply n st := by
  obtain ⟨x, reached⟩ : ∃ x, d.reachCmd c = (.ready, x) := ⟨_, Prod.ext reached rfl⟩
  simp only [Dev.runVucel, Dev.runVucel_gate served taken, reached, accepted, turn, started, refused, Bool.false_eq_true,
    Bool.not_true, if_false]

theorem Dev.runVucel_recovery (served : ops c.opcode = true) (taken : (d.accepts c || (d.runs && d.waitsTurn c)) = true)
    (reached : (d.reachCmd c).1 = .ready) (accepted : d.accept c = some (n, a, e)) (turn : e.hasTurn n a = true) {e' : Dev}
    (started : e.updCmd n (fun x => { x with started := true }) = e') {p : Bytes} (passed : e'.vclCheck c = .ok p)
    (recovery : e'.on? Fld.SEC_STAT_RECOVERY = true) (rom : romServes c = false) :
    d.runVucel ops c body = e'.reply n .badState := by
  obtain ⟨x, reached⟩ : ∃ x, d.reachCmd c = (.ready, x) := ⟨_, Prod.ext reached rfl⟩
  simp only [Dev.runVucel, Dev.runVucel_gate served taken, reached, accepted, turn, started, passed, recovery, rom,
    Bool.false_eq_true, Bool.not_true, Bool.not_false, Bool.and_self, if_false, if_true]

end Ready

end Run

/-- What is left of a command once the control cluster's island has followed it in STANDBY. -/
theorem Dev.vucel_eq {ops : Nat → Bool} {body : Nat → Accepted → Bytes → Dev → Dev} {x : Dev} (run : d.runVucel ops c body = x) :
    d.vucel ops c body = if d.pwrState = 3 then x.controlFollows else x := by
  rw [Dev.vucel, run]

/-- Settles O56: the row of a command works it off by `Dev.runVucel`, whose branches before the command's own part are the
statement's clauses. -/
theorem commandChecks : Obligations.CommandChecks := by
  unfold Obligations.CommandChecks
  intro s i c row out taken
  obtain ⟨ops, body, served, runs⟩ : RunsCommand i c := by
    rcases row with named | ⟨rfl, unknown⟩
    · exact runsCommand_commandOf named
    · exact runsCommand_nop (by rw [unknown]; exact Bool.or_true _)
  have leaves : ∀ x, s.toDev.runVucel ops c body = x →
      exec i s = .next (withDev s (if s.toDev.pwrState = 3 then x.controlFollows else x)) :=
    fun x run => exec_leaves (fun d => d.vucel ops c body) out (runs s) (Dev.vucel_eq run)
  refine ⟨fun x waits => leaves x (Dev.runVucel_waits served taken waits), fun x denied => ⟨fun header => leaves _ ?_,
    fun n a e there accepted => leaves _ ?_⟩, fun n a e reached accepted => ⟨fun turn => leaves _ ?_, fun turn => ⟨fun st refused =>
    leaves _ ?_, fun p passed recovery rom => leaves _ ?_⟩⟩⟩
  · exact (Dev.runVucel_denied served taken denied).trans (Dev.denyCmd_header header)
  · exact (Dev.runVucel_denied served taken denied).trans (Dev.denyCmd_params there accepted)
  · exact Dev.runVucel_noTurn served taken reached accepted turn
  · exact Dev.runVucel_refused served taken reached accepted turn rfl refused
  · exact Dev.runVucel_recovery served taken reached accepted turn rfl passed recovery rom

end Sys2Proof.Machine
end
